-- ==== Sys2Proof/Word.lean ====
section
/-! DEFINITION. The word types of the model and the shape of its sparse tables. -/

namespace Sys2Proof

/-- One byte of a frame, a key or a memory. -/
abbrev Byte := BitVec 8

/-- A byte string, first byte first. -/
abbrev Bytes := List Byte

/-- A diagnostic register (00_scope: registers are 32 bits wide). -/
abbrev Word := BitVec 32

/-- A sparse table: entries by ascending number. -/
abbrev Tab (α : Type) := List (Nat × α)

end Sys2Proof
end

