-- ==== Sys2Proof/Syntax.lean ====
section
/-! DEFINITION. The commands the block takes: one constructor of `Instr` per row of the table of
operations and events, with the types of their operands. A row whose step acts on an accepted WCP
command carries that command's acceptance number; a row that is a register write carries the master
(R14) and the value written; a row that is an event of a unit names the unit. -/

namespace Sys2Proof

/-- The two halls (R11). -/
inductive Hall where
  | inner | outer
  deriving DecidableEq, Repr

/-- Fault classes (R483), least severe first. -/
inductive FClass where
  | note | recover | degrade | safe | erase
  deriving DecidableEq, Repr

/-- An address of a datagram: the fields of R44 that select an alcove. -/
structure NetAddr where
  mac  : Nat
  vlan : Nat
  v6   : Bool
  ip   : Nat
  udp  : Nat
  deriving DecidableEq, Repr

/-- The WCP header of R46, field by field. -/
structure WcpHeader where
  version  : Nat
  type     : Nat
  flags    : Nat
  alcove   : Nat
  session  : Nat
  queue    : Nat
  pktNum   : Nat
  seq      : Nat
  declLen  : Nat
  segOff   : Nat
  opStatus : Nat
  ack      : Nat
  deriving DecidableEq, Repr

/-- What a frame carries around its datagram (R35): the TPIDs of its 802.1Q tags, IPv4 options or IPv6 extension headers,
whether it is a fragment, and whether its UDP checksum is right (`none`: it is zero). -/
structure Shape where
  tags     : List Nat := []
  options  : Bool := false
  fragment : Bool := false
  sumOk    : Option Bool := some true
  deriving DecidableEq, Repr

/-- A WCP datagram as a sub-link receives it. `sublink` is 0 to 3 for A0 to A3 and 4 to 7 for B0 to
B3; `prio` its 802.1Q priority; `data` the payload before protection; `tag` the GCM tag it carries
(empty on an unprotected type). `held` is how many bytes its priority's receive region holds when it has come
in (R166): how fast a region fills and empties is timing. -/
structure Datagram where
  sublink : Nat
  prio    : Nat
  held    : Nat
  addr    : NetAddr
  hdr     : WcpHeader
  data    : Bytes
  tag     : Bytes
  shape   : Shape := {}
  deriving DecidableEq, Repr

/-- Why a frame is outside what the device serves (R35, R44, R49). -/
inductive FrameKind where
  | unsupported | noAlcove | tcp | badWcp
  deriving DecidableEq, Repr

/-- What carries a PTP message (R38). -/
inductive PtpTransport where
  | udp4 | udp6 | layer2
  deriving DecidableEq, Repr

/-- A message of the two-step exchange that reaches an ordinary clock in slave-only mode (R38, IEEE 1588-2019), with its
sequence number: `Sync`, `Follow_Up` with the time at which the `Sync` left the master, `Delay_Resp` with the time at
which the `Delay_Req` reached it, and `Announce` with its `currentUtcOffset`. -/
inductive PtpKind where
  | sync (seq : Nat)
  | followUp (seq t1 : Nat)
  | delayResp (seq t4 : Nat)
  | announce (utcOffset : Int)
  deriving DecidableEq, Repr

/-- A PTP message: the port it came in on, its domain and transport, and what it is. -/
structure PtpInfo where
  port      : Nat
  domain    : Nat
  transport : PtpTransport
  kind      : PtpKind
  deriving DecidableEq, Repr

/-- Alarm flags of a module (R41). -/
inductive ModuleFlag where
  | temperature | voltage | opticalPower
  deriving DecidableEq, Repr

/-- RoCEv2 negative acknowledgements (R85, R86). -/
inductive NakKind where
  | nak | rnr
  deriving DecidableEq, Repr

/-- A kind of unit as `UNIT_OUT` numbers it (R535). -/
inductive UnitKind where
  | cipherBay | pkBay | lane | legacy
  deriving DecidableEq, Repr

/-- A counter that persists by marks (R207, R209, R267, R276, R304). -/
inductive MarkRef where
  | invocation (slot face : Nat)
  | use (slot face : Nat)
  | proof
  | witness (domain : Nat)
  | epoch (alcove : Nat)
  deriving DecidableEq, Repr

/-- Access types of the fabric and of a fault capture (R413, R487). -/
inductive Access where
  | read | write | fetch
  deriving DecidableEq, Repr

/-- The address spaces a fabric transaction may target (R23, R25, R27, R31). -/
inductive Space where
  | logic | mezz | archive | regs
  deriving DecidableEq, Repr

/-- One transaction of the on-die fabric: its master (R14), where it goes, the privilege of a core, the
address of the instruction that issued it, which gives its enclave tag (R402), whether Ibvelet carries a mirrored key
mutation with it (R14), and up to 64 bytes (R408). -/
structure Txn where
  master : Nat
  space  : Space
  access : Access
  addr   : Nat
  len    : Nat
  data   : Bytes
  user   : Bool
  mirrored : Bool
  from_  : Nat
  deriving DecidableEq, Repr

/-- A request of the debug access port (R422, R423, R474). -/
inductive DebugReq where
  | access (space : Space) (write : Bool) (addr : Nat) (value : Nat)
  | halt (core : Nat)
  deriving DecidableEq, Repr

/-- One pulse of a fault line with what the block reports beside it (R485, R487). -/
structure Pulse where
  line   : Nat
  cls    : FClass
  type   : Nat
  addr   : Nat
  master : Nat
  deriving DecidableEq, Repr

/-- Causes of the collector's direct path (R495, `FC_SELF`). -/
inductive SelfCause where
  | parityCtrl | parityCapture | lockstep
  deriving DecidableEq, Repr

/-- The seven PLLs of `PC_STATUS.PLL_LOCK`, by bit (R655). -/
inductive Pll where
  | cclk | kclk | hclk | mclk | pclkA | pclkB | lclk
  deriving DecidableEq, Repr

/-- The faults of a start step (R525), with the unit or row concerned. -/
inductive StartFail where
  | timeout | fwInvalid | ucInvalid | cfgInvalid | unitTest (unit : Nat) | memRow (mem row : Nat)
  | twin | safe | puf | rngStart | aonFatal | noSpare | noSigner
  deriving DecidableEq, Repr

/-- What the silicon gives a start (R511): the work of a step that fails by itself, the SRAM-PUF response and
whether it passes the check of its helper data (R243), the level of the strap ball, whether the current snapshot
of the key archive can be read (R514), the journal records, by domain and number, whose tag fails (R204), whether the
`CHECK` of each copy of the continuity record holds (R665), and whether the four lanes of the twin link lock (R538). -/
structure StartEnv where
  fail    : Option (Nat × StartFail)
  puf     : Bytes
  pufOk   : Bool
  strap   : Nat
  archive : Bool
  torn    : List (Nat × Nat)
  checks  : Bool × Bool
  linkUp  : Bool
  deriving DecidableEq, Repr

/-- Ways the Ibvelet link is lost (R543, R585). -/
inductive LinkLoss where
  | timeout | lane | tag
  deriving DecidableEq, Repr

/-- The changes that a commit sequencer orders (R195), each with what its record carries. -/
inductive MutKind where
  | create | destroyFace | destroySecret | restrict | share | invMark | useMark | use | quota
  | alcoveReset | root | custodians | proofSecret | clientKeys | alcoveSettings | witnessMark
  | proofMark | epochMark | gapAck | instNumber | alcovesLoad | handleMap
  deriving DecidableEq, Repr

/-- A use class (R171), by its code. -/
inductive UseClass where
  | encrypt | decrypt | wrap | unwrap | derive | macGenerate | macVerify | sign | verify | agree
  | encapsulate | decapsulate | pinTranslate
  deriving DecidableEq, Repr

/-- The owning alcoves of a face (R172): every alcove of the domain, or a list. -/
inductive Owners where
  | all
  | list (l : List Nat)
  deriving DecidableEq, Repr

/-- A face and the attributes the device keeps for it (R172). -/
structure Face where
  cls       : UseClass
  payment   : Bool
  wrapped   : Bool
  quorum    : Bool
  owners    : Owners
  notBefore : Nat
  notAfter  : Nat
  limit     : Nat
  instance_ : Nat
  uses      : Nat
  useMark   : Nat
  nextInv   : Nat
  invMark   : Nat
  lineage   : Nat
  deriving DecidableEq, Repr

/-- A secret of the key store (R168 to R170): its domain, algorithm, material, faces and chain of
continuation slots; `granted` marks one installed by a grant (R575). -/
structure Secret where
  domain   : Nat
  algo     : Nat
  bits     : Nat
  granted  : Bool
  material : Bytes
  face0    : Option Face
  face1    : Option Face
  chain    : List Nat
  deriving DecidableEq, Repr

/-- A custodian record (R215). -/
structure Custodian where
  index   : Nat
  signKey : Bytes
  x25519  : Bytes
  ek      : Bytes
  deriving DecidableEq, Repr

/-- The settings of an alcove (R42, R521). -/
structure AlcoveSettings where
  alcove     : Nat
  domain     : Nat
  mac        : Nat
  vlan       : Nat
  udp        : Nat
  ipv4       : Option Nat
  ipv6a      : Option Nat
  ipv6b      : Option Nat
  assemblyUs : Nat
  modUs      : Nat
  idleS      : Nat
  modCount   : Nat
  retention  : Nat
  share      : Nat
  poolShare  : Nat
  deriving DecidableEq, Repr

/-- The body of a mutation: what it changes once its sequencer commits it (R195, R199). A record of a mark names its
counter; `instNext` is the next number of the allocator (R205); `alcovesLoad` the alcoves of a section 2 that takes the
place of earlier `ALCOVE_*` commands (R532); `mapped` an entry of an alcove's handle map (R580). -/
inductive MutBody where
  | create (sec : Secret) (n : Nat)
  | destroyFace (slot face : Nat)
  | destroySecret (slot : Nat)
  | restrict (slot face : Nat) (wrapped : Option Bool) (owners : Option Owners)
      (nb na limit : Option Nat)
  | share (slot face : Nat) (owners : Owners)
  | use (slot face : Nat)
  | quota (slots : Nat) (rates : List Nat)
  | alcoveReset (alcove : Nat)
  | root (value : Bytes) (set : List Custodian) (threshold window epoch : Nat)
  | custodians (set : List Custodian) (threshold window epoch : Nat)
  | proofSecret (alcove : Nat) (value : Bytes)
  | clientKeys (alcove : Nat) (adds removes : List Bytes)
  | grant (slot check : Nat) (sec : Secret)
  | revoke (slot face : Nat)
  | alcoveSet (set : AlcoveSettings) (stewards : List Bytes) (new : Bool)
  | alcoveRemove (alcove : Nat)
  | gapAck (gap : Nat)
  | mark (r : MarkRef)
  | instNext (next : Nat)
  | alcovesLoad (alcoves : List Nat)
  | mapped (alcove old new : Nat)
  deriving DecidableEq, Repr

/-- A journal record as the twin receives it (R199, R553). -/
structure JournalRec where
  seq    : Nat
  domain : Nat
  kind   : MutKind
  side   : Nat
  origin : Option (Nat × Nat × Nat)
  body   : MutBody
  deriving DecidableEq, Repr

/-- A mirrored session record (R553). -/
structure SessionMirror where
  alcove  : Nat
  session : Nat
  key     : Bytes
  c2dKey  : Bytes
  d2cKey  : Bytes
  c2dSalt : Bytes
  d2cSalt : Bytes
  deriving DecidableEq, Repr

/-- A packet or sequence mark of a mirrored session (R553). -/
inductive MirrorMark where
  | device (m : Nat)
  | client (m : Nat)
  | seq (k : Nat)
  deriving DecidableEq, Repr

/-- An acceptance record of a partner command (R553, R554). -/
structure AcceptMirror where
  alcove   : Nat
  session  : Nat
  seq      : Nat
  queue    : Nat
  opcode   : Nat
  payload  : Option Bytes
  accepted : Nat
  quorum   : Bool
  event    : Bool
  deriving DecidableEq, Repr

/-- An Ibvelet frame (R539), its payload before protection and its GCM tag. -/
structure IbFrame where
  channel : Nat
  kind    : Nat
  len     : Nat
  seq     : Nat
  msgNum  : Nat
  msgOff  : Nat
  msgLen  : Nat
  last    : Bool
  payload : Bytes
  credits : List Nat
  ackSeq  : Nat
  tag     : Bytes
  deriving DecidableEq, Repr

/-- What a partner's half of the link handshake brings (R544): nonce, X25519 value, encapsulation key or ciphertext,
the key of its alcove-0 certificate, its statement, and its chain: the alcove-0 certificate, the alias certificates of
landings 4 to 1 and the identity certificate. -/
structure IbPeer where
  nonce     : Bytes
  x25519    : Bytes
  kem       : Bytes
  alcoveKey : Bytes
  statement : Bytes
  chain     : List Bytes
  deriving DecidableEq, Repr

/-- What the partner brings to a join (R557): its pair epoch, the serial of its configuration image and the digests
of that image's sections 2, 3 and 6, its highest commit number for each domain, the records that this side may lack,
and whether its archive opened. -/
structure JoinInfo where
  epoch   : Nat
  serial  : Nat
  digests : List Bytes
  commits : List (Nat × Nat)
  records : List JournalRec
  opened  : Bool
  deriving DecidableEq, Repr

/-- A process slice as an alcove record carries it (R553). -/
structure SliceRec where
  pid       : Nat
  handle    : Nat
  mech      : Nat
  frameRate : Nat
  byteRate  : Nat
  qp        : Option Nat
  region    : Option (Nat × Nat × Nat)
  immediate : Bool
  logging   : Bool
  suspended : Bool
  words     : Nat
  deriving DecidableEq, Repr

/-- An alcove record (R553): settings, generation, slices with their host regions, and queue pair numbers. -/
structure AlcoveRecord where
  set    : AlcoveSettings
  gen    : Nat
  slices : List SliceRec
  qps    : List Nat
  deriving DecidableEq, Repr

/-- What a copy of the key store holds of a domain (R557). -/
structure DomainRec where
  domain    : Nat
  set       : List Custodian
  threshold : Nat
  window    : Nat
  epoch     : Nat
  root      : Option Bytes
  quota     : Nat
  seqNo     : Nat
  deriving DecidableEq, Repr

/-- The exact state of a session at the stop point of a planned move (R569): the role by its code, the done
entries of the window with status, declared length and queue. -/
structure MovedSession where
  session : Nat
  role    : Nat
  key     : Bytes
  c2dKey  : Bytes
  d2cKey  : Bytes
  c2dSalt : Bytes
  d2cSalt : Bytes
  highest : Nat
  bitmap  : BitVec 1024
  nextPkt : Nat
  ackVal  : Nat
  base    : Nat
  done    : List (Nat × Nat × Nat × Nat)
  deriving DecidableEq, Repr

/-- A copy of the key store and the alcove records (R557): the secrets with the counters of the sending side, the check
values, the free slots in the order in which they were freed and the retired ones, the next face instance number, the
uses and invocation marks of the receiving side by face (`2 * slot + face`; R206, R555), the domains and the alcoves. -/
structure BulkState where
  secrets : Tab Secret
  checks  : Tab Nat
  freed   : List Nat
  retired : List Nat
  instNext : Nat
  uses    : Tab Nat
  invs    : Tab Nat
  domains : List DomainRec
  alcoves : List AlcoveRecord
  deriving DecidableEq, Repr

/-- A message of a session that this device opened as client (R560, R570). -/
structure ClientMsg where
  session : Nat
  ok      : Bool
  status  : Nat
  payload : Bytes
  deriving DecidableEq, Repr

/-- The faults of the Tally (R608, R609). -/
inductive TallyErr where
  | pathParity | accParity | watchdog | sourceFatal
  deriving DecidableEq, Repr

/-- The change a drain holds back (R397). -/
inductive DrainRef where
  | wmLogic | wmMezz | block (n : Nat)
  deriving DecidableEq, Repr

/-- The commands of the block, one per row of the table of operations and events, in its order. -/
inductive Instr where
  -- the network face
  | commandSegment (d : Datagram)
  | assemblyTimerExpiry (alcove session seq : Nat)
  | stream (d : Datagram)
  | ack (d : Datagram)
  | hello (d : Datagram)
  | finish (d : Datagram)
  | halfOpenTimeout (alcove session : Nat)
  | close (d : Datagram)
  | sessionIdleTimeout (alcove session : Nat)
  | completionHandover (c : Nat)
  | eventModerationExpiry (alcove : Nat)
  | pfcPauseReceived (port prio time : Nat)
  | arpNdRequest (sublink : Nat) (v6 : Bool) (ip : Nat)
  | icmpEcho (sublink : Nat) (v6 : Bool) (ip : Nat)
  | unsupportedFrame (sublink : Nat) (k : FrameKind)
  | ptpMessage (m : PtpInfo)
  | ppsInEdge
  | ppsOutSecond
  | moduleAlarm (port : Nat) (flag : ModuleFlag := .temperature)
  | modulePresenceChange (port : Nat) (present : Bool)
  | roceAck (qp psn : Nat)
  | roceNak (qp : Nat) (k : NakKind)
  | cnpReceived (qp : Nat)
  | rateIncreaseTick (qp : Nat)
  | qpAckTimeout (qp : Nat)
  | roceRequestDropped (qp : Nat)
  | streamResultReady (op : Nat)
  | alcoveResetDone (alcove : Nat)
  -- the opcodes of the catalogue, on the accepted command numbered w
  | info (w : Nat)
  | faceQuery (w : Nat)
  | timeQuery (w : Nat)
  | encrypt (w : Nat)
  | decrypt (w : Nat)
  | macGenerate (w : Nat)
  | macVerify (w : Nat)
  | digest (w : Nat)
  | contextOpen (w : Nat)
  | contextUpdate (w : Nat)
  | contextFinal (w : Nat)
  | contextSave (w : Nat)
  | contextRestore (w : Nat)
  | contextClose (w : Nat)
  | sign (w : Nat)
  | verify (w : Nat)
  | agree (w : Nat)
  | encapsulate (w : Nat)
  | decapsulate (w : Nat)
  | pkEncrypt (w : Nat)
  | pkDecrypt (w : Nat)
  | random (w : Nat)
  | keyGenerate (w : Nat)
  | pairGenerate (w : Nat)
  | keyDerive (w : Nat)
  | keyWrap (w : Nat)
  | keyUnwrap (w : Nat)
  | faceDestroy (w : Nat)
  | keyDestroy (w : Nat)
  | faceRestrict (w : Nat)
  | faceShare (w : Nat)
  | publicExport (w : Nat)
  | pinTranslate (w : Nat)
  | keyblockExport (w : Nat)
  | keyblockImport (w : Nat)
  | sliceCreate (w : Nat)
  | sliceModify (w : Nat)
  | sliceRemove (w : Nat)
  | qpConnect (w : Nat)
  | qpReset (w : Nat)
  | dirtyEnable (w : Nat)
  | dirtyReadClear (w : Nat)
  | eventSessionSet (w : Nat)
  | alcoveReset (w : Nat)
  | countersRead (w : Nat)
  | clientKeySet (w : Nat)
  | quorumPrepare (w : Nat)
  | rootCreate (w : Nat)
  | rootRestore (w : Nat)
  | sharesExport (w : Nat)
  | quotaSet (w : Nat)
  | custodiansSet (w : Nat)
  | certsGet (w : Nat)
  | proveChallenge (w : Nat)
  | proveSetSecret (w : Nat)
  | statement (w : Nat)
  | ledgerRead (w : Nat)
  | witness (w : Nat)
  | alcoveCreate (w : Nat)
  | alcoveConfigure (w : Nat)
  | alcoveRemove (w : Nat)
  | sectionLoad (w : Nat)
  | lifeCycleSet (w : Nat) (badBits : List (Nat × Nat))
  | debugEnable (w : Nat)
  | unitOut (w : Nat)
  | unitOutDone (k : UnitKind) (index : Nat)
  | unitReturn (w : Nat)
  | firmwareUpdate (w : Nat)
  | archiveSnapshot (w : Nat)
  | tallyRecordRead (w : Nat)
  | tallyCut (w : Nat)
  | tallyLogRead (w : Nat)
  | tallyIdentity (w : Nat)
  | tallyReseal (w : Nat) (badBits : Nat)
  | gapAck (w : Nat)
  | regRead (w : Nat)
  | regWrite (w : Nat)
  | twinPair (w : Nat)
  | twinUnpair (w : Nat)
  | twinSolo (w : Nat)
  | receiveKey (w : Nat)
  | join (w : Nat)
  | instanceBlock (w : Nat)
  | grantKey (w : Nat)
  | grant (w : Nat)
  | revoke (w : Nat)
  | migrateOutBegin (w : Nat)
  | migrateOutNext (w : Nat)
  | migrateOutStop (w : Nat)
  | migrateOutDone (w : Nat)
  | migrateInPrepare (w : Nat)
  | migrateInPages (w : Nat)
  | migrateInFinal (w : Nat)
  | migrateAbort (w : Nat)
  -- the key store, admission and the engines
  | mutationCommit (domain : Nat)
  | invocationMarkCommit (r : MarkRef)
  | snapshotComplete
  | archiveRefreshDue (block : Nat) (hottest coolest : BitVec 16 := 0)
  | grantExpiry (slot : Nat)
  | admissionEpoch
  | cipherOpDone (op : Nat)
  | hashOpDone (op : Nat) (copiesAgree : Bool)
  | legacyOpDone (op : Nat)
  | pkYieldPoint (bay core : Nat) (same : List Nat)
  | pkParkMoveDone (bay core : Nat)
  | pkJobEnd (bay core : Nat) (checkOk : Bool)
  | pkZeroiseDone (bay core : Nat) (clean : Bool)
  | pkCoreSelfReturn (bay core : Nat) (pass : Bool)
  | unitBistDone (k : UnitKind) (index sub : Nat) (bistPass katPass : Bool)
  | stairClimb (master landing : Nat) (meas signer : Bytes) (svn : Nat)
  | stairLineageRequest (master : Nat) (v : List Nat)
  -- random numbers
  | bankBlockEnd (low high : List (BitVec 1024)) (condAgree : Bool)
  | sporeDelivery
  | drbgGenerate (inst : Nat)
  | smallSourceBlockEnd (tally : Bool) (bank : Nat) (block : BitVec 1024)
  -- the digest unit
  | duLenLoWrite (master : Nat) (value : Word)
  | duDataWrite (master : Nat) (value : Word)
  | duLastWrite (master : Nat) (value : Word)
  | duAbort (master : Nat) (word : Option Word := none)
  | duBlockCompressed
  | duFinalDone (pair : Option (Nat × Nat) := none)
  | duExpectWrite (master n : Nat) (value : Word) (pair : Option (Nat × Nat) := none)
  -- registers with an action, and error sources
  | cbBistStart (master bay : Nat)
  | cbErrForce (master bay : Nat) (value : Word)
  | cbErrFire (bay source : Nat)
  | cwCtxForce (master : Nat) (value : Word)
  | cwCtxErrFire (source : Nat) (ctx : Option Nat)
  | cwLegacyBistStart (master : Nat)
  | cwLegacyForce (master : Nat) (value : Word)
  | cwLegacyErrFire (source : Nat)
  | pkBistStart (master bay core : Nat)
  | pkErrForce (master bay core : Nat) (value : Word)
  | pkErrFire (bay core source : Nat)
  | pkOmAddrWrite (master bay core : Nat) (value : Word)
  | pkOmData3Write (master bay core : Nat) (value : Word)
  | pwParkForce (master : Nat) (value : Word)
  | pwParkErrFire (source slot : Nat)
  | duErrForce (master : Nat) (value : Word)
  | duParityFire
  | rngErrForce (master : Nat) (value : Word)
  | rngErrFire (source inst : Nat)
  -- halls and protection
  | hcWmLogicWrite (master : Nat) (value : Word)
  | hcWmMezzWrite (master : Nat) (value : Word)
  | wmMoveCommit (mezz : Bool)
  | drainTimeout (r : DrainRef)
  | handoverReleaseInner (master block : Nat)
  | handoverReleaseOuter (master block : Nat)
  | handoverClaim (master block : Nat)
  | handoverDrainEnd (block : Nat)
  | handoverResetEnd (block : Nat)
  | handoverClaimCommit (block : Nat)
  | hcEncLock (master : Nat) (value : Word)
  | hcErrForce (master : Nat) (value : Word)
  | mpuSwap (master core : Nat)
  | mpuSwapDrainEnd (core : Nat)
  | mpuFaultRelease (master core : Nat)
  | fabricTransaction (t : Txn)
  | pcGateClock (master block : Nat)
  | pcGatePower (master block : Nat)
  | pcRestore (master block : Nat)
  | pcErrForce (master : Nat) (value : Word)
  | debugAccess (r : DebugReq)
  -- tamper
  | lichenTraceFail (layer : Nat)
  | lightAlarm
  | softMonitorEvent (monitor inst : Nat)
  | cellTempSample (outOfRange : Bool)
  | eraseComplete (badBits : Nat)
  | bbCheckRewriteDone
  | tampApply (master : Nat)
  | tampBistStart (master : Nat) (value : Word)
  | tampBistEnd (reported : Bool)
  | tampTestInterval
  | tampErrForce (master : Nat) (value : Word)
  | tampAlarmForce (master : Nat) (value : Word)
  | cellLow (mv : Nat)
  -- life cycle, debug and the test access port
  | lcDebugWrite (master : Nat) (value : Word)
  | debugExpiry
  | lcErrForce (master : Nat) (value : Word)
  | authChallenge
  | authSubmit (auth : Bytes) (badBits : List (Nat × Nat))
  | authStatus
  | persoKeys
  | persoCert (items : Bytes)
  | dap
  | idcode
  | samplePreload (bits : Nat)
  | extest
  | clamp
  | highz
  | bypass
  | trstNLow
  -- the fault collector and the event distributor
  | faultPulse (ps : List Pulse)
  | fcStatusClear (master : Nat) (hi : Bool) (value : Word) (ps : List Pulse := [])
  | fcCaptureRelease (master : Nat)
  | fcForce (master : Nat) (hi lo : Word)
  | fcCtrlWrite (master : Nat) (value : Word)
  | handleLimitExpiry
  | collectorSelfFault (c : SelfCause)
  | safeRestartExpiry
  | edSrcWrite (master n : Nat) (value : Word)
  | edAck (master n : Nat) (event : Bool := false)
  | doorbellSet (master n : Nat)
  | edErrForce (master : Nat) (value : Word)
  -- power, reset and start
  | pllPortUnlock (p : Pll)
  | pllRelock (p : Pll)
  | pllCoreUnlock (p : Pll)
  | railFall
  | railRise (mv : Nat)
  | vinLow (mv : Nat)
  | resetNLow (ns : Nat)
  | selfReset
  | start (e : StartEnv)
  | startStepLimit (step : Nat)
  | service600s
  -- the twin
  | ibveletFrame (f : IbFrame)
  | ibRetransmitRequest (seq : Nat)
  | ibHeartbeatDue
  | ibLinkLost (l : LinkLoss)
  | ibLinkHandshake (p : IbPeer)
  | ibErrForce (master : Nat) (value : Word)
  | journalRecordMirror (r : JournalRec)
  | forwardedMutation (r : JournalRec) (epoch : Nat)
  | sessionRecord (r : SessionMirror)
  | packetMark (alcove session : Nat) (m : MirrorMark)
  | acceptanceRecord (r : AcceptMirror)
  | alcoveRecord (r : AlcoveRecord)
  | sectionLoadForward (head : Bytes) (bodies : List (Nat × Bytes))
  | serviceStateNotice (service : Nat)
  | bulkCopy (b : BulkState)
  | twinJoin (j : JoinInfo)
  | twinLinkWaitExpiry
  | twinKeepaliveDue
  | presenceQueryDue
  | presenceCheckEnd
  | takeover
  | announcementDue
  | failbackExpiry
  | plannedMove (alcove : Nat) (sessions : List MovedSession)
  | sequencerMove (domain : Nat)
  | galleryProbeDue
  | probeReply (payload : Bytes) (managerKey : Bytes)
  -- the Tally and the counters
  | tallySeedDelivery (seed : Bytes)
  | tallyAccumulate
  | tallyRecordDue
  | tallyTimePath (disciplined : Bool)
  | tallyPowerUp (clockLost : Bool) (elapsed : Nat)
  | tallyFault (e : TallyErr)
  | snapshotStrobe
  | prErrForce (master : Nat) (value : Word)
  -- register pairs, plain registers and what remains
  | regPairLoRead (master addr : Nat)
  | regPairHiWrite (master addr : Nat) (value : Word)
  | registerWrite (master addr : Nat) (value : Word) (sets : Nat := 0)
  | portLinkDown (sublink : Nat)
  | portLinkUp (sublink : Nat)
  | pfcPauseExpiry (port prio : Nat)
  | ticketExpiry (domain : Nat) (ticket : Bytes)
  | promiseDeadline (w : Nat)
  | timerEvent (n : Nat)
  | retentionLatchClear
  | cellLowClear
  | archiveJournalWrite (records : Nat)
  | replyReceived (m : ClientMsg)
  | readyReceived (m : ClientMsg)
  | completionReceived (m : ClientMsg)
  | ppsOutFall
  deriving DecidableEq, Repr

end Sys2Proof
end

