-- ==== Sys2Proof/Decode.lean ====
section
/-! DEFINITION. The command that a word spells. The table of operations and events gives no row any
bits: a command is not encoded in a word, so no word spells one. -/

namespace Sys2Proof

/-- The command spelled by `nbits` bits with value `w`: none, since no row of the table has bits. -/
def decodeTableWord (_nbits _w : Nat) : Option Instr := none

end Sys2Proof
end

