-- ==== Sys2Proof/Machine/Tab.lean ====
section
/-! DEFINITION. The operations on sparse tables: entries by ascending key, one entry a key. -/

namespace Sys2Proof.Machine

/-- The entry of a key. -/
def tget {α : Type} : Tab α → Nat → Option α
  | [], _ => none
  | (i, a) :: r, k => if i = k then some a else tget r k

/-- The entry of a key, or a default. -/
def tgetD {α : Type} (t : Tab α) (k : Nat) (d : α) : α := (tget t k).getD d

/-- Whether a key has an entry. -/
def thas {α : Type} (t : Tab α) (k : Nat) : Bool := (tget t k).isSome

/-- Put an entry, keeping the keys ascending. -/
def tput {α : Type} : Tab α → Nat → α → Tab α
  | [], k, v => [(k, v)]
  | (i, a) :: r, k, v =>
    if k < i then (k, v) :: (i, a) :: r
    else if k = i then (k, v) :: r
    else (i, a) :: tput r k v

/-- Remove an entry. -/
def tdel {α : Type} (t : Tab α) (k : Nat) : Tab α := t.filter (fun e => e.1 != k)

/-- Change an entry that is there. -/
def tmod {α : Type} : Tab α → Nat → (α → α) → Tab α
  | [], _, _ => []
  | (i, a) :: r, k, f => if i = k then (i, f a) :: r else (i, a) :: tmod r k f

/-- Change every entry. -/
def tmap {α : Type} (t : Tab α) (f : Nat → α → α) : Tab α := t.map (fun e => (e.1, f e.1 e.2))

/-- Keep the entries that a test accepts. -/
def tfilter {α : Type} (t : Tab α) (p : Nat → α → Bool) : Tab α := t.filter (fun e => p e.1 e.2)

/-- The values of a table. -/
def tvals {α : Type} (t : Tab α) : List α := t.map (·.2)

/-- The keys of a table. -/
def tkeys {α : Type} (t : Tab α) : List Nat := t.map (·.1)

/-- How many entries a test accepts. -/
def tcount {α : Type} (t : Tab α) (p : Nat → α → Bool) : Nat := (tfilter t p).length

/-- A table of `n` entries made from their numbers. -/
def tinit {α : Type} (n : Nat) (f : Nat → α) : Tab α := (List.range n).map (fun i => (i, f i))

/-- The sum of a list of numbers. -/
def sumNat (l : List Nat) : Nat := l.foldl (· + ·) 0

/-- Whether a list has no repeated entry. -/
def noDup {α : Type} [BEq α] : List α → Bool
  | [] => true
  | a :: r => !r.contains a && noDup r

end Sys2Proof.Machine
end

