-- ==== Sys2Proof/Machine/Bytes.lean ====
section
/-! DEFINITION. Byte strings: big-endian fields (R3), slices, labels, checksums and bit fields. -/

namespace Sys2Proof.Machine

/-- A number as `n` bytes, big-endian (R3). -/
def be : Nat → Nat → Bytes
  | 0, _ => []
  | n + 1, v => be n (v / 256) ++ [BitVec.ofNat 8 v]

/-- A number as `n` bytes, little-endian. -/
def le (n v : Nat) : Bytes := (be n v).reverse

/-- The number that big-endian bytes spell. -/
def beNat (l : Bytes) : Nat := l.foldl (fun a b => a * 256 + b.toNat) 0

/-- `n` bytes from offset `o` (fewer at the end of the string). -/
def slice (l : Bytes) (o n : Nat) : Bytes := (l.drop o).take n

/-- The big-endian field of `n` bytes at offset `o`. -/
def fld (l : Bytes) (o n : Nat) : Nat := beNat (slice l o n)

/-- `n` zero bytes. -/
def zeros (n : Nat) : Bytes := List.replicate n 0

/-- Whether every byte is zero. -/
def allZero (l : Bytes) : Bool := l.all (· == 0#8)

/-- Whether the `n` bytes at offset `o` are zero. -/
def zeroAt (l : Bytes) (o n : Nat) : Bool := allZero (slice l o n)

/-- An ASCII label, without a terminator. -/
def ascii (s : String) : Bytes := s.toList.map (fun c => BitVec.ofNat 8 c.toNat)

/-- The next multiple of `k` at or above `n`. -/
def roundUp (n k : Nat) : Nat := (n + k - 1) / k * k

/-- Quotient rounded up. -/
def ceilDiv (n k : Nat) : Nat := (n + k - 1) / k

/-- Bits [hi:lo] of a number. -/
def bitsOf (v hi lo : Nat) : Nat := v / 2 ^ lo % 2 ^ (hi + 1 - lo)

/-- Bit `i` of a number. -/
def bitOf (v i : Nat) : Bool := v / 2 ^ i % 2 = 1

/-- A Bool as a number. -/
def b2n (b : Bool) : Nat := if b then 1 else 0

/-- A number as a register word. -/
def w32 (n : Nat) : Word := BitVec.ofNat 32 n

/-- The 64-bit halves of a register pair. -/
def loHalf (v : Nat) : Word := w32 v
def hiHalf (v : Nat) : Word := w32 (v / 2 ^ 32)

/-- Cut a byte string into pieces of `n` bytes; `fuel` bounds the pieces. -/
def chunks (n : Nat) : Nat → Bytes → List Bytes
  | 0, _ => []
  | f + 1, l => if l.isEmpty then [] else l.take n :: chunks n f (l.drop n)

/-- Whether two byte strings agree. -/
def sameBytes (a b : Bytes) : Bool := a == b

/-- One bit step of the reflected CRC-32. -/
def crcStep (c : BitVec 32) : BitVec 32 :=
  if c.getLsbD 0 then (c >>> 1) ^^^ 0xEDB88320#32 else c >>> 1

/-- `n` bit steps. -/
def crcSteps : Nat → BitVec 32 → BitVec 32
  | 0, c => c
  | n + 1, c => crcSteps n (crcStep c)

/-- CRC-32 of IEEE 802.3, whose polynomial the spec does not name (PRESUMED, log 18). -/
def crc32 (l : Bytes) : BitVec 32 :=
  ~~~ (l.foldl (fun c b => crcSteps 8 (c ^^^ b.zeroExtend 32)) 0xFFFFFFFF#32)

/-- BCD digits of bytes, high nibble first. -/
def nibbles (l : Bytes) : List Nat := l.flatMap (fun b => [b.toNat / 16, b.toNat % 16])

/-- Bytes of nibbles, high nibble first. -/
def packNibbles : List Nat → Bytes
  | a :: b :: r => BitVec.ofNat 8 (a * 16 + b) :: packNibbles r
  | [a] => [BitVec.ofNat 8 (a * 16)]
  | [] => []

/-- How many bits of a word of `w` bits are set. -/
def popCount (w : Nat) (v : Nat) : Nat := ((List.range w).filter (fun i => v.testBit i)).length

/-- The lowest set bit of a number below `w`. -/
def lowBit (w v : Nat) : Option Nat := (List.range w).find? (fun i => v.testBit i)

/-- A hexadecimal or decimal digit as its ASCII code and back. -/
def hexDigit (n : Nat) : Byte := BitVec.ofNat 8 (if n < 10 then 48 + n else 55 + n)
def hexVal (b : Byte) : Option Nat :=
  let n := b.toNat
  if 48 ≤ n ∧ n ≤ 57 then some (n - 48) else if 65 ≤ n ∧ n ≤ 70 then some (n - 55) else none

/-- `n` decimal digits of a number in ASCII. -/
def decDigits : Nat → Nat → Bytes
  | 0, _ => []
  | n + 1, v => decDigits n (v / 10) ++ [BitVec.ofNat 8 (48 + v % 10)]

/-- The items of a section body: 2-byte tag, 2-byte length, value (R519); none when the body is cut short.
`fuel` bounds the items. -/
def tlv : Nat → Bytes → Option (List (Nat × Bytes))
  | 0, l => if l.isEmpty then some [] else none
  | n + 1, l =>
    if l.isEmpty then some []
    else if l.length < 4 ∨ l.length < 4 + fld l 2 2 then none
    else (tlv n (l.drop (4 + fld l 2 2))).map (fun r => (fld l 0 2, slice l 4 (fld l 2 2)) :: r)

/-- The items of a body. -/
def itemsOf (l : Bytes) : Option (List (Nat × Bytes)) := tlv (l.length / 4 + 1) l

/-- The values of the items with a tag. -/
def tagged (items : List (Nat × Bytes)) (tag : Nat) : List Bytes :=
  (items.filter (fun i => i.1 == tag)).map (·.2)

end Sys2Proof.Machine
end

