-- ==== Sys2Proof/Machine/Aes.lean ====
section
/-! DEFINITION. AES (FIPS 197) and its modes of SP 800-38A to 38G and IEEE 1619, from those standards (PRESUMED,
log 3), with the choices among their options that the spec makes (R285 to R292). -/

namespace Sys2Proof.Std

open Sys2Proof.Machine

/-! ### The block cipher -/

/-- The S-box, 32 values to a piece, the first in the lowest byte. -/
def aesSbox : List Nat :=
  [0xC072A49CAFA2D4ADF04759FA7DC982CA76ABD7FE2B670130C56F6BF27B777C63,
   0x75B227EBE28012079A059618C323C7041531D871F1E5A534CCF73F362693FDB7,
   0xCF584C4A39BECB6A5BB1FC20ED00D153842FE329B3D63B52A05A6E1B1A2C8309,
   0xD2F3FF1021DAB6BCF5389D928F40A351A89F3C507F02F94585334D43FBAAEFD0,
   0xDB0B5EDE14B8EE4688902A22DC4F816073195D643D7EA7C41744975FEC130CCD,
   0x08AE7A65EAF4566CA94ED58D6D37C8E779E4959162ACD3C25C2406490A3A32E0,
   0x9E1DC186B95735610EF6034866B53E708A8BBD4B1F74DDE8C6B4A61C2E2578BA,
   0x16BB54B00F2D99416842E6BF0D89A18CDF2855CEE9871E9B948ED9691198F8E1]

/-- The inverse S-box. -/
def aesInvSbox : List Nat :=
  [0xCBE9DEC444438E3487FF2F9B8239E37CFBD7F3819EA340BF38A53630D56A0952,
   0x25D18B6D49A25B76B224D92866A12E084EC3FA420B954CEE3D23C2A632947B54,
   0x849D8DA75746155EDAB9EDFD5048706C92B6655DCC5CA4D41698688664F6F872,
   0x6B8A130103BDAFC1020F3FCA8F1E2CD00645B3B80558E4F70AD3BC8C00ABD890,
   0x6EDF751CE837F9E28535ADE72274AC9673E6B4F0CECFF297EADC674F4111913A,
   0xF45ACD78FEC0DB9A2079D2C64B3E56FC1BBE18AA0E62B76F89C5291D711AF147,
   0xEF9CC9939F7AE52D0D4AB519A97F51605FEC8027591012B131C7078833A8DD1F,
   0x7D0C2155631469E126D677BA7E042B17619953833CBBEBC8B0F52AAE4D3BE0A0]

/-- The value of a byte in a table of pieces. -/
def subByte (t : List Nat) (b : Byte) : Byte := BitVec.ofNat 8 (t.getD (b.toNat / 32) 0 >>> (8 * (b.toNat % 32)))

/-- Multiplication by x. -/
def xtime (b : Byte) : Byte := b <<< 1 ^^^ (if b.getLsbD 7 then 0x1B else 0)

/-- Multiplication by a constant of four bits. -/
def gmul (c : Nat) (b : Byte) : Byte :=
  (if c.testBit 0 then b else 0) ^^^ (if c.testBit 1 then xtime b else 0) ^^^
    (if c.testBit 2 then xtime (xtime b) else 0) ^^^ (if c.testBit 3 then xtime (xtime (xtime b)) else 0)

/-- Byte `r + 4 c` of the state moves along its row by its row's number, times `k` (3 is the inverse). -/
def shiftRows (k : Nat) (b : Bytes) : Bytes :=
  (List.range 16).map (fun i => b.getD (i % 4 + 4 * ((i / 4 + k * (i % 4)) % 4)) 0)

/-- One byte of a column times a matrix whose first row is `m`. -/
def mixByte (m : List Nat) (col : Bytes) (r : Nat) : Byte :=
  (List.range 4).foldl (fun v j => v ^^^ gmul (m.getD ((j + 4 - r) % 4) 0) (col.getD j 0)) 0
def mixColumns (m : List Nat) (b : Bytes) : Bytes :=
  (chunks 4 4 b).flatMap (fun col => (List.range 4).map (mixByte m col))

/-- Exclusive or of two strings of one length. -/
def xorB (a b : Bytes) : Bytes := List.zipWith (· ^^^ ·) a b

/-- `n` more words of the key schedule, of which `w` are there; `nk` is the length of the key in words. -/
def keyWords (nk : Nat) : Nat → Byte → List Bytes → List Bytes
  | 0, _, w => w
  | n + 1, rc, w =>
    let i := w.length
    let t := w.getD (i - 1) []
    let t := if i % nk = 0 then xorB ((t.drop 1 ++ t.take 1).map (subByte aesSbox)) [rc, 0, 0, 0]
      else if 6 < nk ∧ i % nk = 4 then t.map (subByte aesSbox) else t
    keyWords nk n (if i % nk = 0 then xtime rc else rc) (w ++ [xorB (w.getD (i - nk) []) t])

/-- The round keys. -/
def roundKeys (key : Bytes) : List Bytes :=
  let nk := key.length / 4
  chunks 16 15 (keyWords nk (4 * (nk + 7) - nk) 1 (chunks 4 nk key)).flatten

/-- The rounds with the round keys after the first. -/
def aesRounds : List Bytes → Bytes → Bytes
  | [], b => b
  | [k], b => xorB (shiftRows 1 (b.map (subByte aesSbox))) k
  | k :: ks, b => aesRounds ks (xorB (mixColumns [2, 3, 1, 1] (shiftRows 1 (b.map (subByte aesSbox)))) k)

/-- The inverse rounds with the round keys from the last but one to the first. -/
def aesInvRounds : List Bytes → Bytes → Bytes
  | [], b => b
  | [k], b => xorB ((shiftRows 3 b).map (subByte aesInvSbox)) k
  | k :: ks, b => aesInvRounds ks (mixColumns [14, 11, 13, 9] (xorB ((shiftRows 3 b).map (subByte aesInvSbox)) k))

/-- A block under a key schedule. -/
def aesEnc (ks : List Bytes) (b : Bytes) : Bytes := aesRounds (ks.drop 1) (xorB b (ks.headD []))
def aesDec (ks : List Bytes) (b : Bytes) : Bytes := aesInvRounds (ks.reverse.drop 1) (xorB b (ks.reverse.headD []))

/-- AES under a key, in one direction. -/
def aes (dec : Bool) (key : Bytes) : Bytes → Bytes :=
  let ks := roundKeys key
  if dec then aesDec ks else aesEnc ks

/-! ### Modes of a block cipher -/

/-- CBC over the blocks of a string, with the value chained (SP 800-38A). -/
def cbcEnc (e : Bytes → Bytes) : List Bytes → Bytes → Bytes
  | [], _ => []
  | b :: l, iv =>
    let c := e (xorB b iv)
    c ++ cbcEnc e l c
def cbcDec (d : Bytes → Bytes) : List Bytes → Bytes → Bytes
  | [], _ => []
  | c :: l, iv => xorB (d c) iv ++ cbcDec d l c

/-- The counter block `i` after a first one: its low `width` bits count (R286). -/
def ctrBlock (block : Bytes) (width i : Nat) : Bytes :=
  let v := beNat block
  be 16 (v / 2 ^ width * 2 ^ width + (v % 2 ^ width + i) % 2 ^ width)

def ctrStream (key block : Bytes) (width n : Nat) : Bytes :=
  let e := aes false key
  ((List.range (ceilDiv n 16)).flatMap (fun i => e (ctrBlock block width i))).take n

/-- The CBC-MAC of whole blocks. -/
def cbcMac (e : Bytes → Bytes) (n : Nat) (m : Bytes) : Bytes :=
  (chunks n m.length m).foldl (fun v b => e (xorB b v)) (zeros n)

/-- A string padded with zeros to whole blocks. -/
def padTo (n : Nat) (m : Bytes) : Bytes := m ++ zeros (roundUp m.length n - m.length)

/-- Doubling of a block as an element of the field of its size (SP 800-38B). -/
def dblBlock (b : Bytes) : Bytes :=
  let n := b.length
  let v := 2 * beNat b
  be n (if 2 ^ (8 * n) ≤ v then v ^^^ (if n = 8 then 0x1B else 0x87) else v)

/-- CMAC under a cipher of blocks of `n` bytes (SP 800-38B). -/
def cmac (e : Bytes → Bytes) (n : Nat) (m : Bytes) : Bytes :=
  let k := dblBlock (e (zeros n))
  let cut := if m.isEmpty then 0 else (m.length - 1) / n * n
  let last := m.drop cut
  let last := if last.length = n then xorB last k else xorB (padTo n (last ++ [0x80])) (dblBlock k)
  cbcMac e n (m.take cut ++ last)

/-- The multiplication of GHASH, over the low `n` bits of `x` from the highest: `v` is shifted and reduced bit by bit
(SP 800-38D, algorithm 1; the first bit of a block is its most significant). -/
def gfMul (x : Nat) : Nat → Nat → Nat → Nat
  | 0, _, z => z
  | n + 1, v, z => gfMul x n (v / 2 ^^^ v % 2 * (0xE1 * 2 ^ 120)) (z ^^^ x / 2 ^ n % 2 * v)

/-- GHASH of whole blocks (SP 800-38D). -/
def ghash (h : Nat) (m : Bytes) : Nat := (chunks 16 m.length m).foldl (fun y b => gfMul (y ^^^ beNat b) 128 h 0) 0

/-- The GCM tag for a nonce of 12 bytes (R287). -/
def gcmTag (key nonce aad ct : Bytes) : Bytes :=
  let e := aes false key
  let h := beNat (e (zeros 16))
  let s := ghash h (padTo 16 aad ++ padTo 16 ct ++ be 8 (8 * aad.length) ++ be 8 (8 * ct.length))
  xorB (e (nonce ++ [0, 0, 0, 1])) (be 16 s)

/-- The CCM tag of `n` bytes for a nonce of 12 bytes (R288). -/
def ccmTag (key nonce aad pt : Bytes) (n : Nat) : Bytes :=
  let e := aes false key
  let flags := (if aad.isEmpty then 0 else 64) + 8 * ((n - 2) / 2) + 2
  let a := if aad.isEmpty then [] else
    padTo 16 ((if aad.length < 0xFF00 then be 2 aad.length else [0xFF, 0xFE] ++ be 4 aad.length) ++ aad)
  (xorB (cbcMac e 16 (be 1 flags ++ nonce ++ be 3 pt.length ++ a ++ padTo 16 pt)) (e ([2] ++ nonce ++ zeros 3))).take n

/-! ### XTS (IEEE 1619) -/

/-- The tweak of the next block. -/
def xtsNext (t : Nat) : Nat := (2 * t) % 2 ^ 128 ^^^ (if 2 ^ 127 ≤ t then 0x87 else 0)

def xtsBlock (f : Bytes → Bytes) (t : Nat) (b : Bytes) : Bytes := xorB (f (xorB b (le 16 t))) (le 16 t)

/-- The blocks of a data unit from tweak `t`, at most `n`; a last part of a block steals from the one before. -/
def xtsUnit (dec : Bool) (f : Bytes → Bytes) : Nat → Nat → Bytes → Bytes
  | 0, _, _ => []
  | n + 1, t, d =>
    if d.length ≤ 16 then xtsBlock f t d
    else if d.length < 32 then
      let m := d.length - 16
      let c := xtsBlock f (if dec then xtsNext t else t) (d.take 16)
      xtsBlock f (if dec then t else xtsNext t) (d.drop 16 ++ c.drop m) ++ c.take m
    else xtsBlock f t (d.take 16) ++ xtsUnit dec f n (xtsNext t) (d.drop 16)

/-- XTS over data units of `unit` bytes; the first tweak is a little-endian value that rises by one a unit (R289). -/
def xts (dec : Bool) (key tweak : Bytes) (unit : Nat) (d : Bytes) : Bytes :=
  let half := key.length / 2
  let f := aes dec (key.take half)
  let e := aes false (key.drop half)
  let t := beNat tweak.reverse
  let units := chunks unit d.length d
  (units.zipIdx).flatMap (fun u => xtsUnit dec f unit (beNat (e (le 16 ((t + u.2) % 2 ^ 128))).reverse) u.1)

/-! ### Key wrap (SP 800-38F) -/

/-- `n` steps of the wrapping function from step `t`, the semiblocks in a queue. -/
def wrapSteps (e : Bytes → Bytes) : Nat → Nat → Bytes → List Bytes → Bytes
  | 0, _, a, q => a ++ q.flatten
  | n + 1, t, a, q =>
    let b := e (a ++ q.headD [])
    wrapSteps e n (t + 1) (xorB (b.take 8) (be 8 t)) (q.drop 1 ++ [b.drop 8])

/-- Steps `t` down to 1 of the inverse. -/
def unwrapSteps (d : Bytes → Bytes) : Nat → Bytes → List Bytes → Bytes × Bytes
  | 0, a, q => (a, q.flatten)
  | t + 1, a, q =>
    let b := d (xorB a (be 8 (t + 1)) ++ q.getLastD [])
    unwrapSteps d t (b.take 8) (b.drop 8 :: q.dropLast)

/-- The check values of KW and KWP. -/
def kwIcv : Bytes := List.replicate 8 0xA6
def kwpIcv (n : Nat) : Bytes := [0xA6, 0x59, 0x59, 0xA6] ++ be 4 n

def keyWrap (pad : Bool) (key m : Bytes) : Bytes :=
  let p := if pad then padTo 8 m else m
  let icv := if pad then kwpIcv m.length else kwIcv
  let n := p.length / 8
  if pad ∧ n = 1 then aes false key (icv ++ p) else wrapSteps (aes false key) (6 * n) 1 icv (chunks 8 n p)

def keyUnwrap (pad : Bool) (key c : Bytes) : Option Bytes :=
  let n := c.length / 8 - 1
  if c.length % 8 ≠ 0 ∨ n < (if pad then 1 else 2) then none
  else
    let r : Bytes × Bytes :=
      if pad ∧ n = 1 then ((aes true key c).take 8, (aes true key c).drop 8)
      else unwrapSteps (aes true key) (6 * n) (c.take 8) (chunks 8 n (c.drop 8))
    if pad then
      let m := beNat (r.1.drop 4)
      if r.1 = kwpIcv m ∧ 8 * (n - 1) < m ∧ m ≤ 8 * n ∧ allZero (r.2.drop m) then some (r.2.take m) else none
    else if r.1 = kwIcv then some r.2 else none

/-! ### FF1 (SP 800-38G) -/

/-- The number that numerals spell in a radix, and the `n` numerals of a number. -/
def numOf (radix : Nat) (x : List Nat) : Nat := x.foldl (fun a d => a * radix + d) 0
def strOf (radix : Nat) : Nat → Nat → List Nat
  | 0, _ => []
  | n + 1, v => strOf radix n (v / radix) ++ [v % radix]

/-- What a round adds: the number of `S`, from the half that the round does not change. -/
def ff1Round (e : Bytes → Bytes) (radix : Nat) (tweak : Bytes) (n i : Nat) (half : List Nat) : Nat :=
  let top := radix ^ (n - n / 2)
  let b := ceilDiv (if top ≤ 1 then 0 else Nat.log2 (top - 1) + 1) 8
  let d := 4 * ceilDiv b 4 + 4
  let p := [1, 2, 1] ++ be 3 radix ++ [10] ++ be 1 (n / 2) ++ be 4 n ++ be 4 tweak.length
  let used := tweak.length + b + 1
  let q := tweak ++ zeros (roundUp used 16 - used) ++ be 1 i ++ be b (numOf radix half)
  let r := cbcMac e 16 (p ++ q)
  let more := (List.range (ceilDiv d 16 - 1)).flatMap (fun j => e (xorB r (be 16 (j + 1))))
  beNat ((r ++ more).take d)

/-- Rounds `i` on, `n` of them. -/
def ff1Enc (e : Bytes → Bytes) (radix : Nat) (tweak : Bytes) (len : Nat) : Nat → Nat → List Nat → List Nat → List Nat
  | 0, _, a, b => a ++ b
  | n + 1, i, a, b =>
    let m := if i % 2 = 0 then len / 2 else len - len / 2
    let c := (numOf radix a + ff1Round e radix tweak len i b) % radix ^ m
    ff1Enc e radix tweak len n (i + 1) b (strOf radix m c)

/-- Rounds `n - 1` down to 0 of the inverse. -/
def ff1Dec (e : Bytes → Bytes) (radix : Nat) (tweak : Bytes) (len : Nat) : Nat → List Nat → List Nat → List Nat
  | 0, a, b => a ++ b
  | i + 1, a, b =>
    let m := if i % 2 = 0 then len / 2 else len - len / 2
    let y := ff1Round e radix tweak len i a % radix ^ m
    let c := (numOf radix b + (radix ^ m - y)) % radix ^ m
    ff1Dec e radix tweak len i (strOf radix m c) a

def ff1 (dec : Bool) (key : Bytes) (radix : Nat) (tweak : Bytes) (x : List Nat) : List Nat :=
  let e := aes false key
  let u := x.length / 2
  if dec then ff1Dec e radix tweak x.length 10 (x.take u) (x.drop u)
  else ff1Enc e radix tweak x.length 10 0 (x.take u) (x.drop u)

end Sys2Proof.Std
end

