-- ==== Sys2Proof/Machine/Des.lean ====
section
/-! DEFINITION. TDES of SP 800-67 as ISO 9564-1 and X9.143 use it (00, Standards; R122 to R127), from those standards
(PRESUMED, log 3). -/

namespace Sys2Proof.Std

open Sys2Proof.Machine

/-! ### DES: bits count from 1 at the most significant -/

/-- The initial permutation. -/
def desIp : List Nat :=
  [58, 50, 42, 34, 26, 18, 10, 2, 60, 52, 44, 36, 28, 20, 12, 4,
   62, 54, 46, 38, 30, 22, 14, 6, 64, 56, 48, 40, 32, 24, 16, 8,
   57, 49, 41, 33, 25, 17, 9, 1, 59, 51, 43, 35, 27, 19, 11, 3,
   61, 53, 45, 37, 29, 21, 13, 5, 63, 55, 47, 39, 31, 23, 15, 7]

/-- The permutation of the function f. -/
def desP : List Nat :=
  [16, 7, 20, 21, 29, 12, 28, 17, 1, 15, 23, 26, 5, 18, 31, 10,
   2, 8, 24, 14, 32, 27, 3, 9, 19, 13, 30, 6, 22, 11, 4, 25]

/-- Permuted choice 1. -/
def desPc1 : List Nat :=
  [57, 49, 41, 33, 25, 17, 9, 1, 58, 50, 42, 34, 26, 18,
   10, 2, 59, 51, 43, 35, 27, 19, 11, 3, 60, 52, 44, 36,
   63, 55, 47, 39, 31, 23, 15, 7, 62, 54, 46, 38, 30, 22,
   14, 6, 61, 53, 45, 37, 29, 21, 13, 5, 28, 20, 12, 4]

/-- Permuted choice 2. -/
def desPc2 : List Nat :=
  [14, 17, 11, 24, 1, 5, 3, 28, 15, 6, 21, 10,
   23, 19, 12, 4, 26, 8, 16, 7, 27, 20, 13, 2,
   41, 52, 31, 37, 47, 55, 30, 40, 51, 45, 33, 48,
   44, 49, 39, 56, 34, 53, 46, 42, 50, 36, 29, 32]

/-- The S-boxes: row by row, the first value in the lowest four bits. -/
def desS : List Nat :=
  [0xD60AE3B5719428CF05A379CFB26D8E148359BC6A1D2E47F07095C6A38BF21D4E,
   0x9E50C76B24F31A8DF2396C851D4AB7E05B96A10CE82F74D3A50CD27943B6E81F,
   0xC25B3EF478960DA17EA5C21B03F8946D1FBCE582A643907D824B7CD15F36E90A,
   0xE27CB5498D1A60F34825E31FD7BC096A9EA1C27430F65B8DF4CB5821A9603ED7,
   0x354A90F6D2E17C8BE0365C9F87DAB1246893AF051D74C2BE9E0DF3586BA714C2,
   0xD80671EBAF59C2346BD1A4073C825FE983B0ED1659C724FAB57E43D08629FA1C,
   0xC32EF0597A418DB6295086FAE73CDB4168F2C53EA1947B0D16A579C3D80FE2B4,
   0xB65309CFD8A47E12853FDA602EC914B729E0B65C473A8DF17C05E39A1BF6482D]

/-- The bits of a number of `w` bits that a table names, in its order. -/
def permute (w : Nat) (t : List Nat) (x : Nat) : Nat := t.foldl (fun a p => 2 * a + x / 2 ^ (w - p) % 2) 0

/-- The inverse of the initial permutation. -/
def desFp (x : Nat) : Nat := (List.range 64).foldl (fun a i => 2 * a + x / 2 ^ (63 - desIp.idxOf (i + 1)) % 2) 0

/-- The six bits that S-box `i` takes: a group of four with its neighbours. -/
def desSix (r i : Nat) : Nat := (r * 2 ^ 33 + r * 2 + r / 2 ^ 31) / 2 ^ (28 - 4 * i) % 64

/-- The function f of a half and a round key. -/
def desF (r k : Nat) : Nat :=
  permute 32 desP ((List.range 8).foldl (fun a i =>
    let x := desSix r i ^^^ k / 2 ^ (42 - 6 * i) % 64
    16 * a + desS.getD i 0 / 2 ^ (4 * (16 * (x / 32 * 2 + x % 2) + x / 2 % 16)) % 16) 0)

/-- A rotation to the left of 28 bits. -/
def rot28 (x n : Nat) : Nat := (x * 2 ^ n + x / 2 ^ (28 - n)) % 2 ^ 28

/-- The round keys: what the halves have rotated before each round. -/
def desKeys (key : Bytes) : List Nat :=
  let c := permute 64 desPc1 (beNat key)
  ([1, 2, 4, 6, 8, 10, 12, 14, 15, 17, 19, 21, 23, 25, 27, 28] : List Nat).map (fun n =>
    permute 56 desPc2 (rot28 (c / 2 ^ 28) n * 2 ^ 28 + rot28 (c % 2 ^ 28) n))

/-- DES of a block. -/
def des (dec : Bool) (key b : Bytes) : Bytes :=
  let ks := if dec then (desKeys key).reverse else desKeys key
  let x := permute 64 desIp (beNat b)
  let v := ks.foldl (fun (v : Nat × Nat) k => (v.2, v.1 ^^^ desF v.2 k)) (x / 2 ^ 32, x % 2 ^ 32)
  be 8 (desFp (v.2 * 2 ^ 32 + v.1))

/-- TDES of a block under three keys. -/
def tdesBlock (dec : Bool) (key b : Bytes) : Bytes :=
  let k1 := slice key 0 8
  let k2 := slice key 8 8
  let k3 := slice key 16 8
  if dec then des true k1 (des false k2 (des true k3 b)) else des false k3 (des true k2 (des false k1 b))

/-- TDES in CBC mode. -/
def tdesCbc (dec : Bool) (key iv d : Bytes) : Bytes :=
  if dec then cbcDec (tdesBlock true key) (chunks 8 d.length d) iv
  else cbcEnc (tdesBlock false key) (chunks 8 d.length d) iv

end Sys2Proof.Std
end

