-- ==== Sys2Proof/Machine/Sha.lean ====
section
/-! DEFINITION. The hash algorithms of FIPS 180-4 and FIPS 202 that the spec names (00, Standards; R112, R351), from
those standards (PRESUMED, log 3). -/

namespace Sys2Proof.Std

open Sys2Proof.Machine

/-! ### SHA-2 (FIPS 180-4) -/

def shaK0 : List Nat :=
  [0x428A2F98D728AE22, 0x7137449123EF65CD, 0xB5C0FBCFEC4D3B2F, 0xE9B5DBA58189DBBC, 0x3956C25BF348B538,
   0x59F111F1B605D019, 0x923F82A4AF194F9B, 0xAB1C5ED5DA6D8118, 0xD807AA98A3030242, 0x12835B0145706FBE]
def shaK1 : List Nat :=
  [0x243185BE4EE4B28C, 0x550C7DC3D5FFB4E2, 0x72BE5D74F27B896F, 0x80DEB1FE3B1696B1, 0x9BDC06A725C71235,
   0xC19BF174CF692694, 0xE49B69C19EF14AD2, 0xEFBE4786384F25E3, 0x0FC19DC68B8CD5B5, 0x240CA1CC77AC9C65]
def shaK2 : List Nat :=
  [0x2DE92C6F592B0275, 0x4A7484AA6EA6E483, 0x5CB0A9DCBD41FBD4, 0x76F988DA831153B5, 0x983E5152EE66DFAB,
   0xA831C66D2DB43210, 0xB00327C898FB213F, 0xBF597FC7BEEF0EE4, 0xC6E00BF33DA88FC2, 0xD5A79147930AA725]
def shaK3 : List Nat :=
  [0x06CA6351E003826F, 0x142929670A0E6E70, 0x27B70A8546D22FFC, 0x2E1B21385C26C926, 0x4D2C6DFC5AC42AED,
   0x53380D139D95B3DF, 0x650A73548BAF63DE, 0x766A0ABB3C77B2A8, 0x81C2C92E47EDAEE6, 0x92722C851482353B]
def shaK4 : List Nat :=
  [0xA2BFE8A14CF10364, 0xA81A664BBC423001, 0xC24B8B70D0F89791, 0xC76C51A30654BE30, 0xD192E819D6EF5218,
   0xD69906245565A910, 0xF40E35855771202A, 0x106AA07032BBD1B8, 0x19A4C116B8D2D0C8, 0x1E376C085141AB53]
def shaK5 : List Nat :=
  [0x2748774CDF8EEB99, 0x34B0BCB5E19B48A8, 0x391C0CB3C5C95A63, 0x4ED8AA4AE3418ACB, 0x5B9CCA4F7763E373,
   0x682E6FF3D6B2B8A3, 0x748F82EE5DEFB2FC, 0x78A5636F43172F60, 0x84C87814A1F0AB72, 0x8CC702081A6439EC]
def shaK6 : List Nat :=
  [0x90BEFFFA23631E28, 0xA4506CEBDE82BDE9, 0xBEF9A3F7B2C67915, 0xC67178F2E372532B, 0xCA273ECEEA26619C,
   0xD186B8C721C0C207, 0xEADA7DD6CDE0EB1E, 0xF57D4F7FEE6ED178, 0x06F067AA72176FBA, 0x0A637DC5A2C898A6]
def shaK7 : List Nat :=
  [0x113F9804BEF90DAE, 0x1B710B35131C471B, 0x28DB77F523047D84, 0x32CAAB7B40C72493, 0x3C9EBE0A15C9BEBC,
   0x431D67C49C100D4C, 0x4CC5D4BECB3E42B6, 0x597F299CFC657E2A, 0x5FCB6FAB3AD6FAEC, 0x6C44198C4A475817]
/-- The constants of SHA-384 and SHA-512; SHA-256 has the upper halves of the first 64. -/
def shaK : List Nat := shaK0 ++ shaK1 ++ shaK2 ++ shaK3 ++ shaK4 ++ shaK5 ++ shaK6 ++ shaK7

/-- The initial value of SHA-512; SHA-256 has the upper halves. -/
def shaIv512 : List Nat :=
  [0x6A09E667F3BCC908, 0xBB67AE8584CAA73B, 0x3C6EF372FE94F82B, 0xA54FF53A5F1D36F1,
   0x510E527FADE682D1, 0x9B05688C2B3E6C1F, 0x1F83D9ABFB41BD6B, 0x5BE0CD19137E2179]

/-- The initial value of SHA-384. -/
def shaIv384 : List Nat :=
  [0xCBBB9D5DC1059ED8, 0x629A292A367CD507, 0x9159015A3070DD17, 0x152FECD8F70E5939,
   0x67332667FFC00B31, 0x8EB44A8768581511, 0xDB0C2E0D64F98FA7, 0x47B5481DBEFA4FA4]

/-- The amounts of the functions Σ0, Σ1, σ0 and σ1: rotations, and for the last of σ a shift. -/
structure ShaRot where
  s0 : Nat × Nat × Nat
  s1 : Nat × Nat × Nat
  t0 : Nat × Nat × Nat
  t1 : Nat × Nat × Nat
  deriving DecidableEq, Repr

def rot256 : ShaRot := { s0 := (2, 13, 22), s1 := (6, 11, 25), t0 := (7, 18, 3), t1 := (17, 19, 10) }
def rot512 : ShaRot := { s0 := (28, 34, 39), s1 := (14, 18, 41), t0 := (1, 8, 7), t1 := (19, 61, 6) }

def shaSum {w : Nat} (r : Nat × Nat × Nat) (x : BitVec w) : BitVec w :=
  x.rotateRight r.1 ^^^ x.rotateRight r.2.1 ^^^ x.rotateRight r.2.2
def shaMix {w : Nat} (r : Nat × Nat × Nat) (x : BitVec w) : BitVec w :=
  x.rotateRight r.1 ^^^ x.rotateRight r.2.1 ^^^ x >>> r.2.2

/-- One round on the eight working variables with `K + W`. -/
def shaRound {w : Nat} (r : ShaRot) (kw : BitVec w) : List (BitVec w) → List (BitVec w)
  | [a, b, c, d, e, f, g, h] =>
    let t := h + shaSum r.s1 e + ((e &&& f) ^^^ (~~~ e &&& g)) + kw
    [t + shaSum r.s0 a + ((a &&& b) ^^^ (a &&& c) ^^^ (b &&& c)), a, b, c, d + t, e, f, g]
  | v => v

/-- The rounds that are left, with the sixteen words of the schedule from this round on. -/
def shaRounds {w : Nat} (r : ShaRot) : List (BitVec w) → List (BitVec w) → List (BitVec w) → List (BitVec w)
  | [], _, v => v
  | k :: ks, win, v =>
    let x := win.headD 0
    let n := shaMix r.t1 (win.getD 14 0) + win.getD 9 0 + shaMix r.t0 (win.getD 1 0) + x
    shaRounds r ks (win.drop 1 ++ [n]) (shaRound r (k + x) v)

/-- The words of a block of bytes. -/
def shaWords (w : Nat) (b : Bytes) : List (BitVec w) :=
  (chunks (w / 8) 16 b).map (fun c => BitVec.ofNat w (beNat c))

/-- The hash value after one more block. -/
def shaBlock {w : Nat} (r : ShaRot) (ks v : List (BitVec w)) (b : Bytes) : List (BitVec w) :=
  List.zipWith (· + ·) v (shaRounds r ks (shaWords w b) v)

/-- A message with its padding: a one bit, zeros, and the length in bits in two words. -/
def shaPad (w : Nat) (m : Bytes) : Bytes :=
  let blk := 2 * w
  let used := m.length + 1 + w / 4
  m ++ [0x80] ++ zeros (roundUp used blk - used) ++ be (w / 4) (8 * m.length)

def sha2 {w : Nat} (r : ShaRot) (ks iv : List (BitVec w)) (m : Bytes) : Bytes :=
  let p := shaPad w m
  ((chunks (2 * w) p.length p).foldl (shaBlock r ks) iv).flatMap (fun x => be (w / 8) x.toNat)

def upper (l : List Nat) : List (BitVec 32) := l.map (fun n => BitVec.ofNat 32 (n / 2 ^ 32))
def whole (l : List Nat) : List (BitVec 64) := l.map (BitVec.ofNat 64)

def sha256 (m : Bytes) : Bytes := sha2 rot256 (upper (shaK.take 64)) (upper shaIv512) m
def sha384 (m : Bytes) : Bytes := (sha2 rot512 (whole shaK) (whole shaIv384) m).take 48
def sha512 (m : Bytes) : Bytes := sha2 rot512 (whole shaK) (whole shaIv512) m

/-! ### SHA-3 (FIPS 202) -/

/-- One step of the linear feedback register of `rc(t)`, of polynomial `x^8 + x^6 + x^5 + x^4 + 1`. -/
def lfsrStep (r : Nat) : Nat := if r < 128 then 2 * r else (2 * r) ^^^ 0x171

/-- The register after the seven bits of one round, and that round's constant: bit `j` of the seven lands on bit
`2^j - 1` of the lane. -/
def iotaStep (r : Nat) : Nat × Nat :=
  (List.range 7).foldl (fun (q, v) j => (lfsrStep q, if q % 2 = 1 then v + 2 ^ (2 ^ j - 1) else v)) (r, 0)

/-- The constants of the `n` rounds that are left, from the register on. -/
def iotaFrom : Nat → Nat → List Nat
  | 0, _ => []
  | n + 1, r => let (q, v) := iotaStep r; v :: iotaFrom n q

/-- The lanes `x + 5 y` that ρ walks from `(1, 0)` on, each step from `(x, y)` to `(y, 2 x + 3 y)`. -/
def rhoWalk : Nat → Nat → Nat → List Nat
  | 0, _, _ => []
  | n + 1, x, y => (x + 5 * y) :: rhoWalk n y ((2 * x + 3 * y) % 5)

abbrev Lanes := List (BitVec 64)

def theta (a : Lanes) : Lanes :=
  let c : Lanes := (List.range 5).map (fun x => (List.range 5).foldl (fun v y => v ^^^ a.getD (x + 5 * y) 0) 0)
  (List.range 25).map (fun i => a.getD i 0 ^^^ c.getD ((i + 4) % 5) 0 ^^^ (c.getD ((i + 1) % 5) 0).rotateLeft 1)

/-- ρ and π: π sends each lane of ρ's walk to the walk's next lane, and ρ rotates the lane of step `t` by
`(t + 1) (t + 2) / 2` on the way; lane 0 stays. -/
def rhoPi (a : Lanes) : Lanes :=
  let walk := rhoWalk 25 1 0
  (List.range 24).foldl (fun b t =>
    b.set (walk.getD (t + 1) 0) ((a.getD (walk.getD t 0) 0).rotateLeft ((t + 1) * (t + 2) / 2 % 64))) a

def chi (a : Lanes) : Lanes :=
  (List.range 25).map (fun i =>
    let row := 5 * (i / 5)
    a.getD i 0 ^^^ (~~~ a.getD (row + (i + 1) % 5) 0 &&& a.getD (row + (i + 2) % 5) 0))

def keccakRound (a : Lanes) (rc : BitVec 64) : Lanes :=
  let b := chi (rhoPi (theta a))
  (b.headD 0 ^^^ rc) :: b.drop 1

def keccak (a : Lanes) : Lanes := (whole (iotaFrom 24 1)).foldl keccakRound a

def laneBytes (a : Lanes) : Bytes := a.flatMap (fun x => le 8 x.toNat)
def lanesOf (b : Bytes) : Lanes := (List.range 25).map (fun i => BitVec.ofNat 64 (beNat (slice b (8 * i) 8).reverse))

/-- A block taken into the state. -/
def absorb (a : Lanes) (b : Bytes) : Lanes := keccak (List.zipWith (· ^^^ ·) a (lanesOf b))

/-- `n` blocks of output. -/
def squeeze (rate : Nat) : Nat → Lanes → Bytes
  | 0, _ => []
  | n + 1, a => (laneBytes a).take rate ++ squeeze rate n (keccak a)

/-- The sponge with a rate in bytes and the bits that end a message, padded by `10*1`. -/
def sponge (rate : Nat) (ends : Byte) (m : Bytes) (n : Nat) : Bytes :=
  let short := rate - m.length % rate - 1
  let p := m ++ (if short = 0 then [ends ^^^ 0x80] else ends :: zeros (short - 1) ++ [0x80])
  (squeeze rate (n / rate + 1) ((chunks rate p.length p).foldl absorb (List.replicate 25 0))).take n

def sha3 (n : Nat) (m : Bytes) : Bytes := sponge (200 - 2 * n) 6 m n
def shake128 (m : Bytes) (n : Nat) : Bytes := sponge 168 0x1F m n
def shake256 (m : Bytes) (n : Nat) : Bytes := sponge 136 0x1F m n

end Sys2Proof.Std
end

