-- ==== Sys2Proof/Machine/Curve.lean ====
section
/-! DEFINITION. The curve algorithms: X25519 (RFC 7748), Ed25519 (RFC 8032), and ECDH and ECDSA on the NIST curves
(SP 800-56A, FIPS 186-5), from those standards (PRESUMED, log 3), with the group equation of R332. -/

namespace Sys2Proof.Std

open Sys2Proof.Machine

/-- `b ^ e` modulo `m`, for an exponent of at most `n` bits. -/
def powMod (m : Nat) : Nat → Nat → Nat → Nat
  | 0, _, _ => 1 % m
  | n + 1, b, e =>
    let r := powMod m n (b * b % m) (e / 2)
    if e % 2 = 1 then r * b % m else r

/-- The inverse modulo a prime. -/
def invMod (p x : Nat) : Nat := powMod p 528 x (p - 2)

/-- Subtraction modulo `p` of reduced numbers. -/
def subMod (p a b : Nat) : Nat := (a + (p - b % p)) % p

/-- A number from little-endian bytes. -/
def leNat (b : Bytes) : Nat := beNat b.reverse

/-! ### Curve25519 -/

def p25519 : Nat := 2 ^ 255 - 19

/-- The clamped scalar of 32 bytes. -/
def clamp (k : Bytes) : Nat := leNat k / 8 * 8 % 2 ^ 254 + 2 ^ 254

/-- Projective u-coordinates of the double of a point. -/
def montDbl (x z : Nat) : Nat × Nat :=
  let p := p25519
  let s := (x + z) * (x + z) % p
  let d := subMod p x z * subMod p x z % p
  let e := subMod p s d
  (s * d % p, e * (d + 121666 * e) % p)

/-- One step of the ladder: from `P` and `P + Q1` to `2 P` and `2 P + Q1`. -/
def ladderStep (u : Nat) (a b : Nat × Nat) : (Nat × Nat) × (Nat × Nat) :=
  let p := p25519
  let da := subMod p b.1 b.2 * (a.1 + a.2) % p
  let cb := (b.1 + b.2) * subMod p a.1 a.2 % p
  let s := da + cb
  let d := subMod p da cb
  (montDbl a.1 a.2, (s * s % p, u * (d * d % p) % p))

/-- The Montgomery ladder over the low `n` bits of `k`. -/
def ladder (u k : Nat) : Nat → (Nat × Nat) → (Nat × Nat) → Nat × Nat
  | 0, a, _ => a
  | n + 1, a, b =>
    if k.testBit n then
      let r := ladderStep u b a
      ladder u k n r.2 r.1
    else
      let r := ladderStep u a b
      ladder u k n r.1 r.2

/-- The u-coordinate that 32 bytes spell, its top bit masked, reduced. -/
def uCoord (u : Bytes) : Nat := leNat u % 2 ^ 255 % p25519

def x25519 (k u : Bytes) : Bytes :=
  let x := uCoord u
  let r := ladder x (clamp k) 255 (1, 0) (x, 1)
  le 32 (r.1 * invMod p25519 r.2 % p25519)

/-- Whether three doublings of a point end at infinity: its order is 1, 2, 4 or 8. -/
def xSmall (u : Bytes) : Bool :=
  let a := montDbl (uCoord u) 1
  let b := montDbl a.1 a.2
  (montDbl b.1 b.2).2 == 0

/-! ### Ed25519 -/

/-- The constant of the curve. -/
def edD : Nat := subMod p25519 0 (121665 * invMod p25519 121666 % p25519)

/-- A point in extended coordinates. -/
structure EdPoint where
  x : Nat
  y : Nat
  z : Nat
  t : Nat
  deriving DecidableEq, Repr

def edZero : EdPoint := { x := 0, y := 1, z := 1, t := 0 }

def edAdd (a b : EdPoint) : EdPoint :=
  let p := p25519
  let r := subMod p a.y a.x * subMod p b.y b.x % p
  let s := (a.y + a.x) * (b.y + b.x) % p
  let c := 2 * a.t * b.t % p * edD % p
  let d := 2 * a.z * b.z % p
  let e := subMod p s r
  let f := subMod p d c
  let g := d + c
  let h := s + r
  { x := e * f % p, y := g * h % p, z := f * g % p, t := e * h % p }

/-- A multiple by the low `n` bits of a scalar. -/
def edMul (k : Nat) (a : EdPoint) : Nat → EdPoint → EdPoint
  | 0, r => r
  | n + 1, r =>
    let d := edAdd r r
    edMul k a n (if k.testBit n then edAdd d a else d)

/-- The point with a y-coordinate and the low bit of its x, if there is one (RFC 8032, 5.1.3). -/
def edPoint (b : Bytes) : Option EdPoint :=
  let p := p25519
  let v := leNat b
  let y := v % 2 ^ 255
  let odd := v / 2 ^ 255 % 2
  let yy := y * y % p
  let n := subMod p yy 1
  let d := (edD * yy + 1) % p
  let c := n * (d * d % p * d % p) % p * powMod p 256 (n * powMod p 3 d 7 % p) ((p - 5) / 8) % p
  let x := if d * (c * c % p) % p = n then c else c * powMod p 256 2 ((p - 1) / 4) % p
  if p ≤ y ∨ d * (x * x % p) % p ≠ n ∨ (x = 0 ∧ odd = 1) then none
  else
    let x := if x % 2 = odd then x else p - x
    some { x := x, y := y, z := 1, t := x * y % p }

def edBytes (a : EdPoint) : Bytes :=
  let i := invMod p25519 a.z
  le 32 (a.y * i % p25519 + a.x * i % p25519 % 2 * 2 ^ 255)

/-- The base point. -/
def edBase : EdPoint :=
  let x := 0x216936D3CD6E53FEC0A4E231FDD6DC5C692CC7609525A7B2C9562D608F25D51A
  let y := 0x6666666666666666666666666666666666666666666666666666666666666658
  { x := x, y := y, z := 1, t := x * y % p25519 }

/-- The order of the base point. -/
def edL : Nat := 2 ^ 252 + 27742317777372353535851937790883648493

/-- The multiple of the base point by a scalar. -/
def edBaseMul (k : Nat) : EdPoint := edMul k edBase 256 edZero

def edPub (seed : Bytes) : Bytes := edBytes (edBaseMul (clamp ((sha512 seed).take 32)))

def edSign (seed m : Bytes) : Bytes :=
  let h := sha512 seed
  let a := clamp (h.take 32)
  let r := leNat (sha512 (h.drop 32 ++ m)) % edL
  let rb := edBytes (edBaseMul r)
  let k := leNat (sha512 (rb ++ edPub seed ++ m)) % edL
  rb ++ le 32 ((r + k * a) % edL)

/-- Whether two points are equal. -/
def edEq (a b : EdPoint) : Bool :=
  a.x * b.z % p25519 == b.x * a.z % p25519 && a.y * b.z % p25519 == b.y * a.z % p25519

/-- Verification with the cofactor: `[8][S]B = [8]R + [8][k]A` (R332). -/
def edVerify (pub m sig : Bytes) : Bool :=
  let s := leNat (sig.drop 32)
  match edPoint pub, edPoint (sig.take 32) with
  | some a, some r =>
    let k := leNat (sha512 (sig.take 32 ++ pub ++ m)) % edL
    let by8 := fun (q : EdPoint) => edMul 8 q 4 edZero
    decide (sig.length = 64 ∧ s < edL) && edEq (by8 (edBaseMul s)) (by8 (edAdd r (edMul k a 256 edZero)))
  | _, _ => false

/-- Whether a point has order 1, 2, 4 or 8. -/
def edSmall (b : Bytes) : Bool :=
  match edPoint b with
  | some a => edEq (edMul 8 a 4 edZero) edZero
  | none => false

/-! ### The NIST curves: `y² = x³ - 3 x + b` -/

/-- A curve: its prime, `b`, base point and order. -/
structure Curve where
  p : Nat
  b : Nat
  x : Nat
  y : Nat
  n : Nat
  deriving DecidableEq, Repr

def curve256 : Curve :=
  { p := 0xFFFFFFFF00000001000000000000000000000000FFFFFFFFFFFFFFFFFFFFFFFF
    b := 0x5AC635D8AA3A93E7B3EBBD55769886BC651D06B0CC53B0F63BCE3C3E27D2604B
    x := 0x6B17D1F2E12C4247F8BCE6E563A440F277037D812DEB33A0F4A13945D898C296
    y := 0x4FE342E2FE1A7F9B8EE7EB4A7C0F9E162BCE33576B315ECECBB6406837BF51F5
    n := 0xFFFFFFFF00000000FFFFFFFFFFFFFFFFBCE6FAADA7179E84F3B9CAC2FC632551 }
def curve384 : Curve :=
  { p := 0xFFFFFFFFFFFFFFFFFFFFFFFFFFFFFFFFFFFFFFFFFFFFFFFFFFFFFFFFFFFFFFFEFFFFFFFF0000000000000000FFFFFFFF
    b := 0xB3312FA7E23EE7E4988E056BE3F82D19181D9C6EFE8141120314088F5013875AC656398D8A2ED19D2A85C8EDD3EC2AEF
    x := 0xAA87CA22BE8B05378EB1C71EF320AD746E1D3B628BA79B9859F741E082542A385502F25DBF55296C3A545E3872760AB7
    y := 0x3617DE4A96262C6F5D9E98BF9292DC29F8F41DBD289A147CE9DA3113B5F0B8C00A60B1CE1D7E819D7A431D7C90EA0E5F
    n := 0xFFFFFFFFFFFFFFFFFFFFFFFFFFFFFFFFFFFFFFFFFFFFFFFFC7634D81F4372DDF581A0DB248B0A77AECEC196ACCC52973 }
def curve521 : Curve :=
  { p := 0x1FFFFFFFFFFFFFFFFFFFFFFFFFFFFFFFFFFFFFFFFFFFFFFFFFFFFFFFFFFFFFFFFFFFFFFFFFFFFFFFFFFFFFFFFFFFFFFFFFFFFFFFFFFFFFFFFFFFFFFFFFFFFFFFFFF
    b := 0x51953EB9618E1C9A1F929A21A0B68540EEA2DA725B99B315F3B8B489918EF109E156193951EC7E937B1652C0BD3BB1BF073573DF883D2C34F1EF451FD46B503F00
    x := 0xC6858E06B70404E9CD9E3ECB662395B4429C648139053FB521F828AF606B4D3DBAA14B5E77EFE75928FE1DC127A2FFA8DE3348B3C1856A429BF97E7E31C2E5BD66
    y := 0x11839296A789A3BC0045C8A5FB42C7D1BD998F54449579B446817AFBD17273E662C97EE72995EF42640C550B9013FAD0761353C7086A272C24088BE94769FD16650
    n := 0x1FFFFFFFFFFFFFFFFFFFFFFFFFFFFFFFFFFFFFFFFFFFFFFFFFFFFFFFFFFFFFFFFFA51868783BF2F966B7FCC0148F709A5D03BB5C9B8899C47AEBB6FB71E91386409 }

/-- The curves by number: 0 P-256, 1 P-384, 2 P-521. -/
def curveOf (c : Nat) : Curve := if c = 0 then curve256 else if c = 1 then curve384 else curve521

/-- A point in Jacobian coordinates; `z = 0` at infinity. -/
structure JPoint where
  x : Nat
  y : Nat
  z : Nat
  deriving DecidableEq, Repr

def jZero : JPoint := { x := 1, y := 1, z := 0 }

def jDbl (p : Nat) (a : JPoint) : JPoint :=
  let d := a.z * a.z % p
  let g := a.y * a.y % p
  let b := a.x * g % p
  let al := 3 * (subMod p a.x d * (a.x + d) % p) % p
  let x := subMod p (al * al % p) (8 * b)
  { x := x, y := subMod p (al * subMod p (4 * b) x % p) (8 * (g * g % p)), z := 2 * a.y * a.z % p }

def jAdd (p : Nat) (a b : JPoint) : JPoint :=
  if a.z = 0 then b
  else if b.z = 0 then a
  else
    let za := a.z * a.z % p
    let zb := b.z * b.z % p
    let u := a.x * zb % p
    let s := a.y * b.z % p * zb % p
    let h := subMod p (b.x * za % p) u
    let r := subMod p (b.y * a.z % p * za % p) s
    if h = 0 then (if r = 0 then jDbl p a else jZero)
    else
      let hh := h * h % p
      let hhh := h * hh % p
      let v := u * hh % p
      let x := subMod p (r * r % p) (hhh + 2 * v)
      { x := x, y := subMod p (r * subMod p v x % p) (s * hhh % p), z := h * a.z % p * b.z % p }

def jMul (p k : Nat) (a : JPoint) : Nat → JPoint → JPoint
  | 0, r => r
  | n + 1, r =>
    let d := jDbl p r
    jMul p k a n (if k.testBit n then jAdd p d a else d)

/-- A multiple of a point by a scalar of at most 521 bits. -/
def ecMul (c : Curve) (k x y : Nat) : JPoint := jMul c.p k { x := x, y := y, z := 1 } 521 jZero

/-- The affine coordinates of a point that is not at infinity. -/
def affine (c : Curve) (a : JPoint) : Nat × Nat :=
  let i := invMod c.p a.z
  let ii := i * i % c.p
  (a.x * ii % c.p, a.y * (ii * i % c.p) % c.p)

/-- x || y of the public point of a scalar, `n` bytes a coordinate. -/
def ecPub (c : Curve) (n : Nat) (k : Bytes) : Bytes :=
  let a := affine c (ecMul c (beNat k) c.x c.y)
  be n a.1 ++ be n a.2

/-- Whether x || y is a point of the curve (R331). -/
def ecPointOk (c : Curve) (n : Nat) (b : Bytes) : Bool :=
  let x := beNat (b.take n)
  let y := beNat (b.drop n)
  decide (b.length = 2 * n ∧ x < c.p ∧ y < c.p) && y * y % c.p == (x * x % c.p * x + 3 * (c.p - x) + c.b) % c.p

/-- The x-coordinate of the shared point. -/
def ecdh (c : Curve) (n : Nat) (k b : Bytes) : Bytes :=
  be n (affine c (ecMul c (beNat k) (beNat (b.take n)) (beNat (b.drop n)))).1

/-- The number of a digest: its leftmost bits, as many as the order has. -/
def ecHash (c : Curve) (dg : Bytes) : Nat := beNat dg / 2 ^ (8 * dg.length - (Nat.log2 c.n + 1))

/-- r || s; the per-signature secret comes from random bytes as FIPS 186-5, A.3.1, takes it. -/
def ecdsaSign (c : Curve) (n : Nat) (d dg rnd : Bytes) : Bytes :=
  let k := beNat rnd % (c.n - 1) + 1
  let r := (affine c (ecMul c k c.x c.y)).1 % c.n
  let s := invMod c.n k * ((ecHash c dg + r * beNat d) % c.n) % c.n
  be n r ++ be n s

def ecdsaVerify (c : Curve) (n : Nat) (pub dg sig : Bytes) : Bool :=
  let r := beNat (sig.take n)
  let s := beNat (sig.drop n)
  let w := invMod c.n s
  let q := jAdd c.p (ecMul c (ecHash c dg * w % c.n) c.x c.y)
    (ecMul c (r * w % c.n) (beNat (pub.take n)) (beNat (pub.drop n)))
  decide (0 < r ∧ r < c.n ∧ 0 < s ∧ s < c.n ∧ q.z ≠ 0) && (affine c q).1 % c.n == r

end Sys2Proof.Std
end

