-- ==== Sys2Proof/Machine/Lattice.lean ====
section
/-! DEFINITION. ML-KEM (FIPS 203) and ML-DSA (FIPS 204), from those standards (PRESUMED, log 3). A polynomial is the
list of its 256 coefficients, each below the modulus; the loops of rejection have the bounds of the standards. -/

namespace Sys2Proof.Std

open Sys2Proof.Machine

abbrev Poly := List Nat

/-! ### Polynomials -/

def polyZero : Poly := List.replicate 256 0
def polyAdd (q : Nat) (a b : Poly) : Poly := List.zipWith (fun x y => (x + y) % q) a b
def polySub (q : Nat) (a b : Poly) : Poly := List.zipWith (subMod q) a b
def polySum (q : Nat) (l : List Poly) : Poly := l.foldl (polyAdd q) polyZero

/-- The low `n` bits of a number in reverse. -/
def revBits : Nat → Nat → Nat
  | 0, _ => 0
  | n + 1, v => v % 2 * 2 ^ n + revBits n (v / 2)

/-- A number theoretic transform of `n` levels from node `k`: `z` gives the root of a node. -/
def ntt (q : Nat) (z : Nat → Nat) : Nat → Nat → Poly → Poly
  | 0, _, a => a
  | n + 1, k, a =>
    let h := a.length / 2
    let b := (a.drop h).map (fun x => x * z k % q)
    ntt q z n (2 * k) (polyAdd q (a.take h) b) ++ ntt q z n (2 * k + 1) (polySub q (a.take h) b)

/-- Its inverse: `y` gives the inverse of half the root of a node. -/
def nttInv (q : Nat) (z : Nat → Nat) : Nat → Nat → Poly → Poly
  | 0, _, a => a
  | n + 1, k, a =>
    let h := a.length / 2
    let b := nttInv q z n (2 * k) (a.take h)
    let c := nttInv q z n (2 * k + 1) (a.drop h)
    let half := (q + 1) / 2
    let w := half * powMod q 24 (z k) (q - 2) % q
    (polyAdd q b c).map (fun x => x * half % q) ++ (polySub q b c).map (fun x => x * w % q)

/-- Numbers of `d` bits, the first in the lowest bits. -/
def packBits (d : Nat) (a : List Nat) : Bytes := le (d * a.length / 8) (a.foldr (fun x v => x + 2 ^ d * v) 0)
def unpackBits (d n : Nat) (b : Bytes) : List Nat :=
  let v := leNat b
  (List.range n).map (fun i => v / 2 ^ (d * i) % 2 ^ d)

/-- The first 256 values that pass. -/
def firstPoly (l : List Nat) : Poly := (l ++ polyZero).take 256

/-! ### ML-KEM: `big` is ML-KEM-1024, otherwise ML-KEM-768 -/

def kemQ : Nat := 3329
def kemK (big : Bool) : Nat := if big then 4 else 3
def kemDu (big : Bool) : Nat := if big then 11 else 10
def kemDv (big : Bool) : Nat := if big then 5 else 4

def kemRoot (k : Nat) : Nat := powMod kemQ 8 17 (revBits 7 k)
def kemNtt (a : Poly) : Poly := ntt kemQ kemRoot 7 1 a
def kemInv (a : Poly) : Poly := nttInv kemQ kemRoot 7 1 a

/-- The product of two transforms, from pair `i`. -/
def kemPairs : Nat → Poly → Poly → Poly
  | i, a :: b :: as, c :: d :: cs =>
    let g := powMod kemQ 8 17 (2 * revBits 7 i + 1)
    (a * c + b * d % kemQ * g) % kemQ :: (a * d + b * c) % kemQ :: kemPairs (i + 1) as cs
  | _, _, _ => []

def kemDot (a b : List Poly) : Poly := polySum kemQ (List.zipWith (kemPairs 0) a b)

/-- The values that three bytes hold, below the modulus. -/
def kemTriples : Bytes → List Nat
  | a :: b :: c :: l =>
    let x := a.toNat + 256 * (b.toNat % 16)
    let y := b.toNat / 16 + 16 * c.toNat
    (if x < kemQ then [x] else []) ++ (if y < kemQ then [y] else []) ++ kemTriples l
  | _ => []

/-- Row `i` of the matrix, or its column `i`. -/
def kemRow (big : Bool) (rho : Bytes) (column : Bool) (i : Nat) : List Poly :=
  (List.range (kemK big)).map (fun j =>
    firstPoly (kemTriples (shake128 (rho ++ (if column then be 1 i ++ be 1 j else be 1 j ++ be 1 i)) 840)))

/-- A polynomial of the centred binomial distribution with η = 2 (both parameter sets). -/
def kemNoise (seed : Bytes) (n : Nat) : Poly :=
  (unpackBits 4 256 (shake256 (seed ++ be 1 n) 128)).map (fun x =>
    subMod kemQ (x % 2 + x / 2 % 2) (x / 4 % 2 + x / 8))

def kemNoises (big : Bool) (seed : Bytes) (n : Nat) : List Poly :=
  (List.range (kemK big)).map (fun i => kemNoise seed (n + i))

def compress (d x : Nat) : Nat := (2 ^ (d + 1) * x + kemQ) / (2 * kemQ) % 2 ^ d
def decompress (d y : Nat) : Nat := (kemQ * y + 2 ^ (d - 1)) / 2 ^ d

/-- The transform of the secret and the encapsulation key of a seed (d, z). -/
def kemPair (big : Bool) (seed : Bytes) : List Poly × Bytes :=
  let g := sha3 64 (seed.take 32 ++ be 1 (kemK big))
  let s := (kemNoises big (g.drop 32) 0).map kemNtt
  let e := (kemNoises big (g.drop 32) (kemK big)).map kemNtt
  let t := (List.range (kemK big)).map (fun i =>
    polyAdd kemQ (kemDot (kemRow big (g.take 32) false i) s) (e.getD i []))
  (s, t.flatMap (packBits 12) ++ g.take 32)

def kemPub (big : Bool) (seed : Bytes) : Bytes := (kemPair big seed).2

/-- The polynomials of an encapsulation key. -/
def kemVector (big : Bool) (ek : Bytes) : List Poly :=
  (List.range (kemK big)).map (fun i => unpackBits 12 256 (slice ek (384 * i) 384))

/-- The input check of an encapsulation key: its length and the modulus. -/
def kemEkOk (big : Bool) (ek : Bytes) : Bool :=
  ek.length == 384 * kemK big + 32 && (kemVector big ek).all (fun a => a.all (fun x => decide (x < kemQ)))

def kemEncrypt (big : Bool) (ek m r : Bytes) : Bytes :=
  let k := kemK big
  let rho := ek.drop (384 * k)
  let y := (kemNoises big r 0).map kemNtt
  let u := (List.range k).map (fun i =>
    polyAdd kemQ (kemInv (kemDot (kemRow big rho true i) y)) (kemNoise r (k + i)))
  let mu := (unpackBits 1 256 m).map (decompress 1)
  let v := polyAdd kemQ (polyAdd kemQ (kemInv (kemDot (kemVector big ek) y)) (kemNoise r (2 * k))) mu
  u.flatMap (fun a => packBits (kemDu big) (a.map (compress (kemDu big)))) ++
    packBits (kemDv big) (v.map (compress (kemDv big)))

/-- The ciphertext and the shared secret. -/
def kemEncaps (big : Bool) (ek m : Bytes) : Bytes × Bytes :=
  let g := sha3 64 (m ++ sha3 32 ek)
  (kemEncrypt big ek m (g.drop 32), g.take 32)

/-- Decapsulation with implicit rejection (R333). -/
def kemDecaps (big : Bool) (seed c : Bytes) : Bytes :=
  let k := kemK big
  let du := kemDu big
  let pair := kemPair big seed
  let u := (List.range k).map (fun i => (unpackBits du 256 (slice c (32 * du * i) (32 * du))).map (decompress du))
  let v := (unpackBits (kemDv big) 256 (c.drop (32 * du * k))).map (decompress (kemDv big))
  let w := polySub kemQ v (kemInv (kemDot pair.1 (u.map kemNtt)))
  let m := packBits 1 (w.map (compress 1))
  let g := sha3 64 (m ++ sha3 32 pair.2)
  if kemEncrypt big pair.2 m (g.drop 32) = c then g.take 32 else shake256 (seed.drop 32 ++ c) 32

/-! ### ML-DSA: `big` is ML-DSA-87, otherwise ML-DSA-65 -/

def dsaQ : Nat := 8380417
def dsaK (big : Bool) : Nat := if big then 8 else 6
def dsaL (big : Bool) : Nat := if big then 7 else 5
def dsaEta (big : Bool) : Nat := if big then 2 else 4
def dsaTau (big : Bool) : Nat := if big then 60 else 49
def dsaBeta (big : Bool) : Nat := dsaTau big * dsaEta big
def dsaOmega (big : Bool) : Nat := if big then 75 else 55
/-- Length of the commitment hash. -/
def dsaC (big : Bool) : Nat := if big then 64 else 48
def gamma1 : Nat := 2 ^ 19
def gamma2 : Nat := (dsaQ - 1) / 32

def dsaRoot (k : Nat) : Nat := powMod dsaQ 8 1753 (revBits 8 k)
def dsaNtt (a : Poly) : Poly := ntt dsaQ dsaRoot 8 1 a
def dsaInv (a : Poly) : Poly := nttInv dsaQ dsaRoot 8 1 a
def dsaMul (a b : Poly) : Poly := List.zipWith (fun x y => x * y % dsaQ) a b
def dsaDot (a b : List Poly) : Poly := polySum dsaQ (List.zipWith dsaMul a b)

/-- The distance of a coefficient from zero, and the largest of a vector. -/
def centred (x : Nat) : Nat := min x (dsaQ - x)
def normOf (l : List Poly) : Nat := l.foldl (fun m a => a.foldl (fun m x => max m (centred x)) m) 0

def dsaTriples : Bytes → List Nat
  | a :: b :: c :: l =>
    let x := a.toNat + 256 * b.toNat + 65536 * (c.toNat % 128)
    (if x < dsaQ then [x] else []) ++ dsaTriples l
  | _ => []

/-- Row `i` of the matrix. -/
def dsaRow (big : Bool) (rho : Bytes) (i : Nat) : List Poly :=
  (List.range (dsaL big)).map (fun j => firstPoly (dsaTriples (shake128 (rho ++ be 1 j ++ be 1 i) 894)))

/-- The small coefficient that half a byte gives, if any. -/
def dsaSmall (big : Bool) (x : Nat) : List Nat :=
  if big then (if x < 15 then [subMod dsaQ 2 (x % 5)] else []) else (if x < 9 then [subMod dsaQ 4 x] else [])

def dsaNoise (big : Bool) (seed : Bytes) (n : Nat) : Poly :=
  firstPoly ((shake256 (seed ++ le 2 n) 481).flatMap (fun b =>
    dsaSmall big (b.toNat % 16) ++ dsaSmall big (b.toNat / 16)))

/-- What a seed expands to: ρ, K, s1, s2 and t. -/
structure DsaKey where
  rho : Bytes
  k   : Bytes
  s1  : List Poly
  s2  : List Poly
  t   : List Poly
  deriving DecidableEq, Repr

def dsaExpand (big : Bool) (seed : Bytes) : DsaKey :=
  let h := shake256 (seed ++ be 1 (dsaK big) ++ be 1 (dsaL big)) 128
  let s1 := (List.range (dsaL big)).map (dsaNoise big (slice h 32 64))
  let s2 := (List.range (dsaK big)).map (fun i => dsaNoise big (slice h 32 64) (dsaL big + i))
  let n := s1.map dsaNtt
  { rho := h.take 32, k := h.drop 96, s1 := s1, s2 := s2
    t := (List.range (dsaK big)).map (fun i =>
      polyAdd dsaQ (dsaInv (dsaDot (dsaRow big (h.take 32) i) n)) (s2.getD i [])) }

/-- The high part of a coefficient of t, and its low part. -/
def t1Of (x : Nat) : Nat := (x + 4095) / 8192
def t0Of (x : Nat) : Nat := subMod dsaQ x (8192 * t1Of x)

def dsaPubOf (x : DsaKey) : Bytes := x.rho ++ x.t.flatMap (fun a => packBits 10 (a.map t1Of))
def dsaPub (big : Bool) (seed : Bytes) : Bytes := dsaPubOf (dsaExpand big seed)

/-- The high bits of a coefficient, and its low part. -/
def highBits (x : Nat) : Nat := (x + gamma2 - 1) / (2 * gamma2) % 16
def lowBits (x : Nat) : Nat := subMod dsaQ x (2 * gamma2 * highBits x)

/-- The challenge: `i` from `256 - tau` on, from the bytes and sign bits that are left. -/
def ballFrom : Nat → Nat → Nat → Bytes → Poly → Poly
  | 0, _, _, _, c => c
  | n + 1, i, signs, b, c =>
    let l := b.dropWhile (fun x => decide (i < x.toNat))
    let j := (l.headD 0).toNat
    let c := c.set i (c.getD j 0)
    ballFrom n (i + 1) (signs / 2) (l.drop 1) (c.set j (if signs % 2 = 1 then dsaQ - 1 else 1))

def sampleInBall (big : Bool) (seed : Bytes) : Poly :=
  let b := shake256 seed 221
  ballFrom (dsaTau big) (256 - dsaTau big) (leNat (b.take 8)) (b.drop 8) polyZero

/-- Coefficients in the form `gamma1 - x`. -/
def maskOf (b : Bytes) : Poly := (unpackBits 20 256 b).map (fun v => subMod dsaQ gamma1 v)
def packZ (a : Poly) : Bytes := packBits 20 (a.map (fun x => subMod dsaQ gamma1 x))
def packW (l : List Poly) : Bytes := l.flatMap (packBits 4)

/-- The places of the hints, and after them where each polynomial's places end. -/
def packHint (big : Bool) (h : List (List Bool)) : Bytes :=
  let at_ := h.map (fun p => (List.range 256).filter (fun i => p.getD i false))
  let ends := (List.range (dsaK big)).map (fun i => ((at_.take (i + 1)).map List.length).foldl (· + ·) 0)
  ((at_.flatten ++ List.replicate (dsaOmega big) 0).take (dsaOmega big) ++ ends).map (BitVec.ofNat 8)

/-- Whether numbers rise. -/
def rises : List Nat → Bool
  | a :: b :: l => decide (a < b) && rises (b :: l)
  | _ => true

/-- The places of the hints of each polynomial; none where the encoding is malformed. -/
def unpackHint (big : Bool) (b : Bytes) : Option (List (List Nat)) :=
  let o := dsaOmega big
  let v := b.map (fun x => x.toNat)
  let ends := 0 :: v.drop o
  let parts := (List.range (dsaK big)).map (fun i => ((v.take (ends.getD (i + 1) 0)).drop (ends.getD i 0)))
  let sorted := (List.range (dsaK big)).all (fun i => decide (ends.getD i 0 ≤ ends.getD (i + 1) 0 ∧ ends.getD (i + 1) 0 ≤ o))
  if sorted && parts.all rises && ((v.take o).drop (ends.getLastD 0)).all (· == 0) then some parts else none

/-- The message representative of a pure signature with its context string. -/
def dsaMu (pub ctx m : Bytes) : Bytes := shake256 (shake256 pub 64 ++ [0] ++ be 1 ctx.length ++ ctx ++ m) 64

/-- One iteration of the signature with counter `kappa`: the signature, if it is accepted. -/
def dsaTry (big : Bool) (x : DsaKey) (a : List (List Poly)) (mu seed : Bytes) (kappa : Nat) : Option Bytes :=
  let y := (List.range (dsaL big)).map (fun r => maskOf (shake256 (seed ++ le 2 (kappa + r)) 640))
  let yn := y.map dsaNtt
  let w := a.map (fun row => dsaInv (dsaDot row yn))
  let ct := shake256 (mu ++ packW (w.map (fun p => p.map highBits))) (dsaC big)
  let c := dsaNtt (sampleInBall big ct)
  let by_ := fun (p : Poly) => dsaInv (dsaMul c (dsaNtt p))
  let z := List.zipWith (fun p s => polyAdd dsaQ p (by_ s)) y x.s1
  let r := List.zipWith (fun p s => polySub dsaQ p (by_ s)) w x.s2
  let t0 := x.t.map (fun p => by_ (p.map t0Of))
  let h := List.zipWith (fun p t => List.zipWith (fun u v => highBits u != highBits ((u + v) % dsaQ)) p t) r t0
  let ones := h.foldl (fun n p => n + p.countP id) 0
  if normOf z < gamma1 - dsaBeta big ∧ normOf (r.map (fun p => p.map lowBits)) < gamma2 - dsaBeta big ∧
      normOf t0 < gamma2 ∧ ones ≤ dsaOmega big then
    some (ct ++ z.flatMap packZ ++ packHint big h)
  else none

/-- At most `n` iterations. -/
def dsaLoop (big : Bool) (x : DsaKey) (a : List (List Poly)) (mu seed : Bytes) : Nat → Nat → Bytes
  | 0, _ => []
  | n + 1, kappa =>
    match dsaTry big x a mu seed kappa with
    | some s => s
    | none => dsaLoop big x a mu seed n (kappa + dsaL big)

/-- The signature of a message with a context string; `rnd` is 32 random bytes. -/
def dsaSign (big : Bool) (seed ctx m rnd : Bytes) : Bytes :=
  let x := dsaExpand big seed
  let mu := dsaMu (dsaPubOf x) ctx m
  let a := (List.range (dsaK big)).map (dsaRow big x.rho)
  dsaLoop big x a mu (shake256 (x.k ++ rnd ++ mu) 64) 814 0

/-- The high bits that a hint corrects. -/
def useHint (hint : Bool) (x : Nat) : Nat :=
  let low := lowBits x
  if hint = false then highBits x
  else if 0 < low ∧ low ≤ gamma2 then (highBits x + 1) % 16
  else (highBits x + 15) % 16

def dsaVerify (big : Bool) (pub ctx m sig : Bytes) : Bool :=
  let cl := dsaC big
  let ct := sig.take cl
  let z := (List.range (dsaL big)).map (fun i => maskOf (slice sig (cl + 640 * i) 640))
  match unpackHint big (sig.drop (cl + 640 * dsaL big)) with
  | none => false
  | some h =>
    let c := dsaNtt (sampleInBall big ct)
    let zn := z.map dsaNtt
    let w := (List.range (dsaK big)).map (fun i =>
      let t := (unpackBits 10 256 (slice (pub.drop 32) (320 * i) 320)).map (fun v => v * 8192)
      let r := dsaInv (polySub dsaQ (dsaDot (dsaRow big (pub.take 32) i) zn) (dsaMul c (dsaNtt t)))
      let at_ := h.getD i []
      (r.zipIdx).map (fun e => useHint (at_.contains e.2) e.1))
    decide (normOf z < gamma1 - dsaBeta big) && shake256 (dsaMu pub ctx m ++ packW w) cl == ct

end Sys2Proof.Std
end

