-- ==== Sys2Proof/Machine/Rsa.lean ====
section
/-! DEFINITION. The RSA algorithms of RFC 8017 with the public exponent 65,537 (R170): PSS with a salt as long as the
hash, and OAEP (R112), from that standard (PRESUMED, log 3). A hash is given with its output length. -/

namespace Sys2Proof.Std

open Sys2Proof.Machine

/-- The bits of a modulus. -/
def modBits (n : Nat) : Nat := Nat.log2 n + 1

/-- The mask generation function MGF1. -/
def mgf1 (hf : Bytes → Bytes) (hl : Nat) (seed : Bytes) (n : Nat) : Bytes :=
  ((List.range (ceilDiv n hl)).flatMap (fun i => hf (seed ++ be 4 i))).take n

/-- The public operation on a representative. -/
def rsaPublic (n v : Nat) : Nat := powMod n 17 v 65537

/-- The private operation, from its two halves (R329). Material: n, e, p, q, dp, dq, qinv (R170). -/
def rsaPrivate (key : Bytes) (len v : Nat) : Nat :=
  let h := len / 2
  let at_ := fun (i : Nat) => fld key (len + 4 + i * h) h
  let a := powMod (at_ 0) (8 * h) (v % at_ 0) (at_ 2)
  let b := powMod (at_ 1) (8 * h) (v % at_ 1) (at_ 3)
  b + at_ 4 * subMod (at_ 0) a b % at_ 0 * at_ 1

/-- The masked data block of PSS, with the bits above `bits` cleared. -/
def pssMask (hf : Bytes → Bytes) (hl bits : Nat) (db h : Bytes) : Bytes :=
  be db.length (beNat (List.zipWith (· ^^^ ·) db (mgf1 hf hl h db.length)) % 2 ^ (bits - 8 * (hl + 1)))

/-- The encoded message of PSS of `bits` bits. -/
def pssEncode (hf : Bytes → Bytes) (hl bits : Nat) (dg salt : Bytes) : Bytes :=
  let len := ceilDiv bits 8
  let h := hf (zeros 8 ++ dg ++ salt)
  let db := zeros (len - 2 * hl - 2) ++ [1] ++ salt
  pssMask hf hl bits db h ++ h ++ [0xBC]

def pssSign (hf : Bytes → Bytes) (hl len : Nat) (key dg salt : Bytes) : Bytes :=
  be len (rsaPrivate key len (beNat (pssEncode hf hl (modBits (beNat (key.take len)) - 1) dg salt)))

/-- PSS verification: the encoded message spells a salt, and is what that salt gives. -/
def pssVerify (hf : Bytes → Bytes) (hl : Nat) (modulus dg sig : Bytes) : Bool :=
  let n := beNat modulus
  let bits := modBits n - 1
  let len := ceilDiv bits 8
  let v := rsaPublic n (beNat sig)
  let em := be len v
  let h := (em.drop (len - hl - 1)).take hl
  let db := pssMask hf hl bits (em.take (len - hl - 1)) h
  decide (v < 2 ^ bits ∧ 2 * hl + 2 ≤ len) && em == pssEncode hf hl bits dg (db.drop (len - 2 * hl - 1))

/-- The encoded message of OAEP of `len` bytes. -/
def oaepEncode (hf : Bytes → Bytes) (hl len : Nat) (label m seed : Bytes) : Bytes :=
  let db := hf label ++ zeros (len - m.length - 2 * hl - 2) ++ [1] ++ m
  let masked := List.zipWith (· ^^^ ·) db (mgf1 hf hl seed db.length)
  [0] ++ List.zipWith (· ^^^ ·) seed (mgf1 hf hl masked hl) ++ masked

def oaepEncrypt (hf : Bytes → Bytes) (hl len : Nat) (modulus label m seed : Bytes) : Bytes :=
  be len (rsaPublic (beNat modulus) (beNat (oaepEncode hf hl len label m seed)))

/-- OAEP decryption: the message, or none on a decoding error. -/
def oaepDecrypt (hf : Bytes → Bytes) (hl len : Nat) (key label c : Bytes) : Option Bytes :=
  let em := be len (rsaPrivate key len (beNat c))
  let masked := em.drop (hl + 1)
  let seed := List.zipWith (· ^^^ ·) (slice em 1 hl) (mgf1 hf hl masked hl)
  let db := List.zipWith (· ^^^ ·) masked (mgf1 hf hl seed masked.length)
  let rest := (db.drop hl).dropWhile (· == 0)
  if em.take 1 = [0] ∧ db.take hl = hf label ∧ rest.take 1 = [1] then some (rest.drop 1) else none

/-- The inverse of 65,537 modulo `m`. -/
def inv65537 (m : Nat) : Nat :=
  let e := 65537
  (1 + m * ((e - powMod e 17 (m % e) (e - 2)) % e)) / e

/-- Material from two primes: n, e, p, q, dp, dq, qinv (R170, R330). -/
def rsaMaterial (bits p q : Nat) : Bytes :=
  let h := bits / 16
  be (bits / 8) (p * q) ++ be 4 65537 ++ be h p ++ be h q ++ be h (inv65537 (p - 1)) ++ be h (inv65537 (q - 1)) ++
    be h (powMod p (8 * h) (q % p) (p - 2))

end Sys2Proof.Std
end

