-- ==== Sys2Proof/Config.lean ====
section
/-! DEFINITION. The values that the spec leaves open (free values, read by `State.fresh`; opaque, so that nothing can be
proved of one), and the algorithms of the published standards (00, Standards; log 3) as the model calls them: each with
the output length its standard fixes, and irreducible, so that a proof treats it as a function of its operands. -/

namespace Sys2Proof.Config

/-- A byte string cut or padded with zeros to `n` bytes: fixes the length of an opaque output. -/
def fixLen (n : Nat) (l : Bytes) : Bytes := (l ++ List.replicate n 0).take n

/-- Exclusive or of two byte strings, as long as the shorter. -/
def xorBytes (a b : Bytes) : Bytes := List.zipWith (· ^^^ ·) a b

/-- Free value: byte `i` of everything that the spec leaves open or takes from a noise source. -/
opaque freeByte : Nat → Byte

/-- Free value as a number. -/
opaque freeNat : Nat → Nat

/-- Free decision: a choice that the spec leaves open. -/
opaque freeBool : Nat → Bool

/-- How long the zeroisation of a unit of the cipher wing takes in nanoseconds, of its zeroisation and tests: the spec gives no
time (R313, R315; log 112). -/
opaque zeroiseTime : Nat

/-- Free value: a context of a mechanism in the clear, from its direction, counter, nonce, additional data and data so far: the
spec gives the size of a chaining state and not its layout (R302, R303; log 114). -/
opaque clearRaw : (mech dir counter : Nat) → (nonce aad history : Bytes) → Bytes

/-- A context in the clear fills its slot of the spill area. -/
def clearContext (mech dir counter : Nat) (nonce aad history : Bytes) : Bytes :=
  fixLen 256 (clearRaw mech dir counter nonce aad history)

/-- Free value: the counter and the data so far that a clear context of a mechanism stands for (R302; log 114). -/
opaque clearState : (mech : Nat) → Bytes → Nat × Bytes

/-- Free value: the bytes of the body of a journal record, whose layout R199 does not give (log 14). -/
opaque recordBody : MutBody → Bytes

/-- Free value: the nonce under which a journal record of a domain and number, or with number 0 a snapshot of the domain,
is sealed, which R199 and R255 do not give (log 14). -/
opaque recordNonce : Nat → Nat → Bytes

/-- Hash algorithms by the model's number: 0 SHA-256, 1 SHA-384, 2 SHA-512, 3 SHA3-256, 4 SHA3-512. -/
@[irreducible] def hashRaw (alg : Nat) (m : Bytes) : Bytes :=
  if alg = 0 then Std.sha256 m
  else if alg = 1 then Std.sha384 m
  else if alg = 2 then Std.sha512 m
  else if alg = 3 then Std.sha3 32 m
  else Std.sha3 64 m

/-- Output length of a hash, in bytes. -/
def hashLen (alg : Nat) : Nat := if alg = 0 ∨ alg = 3 then 32 else if alg = 1 then 48 else 64

/-- Block length of a hash (R146). -/
def hashBlock (alg : Nat) : Nat :=
  if alg = 0 then 64 else if alg = 1 ∨ alg = 2 then 128 else if alg = 3 then 136 else 72

/-- A hash of FIPS 180-4 or FIPS 202. -/
def hash (alg : Nat) (m : Bytes) : Bytes := fixLen (hashLen alg) (hashRaw alg m)

/-- SHA-512, used throughout. -/
def sha512 (m : Bytes) : Bytes := hash 2 m

/-- SHAKE128 (`false`) and SHAKE256 (`true`) of FIPS 202. -/
@[irreducible] def shakeRaw (big : Bool) (m : Bytes) (n : Nat) : Bytes :=
  if big then Std.shake256 m n else Std.shake128 m n

/-- A SHAKE output of `n` bytes. -/
def shake (big : Bool) (m : Bytes) (n : Nat) : Bytes := fixLen n (shakeRaw big m n)

/-- HMAC of FIPS 198-1 over one of the hashes. -/
def hmac (alg : Nat) (key m : Bytes) : Bytes :=
  let k := fixLen (hashBlock alg) (if key.length ≤ hashBlock alg then key else hash alg key)
  hash alg (k.map (· ^^^ 0x5C#8) ++ hash alg (k.map (· ^^^ 0x36#8) ++ m))

/-- HMAC-SHA-512. -/
def hmac512 (key m : Bytes) : Bytes := hmac 2 key m

/-- HKDF-Extract of RFC 5869 with SHA-512. -/
def hkdfExtract (salt ikm : Bytes) : Bytes := hmac512 salt ikm

/-- `n` blocks of HKDF-Expand, from block number `i`, after block `prev`. -/
def hkdfBlocks (prk info : Bytes) : Nat → Nat → Bytes → Bytes
  | 0, _, _ => []
  | n + 1, i, prev =>
    let t := hmac512 prk (prev ++ info ++ [BitVec.ofNat 8 i])
    t ++ hkdfBlocks prk info n (i + 1) t

/-- HKDF-Expand of RFC 5869 with SHA-512. -/
def hkdfExpand (prk info : Bytes) (n : Nat) : Bytes :=
  (hkdfBlocks prk info ((n + 63) / 64) 1 []).take n

/-- Key stream of the AES counter modes: key, first counter block, counter width in bits, length. -/
@[irreducible] def ctrRaw (key block : Bytes) (width n : Nat) : Bytes := Std.ctrStream key block width n

/-- AES-CTR in either direction: exclusive or with the key stream. -/
def aesCtr (key block : Bytes) (width : Nat) (d : Bytes) : Bytes :=
  xorBytes d (fixLen d.length (ctrRaw key block width d.length))

/-- GHASH-based tag of SP 800-38D over AAD and ciphertext (key, nonce, AAD, ciphertext). -/
@[irreducible] def gcmTagRaw (key nonce aad ct : Bytes) : Bytes := Std.gcmTag key nonce aad ct

/-- The 16-byte GCM tag. -/
def gcmTag (key nonce aad ct : Bytes) : Bytes := fixLen 16 (gcmTagRaw key nonce aad ct)

/-- GCM encryption or decryption of the data (12-byte nonce, counter from 2). -/
def gcmCrypt (key nonce d : Bytes) : Bytes := aesCtr key (nonce ++ [0, 0, 0, 2]) 32 d

/-- CBC-MAC tag of SP 800-38C (key, nonce, AAD, plaintext, tag length). -/
@[irreducible] def ccmTagRaw (key nonce aad pt : Bytes) (n : Nat) : Bytes := Std.ccmTag key nonce aad pt n

/-- A CCM tag of `n` bytes. -/
def ccmTag (key nonce aad pt : Bytes) (n : Nat) : Bytes := fixLen n (ccmTagRaw key nonce aad pt n)

/-- CCM encryption or decryption of the data (12-byte nonce: length field of 3 bytes). -/
def ccmCrypt (key nonce d : Bytes) : Bytes := aesCtr key (2#8 :: nonce ++ [0, 0, 1]) 24 d

/-- AES block modes by number: 0 CBC, 1 XTS. Arguments: mode, decrypt, key, IV or tweak, data unit length, data. -/
@[irreducible] def aesModeRaw (mode : Nat) (dec : Bool) (key iv : Bytes) (unit : Nat) (d : Bytes) : Bytes :=
  if mode = 1 then Std.xts dec key iv unit d
  else if dec then Std.cbcDec (Std.aes true key) (Machine.chunks 16 d.length d) iv
  else Std.cbcEnc (Std.aes false key) (Machine.chunks 16 d.length d) iv

/-- A length-preserving AES mode. -/
def aesMode (mode : Nat) (dec : Bool) (key iv : Bytes) (unit : Nat) (d : Bytes) : Bytes :=
  fixLen d.length (aesModeRaw mode dec key iv unit d)

/-- FF1 of SP 800-38G on numerals: decrypt, key, radix, tweak, numerals. -/
@[irreducible] def ff1Raw (dec : Bool) (key : Bytes) (radix : Nat) (tweak : Bytes) (x : List Nat) : List Nat :=
  Std.ff1 dec key radix tweak x

/-- FF1: as many numerals as given, each below the radix. -/
def ff1 (dec : Bool) (key : Bytes) (radix : Nat) (tweak : Bytes) (x : List Nat) : List Nat :=
  ((ff1Raw dec key radix tweak x ++ List.replicate x.length 0).take x.length).map (· % radix)

/-- CMAC of SP 800-38B under AES or, with `tdes`, TDES. -/
@[irreducible] def cmacRaw (tdes : Bool) (key m : Bytes) : Bytes :=
  if tdes then Std.cmac (Std.tdesBlock false key) 8 m else Std.cmac (Std.aes false key) 16 m

/-- The whole CMAC block: 16 bytes, or 8 under TDES. -/
def cmac (tdes : Bool) (key m : Bytes) : Bytes := fixLen (if tdes then 8 else 16) (cmacRaw tdes key m)

/-- SP 800-38F key wrap (padded when `pad`): key, plaintext. -/
@[irreducible] def kwRaw (pad : Bool) (key m : Bytes) : Bytes := Std.keyWrap pad key m

/-- A wrapped key: 8 bytes longer than its input, padded to 8 bytes. -/
def kw (pad : Bool) (key m : Bytes) : Bytes := fixLen ((m.length + 7) / 8 * 8 + 8) (kwRaw pad key m)

/-- SP 800-38F unwrap: none when the integrity check fails. -/
@[irreducible] def kwOpen (pad : Bool) (key c : Bytes) : Option Bytes := Std.keyUnwrap pad key c

/-- One TDES block (CBC over several): decrypt, key, IV, data. -/
@[irreducible] def tdesRaw (dec : Bool) (key iv d : Bytes) : Bytes := Std.tdesCbc dec key iv d

/-- TDES in CBC mode, or on one block with a zero IV. -/
def tdes (dec : Bool) (key iv d : Bytes) : Bytes := fixLen d.length (tdesRaw dec key iv d)

/-- One AES block: decrypt, key, block. -/
def aesBlock (dec : Bool) (key d : Bytes) : Bytes := aesMode 0 dec key (List.replicate 16 0) 16 d

@[irreducible] def edPubRaw (seed : Bytes) : Bytes := Std.edPub seed
/-- Ed25519 public key of a seed (RFC 8032). -/
def edPub (seed : Bytes) : Bytes := fixLen 32 (edPubRaw seed)

@[irreducible] def edSignRaw (seed m : Bytes) : Bytes := Std.edSign seed m
/-- Ed25519 signature, pure (RFC 8032): seed, message. -/
def edSign (seed m : Bytes) : Bytes := fixLen 64 (edSignRaw seed m)

/-- Ed25519 verification with the cofactor (R332): public key, message, signature (DEDUCED, log 32). -/
@[irreducible] def edVerify (pub m sig : Bytes) : Bool := Std.edVerify pub m sig

/-- Whether 32 bytes decode as an Ed25519 point (RFC 8032). -/
@[irreducible] def edPointOk (b : Bytes) : Bool := b.length == 32 && (Std.edPoint b).isSome

/-- Whether 32 bytes are an Ed25519 point of small order, or an X25519 u-coordinate, masked and reduced,
of a point of order 1, 2, 4 or 8 (RFC 8032, RFC 7748). -/
@[irreducible] def edSmallOrder (b : Bytes) : Bool := Std.edSmall b
@[irreducible] def xSmallOrder (b : Bytes) : Bool := Std.xSmall b

@[irreducible] def xRaw (k u : Bytes) : Bytes := Std.x25519 k u
/-- X25519 (RFC 7748): scalar, u-coordinate. -/
def x25519 (k u : Bytes) : Bytes := fixLen 32 (xRaw k u)

/-- X25519 public value of a scalar: the base point has u = 9. -/
def xPub (k : Bytes) : Bytes := x25519 k (9#8 :: List.replicate 31 0)

/-- NIST curves by number: 0 P-256, 1 P-384, 2 P-521. Size of a coordinate and of the order. -/
def curveLen (c : Nat) : Nat := if c = 0 then 32 else if c = 1 then 48 else 66

@[irreducible] def ecPubRaw (c : Nat) (k : Bytes) : Bytes := Std.ecPub (Std.curveOf c) (curveLen c) k
/-- Public point x || y of a scalar (SP 800-186). -/
def ecPub (c : Nat) (k : Bytes) : Bytes := fixLen (2 * curveLen c) (ecPubRaw c k)

/-- Whether x || y is a valid public point (FIPS 186-5, SP 800-56A). -/
@[irreducible] def ecPointOk (c : Nat) (b : Bytes) : Bool := Std.ecPointOk (Std.curveOf c) (curveLen c) b

@[irreducible] def ecdhRaw (c : Nat) (k p : Bytes) : Bytes := Std.ecdh (Std.curveOf c) (curveLen c) k p
/-- ECDH shared x-coordinate: scalar, point. -/
def ecdh (c : Nat) (k p : Bytes) : Bytes := fixLen (curveLen c) (ecdhRaw c k p)

@[irreducible] def ecdsaRaw (c : Nat) (k dg rnd : Bytes) : Bytes :=
  Std.ecdsaSign (Std.curveOf c) (curveLen c) k dg rnd
/-- ECDSA signature r || s: curve, scalar, digest, per-signature random. -/
def ecdsa (c : Nat) (k dg rnd : Bytes) : Bytes := fixLen (2 * curveLen c) (ecdsaRaw c k dg rnd)

/-- ECDSA verification: curve, point, digest, signature. -/
@[irreducible] def ecdsaVerify (c : Nat) (pub dg sig : Bytes) : Bool :=
  Std.ecdsaVerify (Std.curveOf c) (curveLen c) pub dg sig

/-- The primes that the search of R330 finds from random bytes, for a modulus of `bits` bits: free values. -/
opaque rsaPrimes : Nat → Bytes → Nat × Nat

@[irreducible] def rsaKeyRaw (bits : Nat) (rnd : Bytes) : Bytes :=
  Std.rsaMaterial bits (rsaPrimes bits rnd).1 (rsaPrimes bits rnd).2
/-- RSA key material n, e, p, q, dp, dq, qinv of `bits` bits from random (R170). -/
def rsaKey (bits : Nat) (rnd : Bytes) : Bytes := fixLen (7 * bits / 16 + 4) (rsaKeyRaw bits rnd)

@[irreducible] def pssSignRaw (alg n : Nat) (key dg salt : Bytes) : Bytes :=
  Std.pssSign (hash alg) (hashLen alg) n key dg salt
/-- RSA-PSS (RFC 8017): hash, key material, digest, salt; `n` the modulus length in bytes. -/
def pssSign (alg n : Nat) (key dg salt : Bytes) : Bytes := fixLen n (pssSignRaw alg n key dg salt)

/-- RSA-PSS verification: hash, modulus, digest, signature. -/
@[irreducible] def pssVerify (alg : Nat) (modulus dg sig : Bytes) : Bool :=
  Std.pssVerify (hash alg) (hashLen alg) modulus dg sig

@[irreducible] def oaepEncRaw (alg n : Nat) (modulus label m seed : Bytes) : Bytes :=
  Std.oaepEncrypt (hash alg) (hashLen alg) n modulus label m seed
/-- RSA-OAEP encryption: hash, modulus length, modulus, label, message, seed. -/
def oaepEnc (alg n : Nat) (modulus label m seed : Bytes) : Bytes :=
  fixLen n (oaepEncRaw alg n modulus label m seed)

/-- RSA-OAEP decryption: hash, key material, label, ciphertext; none on a decoding error. -/
@[irreducible] def oaepDec (alg : Nat) (key label c : Bytes) : Option Bytes :=
  Std.oaepDecrypt (hash alg) (hashLen alg) c.length key label c

/-- ML-KEM parameter sets: `false` 768, `true` 1024. Lengths of keys and ciphertext (FIPS 203). -/
def ekLen (big : Bool) : Nat := if big then 1568 else 1184
def kemCtLen (big : Bool) : Nat := if big then 1568 else 1088

@[irreducible] def kemPubRaw (big : Bool) (seed : Bytes) : Bytes := Std.kemPub big seed
/-- Encapsulation key of a 64-byte seed (d, z). -/
def kemPub (big : Bool) (seed : Bytes) : Bytes := fixLen (ekLen big) (kemPubRaw big seed)

/-- The FIPS 203 input check of an encapsulation key. -/
@[irreducible] def kemEkOk (big : Bool) (ek : Bytes) : Bool := Std.kemEkOk big ek

@[irreducible] def kemEncRaw (big : Bool) (ek m : Bytes) : Bytes × Bytes := Std.kemEncaps big ek m
/-- Encapsulation: key, random; ciphertext and 32-byte shared secret. -/
def kemEnc (big : Bool) (ek m : Bytes) : Bytes × Bytes :=
  (fixLen (kemCtLen big) (kemEncRaw big ek m).1, fixLen 32 (kemEncRaw big ek m).2)

@[irreducible] def kemDecRaw (big : Bool) (seed ct : Bytes) : Bytes := Std.kemDecaps big seed ct
/-- Decapsulation with implicit rejection: seed, ciphertext. -/
def kemDec (big : Bool) (seed ct : Bytes) : Bytes := fixLen 32 (kemDecRaw big seed ct)

/-- ML-DSA parameter sets: `false` 65, `true` 87. Lengths (FIPS 204). -/
def dsaPubLen (big : Bool) : Nat := if big then 2592 else 1952
def dsaSigLen (big : Bool) : Nat := if big then 4627 else 3309

@[irreducible] def dsaPubRaw (big : Bool) (seed : Bytes) : Bytes := Std.dsaPub big seed
/-- ML-DSA public key of a 32-byte seed. -/
def dsaPub (big : Bool) (seed : Bytes) : Bytes := fixLen (dsaPubLen big) (dsaPubRaw big seed)

@[irreducible] def dsaSignRaw (big : Bool) (seed ctx m rnd : Bytes) : Bytes := Std.dsaSign big seed ctx m rnd
/-- ML-DSA signature, hedged: seed, context string, message, random. -/
def dsaSign (big : Bool) (seed ctx m rnd : Bytes) : Bytes :=
  fixLen (dsaSigLen big) (dsaSignRaw big seed ctx m rnd)

/-- ML-DSA verification: public key, context string, message, signature. -/
@[irreducible] def dsaVerify (big : Bool) (pub ctx m sig : Bytes) : Bool := Std.dsaVerify big pub ctx m sig

/-- The Golune root hash in the Tally ROM (R600), a constant of the mask ROM that the spec does not state. -/
opaque tallyRootHash : Bytes

/-- The public key of Golune's device certification authority (R245), which the spec does not state. -/
opaque deviceCa : Bytes

end Sys2Proof.Config
end

