-- ==== Sys2Proof/Machine/Cert.lean ====
section
/-! DEFINITION. The certificates of R260 in DER, and the checks of a chain of them (R245, R246, R261, R262, R264): X.509
with Ed25519 as RFC 5280 and RFC 8410 encode it (PRESUMED, log 3). -/

namespace Sys2Proof.Machine

/-! ### DER -/

/-- The length octets of a content of `n` bytes, below 65,536. -/
def derLen (n : Nat) : Bytes := if n < 128 then be 1 n else if n < 256 then 0x81 :: be 1 n else 0x82 :: be 2 n
def der (tag : Nat) (content : Bytes) : Bytes := be 1 tag ++ derLen content.length ++ content
def derSeq (l : List Bytes) : Bytes := der 0x30 l.flatten

/-- An integer that is not negative, from its bytes and from a number below 2^128. -/
def derInt (b : Bytes) : Bytes :=
  let v := b.dropWhile (fun x => x == 0#8)
  der 0x02 (if (v.headD 0).toNat < 128 ∧ v ≠ [] then v else 0#8 :: v)
def derNum (v : Nat) : Bytes := derInt (be 16 v)

/-! ### Fields (R260) -/

/-- Algorithm id-Ed25519 (1.3.101.112), parameters absent, and a public key. -/
def algEd : Bytes := derSeq [der 0x06 [0x2B, 0x65, 0x70]]
def spki (key : Bytes) : Bytes := derSeq [algEd, der 0x03 (0 :: key)]

/-- The serial number of a key: the first 16 bytes of its SHA-512 with bit 127 cleared. -/
def certSerial (key : Bytes) : Bytes := derNum (beNat ((Config.sha512 key).take 16) % 2 ^ 127)

/-- A lower-case hexadecimal string. -/
def hexText (b : Bytes) : Bytes :=
  b.flatMap (fun x => [x.toNat / 16, x.toNat % 16].map (fun d => BitVec.ofNat 8 (if d < 10 then 48 + d else 87 + d)))

/-- A decimal number of at most `n` digits. -/
def decText : Nat → Nat → Bytes
  | 0, _ => []
  | n + 1, v => (if v < 10 then [] else decText n (v / 10)) ++ [BitVec.ofNat 8 (48 + v % 10)]
/-- A decimal number of exactly `n` digits. -/
def digits : Nat → Nat → Bytes
  | 0, _ => []
  | n + 1, v => digits n (v / 10) ++ [BitVec.ofNat 8 (48 + v % 10)]

/-- A name: a common name and the device key identifier as serial number. -/
def certName (cn : Bytes) (id : Bytes) : Bytes :=
  derSeq [der 0x31 (derSeq [der 0x06 [0x55, 4, 3], der 0x0C cn]),
    der 0x31 (derSeq [der 0x06 [0x55, 4, 5], der 0x13 (hexText id)])]

/-- The subject of a certificate: 1 identity, 2 ledger, 3 alias of landing `n`, 4 alcove `n`, 5 witness of domain `n`. -/
def subjectName (id : Bytes) (kind n : Nat) : Bytes :=
  certName (if kind = 1 then ascii "Plynzu PZ-800"
    else if kind = 2 then ascii "Plynzu ledger"
    else (if kind = 3 then ascii "Plynzu landing " else if kind = 4 then ascii "Plynzu alcove " else ascii "Plynzu witness ")
      ++ decText 5 n) id

/-- Year, month and day of a day counted from 2020-01-01, in the proleptic Gregorian calendar. -/
def dateOf (days : Nat) : Nat × Nat × Nat :=
  let z := days + 737730
  let era := z / 146097
  let doe := z % 146097
  let yoe := (doe - doe / 1460 + doe / 36524 - doe / 146096) / 365
  let doy := doe - (365 * yoe + yoe / 4 - yoe / 100)
  let mp := (5 * doy + 2) / 153
  let m := if mp < 10 then mp + 3 else mp - 9
  (yoe + 400 * era + (if m ≤ 2 then 1 else 0), m, doy - (153 * mp + 2) / 5 + 1)

/-- A UTC time of seconds from 2020-01-01: `UTCTime` before 2050, then `GeneralizedTime`. -/
def derTime (sec : Nat) : Bytes :=
  let d := dateOf (sec / 86400)
  let r := sec % 86400
  let rest := digits 2 d.2.1 ++ digits 2 d.2.2 ++ digits 2 (r / 3600) ++ digits 2 (r / 60 % 60) ++ digits 2 (r % 60) ++ ascii "Z"
  if d.1 < 2050 then der 0x17 (digits 2 (d.1 % 100) ++ rest) else der 0x18 (digits 4 d.1 ++ rest)
def derNever : Bytes := der 0x18 (ascii "99991231235959Z")

/-- An extension. -/
def derExt (oid : Bytes) (critical : Bool) (value : Bytes) : Bytes :=
  derSeq [der 0x06 oid, if critical then der 0x01 [0xFF] else [], der 0x04 value]

/-- The first 20 bytes of SHA-512 over a key. -/
def certKeyId (key : Bytes) : Bytes := (Config.sha512 key).take 20

/-- Basic constraints with a path length of a CA, and key usage: keyCertSign for a CA, digitalSignature otherwise or for
alias 4 as well. -/
def derRights (path : Option Nat) (both : Bool) : List Bytes :=
  let ca := path.isSome
  [derExt [0x55, 0x1D, 0x13] true (derSeq (match path with | some p => [der 0x01 [0xFF], derNum p] | none => [])),
   derExt [0x55, 0x1D, 0x0F] true (der 0x03 (if ca && both then [2, 0x84] else if ca then [2, 0x04] else [7, 0x80]))]

/-- The object identifiers 1.3.6.1.4.1.58213.7.1 and .2 of the landing and placement extensions. -/
def oidPlynzu (n : Nat) : Bytes := [0x2B, 6, 1, 4, 1, 0x83, 0xC6, 0x65, 7] ++ be 1 n

def landingItem (n svn : Nat) (meas signer : Bytes) : Bytes :=
  derExt (oidPlynzu 1) false (derSeq [derNum n, derNum svn, der 0x04 meas, der 0x04 signer])
/-- `alcove` is none on a witness certificate, which then holds -1. -/
def placementItem (d : Nat) (alcove : Option Nat) : Bytes :=
  derExt (oidPlynzu 2) false (derSeq [derNum d, match alcove with | some a => derNum a | none => der 0x02 [0xFF]])

/-- The signed part of a certificate of the profile (PRESUMED, log 31). -/
def certTbs (issuer from_ subject key issuerKey : Bytes) (rights : List Bytes) (more : Bytes) : Bytes :=
  derSeq [der 0xA0 (derNum 2), certSerial key, algEd, issuer, derSeq [from_, derNever], subject, spki key,
    der 0xA3 (derSeq (rights ++ [derExt [0x55, 0x1D, 0x0E] false (der 0x04 (certKeyId key)),
      derExt [0x55, 0x1D, 0x23] false (derSeq [der 0x80 (certKeyId issuerKey)]), more]))]

def certOf (tbs sig : Bytes) : Bytes := derSeq [tbs, algEd, der 0x03 (0 :: sig)]

/-! ### Reading -/

/-- The first element of a string: its tag, its content, the element whole and what follows. -/
structure Tlv where
  tag   : Nat
  val   : Bytes
  whole : Bytes
  rest  : Bytes
  deriving DecidableEq, Repr

def readTlv (b : Bytes) : Option Tlv :=
  let n := fld b 1 1
  let hd := if n < 128 then 2 else if n = 0x81 then 3 else 4
  let len := if n < 128 then n else if n = 0x81 then fld b 2 1 else fld b 2 2
  if b.length < 2 ∨ (128 ≤ n ∧ n ≠ 0x81 ∧ n ≠ 0x82) ∨ b.length < hd + len then none
  else some { tag := fld b 0 1, val := slice b hd len, whole := b.take (hd + len), rest := b.drop (hd + len) }

/-- The elements of a string, at most `n`; none where it does not end with one. -/
def readAll : Nat → Bytes → Option (List Tlv)
  | 0, b => if b.isEmpty then some [] else none
  | n + 1, b =>
    if b.isEmpty then some []
    else (readTlv b).bind (fun x => (readAll n x.rest).map (fun l => x :: l))

/-- What a certificate holds. -/
structure Cert where
  tbs     : Bytes
  issuer  : Bytes
  from_   : Bytes
  subject : Bytes
  key     : Bytes
  exts    : List Bytes
  sig     : Bytes
  deriving DecidableEq, Repr

/-- A certificate with an Ed25519 key and signature. -/
def readCert (b : Bytes) : Option Cert :=
  match readAll 1 b with
  | some [c] =>
    match readAll 3 c.val with
    | some [t, a, g] =>
      match readAll 8 t.val with
      | some [_, _, _, issuer, times, subject, key, exts] =>
        match readAll 2 times.val, readAll 1 exts.val with
        | some [f, _], some [e] =>
          match readAll 16 e.val with
          | some l =>
            let k := key.whole.drop (key.whole.length - 32)
            if c.tag = 0x30 ∧ t.tag = 0x30 ∧ a.whole = algEd ∧ g.tag = 0x03 ∧ g.val.length = 65 ∧ key.whole = spki k then
              some { tbs := t.whole, issuer := issuer.whole, from_ := f.whole, subject := subject.whole, key := k
                     exts := l.map (fun x => x.whole), sig := g.val.drop 1 }
            else none
          | none => none
        | _, _ => none
      | _ => none
    | _ => none
  | _ => none

/-- Whether a certificate verifies under a key. -/
def certUnder (key : Bytes) (c : Cert) : Bool := Config.edVerify key c.tbs c.sig

/-- Whether a certificate is a CA's of the profile, with a path length. -/
def certIsCa (c : Cert) : Bool :=
  ([0, 1, 2, 3, 4] : List Nat).any (fun p => c.exts.contains ((derRights (some p) false).headD []))

/-- Whether every certificate but the last verifies under the next, which is a CA of the name it says. -/
def certsLink : List Cert → Bool
  | a :: b :: l => certUnder b.key a && a.issuer == b.subject && certIsCa b && certsLink (b :: l)
  | _ => true

def readCerts : List Bytes → Option (List Cert)
  | [] => some []
  | b :: l => (readCert b).bind (fun c => (readCerts l).map (fun r => c :: r))

/-- The key of the leaf of a chain whose last certificate, the identity, verifies under a key. -/
def chainUnder (ca : Bytes) (l : List Bytes) : Option Bytes :=
  (readCerts l).bind (fun cs =>
    match cs.head?, cs.getLast? with
    | some leaf, some id => if certsLink cs && certUnder ca id then some leaf.key else none
    | _, _ => none)

/-- The key of the leaf of a chain that leads to Golune's device certification authority; none where the chain does not
verify (R264). -/
def chainKey (l : List Bytes) : Option Bytes := chainUnder Config.deviceCa l

/-- The certificates of a string of them, at most six, leaf first (R58). -/
def splitCerts (b : Bytes) : List Bytes := ((readAll 6 b).getD []).map (fun x => x.whole)

/-- The key of the last certificate of a chain. -/
def chainIdentity (l : List Bytes) : Option Bytes := ((readCerts l).bind List.getLast?).map (fun c => c.key)

/-- Whether a certificate is an identity certificate of R260 over a key: its issuer is the device certification authority whose
certificate is `ca`. -/
def identityCert (c : Cert) (key : Bytes) (ca : Cert) : Bool :=
  c.key == key &&
    c.tbs == certTbs ca.subject c.from_ (subjectName ((Config.sha512 key).take 16) 1 0) key ca.key (derRights (some 4) false) []

end Sys2Proof.Machine
end

