-- ==== Sys2Proof/Machine/State.lean ====
section
/-! DEFINITION. The state of the block: every register, store, queue, counter, mode and pin the spec
gives it, block by block, and the queue of waiting commands. Fields that are the model's own (the
queue, the log of what was sent, the index of the next free value, the numbering of work) say so. -/

namespace Sys2Proof.Machine

/-- Why a step can fault. No command of this block faults: every error the spec describes is an error
response, a status code or a pulse of a fault line, and all of those are part of the state. -/
inductive Fault where
  deriving DecidableEq, Repr

/-- Why a step can refuse a command. -/
inductive Refusal where
  /-- Raised by an arm of `exec` whose command has no meaning yet; safe. -/
  | notModelled (mnemonic : String)
  deriving DecidableEq, Repr

/-- Service states (R497), in the order of the codes of `ID_STATE.SERVICE`. -/
inductive Service where
  | starting | inService | degraded | safe | tampered | recovery
  deriving DecidableEq, Repr

/-- Life-cycle states (R457), in the order of their codes. -/
inductive Life where
  | blank | vendor | transit | commissioned | inService | return | scrapped
  deriving DecidableEq, Repr

/-- The role of a session or key (R100, R234), by its code. -/
inductive Role where
  | client | steward | manager | galleryManager
  deriving DecidableEq, Repr

/-- Deadline classes (R134). -/
inductive DClass where
  | d0 | d1 | d2 | d3 | d4 | d5
  deriving DecidableEq, Repr

/-- Wings that admission counts (R142). -/
inductive Wing where
  | pk | cipher | hash | legacy | random
  deriving DecidableEq, Repr

/-- Unit states, by the codes of R313 and R345. -/
inductive UState where
  | inService | draining | out | zeroising | testing | retired | moving | loading
  deriving DecidableEq, Repr

/-! ### The network face -/

/-- One Ethernet port (R33, R36, R137, R166, R646). -/
structure Port where
  up        : List Bool         -- link of each sub-link, R137
  breakout  : Nat               -- 0 one 400G, 1 two 200G, 2 four 100G, R33
  breakNext : Option Nat        -- breakout waiting for the drain, R532
  paused    : Tab Nat           -- priority to the time its received pause ends, R36
  recvUsed  : Tab Nat           -- priority to bytes held in its receive region, R166
  pauseSent : List Nat          -- priorities for which this port has sent pause, R166
  region    : Nat               -- receive region in MiB, R165
  present   : Bool              -- module present, R646
  moduleUp  : Bool              -- module brought up, R41
  highPower : Bool              -- its power mode: high, else low, R41
  dataPath  : Bool              -- its data path is initialised, R41
  alarms    : BitVec 3          -- its alarm flags: temperature, voltage, optical power, R41
  pllOk     : Bool              -- its PLL is locked, R641
  deriving DecidableEq, Repr

/-- An event record of the queue (R75). -/
structure EventRec where
  num     : Nat
  code    : Nat
  status  : Nat
  time    : Nat
  session : Nat
  queue   : Nat
  gen     : Nat
  seq     : Nat
  detail  : Nat
  deriving DecidableEq, Repr

/-- What a saved or live cipher context holds (R293 to R306). -/
structure Context where
  alcove   : Nat
  handle   : Nat
  mech     : Nat
  decrypt  : Bool
  verify   : Bool
  counter  : Nat                -- next data counter value, GCM and CTR
  width    : Nat                -- counter width, CTR
  nonce    : Bytes              -- nonce or initial counter block
  aad      : Bytes
  tagLen   : Nat
  history  : Bytes              -- data so far: the chaining state as a function of it
  inFlight : Bool
  spilled  : Bool
  present  : Bool               -- held in the store or spill area (not after a RELEASE)
  epoch    : Option Nat         -- latest epoch, or none, R304
  idle     : Nat                -- when its last command ended, R301
  deriving DecidableEq, Repr

/-- A migration of an alcove in progress, at its source or its destination (R577 to R580). -/
structure Migration where
  number  : Nat
  out     : Bool
  phase   : Nat
  peer    : Nat
  key     : Bytes
  chunk   : Nat                 -- last chunk number sent or applied
  pages   : Tab Bytes           -- state pages as last sent, or as received
  secs    : Tab Secret          -- secrets as last sent, by head slot
  map     : Tab Nat             -- at the destination: old handle to new, R580
  deriving DecidableEq, Repr

/-- A command in assembly (R50 to R53). -/
structure Assembly where
  opcode  : Nat
  queue   : Nat
  declLen : Nat
  segs    : List (Nat × Bytes)          -- offset and data, ascending
  lastEnd : Option Nat                  -- end of a held LAST segment
  start   : Nat
  event   : Bool
  deriving DecidableEq, Repr

/-- An entry of the sequence window; an entry not listed is new (R70). `payload` is `none` once released. -/
inductive Entry where
  | assembling (a : Assembly)
  | accepted (work : Nat)
  | done (status declLen : Nat) (payload : Option Bytes) (queue order : Nat)
  | lost
  deriving DecidableEq, Repr

/-- A session slot (R57 to R74). -/
structure Session where
  sid       : Nat                       -- the model's own: number of this session
  open_     : Bool                      -- open, else half-open
  key       : Bytes                     -- registered key, R62
  keyId     : Bytes                     -- CLIENT_KEY_ID of the HELLO
  role      : Role
  c2dKey    : Bytes
  d2cKey    : Bytes
  c2dSalt   : Bytes
  d2cSalt   : Bytes
  hello     : Bytes                     -- HELLO payload, for th2 and th3
  reply     : Bytes                     -- REPLY payload
  ephemeral : Bytes                     -- device X25519 scalar of the handshake
  kemShared : Bytes
  highest   : Nat                       -- highest authenticated PKT_NUM, R66
  bitmap    : BitVec 1024               -- bit d-1: highest - d seen, R66
  nextPkt   : Nat                       -- next device PKT_NUM, R65
  replyAt   : Nat                       -- time of the REPLY, R63
  lastAuth  : Nat                       -- time of the last authenticated frame, R68
  ackVal    : Nat                       -- highest ACK received, R74
  base      : Nat                       -- window base B, R70
  entries   : Tab Entry                 -- by SEQ
  closing   : Option Nat                -- closes with this status after its accepted commands, R68, R235
  link      : Nat                       -- sub-link of its last frame, for frames not tied to a command
  seqMark   : Nat                       -- mirrored sequence mark k, R553
  devMark   : Nat                       -- mirrored device packet mark m, R553
  cliMark   : Nat                       -- mirrored client packet mark, R553
  deriving DecidableEq, Repr

/-- An alcove (R42) with what the device keeps for it. -/
structure Alcove where
  set       : AlcoveSettings
  isOpen    : Bool
  gen       : Nat                       -- R42, R93
  keys      : List (Bytes × Role)       -- registered keys, R234
  resetting : Bool                      -- between the reset point and the end, R98
  resetWork : Option Nat                -- the reset command that waits for the end
  resetMore : Nat                       -- resets that wait for the first, R98
  resetSess : Option Session            -- the session under which the reset's completion is sent, R98
  removing  : Bool                      -- removal runs after the reset, R99
  quiesced  : Bool                      -- refuses D2 to D5, R569
  stopped   : Bool                      -- drops arriving frames, R569
  events    : List EventRec             -- event queue, oldest first, R75
  eventNum  : Nat                       -- next EVENT_NUM, R75
  frameNum  : Nat                       -- next event frame number, R77
  modStart  : Option Nat                -- start of the moderation timer, R78
  lost      : Nat                       -- records dropped and not yet reported, R79
  evSession : Option Nat                -- event session, R659
  proof     : Option Bytes              -- proof secret, R265
  reuse     : Tab Nat                   -- context index to its reuse count, R294
  contexts  : Tab Context               -- by context identifier, R294
  epoch     : Nat                       -- next context epoch value, R304
  epochMark : Nat                       -- its mark, R304
  alcoveKey : Bytes                     -- Landing 5 seed, R258
  ctxKey    : Bytes                     -- Landing 5 context key, R258
  cert      : Bytes                     -- alcove certificate, R261
  counters  : Tab Nat                   -- the 16 alcove counters, R620
  snaps     : List Bytes                -- newest 8 alcove snapshots, R618
  handleMap : Tab Nat                   -- old handle to new, R580
  migration : Option Migration
  fromCmd   : Bool                      -- set between loads and kept in the journal, R532
  setNext   : Option AlcoveSettings     -- settings that apply at the next epoch, R532, R661
  deriving DecidableEq, Repr

/-- The reserved cost of one operation on one wing (R151): figures in cycles of the wing's clock. -/
structure Cost where
  wing   : Wing
  width  : Nat
  span   : Nat                          -- the sum of the spans on all its wings, R153
  own    : Nat                          -- its span on this wing
  serial : Bool                         -- a serial mode of the cipher wing, R282
  cost   : Nat                          -- unit cost: width × span, or issue slots in the cipher wing
  fixed  : Nat
  ran    : Nat                          -- cycles run before the current run
  since  : Option Nat                   -- start of the current run
  deriving DecidableEq, Repr

/-- What a command waits for once accepted. -/
inductive Stage where
  | ready                                -- accepted, not yet executed
  | issued                               -- a unit holds it
  | mutating                             -- a mutation of it is in its sequencer
  | waitRng                              -- waits for its DRBG instance, R383, R388
  | waitAlcove (alcove : Nat)            -- waits for a reset or removal, R98, R662
  | waitEpoch (kind index : Nat) (units : List Nat)  -- waits for units, R158, R536
  | waitTally                            -- waits for the next Tally second, R598
  | completed                            -- its completion is built and waits at the port
  deriving DecidableEq, Repr

/-- What follows a wing operation of a command: nothing, another operation on the same wing, or one on its next wing
(R153, R319). -/
inductive Again where
  | no | sameWing | nextWing
  deriving DecidableEq, Repr

/-- What an operation delivers when its unit ends it, computed from the inputs held at issue (R284). -/
structure Result where
  status  : Nat
  payload : Bytes
  meters  : List (Nat × Nat)
  ctx     : Option (Nat × Context)      -- context identifier and its new state
  relCtx  : Option Nat                  -- context identifier released at the end
  body    : Option MutBody              -- the mutation that the command commits next
  quorum  : Option Bytes                -- the ticket under which it does
  again   : Again                       -- whether the command goes on to another wing operation (R153)
  deriving DecidableEq, Repr

/-- What a signature with a Stair key is for that no command carries: the `REPLY` of a handshake with its slot, a certificate over a
key, or the signed service extension of the ledger (R61, R253). -/
inductive StairTask where
  | reply (slot : Nat) (payload : Bytes)
  | alcoveCert (alcove : Nat) (key cert : Bytes)
  | witnessCert (domain : Nat) (key cert : Bytes)
  | service (ext : Bytes)
  deriving DecidableEq, Repr

/-- An accepted command or stream frame (R17), or a signature that no command carries (R253). -/
structure Work where
  sid      : Nat                        -- session that sent it
  alcove   : Nat
  session  : Nat
  seq      : Nat
  queue    : Nat
  opcode   : Nat
  payload  : Bytes
  gen      : Nat
  cls      : DClass
  accepted : Nat
  deadline : Nat
  role     : Role
  key      : Bytes
  event    : Bool
  sublink  : Nat
  prio     : Nat
  stream   : Option Nat                 -- process identifier of a stream frame
  pktNum   : Nat
  room     : Nat                        -- reserved frame-pool room, R167
  costs    : List Cost
  longJobs : Nat                        -- R328
  wingWork : Bool
  waited   : Bool                       -- it has waited on a unit or instance
  part     : Nat                        -- wing operations of it that have ended (R153, R319)
  carry    : Option Result              -- what its last wing operation delivers, held since the first
  slots    : List (Nat × Nat)           -- counting block and slots of its ended operations, R614
  task     : Option StairTask           -- what it is for, of a signature that no command carries, R253
  stage    : Stage
  deriving DecidableEq, Repr

/-- A completion built and not yet handed to the MAC client interface (R95). -/
structure Completion where
  sid      : Nat
  alcove   : Nat
  session  : Nat
  seq      : Nat
  queue    : Nat
  opcode   : Nat
  status   : Nat
  payload  : Bytes
  gen      : Nat
  sublink  : Nat
  prio     : Nat
  event    : Bool
  replay   : Bool
  truncated : Bool
  declLen  : Nat
  work     : Option Nat
  meters   : List (Nat × Nat)           -- meter and quantity, R590
  stream   : Option Nat
  pktNum   : Nat
  tagged   : Bool                       -- carries a generation tag that R95 checks
  deriving DecidableEq, Repr

/-- What leaves the device: the model's own log of frames and signals, oldest first. -/
inductive Output where
  | frame (sublink prio : Nat) (hdr : WcpHeader) (data tag : Bytes)
  | rdmaWrite (sublink prio ecn qp psn addr rkey : Nat) (data : Bytes) (imm : Option Nat)
  | delayReq (sublink : Nat) (transport : PtpTransport) (seq : Nat)
  | pfcPause (port prio : Nat) (on : Bool)
  | arpReply (sublink : Nat) (v6 : Bool) (ip mac : Nat)
  | echoReply (sublink : Nat) (v6 : Bool) (ip : Nat)
  | announce (v6 : Bool) (ip mac : Nat)
  | ppsOut (high : Bool)
  | moduleReset (port : Nat)
  | ibFrame (f : IbFrame)
  | ibRetransmit (next : Nat)
  | ibHandshake (side : Nat) (nonce x25519 kem cert statement : Bytes)
  | ibNotice (service : Nat)
  | journalMirror (r : JournalRec)
  | journalHeld (domain seq : Nat)
  | forwardMutation (r : JournalRec) (epoch : Nat)
  | forwardResult (domain seq status : Nat)
  | sessionMirror (r : SessionMirror)
  | markMirror (alcove session : Nat) (m : MirrorMark)
  | acceptMirror (r : AcceptMirror)
  | alcoveMirror (r : AlcoveRecord)
  | sectionForward (head : Bytes) (bodies : List (Nat × Bytes))
  | sectionHeld
  | bulkCopy (b : BulkState)
  | planned (alcove : Nat) (sessions : List MovedSession)
  | clientHello (session sublink : Nat) (hello : Bytes)
  | clientFinish (session : Nat) (finish : Bytes)
  | clientCommand (session opcode sublink : Nat) (payload : Bytes)
  | clientAck (session : Nat)
  | tdo (bits : Bytes)
  | fabric (master : Nat) (err : Bool) (data : Bytes)
  | coreException (core : Nat)
  | coreHalt (core : Nat)
  deriving DecidableEq, Repr

/-- A process slice (R80, R86). -/
structure Slice where
  handle    : Nat
  mech      : Nat
  frameRate : Nat
  byteRate  : Nat
  frameTok  : Nat
  byteTok   : Nat
  tokAt     : Nat
  qp        : Option Nat
  region    : Option (Nat × Nat × Nat)  -- base, length, remote key
  immediate : Bool
  logging   : Bool
  suspended : Bool
  words     : Nat                       -- dirty-page words allocated, R89
  dirty     : Tab (BitVec 64)           -- non-zero words
  deriving DecidableEq, Repr

/-- A packet of an RDMA WRITE that is issued and not acknowledged: its sequence number, where it goes, its bytes, its
immediate value, the process identifier it belongs to and its 802.1Q priority (R37, R85, R87). -/
structure RdmaPacket where
  psn  : Nat
  addr : Nat
  data : Bytes
  imm  : Option Nat
  pid  : Nat
  prio : Nat
  deriving DecidableEq, Repr

/-- State of a queue pair (R85, R86, R97). -/
inductive QpState where
  | reset | connected | error
  deriving DecidableEq, Repr

/-- A queue pair (R85 to R88). -/
structure Qp where
  alcove   : Nat
  state    : QpState
  timeout  : Nat
  retries  : Nat
  rnr      : Nat
  left     : Nat
  rnrLeft  : Nat
  mtu      : Nat
  peer     : Nat                        -- QPN x 2^128 + address of the peer
  psn      : Nat                        -- next packet sequence number
  rate     : Nat                        -- bit/s, R88
  linkRate : Nat
  lastCut  : Nat
  lastStep : Nat
  cnpSince : Bool
  link     : Nat                        -- sub-link of its connection
  pending  : List RdmaPacket            -- oldest first
  sentAt   : Nat
  frozen   : Bool                       -- issues nothing, R97
  deriving DecidableEq, Repr

/-- A `HELLO` that waits for a DRBG instance, until its D2 promise ends (R61): the half-open slot that it holds, 0xFF for
a probe, and the frame. -/
structure HelloWait where
  alcove : Nat
  slot   : Nat
  frame  : Datagram
  till   : Nat
  deriving DecidableEq, Repr

/-- The PTP exchange in progress (R38): the sequence number of the latest `Sync`, when it came in and when it left the
master, the sequence number of the next `Delay_Req`, and when the last one left. -/
structure PtpClock where
  seq : Nat
  t2  : Option Nat
  t1  : Option Nat
  req : Nat
  t3  : Option Nat
  deriving DecidableEq, Repr

/-- The device-wide part of the network face. -/
structure Net where
  portA     : Port
  portB     : Port
  ptpDomain : Nat
  ptpPort   : Nat
  ptpSource : Nat                       -- 0 PTP, 1 PPS_IN, R520
  ptpHere   : Bool                      -- PTP disciplines device time
  ptp       : PtpClock                  -- the exchange in progress, R38
  slew      : Int                       -- ppm in force, R39
  frac      : Int                       -- the model's own: what the rate has gathered below 1 ns, in ppm cycles
  leap      : Int                       -- R605
  icmp      : Bool
  mgmtVlan  : Nat
  ppsOut    : Bool
  ppsRose   : Nat
  alcoves   : Tab Alcove
  sessions  : Tab Session               -- alcove * 256 + index
  work      : Tab Work                  -- by acceptance number
  nextWork  : Nat
  nextSid   : Nat
  comps     : Tab Completion
  nextComp  : Nat
  slices    : Tab Slice                 -- alcove * 2^20 + process identifier
  qps       : Tab Qp
  drops     : Tab Nat                   -- counted drops, by the rule's number
  waitHellos : List HelloWait           -- oldest first, R61
  txHeld    : List (Nat × Nat × Output) -- frames that a pause holds, by sub-link and priority, oldest first, R36
  deriving DecidableEq, Repr

/-! ### Engines -/

/-- An operation on a cipher pipe, a hash lane, the legacy unit or a DRBG core. -/
structure UnitOp where
  work    : Nat
  alcove  : Nat
  gen     : Nat
  wing    : Wing
  unit    : Nat
  pins    : List Nat                    -- cached faces that it pins, R19
  stream  : Option Nat
  ctx     : Option Nat
  offset  : Nat                         -- placement offset of a stream result, R84
  result  : Result
  at_     : Nat                         -- when the unit took it
  serial  : Bool                        -- a serial mode: ready at most once in 54 cycles, R282
  deriving DecidableEq, Repr

/-- A public-key job (R322 to R341). -/
structure Job where
  work     : Nat
  alcove   : Nat
  gen      : Nat
  pins     : List Nat                    -- cached faces that it pins, R19
  prog     : Nat
  long     : Bool
  deadline : Nat
  order    : Nat
  bay      : Option Nat                 -- the bay that it must run in, R329
  width    : Nat                        -- jobs of its operation, R144
  half     : Bool                       -- one of the jobs of an operation of width 2 or more, R329, R330
  waiting  : Bool                       -- its half is done and its result is parked, R329
  rerun    : Bool                       -- R337
  abort    : Bool                       -- R339
  stair    : Bool                       -- a signature with a Stair key, R253
  iters    : Nat                        -- yield points reached: the iterations of an ML-DSA signature, R323
  ran      : Nat                        -- program cycles run before the current run, R327
  since    : Option Nat                 -- start of the current run
  om       : Tab Bytes                  -- operand lines in its park slot, R326
  result   : Result
  deriving DecidableEq, Repr

/-- A public-key core (R317, R345 to R347). -/
structure PkCore where
  state    : UState
  prog     : Nat
  busy     : Bool
  kat      : Bool
  bist     : Bool
  bistDone : Bool
  err      : BitVec 8
  irq      : Bool
  line     : Nat
  data     : List Word
  om       : Tab Bytes                  -- non-zero operand lines of 16 bytes
  job      : Option Nat
  next     : Option Nat                 -- the job that takes the core after a park move
  lost     : Bool
  lostOnce : Bool
  leaving  : Bool                       -- named by UNIT_OUT, R158
  joining  : Bool                       -- joins capacity at the next epoch, R158
  drains   : Bool                       -- it left capacity at an epoch during a park move, R158, R326
  store    : Bytes                      -- program store, R317
  locked   : Bool                       -- the store is read-only, R344
  keccak   : Bytes                      -- digest that the Keccak unit made of the store, R344
  seq      : Nat                        -- microword at which the sequencer began its program
  deriving DecidableEq, Repr

/-- A cipher pipe, hash lane, the legacy unit or a DRBG core. -/
structure EngineUnit where
  state   : UState
  lost    : Bool
  leaving : Bool
  joining : Bool
  testAt  : Nat                         -- when its last zeroisation and tests began
  deriving DecidableEq, Repr

/-- The bay registers of a cipher bay, and those of the legacy unit (R313, R315). -/
structure BayRegs where
  irq      : Bool
  kat      : Bool
  bist     : Bool
  bistDone : Bool
  err      : BitVec 8
  deriving DecidableEq, Repr

/-- The cipher wing, the hash lanes and the legacy unit. -/
structure Cipher where
  pipes    : Tab EngineUnit             -- 2 * bay + pipe
  bays     : Tab BayRegs
  lanes    : Tab EngineUnit
  legacy   : EngineUnit
  legReg   : BayRegs
  ctxErr   : BitVec 3
  ops      : Tab UnitOp
  nextOp   : Nat
  deriving DecidableEq, Repr

/-- The public-key wing. -/
structure Pk where
  cores    : Tab PkCore                 -- 8 * bay + core
  jobs     : Tab Job                    -- every job not ended
  nextJob  : Nat
  queue    : List Nat                   -- ready jobs that hold no core and no park slot
  park     : Tab Nat                    -- park slot to job
  entries  : Tab Nat                    -- first microword of each program of the set in use, R342
  parkErr  : BitVec 2
  parkSlot : Nat
  deriving DecidableEq, Repr

/-- States of the digest unit (R351). -/
inductive DuState where
  | idle | open_ | final | done | lenMismatch | fault
  deriving DecidableEq, Repr

/-- The digest unit (R351 to R364). -/
structure Digest where
  algo    : Nat
  hmac    : Bool
  state   : DuState
  busy    : Bool
  lenLo   : Word
  lenHi   : BitVec 8
  lastB   : Nat
  keyLen  : Nat
  result  : List Word
  expect  : List Word
  match_  : BitVec 8
  matchN  : BitVec 8
  err     : BitVec 4
  keys    : List Word
  opAlgo  : Nat                          -- latched at the open, R352
  opHmac  : Bool
  opKey   : Bytes
  opLen   : Nat
  words   : Nat                          -- counted DU_DATA words
  msg     : Bytes
  deriving DecidableEq, Repr

/-- States of the main noise source (R372). -/
inductive RngState where
  | off | startup | run | hold | fatal
  deriving DecidableEq, Repr

/-- A DRBG instance (R378 to R394). -/
structure Drbg where
  ready  : Bool
  own    : Bool                          -- seeded from a spore of its own, R380
  count  : Nat                           -- requests since the last seed, R383
  grace  : Option Nat                    -- requests left of a grace, R388
  urgent : Bool                          -- to be instantiated again, R394
  deriving DecidableEq, Repr

/-- Where the repetition-count test of a bank stands: identical samples in a row, 0 where it starts again, and the latest
sample (R370). -/
structure RunTest where
  count : Nat
  last  : Bool
  deriving DecidableEq, Repr

/-- One moss bank (R370, R371, R393). -/
structure Bank where
  run     : RunTest
  failing : Bool
  passed  : Nat
  rct     : Nat
  apt     : Nat
  deriving DecidableEq, Repr

/-- A small source: start-up, run or fatal, and its failed-block counts (R391). -/
structure SmallSource where
  state  : Nat
  consec : Nat
  fails  : List Nat                      -- times of failed blocks in the last second
  start0 : Bool                          -- bank 0 runs a start-up block
  start1 : Bool
  run0   : RunTest
  run1   : RunTest
  spores : Nat
  deriving DecidableEq, Repr

/-- The random-number source. -/
structure Rng where
  source  : RngState
  started : Bool                         -- the start-up blocks have ended
  banks   : Tab Bank
  spores  : Nat                          -- spores made since reset
  buffer  : Nat                          -- spores held, at most 64
  carried : Nat                          -- blocks since the previous spore
  condBad : Nat                          -- conditioner mismatches in this start, R375
  forceDup : Bool
  inst    : Tab Drbg
  seeded  : Nat                          -- instantiations instance 0 has seeded, R382
  cores   : Tab EngineUnit
  err     : BitVec 8
  irq     : Bool
  aon     : SmallSource
  tally   : SmallSource
  deriving DecidableEq, Repr

/-! ### Custody -/

/-- A ticket (R221, R223). -/
structure Ticket where
  id      : Bytes
  opcode  : Nat
  epoch   : Nat
  opened  : Nat
  expires : Nat
  digest  : Bytes                        -- PAYLOAD_DIGEST
  opDig   : Bytes
  fails   : Nat
  xport   : Option (Bytes × Bytes)       -- X25519 scalar, ML-KEM seed
  deriving DecidableEq, Repr

/-- A pending mutation and the command it belongs to (R196). -/
structure Mutation where
  body    : MutBody
  work    : Option Nat
  gen     : Nat
  alcove  : Nat
  quorum  : Option Bytes                 -- ticket presented, checked again at step 1, R226
  epoch   : Nat                          -- custodian epoch at the check
  size    : Nat                          -- bytes of its journal record
  side    : Nat
  resp    : Bytes                        -- response payload, before handles
  sent    : Bool                         -- forwarded to the sequencing side, R552
  placed  : Option JournalRec            -- its record, between steps 2 and 3 of R196
  deriving DecidableEq, Repr

/-- A token bucket (R164). -/
structure Bucket where
  rate   : Nat
  tokens : Nat
  at_    : Nat
  deriving DecidableEq, Repr

/-- A tenant domain, or domain 0. -/
structure Domain where
  set       : List Custodian
  threshold : Nat
  window    : Nat
  epoch     : Nat
  root      : Option Bytes
  quota     : Nat
  rates     : Tab Bucket                 -- class 0 to 5, and 6 for stream bytes
  seqNo     : Nat                        -- next commit sequence number, R195
  pending   : List Mutation              -- in order
  tickets   : List Ticket
  witSeq    : Nat
  witMark   : Nat
  witKey    : Bytes
  witCert   : Bytes
  domKey    : Bytes
  archKey   : Bytes
  opened    : Bool                       -- its archive is loaded in this start
  sequencer : Nat                        -- sequencing side, R552
  nextSide  : Option Nat                 -- SEQUENCER change that waits, R550
  grantKey  : Bytes
  deriving DecidableEq, Repr

/-- What the journal has committed of an alcove: its settings where a command set them last, its registered keys, its
proof secret, its epoch mark and its handle map (R195, R265, R304, R532, R580). -/
structure KeptAlcove where
  domain    : Nat
  set       : Option AlcoveSettings
  keys      : List (Bytes × Role)
  proof     : Option Bytes
  epochMark : Nat
  handleMap : Tab Nat
  deriving DecidableEq, Repr

/-- What the journal has committed: the content of a snapshot, and the image to which a start replays the journal (R203,
R204). A snapshot has the running vector of its seal in its header and, for each domain, the tag under that domain's
archive key (R255). -/
structure Archive where
  secrets : Tab Secret
  checks  : Tab Nat
  freed   : List Nat
  retired : List Nat
  domains : Tab Domain
  quotas  : Tab Nat                      -- quotas committed by a mutation, R238
  alcoves : Tab KeptAlcove
  removed : List Nat                     -- alcoves that ALCOVE_REMOVE took out since the last alcoves load, R532
  instNext : Nat                         -- R205
  proofMark : Nat                        -- R267
  uses    : Tab Nat                      -- uses of the partner by face, R555: 2 * slot + face
  invs    : Tab Nat                      -- invocation marks of the partner by face, R206
  last    : Tab Nat                      -- last commit number included, by domain, R203
  vector  : List Nat
  seals   : Tab Bytes
  valid   : Bool
  deriving DecidableEq, Repr

/-- A journal record as the Archive holds it: its bytes (R199), the record that its body carries, whose layout inside the
body is the model's own (log 14), and the vector under whose archive key it is sealed (R255). -/
structure ArchRec where
  body   : JournalRec
  vector : List Nat
  bytes  : Bytes
  deriving DecidableEq, Repr

/-- A copy of the continuity record (R665): whether its `CHECK` holds, and its fields. -/
structure ContCopy where
  holds  : Bool
  seq    : Nat
  inst   : Nat                           -- INSTANCE_FLOOR
  proof  : Nat                           -- PROOF_FLOOR
  wit    : Tab Nat                       -- WITNESS_FLOOR, by domain
  epoch  : Tab Nat                       -- EPOCH_FLOOR, by alcove
  deriving DecidableEq, Repr

/-- The copy that a pinned cache entry keeps of a face that a commit has changed, with the operations that still pin it
(R189). -/
structure OldCopy where
  secret : Secret
  face   : Nat
  pins   : Nat
  deriving DecidableEq, Repr

/-- The key store, its sequencers' common part and its persistence. -/
structure Keys where
  secrets   : Tab Secret                 -- by head slot
  checks    : Tab Nat                    -- slot to last check value, R182
  freed     : List Nat                   -- freed slots, least recently freed first, R183
  retired   : List Nat
  taken     : List Nat                   -- slots that a mutation between steps 2 and 3 of R196 takes
  cache     : List Nat                   -- cached faces, least recently used first, R188
  pins      : Tab Nat                    -- cached face to operations that pin it, R19
  old       : Tab OldCopy                -- old copies that operations still pin, R189
  oldNext   : Nat                        -- the model's own: name of the next old copy
  domains   : Tab Domain
  instNext  : Nat                        -- next face instance number, R205
  blocks    : List (Nat × Nat)           -- instance blocks given by the manager: base, next
  journal   : List ArchRec               -- pending journal, oldest first, R200
  archJournal : List ArchRec             -- Archive journal since the current snapshot, R203
  oldJournal : List ArchRec              -- Archive journal of an archive that did not open, R514
  snapping  : Option Archive             -- what a snapshot in progress writes, R203
  snap0     : Archive                    -- the two snapshot partitions, R27
  snap1     : Archive
  current   : Nat                        -- snapshot partition marked current
  archive   : Archive                    -- what this start has read of the key archive and committed since
  proofNext : Nat
  proofMark : Nat
  cont0     : ContCopy                   -- the two copies of the continuity record, R665
  cont1     : ContCopy
  refreshed : Tab Nat                    -- Archive block to its last refresh, R28
  deriving DecidableEq, Repr

/-- The inputs of one landing (R247) and the values the Stair holds for it (R248). -/
structure Landing where
  meas   : Bytes
  signer : Bytes
  svn    : Nat
  lineage : Bytes                        -- k[n]
  alias_ : Bytes                         -- alias seed
  cert   : Bytes
  deriving DecidableEq, Repr

/-- The Stair engine (R239 to R261). -/
structure Stair where
  pufOk    : Bool
  ready    : Bool                        -- Landing 0 has run
  landing  : Nat                         -- highest landing climbed
  exact    : Bytes                       -- e of the highest landing
  signerV  : Bytes                       -- g of the highest landing
  identity : Bytes                       -- identity seed; cleared when locked
  ledger   : Bytes                       -- ledger seed; cleared when locked
  tally    : Bytes                       -- tally seed
  device   : Bytes                       -- d; cleared at landing 1
  custody  : Bytes                       -- c; cleared at landing 1
  idPub    : Bytes
  ledPub   : Bytes
  lands    : Tab Landing
  idCert   : Bytes                       -- identity certificate, R245
  ledCert  : Bytes                       -- ledger certificate, R245
  paused   : Bool                        -- personalisation pause, R246
  vec      : Bytes                       -- l(v) of the latest lineage request, R254
  tasks    : List StairTask              -- signatures that wait for admission, oldest first, R253
  deriving DecidableEq, Repr

/-- One boot ledger entry: the core and the extensions written so far (R268, R270). -/
structure LedgerEntry where
  core : Bytes
  exts : List Bytes
  deriving DecidableEq, Repr

/-- The boot ledger ring (R268 to R273). -/
structure Ledger where
  newest  : Nat
  entries : Tab LedgerEntry              -- by position
  served  : Bool                         -- the service extension of this start is written
  deriving DecidableEq, Repr

/-! ### Halls and protection -/

/-- Hand-over states (R416). -/
inductive HandState where
  | owned | releasing | reset | free | claimed
  deriving DecidableEq, Repr

/-- A movable block as `HC_BLOCK_n` shows it, with its gating (R416, R420). -/
structure HallBlock where
  last   : Nat
  dest   : Hall
  owner  : Hall
  state  : HandState
  clkOff : Bool
  pwrOff : Bool
  deriving DecidableEq, Repr

/-- A watermark in units of its step field, with the move in progress (R398 to R400). -/
structure Watermark where
  target : Nat
  cur    : Nat
  busy   : Bool
  deriving DecidableEq, Repr

/-- The address ranges of an enclave, as the four registers hold them (R405, R427). -/
structure Enclave where
  codeStart : Nat
  codeEnd   : Nat
  dataStart : Nat
  dataEnd   : Nat
  deriving DecidableEq, Repr

/-- A region of an MPU set (R414). -/
structure Region where
  start : Word
  len   : Word
  attr  : Word
  deriving DecidableEq, Repr

/-- The MPU of a control core (R407 to R414). -/
structure Mpu where
  active  : Bool                         -- false set A, true set B, in force
  shown   : Bool                         -- MPU_STATUS.ACTIVE
  pending : Bool
  overlap : Bool
  ovlA    : Nat
  ovlB    : Nat
  faultAddr : Nat
  valid   : Bool
  more    : Nat
  region  : Nat
  fset    : Bool
  fuser   : Bool
  ftype   : Nat
  setA    : Tab Region
  setB    : Tab Region
  deriving DecidableEq, Repr

/-- The hall controller, the MPUs and the memories. -/
structure Halls where
  logic   : Watermark
  mezz    : Watermark
  err     : BitVec 5
  lock    : Bool
  encl    : Tab Enclave
  blocks  : Tab HallBlock
  mpus    : Tab Mpu
  logicMem : List Host.Cell
  mezzMem : List Host.Cell
  archMem : List Host.Cell
  timers  : Tab (Bool × Nat)             -- running, count
  deriving DecidableEq, Repr

/-! ### Tamper, life cycle, faults -/

/-- A soft monitor: the setting in force, the shadowed one and the time stamps kept (R433 to R435). -/
structure Monitor where
  set    : Word
  shadow : Word
  stamps : List Nat                      -- newest first, at most 16
  deriving DecidableEq, Repr

/-- The tamper controller (R428 to R456). -/
structure Tamper where
  irq      : Bool
  cellLow  : Bool
  cellExt  : Bool
  phase    : Nat                         -- ERASE_PHASE
  cause    : BitVec 10
  err      : BitVec 5
  mons     : Tab Monitor
  bistOn   : Bool
  bistMon  : Nat
  bistInst : Nat
  selMon   : Nat
  selInst  : Nat
  bistDone : Bool
  bistPass : Bool
  instFail : BitVec 18
  bistAt   : Nat
  interval : Nat                         -- s, R440
  testedAt : Nat
  round    : Option Nat                  -- next instance of a round of tests, 2 * monitor + instance
  erased   : Bool                        -- an ERASE response has begun in this start, R443
  safed    : Bool                        -- a SAFE response has been taken
  flag     : Option Nat                  -- the BB_PENDING flag of the running response
  tempOut  : Nat                         -- consecutive cell samples out of range
  deriving DecidableEq, Repr

/-- The battery-backed bits (R29) and the always-on domain. -/
structure Battery where
  check    : BitVec 32
  gap      : BitVec 8
  pending  : BitVec 16
  head     : Bytes                       -- BB_LEDGER_HEAD, 24 bytes
  secret   : Bytes                       -- BB_ERASE_SECRET, 32 bytes
  latch    : Bool                        -- retention latch
  busy     : Bool                        -- CHECK_BUSY, R449
  deriving DecidableEq, Repr

/-- The OTP (01, OTP contents). -/
structure Otp where
  copies   : List Word
  evidence : BitVec 256
  sealBits : BitVec 64
  random   : Bytes
  trim     : Bytes
  rootHash : Bytes
  ownerHash : Bytes
  deriving DecidableEq, Repr

/-- A transition that has begun and not yet reset the device (R465). -/
structure Transition where
  target : Life
  work   : Option Nat
  bad    : List (Nat × Nat)              -- bits of copies that do not read back
  image  : Option (Bytes × Bytes)        -- owner's key and image of a commissioning, R472
  deriving DecidableEq, Repr

/-- The life-cycle controller and the test access port. -/
structure LifeCycle where
  life      : Life
  voteFail  : Bool
  scrapDone : Bool
  dbg       : BitVec 4                   -- DEBUG_EN, R473
  expiry    : Nat
  err       : BitVec 4
  trans     : Option Transition
  comKey    : Option Bytes               -- commissioning record, R469
  challenge : Option Bytes               -- R478
  result    : Nat                        -- AUTH_STATUS.RESULT
  refusedAt : Nat
  tapInstr  : Nat                        -- instruction in the TAP
  boundary  : Nat                        -- boundary-scan register
  deriving DecidableEq, Repr

/-- The fault collector (R483 to R502). -/
structure Collector where
  status   : BitVec 64
  cls      : Tab Nat                     -- line to its class code
  restart  : Nat
  handle   : Nat
  capMin   : Nat
  forced   : Bool
  service  : Service
  causes   : BitVec 5
  valid    : Bool
  fLine    : Nat
  fClass   : Nat
  fType    : Nat
  fAddr    : Nat
  fMaster  : Nat
  fTime    : Nat
  more     : Nat
  self     : BitVec 3
  forceCls : Nat
  heldAt   : Nat                         -- when VALID was last set
  safeAt   : Nat                         -- when SAFE was entered
  faultN   : Option Bool                 -- none: high impedance
  deriving DecidableEq, Repr

/-- An event source (R503 to R507). -/
structure EvSource where
  pending : Bool
  enable  : Bool
  prio    : Nat
  target  : Nat
  deriving DecidableEq, Repr

/-- The event distributor. -/
structure Distributor where
  srcs : Tab EvSource                    -- sources that differ from their reset value
  err  : Bool
  deriving DecidableEq, Repr

/-! ### Start, configuration, twin, Tally, counters, power -/

/-- A configuration image as a slot holds it: the head and the bodies of sections 1 to 8 (R517, R518). -/
structure Config8 where
  head   : Bytes
  bodies : Tab Bytes
  deriving DecidableEq, Repr

/-- The boot-attempt record (R523). -/
structure Attempt where
  newest  : Nat
  fails   : Nat
  hard    : Nat
  seq     : Nat
  prefer  : BitVec 4
  words   : List Word
  retired : BitVec 128
  rows    : List Word
  recId   : Bytes
  deriving DecidableEq, Repr

/-- Start, images and scheduled resets (R511 to R534). -/
structure Boot where
  step      : Nat                        -- highest step ended in this start
  running   : Bool                       -- a start is in progress
  began     : Nat                        -- device time at time zero
  recovery  : Bool
  sealed_   : Bool
  solo      : Bool
  bbLost    : Bool                       -- the bits were lost at this start, R30
  evCommit  : Bool                       -- evidence was committed in this start, R268
  stopped   : Bool                       -- hard stop, no more attempts of its own, R526
  resetAt   : Option Nat                 -- a scheduled self-reset
  cleared   : Bool                       -- the 600 s of R525 have passed
  attempt   : Attempt
  fwA       : Tab Bytes                  -- component to image
  fwB       : Tab Bytes
  ucA       : Bytes
  ucB       : Bytes
  cfgA      : Config8
  cfgB      : Config8
  activated : Bool                       -- an activation in this start, R534
  copied    : Bool                       -- the active firmware slot has been copied, R534
  stagedUc  : Bool                       -- a microcode package is staged, R534
  admitStop : Bool                       -- admission is stopped
  authority : Option Bytes               -- none LOCAL, some manager identifier, R236
  margin    : Nat                        -- cost margin in hundredths, R141
  marginNext : Nat                       -- value for the next epoch
  resCipher : Nat                        -- repair reserve in bays, R159
  resPk     : Nat
  resNext   : Nat × Nat
  caps      : Tab Nat                    -- wing number to capacity in tenths of a unit, R155
  capsOld   : Tab Nat                    -- capacity of the epoch before
  epochAt   : Nat
  secNext   : List Nat                  -- sections loaded whose values wait for the next epoch, R532
  env      : Option StartEnv            -- the model's own: what the silicon gives the start that waits
  deriving DecidableEq, Repr

/-- The pair record (R548). -/
structure PairRec where
  paired   : Bool
  side     : Nat
  seq      : Nat
  epoch    : Nat
  partner  : Bytes
  identity : Bytes
  deriving DecidableEq, Repr

/-- Codes of `IB_STATUS.PAIR` (R584). -/
inductive PairState where
  | unpaired | joined | joining | held | survivor | yielded
  deriving DecidableEq, Repr

/-- The Ibvelet link and the twin (R538 to R569). -/
structure Twin where
  side     : Nat                         -- strap latched at reset
  strap    : Nat                         -- level of the ball
  pair     : PairRec
  state    : PairState
  service  : Nat                         -- PARTNER_SERVICE
  lanes    : BitVec 4
  link     : Nat                         -- LINK
  down     : Bool                        -- stays down until the reset, R585
  err      : BitVec 6
  txKey    : Bytes
  rxKey    : Bytes
  txSalt   : Bytes
  rxSalt   : Bytes
  txSeq    : Nat                         -- next FRAME_SEQ to send
  rxSeq    : Nat                         -- last FRAME_SEQ accepted in order
  kept     : List IbFrame                -- sent and not acknowledged, oldest first
  credits  : List Nat                    -- frames freed since the join, by channel
  sentAt   : Nat
  authAt   : Nat
  twinKey  : Bytes
  delivered : List (Nat × Nat)           -- channel and MSG_NUM delivered
  held     : List JournalRec             -- journal records of the partner held here
  reported : List (Nat × Nat)            -- domain and sequence number reported held
  mirrors  : List SessionMirror
  marks    : List (Nat × Nat × MirrorMark)
  accepts  : List AcceptMirror
  applied  : List (Nat × Nat × Nat × Bytes)  -- commands of the partner whose records are applied, with their handles
  alcoves  : Tab AlcoveRecord            -- partner's alcove records
  mirrorKeys : Tab (List (Bytes × Role)) -- registered keys of those alcoves, R195
  mirrorProof : Tab Bytes                -- their proof secrets, R265
  uses     : Tab Nat                     -- uses of the partner by face, R555: 2 * slot + face
  invs     : Tab Nat                     -- invocation marks of the partner by face, R206
  marksSent : List MarkRef               -- marks forwarded to the partner and not yet committed, R552
  commits  : Tab Nat                     -- highest commit number known of the partner, by domain
  homes    : Tab Nat                     -- alcove to home side, default 0
  failback : Nat
  joinedAt : Option Nat
  lostAt   : Option Nat                  -- start of the presence check
  queries  : Nat
  answered : Bool
  keepAt   : Nat
  rounds   : List (Nat × Nat)            -- announcement rounds left: alcove, rounds
  roundAt  : Nat
  waiting  : Bool                        -- step 10 waits for the link
  takeAt   : Option Nat                  -- time at which a takeover is due, R559, R560
  peerFreed : List Nat                   -- latest credits of the partner, by channel, R540
  sentCh   : List Nat                    -- frames sent since the join, by channel, R540
  msgNext  : Nat                         -- next message number on channel 0, R539
  partnerId : Option Bytes               -- PARTNER item
  deriving DecidableEq, Repr

/-- The gallery and the sessions this device opens as client (R570 to R582). -/
structure Gallery where
  role     : Nat
  number   : Nat
  mgrAddr  : Bytes
  estate   : Option Bytes
  member   : Option Nat
  recvX    : Bytes                       -- receive key: X25519 scalar
  recvK    : Bytes                       -- receive key: ML-KEM seed
  mgrKey   : Option Bytes                -- key registered by the last probe
  mgrOf    : Option Bytes                -- identifier of the manager that proved it
  probeAt  : Nat
  clients  : Tab Nat                     -- client session to its state: 0 opening, 1 open
  hellos   : Tab Bytes                   -- `HELLO` payload of each, and of the last probe at 255
  asked    : List Nat                    -- sessions whose worker was asked for its receive key, R573
  reserved : Tab Migration               -- alcoves prepared here as a destination, R577
  deriving DecidableEq, Repr

/-- An event log entry of the Tally (R604). -/
structure TallyLog where
  type   : Nat
  num    : Nat
  time   : Nat
  sealCnt : Nat
  oldD   : Bytes
  newD   : Bytes
  detail : Nat
  deriving DecidableEq, Repr

/-- A record of the Tally (R595), before and after it is signed. -/
structure TallyRec where
  num    : Nat
  time   : Nat
  flags  : Nat
  totals : Tab (List Nat)
  bytes  : Bytes
  signed : Bool
  deriving DecidableEq, Repr

/-- The Tally (R586 to R609). -/
structure Tally where
  time      : Nat                        -- ns of Tally time
  seed      : Option Bytes
  core      : Nat
  suspect   : Bool
  discipl   : Bool
  rate      : Int                        -- ppm in force
  frac      : Int                        -- the model's own: as `Net.frac`
  totals    : Tab (List Nat)             -- domain to its 16 totals
  buffers   : List (Nat × Nat × Nat × Nat)  -- wing, domain, meter, quantity, oldest first
  tariff    : Tab (Nat × Nat)            -- meter to category and weight
  interval  : Nat
  records   : Tab TallyRec               -- by RECORD_NUM
  newest    : Nat
  waiting   : List TallyRec              -- captured, not signed
  cut       : List Nat                   -- commands waiting for a cut
  log       : Tab TallyLog
  logNewest : Nat
  logFull   : Nat
  pathFault : Bool
  resumed   : Bool
  err       : BitVec 4
  fwVersion : Nat
  fwDigest  : Bytes
  secDigest : Bytes
  section8  : Bytes
  nextFw    : Option (Nat × Bytes)       -- inactive firmware slot: version, digest
  nextSec   : Option Bytes               -- inactive section slot
  endorse   : Bytes
  checkTot  : Tab (List Nat)
  checkTime : Nat
  deriving DecidableEq, Repr

/-- The performance reader (R610 to R623). -/
structure Perf where
  interval : Nat
  intNext  : Nat
  sel      : Tab Word
  selNext  : Tab Word
  counts   : Tab Nat
  snapSeq  : Nat
  snaps    : List (Nat × Bytes)          -- newest 64, newest first
  stepped  : Bool
  changed  : Bool
  gap      : Bool
  err      : BitVec 3
  lastAt   : Nat
  missed   : Nat
  deriving DecidableEq, Repr

/-- Power, clocks and pins (R629 to R655). -/
structure Power where
  mv       : Nat
  holdup   : Bool
  pll      : BitVec 7
  hottest  : BitVec 16
  coolest  : BitVec 16
  err      : BitVec 5
  gate     : Word                        -- PC_GATE_RESULT
  powered  : Bool                        -- the logic die runs
  cellMv   : Nat
  extMv    : Nat
  slow     : Bool                        -- device time on the 100 MHz reference, R642
  deriving DecidableEq, Repr

/-- A register pair's captured or held half, of one master (R5, R6). -/
structure PairHalf where
  master : Nat
  addr   : Nat
  value  : Word
  deriving DecidableEq, Repr

/-- The whole machine. -/
structure State where
  time    : Nat                          -- device time in ns, R4
  net     : Net
  cipher  : Cipher
  pk      : Pk
  digest  : Digest
  rng     : Rng
  keys    : Keys
  stair   : Stair
  ledger  : Ledger
  halls   : Halls
  tamper  : Tamper
  bb      : Battery
  otp     : Otp
  life    : LifeCycle
  fc      : Collector
  ed      : Distributor
  boot    : Boot
  twin    : Twin
  gallery : Gallery
  tally   : Tally
  perf    : Perf
  power   : Power
  captured : List PairHalf               -- R5
  heldHi  : List PairHalf                -- R6
  lastErr : Bool                         -- error response of the last register access
  lastVal : Word                         -- value it returned
  fresh   : Nat                          -- the model's own: index of the next free value
  outbox  : List Output                  -- the model's own: what was sent
  pending : List Instr                   -- the model's own: the commands that wait
  deriving DecidableEq, Repr

/-! ### The state after reset

Every value the spec gives is the spec's; a value marked (log n) is the model's choice. -/

/-- A port after reset: links down until the modules are up (log 8), default breakout (R33). -/
def portReset : Port :=
  { up := [false, false, false, false], breakout := 0, breakNext := none, paused := [], recvUsed := []
    pauseSent := [], region := 8, present := true, moduleUp := false, highPower := false, dataPath := false, alarms := 0
    pllOk := true }

/-- The network face after reset: no alcove is open, no session, no work (R42, R57, R70). -/
def netReset : Net :=
  { portA := portReset, portB := portReset, ptpDomain := 0, ptpPort := 0, ptpSource := 0
    ptpHere := false, ptp := { seq := 0, t2 := none, t1 := none, req := 0, t3 := none }, slew := 0, frac := 0, leap := 37, icmp := false, mgmtVlan := 0, ppsOut := false, ppsRose := 0
    alcoves := [], sessions := [], work := [], nextWork := 0, nextSid := 0, comps := [], nextComp := 0
    slices := [], qps := [], drops := [], waitHellos := [], txHeld := [] }

/-- A unit after reset: out until the start tests have passed (R313, R315, R386: STATE 2). -/
def unitReset : EngineUnit := { state := .out, lost := false, leaving := false, joining := false, testAt := 0 }

/-- Bay registers after reset (R313, R315): ERR_IRQ_EN 1, all else 0. -/
def bayReset : BayRegs := { irq := true, kat := false, bist := false, bistDone := false, err := 0 }

/-- The cipher wing after reset. -/
def cipherReset : Cipher :=
  { pipes := tinit 8 (fun _ => unitReset), bays := tinit 4 (fun _ => bayReset)
    lanes := tinit 8 (fun _ => unitReset), legacy := unitReset, legReg := bayReset
    ctxErr := 0, ops := [], nextOp := 0 }

/-- A public-key core after reset (R345: STATE 7, ERR_IRQ_EN 1). -/
def pkCoreReset : PkCore :=
  { state := .loading, prog := 0, busy := false, kat := false, bist := false, bistDone := false
    err := 0, irq := true, line := 0, data := [0, 0, 0, 0], om := [], job := none, next := none
    lost := false, lostOnce := false, leaving := false, joining := false, drains := false
    store := [], locked := false, keccak := [], seq := 0 }

/-- The public-key wing after reset. -/
def pkReset : Pk :=
  { cores := tinit 48 (fun _ => pkCoreReset), jobs := [], nextJob := 0, queue := [], park := [], entries := []
    parkErr := 0, parkSlot := 0 }

/-- The digest unit after reset (R351: ALGO 2, LAST_BYTES 4). -/
def digestReset : Digest :=
  { algo := 2, hmac := false, state := .idle, busy := false, lenLo := 0, lenHi := 0, lastB := 4
    keyLen := 0, result := List.replicate 16 0, expect := List.replicate 16 0, match_ := 0
    matchN := 0, err := 0, keys := List.replicate 34 0, opAlgo := 2, opHmac := false, opKey := []
    opLen := 0, words := 0, msg := [] }

/-- A repetition-count test that starts. -/
def runReset : RunTest := { count := 0, last := false }

/-- A small source after reset: start-up. -/
def smallReset : SmallSource :=
  { state := 0, consec := 0, fails := [], start0 := false, start1 := false, run0 := runReset, run1 := runReset, spores := 0 }

/-- The random-number source after reset (R372: OFF; R393). -/
def rngReset : Rng :=
  { source := .off, started := false
    banks := tinit 32 (fun _ => { run := runReset, failing := false, passed := 0, rct := 0, apt := 0 })
    spores := 0, buffer := 0, carried := 0, condBad := 0, forceDup := false, inst := [], seeded := 0
    cores := tinit 2 (fun _ => unitReset), err := 0, irq := true, aon := smallReset
    tally := smallReset }

/-- An empty key archive (log 9). -/
def archiveReset : Archive :=
  { secrets := [], checks := [], freed := [], retired := [], domains := [], quotas := [], alcoves := [], removed := []
    instNext := 1, proofMark := 0, uses := [], invs := [], last := [], vector := [0, 0, 0, 0], seals := [], valid := false }

/-- A copy of the continuity record with every floor at its first value; `seq` is 0 in one never written (log 9). -/
def contReset (holds : Bool) (seq : Nat) : ContCopy :=
  { holds := holds, seq := seq, inst := 0, proof := 0, wit := [], epoch := [] }

/-- The key store after reset: cleared (R182). -/
def keysReset : Keys :=
  { secrets := [], checks := [], freed := [], retired := [], taken := []
    cache := [], pins := [], old := [], oldNext := 0, domains := [], instNext := 1, blocks := [], journal := []
    archJournal := [], oldJournal := [], snapping := none, snap0 := archiveReset, snap1 := archiveReset, current := 0
    archive := archiveReset, proofNext := 1
    proofMark := 0, cont0 := contReset true 1, cont1 := contReset false 0, refreshed := [] }

/-- The Stair after reset: nothing climbed (R249). -/
def stairReset : Stair :=
  { pufOk := false, ready := false, landing := 0, exact := [], signerV := [], identity := []
    ledger := [], tally := [], device := [], custody := [], idPub := [], ledPub := [], lands := []
    idCert := [], ledCert := [], paused := false, vec := [], tasks := [] }

/-- Hall of the movable blocks at reset by index of `HC_BLOCK` (R11, R416). -/
def blockReset (n : Nat) : HallBlock :=
  let h := if n = 11 ∨ (12 ≤ n ∧ n ≤ 19) then Hall.inner else Hall.outer
  { last := 0, dest := .inner, owner := h, state := .owned, clkOff := false, pwrOff := false }

/-- An MPU after reset: every region all zero (R414). -/
def mpuReset : Mpu :=
  { active := false, shown := false, pending := false, overlap := false, ovlA := 0, ovlB := 0
    faultAddr := 0, valid := false, more := 0, region := 0, fset := false, fuser := false
    ftype := 0, setA := [], setB := [] }

/-- The hall controller, the MPUs and the memories after reset (R23, R25, R427). -/
def hallsReset : Halls :=
  { logic := { target := 0x1C0, cur := 0x1C0, busy := false }
    mezz := { target := 0x158, cur := 0x158, busy := false }
    err := 0, lock := false
    encl := tinit 4 (fun _ => { codeStart := 0, codeEnd := 0, dataStart := 0, dataEnd := 0 })
    blocks := tinit 22 blockReset
    mpus := (tinit 4 (fun _ => mpuReset)) ++ (List.range 12).map (fun i => (16 + i, mpuReset))
    logicMem := [], mezzMem := [], archMem := [], timers := tinit 8 (fun _ => (false, 0)) }

/-- A soft monitor at its default setting (R433, R456). -/
def monReset (w : Word) : Monitor := { set := w, shadow := w, stamps := [] }

/-- The tamper controller after reset (R433, R440, R456). -/
def tamperReset : Tamper :=
  { irq := true, cellLow := false, cellExt := false, phase := 0, cause := 0, err := 0
    mons := [(2, monReset 0x8200000A), (3, monReset 0x8400000A), (4, monReset 0x480003E8),
      (5, monReset 0x8200000A), (6, monReset 0x84000001), (7, monReset 0x81000001)]
    bistOn := false, bistMon := 0, bistInst := 0, selMon := 0, selInst := 0, bistDone := false
    bistPass := false, instFail := 0, bistAt := 0, interval := 60, testedAt := 0, round := none, erased := false
    safed := false, flag := none, tempOut := 0 }

/-- The battery-backed bits of a device whose cell has held them (log 10). -/
def batteryReset : Battery :=
  { check := 0, gap := 0, pending := 0, head := List.replicate 24 0, secret := List.replicate 32 0
    latch := false, busy := false }

/-- The OTP of a device as shipped, in `TRANSIT` (R656), its other items zero (log 9). -/
def otpReset : Otp :=
  { copies := [0xFF, 0xFF, 0xFF], evidence := 0, sealBits := 0, random := List.replicate 32 0
    trim := List.replicate 256 0, rootHash := List.replicate 64 0, ownerHash := List.replicate 64 0 }

/-- The life-cycle controller after reset: the voted state, debug closed (R457, R473, R482). -/
def lifeReset : LifeCycle :=
  { life := .transit, voteFail := false, scrapDone := false, dbg := 0, expiry := 0, err := 0
    trans := none, comKey := none, challenge := none, result := 0, refusedAt := 0, tapInstr := 1
    boundary := 0 }

/-- The fault collector after reset (R497, R509). -/
def collectorReset : Collector :=
  { status := 0, cls := [], restart := 0, handle := 10, capMin := 2, forced := false
    service := .starting, causes := 0, valid := false, fLine := 0, fClass := 0, fType := 0
    fAddr := 0, fMaster := 0, fTime := 0, more := 0, self := 0, forceCls := 1, heldAt := 0
    safeAt := 0, faultN := some true }

/-- The event distributor after reset: every source at its reset value (R510). -/
def distributorReset : Distributor := { srcs := [], err := false }

/-- The boot-attempt record of a device that has never started (R523; log 9). -/
def attemptReset : Attempt :=
  { newest := 0, fails := 0, hard := 0, seq := 0, prefer := 0, words := List.replicate 8 0
    retired := 0, rows := [], recId := [] }

/-- An empty configuration slot (log 9). -/
def configReset : Config8 := { head := [], bodies := [] }

/-- Start state after reset: no step has ended (R511), with the default reserve and margin (R141, R159). -/
def bootReset : Boot :=
  { step := 0, running := false, began := 0, recovery := false, sealed_ := false, solo := false, bbLost := false, evCommit := false
    stopped := false, resetAt := none, cleared := false, attempt := attemptReset, fwA := [], fwB := []
    ucA := [], ucB := [], cfgA := configReset, cfgB := configReset, activated := false
    copied := false, stagedUc := false, admitStop := true, authority := none, margin := 100, marginNext := 100
    resCipher := 1, resPk := 1, resNext := (1, 1), caps := [], capsOld := [], epochAt := 0, secNext := [], env := none }

/-- The twin after reset: unpaired, link down (R548, R584). -/
def twinReset : Twin :=
  { side := 0, strap := 0
    pair := { paired := false, side := 0, seq := 0, epoch := 0, partner := [], identity := [] }
    state := .unpaired, service := 7, lanes := 0, link := 0, down := false, err := 0, txKey := []
    rxKey := [], txSalt := [], rxSalt := [], txSeq := 1, rxSeq := 0, kept := [], credits := [0, 0, 0]
    sentAt := 0, authAt := 0, twinKey := [], delivered := [], held := [], reported := []
    mirrors := [], marks := [], accepts := [], applied := [], alcoves := [], mirrorKeys := [], mirrorProof := [], uses := []
    invs := [], marksSent := [], commits := [], homes := []
    failback := 10, joinedAt := none, lostAt := none, queries := 0, answered := false, keepAt := 0
    rounds := [], roundAt := 0, waiting := false, takeAt := none, peerFreed := [0, 0, 0]
    sentCh := [0, 0, 0], msgNext := 1, partnerId := none }

/-- The gallery after reset: no role. -/
def galleryReset : Gallery :=
  { role := 0, number := 0, mgrAddr := [], estate := none, member := none, recvX := [], recvK := []
    mgrKey := none, mgrOf := none, probeAt := 0, clients := [], hellos := [], asked := [], reserved := [] }

/-- The Tally after reset: unseeded, with an empty partition (log 9). -/
def tallyReset : Tally :=
  { time := 0, seed := none, core := 0, suspect := false, discipl := false, rate := 0, frac := 0, totals := []
    buffers := [], tariff := [], interval := 60, records := [], newest := 0, waiting := []
    cut := [], log := [], logNewest := 0, logFull := 0, pathFault := false, resumed := false
    err := 0, fwVersion := 0, fwDigest := List.replicate 64 0, secDigest := List.replicate 64 0
    section8 := [], nextFw := none, nextSec := none, endorse := [], checkTot := [], checkTime := 0 }

/-- The performance reader after reset (R623). -/
def perfReset : Perf :=
  { interval := 100000, intNext := 100000, sel := [], selNext := [], counts := [], snapSeq := 0
    snaps := [], stepped := false, changed := false, gap := false, err := 0, lastAt := 0, missed := 0 }

/-- Power, clocks and pins after reset: nothing read, locked or charged yet (R655). -/
def powerReset : Power :=
  { mv := 0, holdup := false, pll := 0, hottest := 0, coolest := 0, err := 0, gate := 0
    powered := true, cellMv := 3000, extMv := 0, slow := false }

/-- The machine right after reset, before a start runs: no command waits. -/
def State.reset : State :=
  { time := 0, net := netReset, cipher := cipherReset, pk := pkReset, digest := digestReset
    rng := rngReset, keys := keysReset, stair := stairReset
    ledger := { newest := 0, entries := [], served := false }
    halls := hallsReset, tamper := tamperReset, bb := batteryReset, otp := otpReset
    life := lifeReset, fc := collectorReset, ed := distributorReset, boot := bootReset
    twin := twinReset, gallery := galleryReset, tally := tallyReset, perf := perfReset
    power := powerReset, captured := [], heldHi := [], lastErr := false, lastVal := 0, fresh := 0
    outbox := [], pending := [] }

end Sys2Proof.Machine
end

