-- ==== Sys2Proof/Machine/Flags.lean ====
section
/-! DEFINITION. Status codes (R132), frame flags (R48), write-one-to-clear and force computations (R7,
R8), and the packing of register fields. -/

namespace Sys2Proof.Machine

/-! ### Status codes (R132) -/

def stOk : Nat := 0x0000
def stRetry : Nat := 0x0001
def stBusyClass : Nat := 0x0010
def stBusyQuota : Nat := 0x0011
def stLengthShort : Nat := 0x0020
def stLengthLong : Nat := 0x0021
def stFormat : Nat := 0x0022
def stDeniedAttr : Nat := 0x0030
def stDeniedQuorum : Nat := 0x0031
def stDeniedAuth : Nat := 0x0032
def stDeniedHall : Nat := 0x0033
def stInput : Nat := 0x0040
def stKeyUnknown : Nat := 0x0041
def stContextStale : Nat := 0x0042
def stCounterExh : Nat := 0x0043
def stUsageExh : Nat := 0x0044
def stVerifyFailed : Nat := 0x0045
def stEntropy : Nat := 0x0050
def stFaultDetected : Nat := 0x0051
def stUnitLost : Nat := 0x0052
def stDeviceSafe : Nat := 0x0060
def stTampered : Nat := 0x0061
def stNotReady : Nat := 0x0070
def stOpcodeUnknown : Nat := 0x0080
def stConflict : Nat := 0x0081
def stBusError : Nat := 0x0082

/-! ### Frame flags (R48) -/

def flFirst (f : Nat) : Bool := f.testBit 0
def flLast (f : Nat) : Bool := f.testBit 1
def flEvent (f : Nat) : Bool := f.testBit 2

/-- Whether a reserved flag is set. -/
def flReserved (f : Nat) : Bool := decide (32 ≤ f)

/-- The flags of a completion segment. -/
def complFlags (first last trunc replay : Bool) : Nat :=
  b2n first + 2 * b2n last + 8 * b2n trunc + 16 * b2n replay

/-! ### Register flags -/

/-- A write to write-one-to-clear bits (R7). -/
def w1c {w : Nat} (cur : BitVec w) (v : Nat) : BitVec w := cur &&& ~~~ (BitVec.ofNat w v)

/-- A count of ns kept to 64 bits (R4). -/
def ns64 (n : Nat) : Nat := n % 2 ^ 64

/-- Set one bit. -/
def setBit {w : Nat} (cur : BitVec w) (i : Nat) : BitVec w := cur ||| BitVec.ofNat w (2 ^ i)

/-- Clear one bit. -/
def clrBit {w : Nat} (cur : BitVec w) (i : Nat) : BitVec w := cur &&& ~~~ (BitVec.ofNat w (2 ^ i))

/-- A register word from fields: the value of each and its lowest bit. -/
def pack (l : List (Nat × Nat)) : Word := w32 (sumNat (l.map (fun e => e.1 * 2 ^ e.2)))

/-- The bits of a value, below `w`, that are set, lowest first. -/
def setBits (w v : Nat) : List Nat := (List.range w).filter (fun i => v.testBit i)

/-- Codes of the fault classes (15, Fault lines). -/
def fclassCode : FClass → Nat
  | .note => 1
  | .recover => 2
  | .degrade => 3
  | .safe => 4
  | .erase => 5

/-- Codes of the service states (01, `ID_STATE`). -/
def serviceCode : Service → Nat
  | .starting => 0
  | .inService => 1
  | .degraded => 2
  | .safe => 3
  | .tampered => 4
  | .recovery => 5

/-- Codes of the life-cycle states (R457). -/
def lifeCode : Life → Nat
  | .blank => 0
  | .vendor => 1
  | .transit => 2
  | .commissioned => 3
  | .inService => 4
  | .return => 5
  | .scrapped => 6

/-- The state that `ID_STATE.LIFE` reports (R461) (DEDUCED, log 34). -/
def lifeShown (s : State) : Nat := if s.life.voteFail then 6 else lifeCode s.life.life

/-- Codes of the roles (R234). -/
def roleCode : Role → Nat
  | .client => 0
  | .steward => 1
  | .manager => 2
  | .galleryManager => 3

/-- The role of a code, if there is one. -/
def roleOf : Nat → Option Role
  | 0 => some .client
  | 1 => some .steward
  | 2 => some .manager
  | 3 => some .galleryManager
  | _ => none

/-- Codes of the use classes (R171). -/
def useCode : UseClass → Nat
  | .encrypt => 1
  | .decrypt => 2
  | .wrap => 3
  | .unwrap => 4
  | .derive => 5
  | .macGenerate => 6
  | .macVerify => 7
  | .sign => 8
  | .verify => 9
  | .agree => 10
  | .encapsulate => 11
  | .decapsulate => 12
  | .pinTranslate => 13

/-- The use class of a code. -/
def useOf : Nat → Option UseClass
  | 1 => some .encrypt
  | 2 => some .decrypt
  | 3 => some .wrap
  | 4 => some .unwrap
  | 5 => some .derive
  | 6 => some .macGenerate
  | 7 => some .macVerify
  | 8 => some .sign
  | 9 => some .verify
  | 10 => some .agree
  | 11 => some .encapsulate
  | 12 => some .decapsulate
  | 13 => some .pinTranslate
  | _ => none

/-- Codes of the unit states (R313, R345). -/
def ustateCode : UState → Nat
  | .inService => 0
  | .draining => 1
  | .out => 2
  | .zeroising => 3
  | .testing => 4
  | .retired => 5
  | .moving => 6
  | .loading => 7

end Sys2Proof.Machine
end

