-- ==== Sys2Proof/Machine/Mem.lean ====
section
/-! DEFINITION. Byte memories: lists of cells in one canonical form (addresses strictly rising, no cell
that holds zero, which is what an unlisted address reads as), for the logic die SRAM (R23), the
mezzanine (R25) and the Archive (R27). -/

namespace Sys2Proof.Machine

/-- One byte; an unlisted address reads as zero (DESIGN CHOICE, log 6). -/
def Mem.get : List Host.Cell → Nat → Byte
  | [], _ => 0
  | (i, v) :: r, a => if i = a then v else Mem.get r a

/-- Put a cell, keeping the canonical form. -/
def Mem.put : List Host.Cell → Nat → Byte → List Host.Cell
  | [], a, v => if v = 0 then [] else [(a, v)]
  | (i, x) :: r, a, v =>
    if a < i then (if v = 0 then (i, x) :: r else (a, v) :: (i, x) :: r)
    else if a = i then (if v = 0 then r else (a, v) :: r)
    else (i, x) :: Mem.put r a v

/-- Read `n` bytes from an address. -/
def Mem.read (m : List Host.Cell) (a n : Nat) : Bytes := (List.range n).map (fun i => Mem.get m (a + i))

/-- Write bytes from an address. -/
def Mem.write : List Host.Cell → Nat → Bytes → List Host.Cell
  | m, _, [] => m
  | m, a, v :: r => Mem.write (Mem.put m a v) (a + 1) r

/-- Zeroise the addresses `lo` to `hi - 1`. -/
def Mem.zero (m : List Host.Cell) (lo hi : Nat) : List Host.Cell :=
  m.filter (fun c => decide (c.1 < lo) || decide (hi ≤ c.1))

/-- The canonical form from a lower bound on the addresses. -/
def Mem.wfFrom : Nat → List Host.Cell → Bool
  | _, [] => true
  | lo, (i, v) :: r => decide (lo ≤ i) && v != 0 && Mem.wfFrom (i + 1) r

/-- The canonical form. -/
def Mem.wf (m : List Host.Cell) : Bool := Mem.wfFrom 0 m

end Sys2Proof.Machine
end

