-- ==== Sys2Proof/Machine/Ops.lean ====
section
/-! DEFINITION. The named operations that every family shares: access to the parts of `State`, what is
sent, free values, events to the control cores, counters, metering and the sending of WCP frames. -/

namespace Sys2Proof.Machine

/-- The outcome of a command. -/
abbrev Out := Host.Outcome State Fault Refusal

/-! ### Access -/

/-- Put an output into the log of what was sent. -/
def emit (s : State) (o : Output) : State := { s with outbox := s.outbox ++ [o] }

/-- Put several outputs into the log. -/
def emits (s : State) (l : List Output) : State := { s with outbox := s.outbox ++ l }

/-- `n` free bytes from index `i`. -/
def freeBytes (i n : Nat) : Bytes := (List.range n).map (fun k => Config.freeByte (i + k))

/-- Mark `n` free values as used. -/
def useFree (s : State) (n : Nat) : State := { s with fresh := s.fresh + n }

/-- The next `n` free bytes. -/
def drawn (s : State) (n : Nat) : Bytes := freeBytes s.fresh n

/-- Key of a session slot in the table of sessions. -/
def sessKey (a i : Nat) : Nat := a * 256 + i

/-- An alcove. -/
def alc (s : State) (a : Nat) : Option Alcove := tget s.net.alcoves a

/-- A session slot that is open or half-open. -/
def sess (s : State) (a i : Nat) : Option Session := tget s.net.sessions (sessKey a i)

/-- An accepted command or stream frame. -/
def wrk (s : State) (w : Nat) : Option Work := tget s.net.work w

/-- A tenant domain. -/
def dom (s : State) (d : Nat) : Option Domain := tget s.keys.domains d

/-- The domain of an alcove; 0 when it does not exist. -/
def domainOf (s : State) (a : Nat) : Nat := ((alc s a).map (fun x => x.set.domain)).getD 0

def modAlc (s : State) (a : Nat) (f : Alcove → Alcove) : State :=
  { s with net := { s.net with alcoves := tmod s.net.alcoves a f } }

def modSess (s : State) (a i : Nat) (f : Session → Session) : State :=
  { s with net := { s.net with sessions := tmod s.net.sessions (sessKey a i) f } }

def putSess (s : State) (a i : Nat) (x : Session) : State :=
  { s with net := { s.net with sessions := tput s.net.sessions (sessKey a i) x } }

def delSess (s : State) (a i : Nat) : State :=
  { s with net := { s.net with sessions := tdel s.net.sessions (sessKey a i) } }

def modWork (s : State) (w : Nat) (f : Work → Work) : State :=
  { s with net := { s.net with work := tmod s.net.work w f } }

def delWork (s : State) (w : Nat) : State :=
  { s with net := { s.net with work := tdel s.net.work w } }

def modDom (s : State) (d : Nat) (f : Domain → Domain) : State :=
  { s with keys := { s.keys with domains := tmod s.keys.domains d f } }

/-- An alcove that no session has used: what a configuration or `ALCOVE_CREATE` sets up, at generation 0. -/
def alcoveFresh (set : AlcoveSettings) : Alcove :=
  { set := set, isOpen := false, gen := 0, keys := [], resetting := false, resetWork := none, resetMore := 0
    resetSess := none, removing := false, quiesced := false, stopped := false, events := [], eventNum := 1
    frameNum := 1, modStart := none, lost := 0, evSession := none, proof := none, reuse := [], contexts := []
    epoch := 0, epochMark := 0, alcoveKey := [], ctxKey := [], cert := [], counters := [], snaps := []
    handleMap := [], migration := none, fromCmd := false, setNext := none }

/-- Set the error response and the value of the last register access (R31). -/
def busOk (s : State) (v : Word) : State := { s with lastErr := false, lastVal := v }
def busErr (s : State) : State := { s with lastErr := true, lastVal := 0 }

/-- Count a frame or segment dropped without a response; `why` is the number of the rule. -/
def countDrop (s : State) (why : Nat) : State :=
  { s with net := { s.net with drops := tput s.net.drops why (tgetD s.net.drops why 0 + 1) } }

/-! ### Counters (R610 to R612, R620) -/

/-- Events that are occupancies, by block (R610). -/
def isOcc (b e : Nat) : Bool :=
  (decide (1 ≤ b ∧ b ≤ 11) && e == 0x14) || (b == 13 && e == 0x23)
    || (decide (b = 14 ∨ b = 15) && e == 0x36) || (b == 16 && e == 0x43)
    || (b == 18 && e == 0x53) || (b == 23 && e == 0x7A)

/-- Add to every counter of a block whose select names the event in mode 0, modulo 2^48 (R611, R612). -/
def perfAdd (s : State) (b e n : Nat) : State :=
  let bump := fun (t : Tab Nat) (k : Nat) =>
    let v := (tgetD s.perf.sel k 0).toNat
    if bitsOf v 7 0 = e ∧ bitOf v 24 = false then tput t k ((tgetD t k 0 + n) % 2 ^ 48) else t
  { s with perf := { s.perf with
      counts := ((List.range 8).map (fun i => 8 * b + i)).foldl bump s.perf.counts } }

/-- Add to a counter of an alcove (R620). -/
def alcCount (s : State) (a k n : Nat) : State :=
  modAlc s a (fun x => { x with counters := tput x.counters k (tgetD x.counters k 0 + n) })

/-! ### Events to the control cores (R503, R504) -/

/-- Hall of the block that owns a movable block number (R415). -/
def ownerOf (s : State) (n : Nat) : Hall :=
  ((tget s.halls.blocks n).map (fun b => b.owner)).getD .inner

/-- Block number whose owner has an event source, if the source follows an owner (R503). -/
def srcBlock (n : Nat) : Option Nat :=
  if 64 ≤ n ∧ n ≤ 85 then some (n - 64) else none

/-- Hall of an event source (R503). -/
def srcHall (s : State) (n : Nat) : Hall :=
  match srcBlock n with
  | some b => ownerOf s b
  | none =>
    if n ≤ 127 ∨ (192 ≤ n ∧ n ≤ 195) ∨ (208 ≤ n ∧ n ≤ 255) then .inner else .outer

/-- A source at its reset value (R510). -/
def srcReset (n : Nat) (h : Hall) : EvSource :=
  { pending := false, enable := decide (n ≤ 63), prio := if n ≤ 63 then 3 else 0
    target := if h = .inner then 0 else 16 }

/-- An event source as it stands. -/
def evSrc (s : State) (n : Nat) : EvSource := (tget s.ed.srcs n).getD (srcReset n (srcHall s n))

def putSrc (s : State) (n : Nat) (e : EvSource) : State :=
  { s with ed := { s.ed with srcs := tput s.ed.srcs n e } }

/-- An event sets its source's PENDING bit (R504). -/
def raise (s : State) (n : Nat) : State := putSrc s n { evSrc s n with pending := true }

/-! ### Metering (R590 to R593) -/

/-- Domain and meter totals after one entry of the combining buffers (R593). -/
def tallyEntry (t : Tally) (e : Nat × Nat × Nat × Nat) : Tally :=
  match tget t.tariff e.2.2.1 with
  | none => t
  | some (cat, weight) =>
    let row := tgetD t.totals e.2.1 (List.replicate 16 0)
    let v := min (row.getD cat 0 + e.2.2.2 * weight) (2 ^ 64 - 1)
    { t with totals := if v = 0 then t.totals else tput t.totals e.2.1 (row.set cat v) }

/-- The accumulator takes up to `n` entries (R591). -/
def tallyDrain (n : Nat) (t : Tally) : Tally :=
  { (t.buffers.take n).foldl tallyEntry t with buffers := t.buffers.drop n }

/-- A report joins the entry that matches it or takes a free one; when its wing's 64 entries are taken,
the accumulator drains first (R591). -/
def tallyReport (t : Tally) (domain meter qty : Nat) : Tally :=
  let wing := meter / 256
  let hit := fun (e : Nat × Nat × Nat × Nat) => e.1 == wing && e.2.1 == domain && e.2.2.1 == meter
  if t.buffers.any hit then
    { t with buffers := t.buffers.map (fun e => if hit e then (e.1, e.2.1, e.2.2.1, e.2.2.2 + qty) else e) }
  else
    let t := if 64 ≤ (t.buffers.filter (fun e => e.1 == wing)).length then tallyDrain 64 t else t
    { t with buffers := t.buffers ++ [(wing, domain, meter, qty)] }

/-! ### Sending WCP frames (R46, R64, R65, R67) -/

/-- The 32 bytes of a WCP header (R46). -/
def hdrBytes (h : WcpHeader) : Bytes :=
  be 1 h.version ++ be 1 h.type ++ be 2 h.flags ++ be 2 h.alcove ++ be 1 h.session ++ be 1 h.queue
    ++ be 8 h.pktNum ++ be 4 h.seq ++ be 3 h.declLen ++ be 3 h.segOff ++ be 2 h.opStatus ++ be 4 h.ack

/-- GCM tag of a protected frame over its plaintext data (R64). -/
def frameTag (key salt : Bytes) (h : WcpHeader) (data : Bytes) : Bytes :=
  let nonce := salt ++ be 8 h.pktNum
  Config.gcmTag key nonce (hdrBytes h) (Config.gcmCrypt key nonce data)

/-- A header of a frame that the device sends, with every unused field zero. -/
def outHdr (type alcove session : Nat) : WcpHeader :=
  { version := 1, type := type, flags := 0, alcove := alcove, session := session, queue := 0
    pktNum := 0, seq := 0, declLen := 0, segOff := 0, opStatus := 0, ack := 0 }

/-- A port of a sub-link: 0 A, 1 B. -/
def portNo (sublink : Nat) : Nat := sublink / 4

def portOf (s : State) (p : Nat) : Port := if p = 0 then s.net.portA else s.net.portB

def modPort (s : State) (p : Nat) (f : Port → Port) : State :=
  if p = 0 then { s with net := { s.net with portA := f s.net.portA } }
  else { s with net := { s.net with portB := f s.net.portB } }

/-- A module brought up, in high-power mode with its data path initialised, or taken down: low power, and the data path
de-initialised (R41). -/
def moduleTo (p : Port) (on : Bool) : Port := { p with moduleUp := on, highPower := on, dataPath := on }

/-- Whether a sub-link's link is up. -/
def linkUp (s : State) (l : Nat) : Bool := (portOf s (portNo l)).up.getD (l % 4) false

/-- The first sub-link of a port that is up. -/
def firstUp (s : State) (p : Nat) : Option Nat :=
  ([4 * p, 4 * p + 1, 4 * p + 2, 4 * p + 3]).find? (linkUp s)

/-- The sub-link a frame leaves on: its own, another of the same port, or, when that port is down, one
of the other port (01, R137). -/
def sendLink (s : State) (l : Nat) : Option Nat :=
  if linkUp s l then some l
  else match firstUp s (portNo l) with
    | some x => some x
    | none => firstUp s (1 - portNo l)

/-- Whether a received pause holds a priority on the port of a sub-link (R36). -/
def heldPrio (s : State) (l prio : Nat) : Bool :=
  match tget (portOf s (portNo l)).paused prio with
  | some t => decide (s.time < t)
  | none => false

/-- Send a frame on a sub-link with a priority: it leaves at once, or waits while a pause holds its priority (R36). -/
def sendOut (s : State) (l prio : Nat) (o : Output) : State :=
  if heldPrio s l prio then { s with net := { s.net with txHeld := s.net.txHeld ++ [(l, prio, o)] } } else emit s o

/-- Frames that no pause holds any more leave, in their order (R36). -/
def releaseHeld (s : State) : State :=
  let go := s.net.txHeld.filter (fun f => !heldPrio s f.1 f.2.1)
  emits { s with net := { s.net with txHeld := s.net.txHeld.filter (fun f => heldPrio s f.1 f.2.1) } } (go.map (·.2.2))

/-- Whether the twin holds this side's mirror records: joined over a link that is up (R553). -/
def twinned (s : State) : Bool := s.twin.state == .joined && s.twin.link == 3

/-- The device packet mark that covers a next value: raised at (m - 1) x 2^20 + 2^19 (R553). -/
def devMarkFor (next : Nat) : Nat := (next + 2 ^ 19) / 2 ^ 20 + 1

/-- Raise the mirrored device packet mark of a session where its next value has come to it (R553). -/
def mirrorDev (s : State) (a i : Nat) (x : Session) : State :=
  if twinned s ∧ a ≠ 0 ∧ x.devMark < devMarkFor x.nextPkt then
    emit (modSess s a i (fun y => { y with devMark := devMarkFor x.nextPkt }))
      (.markMirror a i (.device (devMarkFor x.nextPkt)))
  else s

/-- Send one protected frame of an open session: the next packet number, the tag and the frame. -/
def sendProt (s : State) (a i : Nat) (x : Session) (sublink prio : Nat) (h : WcpHeader)
    (data : Bytes) : State :=
  let h := { h with pktNum := x.nextPkt }
  let s := mirrorDev s a i x
  let s := modSess s a i (fun y => { y with nextPkt := y.nextPkt + 1 })
  sendOut s sublink prio (.frame sublink prio h data (frameTag x.d2cKey x.d2cSalt h data))

/-- A result with a payload and nothing else. -/
def plainResult (status : Nat) (payload : Bytes) (meters : List (Nat × Nat)) : Result :=
  { status := status, payload := payload, meters := meters, ctx := none, relCtx := none, body := none
    quorum := none, again := .no }

/-! ### The newest ledger entry (R268 to R271) -/

/-- Position of an entry number in the ring. -/
def ledgerPos (n : Nat) : Nat := n % 65536

def ledgerEntry (s : State) (n : Nat) : Option LedgerEntry := tget s.ledger.entries (ledgerPos n)

/-- Entry hash (R270). -/
def entryHash (e : LedgerEntry) : Bytes := Config.sha512 (e.core ++ e.exts.flatten)

/-- A whole entry of 4,096 bytes. -/
def entryBytes (e : LedgerEntry) : Bytes := Config.fixLen 4096 (e.core ++ e.exts.flatten)

/-- Entry hash of the newest entry; zero when there is none. -/
def headHash (s : State) : Bytes :=
  match ledgerEntry s s.ledger.newest with
  | some e => if s.ledger.newest = 0 then zeros 64 else entryHash e
  | none => zeros 64

/-- `BB_LEDGER_HEAD` follows a completed write (R271). -/
def setHead (s : State) : State := { s with bb := { s.bb with head := (headHash s).take 24, busy := true } }

/-- Write a signed extension to the newest entry (R270, R271). -/
def writeExt (s : State) (ext : Bytes) : State :=
  setHead { s with ledger := { s.ledger with
    entries := tmod s.ledger.entries (ledgerPos s.ledger.newest) (fun e => { e with exts := e.exts ++ [ext] }) } }

/-- Send an unprotected frame: `REPLY` or `REJECT`. -/
def sendPlain (s : State) (sublink prio : Nat) (h : WcpHeader) (data : Bytes) : State :=
  sendOut s sublink prio (.frame sublink prio h data [])

end Sys2Proof.Machine
end

