-- ==== Sys2Proof/Machine/Session.lean ====
section
/-! DEFINITION. Sessions, the event queue and completions: entering and sending event records (R75 to
R79), closing a session (R67, R68), building a completion and handing it to the MAC client interface
(R95, R73, R590). -/

namespace Sys2Proof.Machine

/-! ### The event queue -/

/-- The 32 bytes of an event record (R75). -/
def eventBytes (r : EventRec) : Bytes :=
  be 4 r.num ++ be 2 r.code ++ be 2 r.status ++ be 8 r.time ++ be 1 r.session ++ be 1 r.queue
    ++ be 1 r.gen ++ [0] ++ be 4 r.seq ++ be 8 r.detail

/-- Enter one record into the queue of an alcove, which has space for it. -/
def pushRec (now : Nat) (x : Alcove) (code status session queue seq detail : Nat) : Alcove :=
  { x with
    events := x.events ++ [{ num := x.eventNum, code := code, status := status, time := now
                             session := session, queue := queue, gen := x.gen, seq := seq
                             detail := detail }]
    eventNum := x.eventNum + 1
    modStart := if x.events.isEmpty then some now else x.modStart }

/-- Once the queue has space again, one `EVENT_LOSS` record for the records dropped (R79). -/
def reportLoss (now : Nat) (x : Alcove) : Alcove :=
  if x.lost = 0 ∨ 4096 ≤ x.events.length then x
  else { pushRec now x 7 0 0xFF 0xFF 0 x.lost with lost := 0 }

/-- Enter a record after any `EVENT_LOSS` that is due, or drop and count it when the queue is full (R79). A record that
is dropped takes no `EVENT_NUM` (DESIGN CHOICE, log 99). -/
def enterRec (now : Nat) (x : Alcove) (code status session queue seq detail : Nat) : Alcove :=
  let x := reportLoss now x
  if 4096 ≤ x.events.length then
    { x with lost := x.lost + 1, counters := tput x.counters 15 (tgetD x.counters 15 0 + 1) }
  else pushRec now x code status session queue seq detail

/-- The sub-link on which a frame leaves that answers no frame: the last one of its session while that is up (DESIGN
CHOICE, log 100). -/
def ownLink (s : State) (x : Session) : Nat := (sendLink s x.link).getD x.link

/-- Remove a session: `CLOSE` with the status on an open one (R68), the slot freed, the event session
designation ended (R659) and a `SESSION_CLOSED` record entered. The `CLOSE` has priority 0 (DESIGN CHOICE, log 100) and
the next `PKT_NUM`, which is 2^48 where the device's direction is spent (R67; DESIGN CHOICE, log 101). -/
def dropSession (s : State) (a i status : Nat) : State :=
  match sess s a i with
  | none => s
  | some x =>
    if x.open_ then
      let s := sendProt s a i x (ownLink s x) 0 { outHdr 0x15 a i with flags := 3, opStatus := status } []
      let s := delSess s a i
      modAlc s a (fun y =>
        enterRec s.time { y with evSession := if y.evSession = some i then none else y.evSession }
          2 0 i 0xFF 0 status)
    else delSess s a i

/-- Send the queued records in frames of at most 255, in order, under the event session (R77, R78); the frames have
priority 0 (DESIGN CHOICE, log 100). Space that a frame leaves takes the `EVENT_LOSS` that waits (R79). -/
def flushEvents : Nat → State → Nat → State
  | 0, s, _ => s
  | n + 1, s, a =>
    match alc s a with
    | none => s
    | some x =>
      match x.evSession with
      | none => s
      | some i =>
        match sess s a i with
        | none => s
        | some y =>
          if x.events.isEmpty then s
          else if 2 ^ 48 ≤ y.nextPkt then dropSession s a i stCounterExh
          else
            let recs := x.events.take 255
            let data := be 2 recs.length ++ zeros 6 ++ recs.flatMap eventBytes
            let h := { outHdr 5 a i with flags := 3, seq := x.frameNum, declLen := data.length }
            let s := sendProt s a i y (ownLink s y) 0 h data
            let s := modAlc s a (fun z => reportLoss s.time
              { z with events := z.events.drop 255, frameNum := z.frameNum + 1, modStart := none })
            flushEvents n s a

/-- Send every queued record of an alcove. -/
def flushAll (s : State) (a : Nat) : State :=
  flushEvents (((alc s a).map (fun x => x.events.length / 255 + 1)).getD 0) s a

/-- Whether the queue is due: moderation time 0, the moderation count, or 255 records (R78). -/
def eventsDue (x : Alcove) : Bool :=
  !x.events.isEmpty && (x.set.modUs == 0 || decide (x.set.modCount ≤ x.events.length)
    || decide (255 ≤ x.events.length))

/-- Flush when the queue is due. -/
def flushDue (s : State) (a : Nat) : State :=
  match alc s a with
  | none => s
  | some x => if eventsDue x then flushAll s a else s

/-- Event codes that flush the queue at once (R76). -/
def urgent (code : Nat) : Bool := code == 5 || code == 6 || code == 8

/-- Post an event record to an alcove (R75 to R79). -/
def postEvent (s : State) (a code status session queue seq detail : Nat) : State :=
  let s := modAlc s a (fun x => enterRec s.time x code status session queue seq detail)
  if urgent code then flushAll s a else flushDue s a

/-- Close a session with a status (R68). -/
def closeSession (s : State) (a i status : Nat) : State := flushDue (dropSession s a i status) a

/-- The indices of the session slots of an alcove that are taken. -/
def sessionsOf (s : State) (a : Nat) : List Nat :=
  (s.net.sessions.filter (fun e => e.1 / 256 == a)).map (fun e => e.1 % 256)

/-- Whether a slot holds an open session. -/
def isOpenAt (s : State) (a i : Nat) : Bool := ((sess s a i).map (fun x => x.open_)).getD false

/-- Close every open session of the device. A half-open one stays until its `FINISH` is rejected or its time is up
(R62, R63). -/
def closeEvery (s : State) (status : Nat) : State :=
  (tkeys s.net.alcoves).foldl (fun s a =>
    (sessionsOf s a).foldl (fun s i => if isOpenAt s a i then closeSession s a i status else s) s) s

/-! ### Completions -/

/-- Build a completion that waits at the MAC client interface. -/
def addComp (s : State) (c : Completion) : State :=
  { s with net := { s.net with comps := tput s.net.comps s.net.nextComp c
                               nextComp := s.net.nextComp + 1 } }

/-- The payload that a status lets through: only `OK` and `BUS_ERROR` carry one (R132). -/
def payloadFor (status : Nat) (p : Bytes) : Bytes :=
  if status = stOk ∨ status = stBusError then p else []

/-- The completion of an accepted command. -/
def compOf (w : Nat) (k : Work) (status : Nat) (p : Bytes) (meters : List (Nat × Nat)) : Completion :=
  { sid := k.sid, alcove := k.alcove, session := k.session, seq := k.seq, queue := k.queue
    opcode := k.opcode, status := status, payload := payloadFor status p, gen := k.gen
    sublink := k.sublink, prio := k.prio, event := k.event, replay := false, truncated := false
    declLen := (payloadFor status p).length, work := some w, meters := meters, stream := k.stream
    pktNum := k.pktNum, tagged := true }

/-- Slots of an operation whose outcome is known go to their block's counter and to the alcove's (R613,
R614, R620). -/
def countSlots (s : State) (a : Nat) (retired : Bool) (l : List (Nat × Nat)) : State :=
  l.foldl (fun s e =>
    let s := perfAdd s e.1 (if retired then 0x10 else 0x11) e.2
    alcCount s a (if retired = false then 11 else if e.1 ≤ 4 then 8 else if e.1 ≤ 10 then 9 else 10) e.2) s

/-- Statuses under which an operation's slots are wasted (R613). -/
def wastes (st : Nat) : Bool := st == stRetry || st == stUnitLost || st == stFaultDetected

/-- The end of a handshake's signature: its `REPLY`, and the half-open session from then on; or its `REJECT`, with the slot free.
Neither where the session that it is for has gone (R61, R95). -/
def endReply (s : State) (k : Work) (slot : Nat) (p : Bytes) (status : Nat) : State :=
  let here := ((sess s k.alcove slot).map (fun x => x.sid == k.sid)).getD false
  let live := ((alc s k.alcove).map (fun x => x.gen == k.gen)).getD false
  let link := (sendLink s k.sublink).getD k.sublink
  if live = false ∨ (slot ≠ 0xFF ∧ here = false) then s
  else if status = stOk then
    let s := if slot = 0xFF then s else modSess s k.alcove slot (fun x => { x with reply := p, replyAt := s.time })
    sendPlain s link k.prio { outHdr 0x11 k.alcove slot with flags := 3, declLen := p.length } p
  else
    let s := if slot = 0xFF then s else delSess s k.alcove slot
    sendPlain s link k.prio { outHdr 0x14 k.alcove 0xFF with flags := 3, opStatus := status } []

/-- A certificate goes to the alcove or domain whose key it is over; the service extension to the ledger. -/
def putSigned (s : State) : StairTask → State
  | .reply _ _ => s
  | .alcoveCert a key cert => modAlc s a (fun x => { x with cert := if x.alcoveKey = key then cert else x.cert })
  | .witnessCert d key cert => modDom s d (fun x => { x with witCert := if x.witKey = key then cert else x.witCert })
  | .service ext =>
    if s.ledger.served then s else (let s := writeExt s ext; { s with ledger := { s.ledger with served := true } })

/-- A signature that no command carries has ended with a status. One that serves no client waits to be made again where it
failed (R253; DESIGN CHOICE, log 113). -/
def endTask (s : State) (w : Nat) (k : Work) (t : StairTask) (status : Nat) : State :=
  let s := countSlots (delWork s w) k.alcove (!wastes status) k.slots
  match t with
  | .reply slot p => endReply s k slot p status
  | t =>
    if status = stOk then putSigned s t
    else { s with stair := { s.stair with tasks := s.stair.tasks ++ [t] } }

/-- End an accepted command: its completion is built and its remaining cost drops to zero (R151). One that has
its completion keeps it. -/
def complete (s : State) (w status : Nat) (p : Bytes) (meters : List (Nat × Nat)) : State :=
  match wrk s w with
  | none => s
  | some k =>
    if k.stage = .completed then s
    else
      match k.task with
      | some t => endTask s w k t status
      | none =>
        let s := modWork s w (fun k => { k with stage := .completed, costs := [] })
        addComp s (compOf w k status p meters)

/-- End an accepted command with a failure status. -/
def failWork (s : State) (w status : Nat) : State := complete s w status [] []

/-- End an accepted command with `OK`. -/
def okWork (s : State) (w : Nat) (p : Bytes) : State := complete s w stOk p []

/-- The retained payloads of an alcove: order, session key, sequence number and length. -/
def retained (s : State) (a : Nat) : List (Nat × Nat × Nat × Nat) :=
  (s.net.sessions.filter (fun e => e.1 / 256 == a)).flatMap (fun e =>
    e.2.entries.filterMap (fun x =>
      match x.2 with
      | .done _ _ (some p) _ o => some (o, e.1, x.1, p.length)
      | _ => none))

/-- Bytes of the retained payloads of an alcove. -/
def retainedBytes (s : State) (a : Nat) : Nat := sumNat ((retained s a).map (fun r => r.2.2.2))

/-- The entry with its payload released. -/
def releaseEntry : Entry → Entry
  | .done st l _ q o => .done st l none q o
  | e => e

/-- Release the oldest payloads of an alcove until its retention limit holds (R73). -/
def enforceRetention : Nat → State → Nat → Nat → State
  | 0, s, _, _ => s
  | n + 1, s, a, limit =>
    if retainedBytes s a ≤ limit then s
    else
      let l := retained s a
      match l.find? (fun r => l.all (fun q => decide (r.1 ≤ q.1))) with
      | none => s
      | some r =>
        let s := { s with net := { s.net with sessions := tmod s.net.sessions r.2.1 (fun x =>
          { x with entries := tmod x.entries r.2.2.1 releaseEntry }) } }
        enforceRetention n s a limit

/-- The session under which a completion travels: its own while that is open, or the one kept for the
completion of a reset (R98). -/
def compSession (s : State) (c : Completion) : Option (Session × Bool) :=
  if c.tagged then
    match sess s c.alcove c.session with
    | some x => if x.sid = c.sid ∧ x.open_ then some (x, true) else none
    | none => none
  else ((alc s c.alcove).bind (fun y => y.resetSess)).map (fun x => (x, false))

/-- Send the segments of a completion (R50, R46): `off` bytes are sent, `rest` remain. -/
def sendSegs : Nat → State → Completion → Nat → Bytes → State
  | 0, s, _, _, _ => s
  | n + 1, s, c, off, rest =>
    match compSession s c with
    | none => s
    | some (x, live) =>
      if 2 ^ 48 ≤ x.nextPkt then closeSession s c.alcove c.session stCounterExh
      else
        let part := rest.take 8192
        let more := rest.drop 8192
        let link := (sendLink s c.sublink).getD c.sublink
        let h := { outHdr 2 c.alcove c.session with
          flags := complFlags (off == 0) more.isEmpty c.truncated c.replay
          queue := c.queue, seq := c.seq, declLen := c.declLen, segOff := off
          opStatus := c.status, ack := x.base }
        let s := if live then sendProt s c.alcove c.session x link c.prio h part
          else
            let h := { h with pktNum := x.nextPkt }
            let s := modAlc s c.alcove (fun y =>
              { y with resetSess := some { x with nextPkt := x.nextPkt + 1 } })
            sendOut s link c.prio (.frame link c.prio h part (frameTag x.d2cKey x.d2cSalt h part))
        if more.isEmpty then s else sendSegs n s c (off + part.length) more

/-- The window entry of a completion that has been sent: done, its payload kept unless it is larger than
64 KiB or already acknowledged (R73). -/
def doneEntry (x : Session) (c : Completion) (order : Nat) : Entry :=
  .done c.status c.declLen
    (if 65536 < c.payload.length ∨ c.seq ≤ x.ackVal then none else some c.payload) c.queue order

/-- Whether work or completions of a session number remain. -/
def sidBusy (s : State) (sid : Nat) : Bool :=
  s.net.work.any (fun e => e.2.sid == sid) || s.net.comps.any (fun e => e.2.sid == sid)

/-- Close a session that waits for its accepted commands, once none remains (R68, R235). -/
def finishClosing (s : State) (a i : Nat) : State :=
  match sess s a i with
  | none => s
  | some x =>
    match x.closing with
    | none => s
    | some st => if sidBusy s x.sid then s else closeSession s a i st

/-- Count the slots of the command that a completion ends. -/
def slotsOf (s : State) (c : Completion) (sent : Bool) : State :=
  match c.work.bind (wrk s) with
  | none => s
  | some k => countSlots s c.alcove (sent && !wastes c.status) k.slots

/-- Remove a completion and the command it ends. -/
def dropComp (s : State) (n : Nat) (c : Completion) : State :=
  let s := { s with net := { s.net with comps := tdel s.net.comps n } }
  match c.work with
  | none => s
  | some w => delWork s w

/-- Whether a completion's generation tag is the current one (R95). -/
def tagCurrent (s : State) (c : Completion) : Bool :=
  !c.tagged || ((alc s c.alcove).map (fun x => x.gen == c.gen)).getD false

/-- Report an operation that completed with `OK` or `VERIFY_FAILED` to the Tally (R590). -/
def meterComp (s : State) (c : Completion) : State :=
  if (c.status = stOk ∨ c.status = stVerifyFailed) ∧ c.replay = false then
    { s with tally := c.meters.foldl (fun t m => tallyReport t (domainOf s c.alcove) m.1 m.2) s.tally }
  else s

/-- What follows the sending of a completion: the window entry and retention (R73), the metering, the
counters, and the event record where one was requested (01, step 9). -/
def afterSend (s : State) (n : Nat) (c : Completion) : State :=
  let s := modSess s c.alcove c.session (fun x =>
    if x.sid = c.sid ∧ x.base ≤ c.seq ∧ c.replay = false ∧ tget x.entries c.seq ≠ some .lost then
      { x with entries := tput x.entries c.seq (doneEntry x c n) } else x)
  let s := match alc s c.alcove with
    | none => s
    | some y => enforceRetention (retained s c.alcove).length s c.alcove y.set.retention
  let s := meterComp s c
  if c.replay then s
  else
    let s := alcCount s c.alcove (if c.status = stOk then 4 else 5) 1
    if c.event then postEvent s c.alcove 1 c.status c.session c.queue c.seq 0 else s

/-- A completion reaches the MAC client interface (R95). One with an old tag is discarded; one whose
session has closed cannot be protected and is discarded; one whose port is held by a pause, or that finds
both ports down, waits (R36, R137). -/
def handover (s : State) (n : Nat) : State :=
  match tget s.net.comps n with
  | none => s
  | some c =>
    if c.stream.isSome then s
    else if tagCurrent s c = false then dropComp (slotsOf s c false) n c
    else
      match compSession s c with
      | none => finishClosing (dropComp (slotsOf s c false) n c) c.alcove c.session
      | some _ =>
        match sendLink s c.sublink with
        | none => s
        | some l =>
          if heldPrio s l c.prio then s
          else
            let s := sendSegs (c.payload.length / 8192 + 1) s c 0 c.payload
            let s := perfAdd s (14 + portNo l) 0x31 (c.payload.length / 8192 + 1)
            let s := afterSend (slotsOf s c true) n c
            finishClosing (dropComp s n c) c.alcove c.session

/-- Hand over every completion that waits. -/
def handoverAll (s : State) : State := (tkeys s.net.comps).foldl handover s

end Sys2Proof.Machine
end

