-- ==== Sys2Proof/Machine/Jobs.lean ====
section
/-! DEFINITION. What holds a key face or a context while it is in use: the pins of the key cache (R19, R189), the jobs of
the public-key wing that hold them, and the contexts of an alcove (R294, R299). -/

namespace Sys2Proof.Machine

/-! ### Pins -/

/-- Key of a cached face. -/
def cacheKey (slot face : Nat) : Nat := slot * 2 + face

/-- The name of an old copy among the pins of an operation: no face of the cache has it. -/
def oldKey (n : Nat) : Nat := 2 ^ 32 + n

/-- Release one pin of a face, or of an old copy, which is zeroised with its last one (R19, R189). -/
def unpin (s : State) (c : Nat) : State :=
  { s with keys :=
    match tget s.keys.old c with
    | some o => { s.keys with old := if o.pins ≤ 1 then tdel s.keys.old c else tput s.keys.old c { o with pins := o.pins - 1 } }
    | none =>
      let n := tgetD s.keys.pins c 0
      { s.keys with pins := if n ≤ 1 then tdel s.keys.pins c else tput s.keys.pins c (n - 1) } }

/-- Release the pins of an operation (R19). -/
def unpinAll (s : State) (l : List Nat) : State := l.foldl unpin s

/-! ### Jobs of the public-key wing -/

def modPk (s : State) (f : Pk → Pk) : State := { s with pk := f s.pk }

def modCore (s : State) (i : Nat) (f : PkCore → PkCore) : State :=
  modPk s (fun p => { p with cores := tmod p.cores i f })

def coreAt (s : State) (i : Nat) : PkCore := (tget s.pk.cores i).getD pkCoreReset

def jobAt (s : State) (j : Nat) : Option Job := tget s.pk.jobs j

def modJob (s : State) (j : Nat) (f : Job → Job) : State := modPk s (fun p => { p with jobs := tmod p.jobs j f })

/-- The jobs of a command. -/
def jobsOf (s : State) (w : Nat) : Tab Job := tfilter s.pk.jobs (fun _ j => j.work == w)

/-- Whether a core is in service, also while it moves a job (R345). -/
def coreServes (c : PkCore) : Bool := c.state == .inService || (c.state == .moving && !c.drains)

/-- Long jobs accepted and not finished on the wing: those of commands not yet issued, and the jobs whose result is not yet
made (R328). -/
def longAccepted (s : State) : Nat :=
  sumNat (s.net.work.map (fun e => if e.2.stage = .completed then 0 else e.2.longJobs))
    + tcount s.pk.jobs (fun _ j => j.long && !j.waiting)

/-- Whether a core holds a job, running or moving. -/
def onCore (s : State) (j : Nat) : Bool := s.pk.cores.any (fun c => c.2.job == some j || c.2.next == some j)

/-- Remove a job from the queue, the park store and the list; the last job of its command releases the
pins (R19). -/
def removeJob (s : State) (j : Nat) : State :=
  match jobAt s j with
  | none => s
  | some x =>
    let s := modPk s (fun p => { p with jobs := tdel p.jobs j, queue := p.queue.filter (fun q => q != j)
                                        park := p.park.filter (fun e => e.2 != j) })
    if (jobsOf s x.work).isEmpty then unpinAll s x.pins else s

/-- Public-key jobs are aborted: those on a core at their next yield point or end, the others at once (R339, R340). -/
def abortJobs (s : State) : State :=
  (tkeys s.pk.jobs).foldl (fun s n => if onCore s n then modJob s n (fun j => { j with abort := true }) else removeJob s n) s

/-- The operations of the cipher wing, the lanes and the legacy unit go, with their pins. -/
def clearOps (s : State) : State :=
  let s := s.cipher.ops.foldl (fun s e => unpinAll s e.2.pins) s
  { s with cipher := { s.cipher with ops := [] } }

/-! ### Contexts -/

/-- Release a context: its place is free and its reuse count rises (R294, R299). -/
def releaseCtx (s : State) (a i : Nat) : State :=
  modAlc s a (fun x =>
    if thas x.contexts i then
      { x with contexts := tdel x.contexts i
               reuse := tput x.reuse (i % 256) ((tgetD x.reuse (i % 256) 0 + 1) % 65536) }
    else x)

/-- Every context of an alcove is released (R299). -/
def releaseAll (s : State) (a : Nat) : State :=
  (((alc s a).map (fun x => tkeys x.contexts)).getD []).foldl (fun s i => releaseCtx s a i) s

/-- On a side that its partner takes over every context but those of alcove 0 is released (R299, R551). -/
def releaseTaken (s : State) : State :=
  if s.twin.state = .joined then ((tkeys s.net.alcoves).filter (fun a => a != 0)).foldl releaseAll s else s

end Sys2Proof.Machine
end

