-- ==== Sys2Proof/Machine/Results.lean ====
section
/-! DEFINITION. What a stream's result becomes: an RDMA WRITE with its dirty-page bits (R85, R87, R90) or a
`STREAM_RESULT` frame, in the order of its slice (R83, R95). -/

namespace Sys2Proof.Machine

/-- The slot of a slice (R80). -/
def sliceKey (a pid : Nat) : Nat := a * 2 ^ 20 + pid

def modQp (s : State) (q : Nat) (f : Qp → Qp) : State := { s with net := { s.net with qps := tmod s.net.qps q f } }

def qpAt (s : State) (q : Nat) : Option Qp := tget s.net.qps q

/-! ### Dirty-page bits (R90) -/

/-- The 4 KiB pages of a region that a run of bytes touches. -/
def pagesOf (base addr len : Nat) : List Nat :=
  if len = 0 then []
  else
    let first := (addr - base) / 4096
    (List.range ((addr + len - 1 - base) / 4096 + 1 - first)).map (fun i => first + i)

/-- Set the bit of one page: the log, and how many bits were newly set. -/
def dirtyBit (t : Tab (BitVec 64) × Nat) (page : Nat) : Tab (BitVec 64) × Nat :=
  let w := tgetD t.1 (page / 64) 0#64
  if w.getLsbD (page % 64) then t else (tput t.1 (page / 64) (setBit w (page % 64)), t.2 + 1)

/-- The bits of a packet are set before it goes to the port engine. -/
def dirtyPacket (s : State) (a pid addr len : Nat) : State :=
  match tget s.net.slices (sliceKey a pid) with
  | none => s
  | some x =>
    match x.region with
    | none => s
    | some g =>
      if x.logging then
        let r := (pagesOf g.1 addr len).foldl dirtyBit (x.dirty, 0)
        alcCount { s with net := { s.net with slices := tmod s.net.slices (sliceKey a pid) (fun y =>
          { y with dirty := r.1 }) } } a 13 r.2
      else s

/-! ### Packets -/

/-- The ECN code point ECT(0) of every RoCEv2 packet sent (R88). -/
def ect0 : Nat := 2

/-- Send one packet, for the first time or again: its dirty bits first, then the port, which may hold it (R36, R90). -/
def sendPacket (s : State) (q link a : Nat) (p : RdmaPacket) : State :=
  let rkey := (((tget s.net.slices (sliceKey a p.pid)).bind (fun x => x.region)).map (fun g => g.2.2)).getD 0
  let s := dirtyPacket s a p.pid p.addr p.data.length
  let l := (sendLink s link).getD link
  sendOut s l p.prio (.rdmaWrite l p.prio ect0 q p.psn p.addr rkey p.data p.imm)

/-- The packets of a write: consecutive sequence numbers, the immediate value on the last. -/
def packets (psn addr pid prio : Nat) (imm : Option Nat) : List Bytes → List RdmaPacket
  | [] => []
  | [d] => [{ psn := psn % 2 ^ 24, addr := addr, data := d, imm := imm, pid := pid, prio := prio }]
  | d :: r => { psn := psn % 2 ^ 24, addr := addr, data := d, imm := none, pid := pid, prio := prio }
      :: packets (psn + 1) (addr + d.length) pid prio imm r

/-- The pieces of a write under a path MTU; an empty write is one empty packet. -/
def pieces (mtu : Nat) (d : Bytes) : List Bytes := if d.isEmpty then [[]] else chunks mtu d.length d

/-- Issue a write through a queue pair, with the priority of its stream frame (R37). -/
def issueWrite (s : State) (q : Nat) (x : Qp) (a pid addr prio : Nat) (imm : Option Nat) (d : Bytes) : State :=
  let l := packets x.psn addr pid prio imm (pieces x.mtu d)
  let s := modQp s q (fun y =>
    { y with pending := y.pending ++ l, psn := (y.psn + l.length) % 2 ^ 24
             sentAt := if y.pending.isEmpty then s.time else y.sentAt })
  alcCount (perfAdd (l.foldl (fun s p => sendPacket s q x.link a p) s) 17 0x48 1) a 12 1

/-! ### Results of streams -/

/-- A stream result as a `STREAM_RESULT` frame (R46, R83): discarded when its session is gone. -/
def sendStreamResult (s : State) (c : Completion) : State :=
  match c.stream, sess s c.alcove c.session, sendLink s c.sublink with
  | some pid, some x, some l =>
    if x.sid = c.sid ∧ x.open_ then
      if 2 ^ 48 ≤ x.nextPkt then closeSession s c.alcove c.session stCounterExh
      else
        let h := { outHdr 4 c.alcove c.session with
          flags := 3, seq := pid, declLen := c.payload.length, opStatus := c.status
          ack := c.pktNum % 2 ^ 32 }
        sendProt s c.alcove c.session x l c.prio h c.payload
    else s
  | _, _, _ => s

/-- Whether an earlier accepted frame of the slice still waits for its result (R83). -/
def streamEarlier (s : State) (c : Completion) : Bool :=
  match c.work with
  | some w => s.net.work.any (fun e => decide (e.1 < w) && e.2.alcove == c.alcove && e.2.stream == c.stream)
  | none => false

/-- Where a result is placed: queue pair, its state and the address (R87); none for a `STREAM_RESULT`. The binding is
that of the slice as it stands at delivery, and the first 8 bytes of the frame are its placement word then (DESIGN
CHOICE, log 102). -/
def placement (s : State) (c : Completion) : Option (Slice × Nat × Nat) :=
  match c.stream.bind (fun pid => tget s.net.slices (sliceKey c.alcove pid)), c.work.bind (wrk s) with
  | some x, some k =>
    (match x.region, x.qp with
      | some g, some q => if c.status = stOk then some (x, q, g.1 + fld k.payload 0 8) else none
      | _, _ => none)
  | _, _ => none

/-- Release a stream's result and count what it used; a session that waits for it closes (R68). -/
def endStream (s : State) (n : Nat) (c : Completion) : State :=
  finishClosing (dropComp (meterComp (slotsOf s c true) c) n c) c.alcove c.session

/-- A result is placed (R87): the immediate value carries the status and the frame's packet number. -/
def placeResult (s : State) (n : Nat) (c : Completion) (x : Slice) (q addr : Nat) : State :=
  match qpAt s q with
  | none => s
  | some y =>
    if y.state ≠ .connected ∨ y.frozen then s
    else
      let imm := if x.immediate then some (c.status * 65536 + c.pktNum % 65536) else none
      endStream (issueWrite s q y c.alcove (c.stream.getD 0) addr c.prio imm c.payload) n c

/-- A result is sent as a frame, unless its port is held or down. -/
def frameResult (s : State) (n : Nat) (c : Completion) : State :=
  match sendLink s c.sublink with
  | none => s
  | some l =>
    if heldPrio s l c.prio then s
    else endStream (perfAdd (sendStreamResult s c) (14 + portNo l) 0x31 1) n c

/-- A stream's result is delivered when it is its turn (R83, R87, R95); one with an old tag is discarded. -/
def streamReady (s : State) (n : Nat) : State :=
  match tget s.net.comps n with
  | none => s
  | some c =>
    if c.stream.isNone ∨ streamEarlier s c then s
    else if tagCurrent s c = false then finishClosing (dropComp (slotsOf s c false) n c) c.alcove c.session
    else
      match placement s c with
      | some (x, q, addr) => placeResult s n c x q addr
      | none => frameResult s n c

end Sys2Proof.Machine
end

