-- ==== Sys2Proof/Machine/Fault.lean ====
section
/-! DEFINITION. The fault collector's operations (R483 to R502): pulses, the first-error capture, the
service states and the entry of `SAFE` and `TAMPERED`. -/

namespace Sys2Proof.Machine

/-! ### Service states -/

/-- Level of `FAULT_N` in a service state (R501). -/
def faultLevel (v : Service) : Bool := !(v == .safe || v == .tampered)

/-- Post `SERVICE_STATE` to every open alcove (R499). -/
def postService (s : State) (v : Service) : State :=
  (tkeys s.net.alcoves).foldl (fun s a =>
    match alc s a with
    | some x => if x.isOpen then postEvent s a 6 0 0xFF 0xFF 0 (serviceCode v) else s
    | none => s) s

/-- Change the service state (R497); `FAULT_N` follows (R501). -/
def setService (s : State) (v : Service) : State :=
  if s.fc.service = v then s
  else postService { s with fc := { s.fc with service := v, faultN := some (faultLevel v) } } v

/-- Between `IN_SERVICE` and `DEGRADED` the standing causes decide (R498). -/
def settle (s : State) : State :=
  match s.fc.service with
  | .inService => if s.fc.causes = 0 then s else setService s .degraded
  | .degraded => if s.fc.causes = 0 then setService s .inService else s
  | _ => s

/-- Set a `DEGRADED` cause: 0 `LOST_UNIT`, 1 `RETIRED`, 2 `HELD`, 3 `TRANSIT`, 4 `SEALED` (R498). -/
def setCause (s : State) (i : Nat) : State :=
  settle { s with fc := { s.fc with causes := setBit s.fc.causes i } }

/-- Clear a `DEGRADED` cause. -/
def clrCause (s : State) (i : Nat) : State :=
  settle { s with fc := { s.fc with causes := clrBit s.fc.causes i } }

/-- The notice that a side sends its partner before it closes sessions (R559). -/
def notice (s : State) (v : Service) : State :=
  if s.twin.link = 3 then emit s (.ibNotice (serviceCode v)) else s

/-- Every accepted command that has not completed completes with a status (R139). -/
def failAllWork (s : State) (status : Nat) : State :=
  (tkeys s.net.work).foldl (fun s w =>
    match wrk s w with
    | some k => if k.stage = .completed then s else failWork s w status
    | none => s) s

/-- Hand over one completion, of a command or a stream. -/
def handOne (s : State) (n : Nat) : State :=
  match tget s.net.comps n with
  | some c => if c.stream.isSome then streamReady s n else handover s n
  | none => s

/-- The completion of a work, if it waits. -/
def compOfWork (s : State) (w : Nat) : Option Nat :=
  (s.net.comps.find? (fun e => e.2.work == some w)).map (·.1)

/-- Hand over every waiting completion, command or stream, in the order in which the works were accepted (R83), and
then those that end no work (R139). -/
def handoverEvery (s : State) : State :=
  let s := (tkeys s.net.work).foldl (fun s w =>
    match compOfWork s w with
    | some n => handOne s n
    | none => s) s
  (tkeys s.net.comps).foldl handOne s

/-- Mutations of commands, whose record is not sent, are abandoned; marks go on (log 107). -/
def dropMutations (s : State) : State :=
  { s with keys := { s.keys with domains := tmap s.keys.domains (fun _ d =>
      { d with pending := d.pending.filter (fun m => m.work.isNone || m.placed.isSome) }) } }

/-- The service state becomes `SAFE` (R500): admission stops, accepted work completes with
`DEVICE_SAFE`, the partner is told, `SERVICE_STATE` is posted, every session closes, `FAULT_N` falls. -/
def enterSafe (s : State) : State :=
  if s.fc.service = .safe ∨ s.fc.service = .tampered then s
  else
    let s := clearOps { s with boot := { s.boot with admitStop := true } }
    let s := handoverEvery (failAllWork (dropMutations (abortJobs s)) stDeviceSafe)
    let s := notice s .safe
    let s := { s with fc := { s.fc with safeAt := s.time } }
    closeEvery (setService (releaseTaken s) .safe) stDeviceSafe

/-- The service state becomes `TAMPERED`: promises end without completions and sessions close (R139,
R68, R446). -/
def enterTampered (s : State) : State :=
  if s.fc.service = .tampered then s
  else
    let s := clearOps { s with boot := { s.boot with admitStop := true }
                               net := { s.net with work := [], comps := [] } }
    let s := notice (dropMutations (abortJobs s)) .tampered
    closeEvery (setService (releaseTaken s) .tampered) stTampered

/-! ### Pulses -/

/-- Classes that a line carries (R483). -/
def lineClasses (l : Nat) : List FClass :=
  match l with
  | 0 => [.safe]
  | 1 => [.note, .degrade, .safe]
  | 2 => [.note, .degrade, .safe, .erase]
  | 3 => [.note, .safe]
  | 4 => [.recover, .safe]
  | 5 => [.degrade]
  | 6 => [.note, .safe]
  | 7 => [.note, .recover, .degrade]
  | 8 => [.note, .degrade]
  | 9 => [.note, .safe]
  | 10 => [.note, .safe]
  | 11 => [.note, .recover]
  | 12 => [.note, .recover]
  | 13 => [.note, .recover]
  | 14 => [.note, .degrade]
  | 15 => [.note, .safe]
  | 16 => [.note, .degrade]
  | 17 => [.note, .degrade]
  | 18 => [.note, .degrade]
  | 19 => [.note, .degrade]
  | 20 => [.note, .degrade]
  | 21 => [.note, .degrade]
  | 22 => [.note, .recover, .degrade]
  | 23 => [.note, .recover, .degrade]
  | 24 => [.note, .recover, .degrade]
  | 25 => [.note, .recover, .degrade]
  | 26 => [.note, .recover, .degrade]
  | 27 => [.note, .recover, .degrade]
  | 28 => [.note, .recover]
  | 29 => [.note, .recover]
  | 30 => [.note, .recover, .degrade]
  | 31 => [.note, .recover]
  | 32 => [.recover, .safe]
  | 33 => [.note, .safe]
  | 34 => [.note, .recover, .safe]
  | 35 => [.note, .recover, .safe]
  | 36 => [.note]
  | 37 => [.note, .recover]
  | 38 => [.note, .degrade]
  | 39 => [.safe]
  | _ => []

/-- Set the status bit and raise the class field of a pulse's line (R484). -/
def recordPulse (f : Collector) (p : Pulse) : Collector :=
  { f with status := setBit f.status p.line
           cls := tput f.cls p.line (max (tgetD f.cls p.line 0) (fclassCode p.cls)) }

/-- Whether the first of two pulses is captured before the second (R489). -/
def captureBefore (p q : Pulse) : Bool :=
  decide (fclassCode q.cls < fclassCode p.cls)
    || (fclassCode p.cls == fclassCode q.cls && decide (p.line ≤ q.line))

/-- The pulse that a free capture takes among those that qualify (R489). -/
def capturePick : List Pulse → Option Pulse
  | [] => none
  | p :: r =>
    match capturePick r with
    | none => some p
    | some q => if captureBefore p q then some p else some q

/-- Add to `FC_MORE`, which saturates at 65,535 (R490). -/
def moreAdd (f : Collector) (n : Nat) : Collector := { f with more := min (f.more + n) 65535 }

/-- The first-error capture takes the pulses of one cycle (R487 to R490). -/
def capturePulses (now : Nat) (f : Collector) (ps : List Pulse) : Collector :=
  let q := ps.filter (fun p => decide (f.capMin ≤ fclassCode p.cls))
  if f.valid then moreAdd f q.length
  else
    match capturePick q with
    | none => f
    | some p =>
      moreAdd { f with valid := true, fLine := p.line, fClass := fclassCode p.cls, fType := p.type
                       fAddr := p.addr, fMaster := p.master, fTime := now, heldAt := now }
        (q.length - 1)

/-- Whether a unit of the block on a line is lost (R156, R498). -/
def lineLost (s : State) (l : Nat) : Bool :=
  let pipe := fun i => ((tget s.cipher.pipes i).map (fun u => u.lost)).getD false
  if 16 ≤ l ∧ l ≤ 19 then pipe (2 * (l - 16)) || pipe (2 * (l - 16) + 1)
  else if l = 20 then s.cipher.legacy.lost
  else if l = 21 then s.cipher.lanes.any (fun e => e.2.lost)
  else if l = 7 then s.rng.source != .fatal && s.rng.cores.any (fun e => e.2.lost)
  else if 22 ≤ l ∧ l ≤ 27 then
    s.pk.cores.any (fun e => e.1 / 8 == l - 22 && e.2.lost)
  else false

/-- The device-wide response to a class (R485). -/
def respond (s : State) (p : Pulse) : State :=
  match p.cls with
  | .note => s
  | .recover => s
  | .degrade => setCause s (if lineLost s p.line then 0 else 2)
  | .safe => enterSafe s
  | .erase => enterTampered s

/-- Pulses of a class among those of one cycle. -/
def ofClass (ps : List Pulse) (c : FClass) : List Pulse := ps.filter (fun p => p.cls == c)

/-- The collector takes the pulses of one cycle: status and class, capture, the events of `RECOVER` and
above, then every response in the order of R442 (R484 to R490). -/
def pulses (s : State) (ps : List Pulse) : State :=
  let s := { s with fc := capturePulses s.time (ps.foldl recordPulse s.fc) ps }
  let s := ps.foldl (fun s p => perfAdd s 20 (0x5F + fclassCode p.cls) 1) s
  let s := ps.foldl (fun s p => if p.cls = .note then s else raise s p.line) s
  let s := (ofClass ps .erase).foldl respond s
  let s := (ofClass ps .safe).foldl respond s
  (ofClass ps .degrade).foldl respond s

/-- One pulse that concerns no bus access (R487). -/
def pulse (s : State) (line : Nat) (c : FClass) : State :=
  pulses s [{ line := line, cls := c, type := 0, addr := 0, master := 0xFF }]

/-- A `NOTE` that concerns a bus access. -/
def noteAt (s : State) (line type addr master : Nat) : State :=
  pulses s [{ line := line, cls := .note, type := type, addr := addr, master := master }]

/-- A write of a static field while its block runs: error response and a `NOTE` on the line (R9). -/
def staticErr (s : State) (line addr master : Nat) : State := busErr (noteAt s line 2 addr master)

end Sys2Proof.Machine
end

