-- ==== Sys2Proof/Machine/Bus.lean ====
section
/-! DEFINITION. Who may reach what on the fabric: hall attributes of the masters (R14), the register
windows (R31), what each target admits (R395) and the refusal of R15. -/

namespace Sys2Proof.Machine

/-- The movable block whose owner gives a master its hall attribute (R14, R415). -/
def masterBlock (m : Nat) : Option Nat :=
  if 0x30 ≤ m ∧ m ≤ 0x33 then some (m - 0x30)
  else if 0x40 ≤ m ∧ m ≤ 0x45 then some (4 + (m - 0x40))
  else if m = 0x38 then some 10
  else if m = 0x60 then some 11
  else if m = 0x64 then some 20
  else none

/-- Hall attribute of a master (R14); none for a number that no master carries and for the debug access
port, which follows rules of its own. Ibvelet's is that of its traffic other than mirrored key mutations
(`txnHall`). -/
def masterHall (s : State) (m : Nat) : Option Hall :=
  match masterBlock m with
  | some b => some (ownerOf s b)
  | none =>
    if m ≤ 3 ∨ m = 0x68 ∨ m = 0x6C then some .inner
    else if (0x10 ≤ m ∧ m ≤ 0x1B) ∨ m = 0x34 ∨ (0x50 ≤ m ∧ m ≤ 0x53) ∨ m = 0x58 ∨ m = 0x70 then some .outer
    else none

/-- Hall attribute of a transaction: Ibvelet carries mirrored key mutations as an Inner master (R14). -/
def txnHall (s : State) (t : Txn) : Option Hall :=
  if t.master = 0x58 ∧ t.mirrored then some .inner else masterHall s t.master

/-- Number of a control core as the MPU window numbers it, for a core's master identifier. -/
def coreOf (m : Nat) : Option Nat :=
  if m ≤ 3 then some m else if 0x10 ≤ m ∧ m ≤ 0x1B then some m else none

/-- The register windows of R31. -/
inductive Win where
  | id | lc | fc | ed | du | rng | tamp | hc | mpu (core : Nat) | pr | pc | cb (bay : Nat)
  | pk (bay core : Nat) | port (p : Nat) | ib | tally
  deriving DecidableEq, Repr

/-- The window that holds an address, and the offset in it (R31). -/
def windowOf (a : Nat) : Option (Win × Nat) :=
  let o := a % 0x10000
  let p := a / 0x10000
  if p = 0 then some (.id, o)
  else if p = 1 then some (.lc, o)
  else if p = 2 then some (.fc, o)
  else if p = 3 then some (.ed, o)
  else if p = 4 then some (.du, o)
  else if p = 5 then some (.rng, o)
  else if p = 6 then some (.tamp, o)
  else if p = 7 then some (.hc, o)
  else if p = 8 then
    (let c := o / 0x800
     if c ≤ 3 ∨ (16 ≤ c ∧ c ≤ 27) then some (.mpu c, o % 0x800) else none)
  else if p = 9 then some (.pr, o)
  else if p = 0xA then some (.pc, o)
  else if p = 0x10 then some (.cb (o / 0x4000), o % 0x4000)
  else if 0x20 ≤ p ∧ p ≤ 0x25 then some (.pk (p - 0x20) (o / 0x2000), o % 0x2000)
  else if p = 0x30 then some (.port 0, o)
  else if p = 0x31 then some (.port 1, o)
  else if p = 0x38 then some (.ib, o)
  else if p = 0x40 then some (.tally, o)
  else none

/-- The movable block a register belongs to: its window's block, and the legacy unit for its own
registers in bay 0's window. -/
def winBlock (w : Win) (off : Nat) : Option Nat :=
  match w with
  | .du => some 11
  | .pr => some 20
  | .cb bay => if bay = 0 ∧ 0x2010 ≤ off then some 10 else some bay
  | .pk bay _ => some (4 + bay)
  | _ => none

/-- Hall of a window of a fixed block (R11). -/
def winHall (w : Win) : Hall :=
  match w with
  | .port _ => .outer
  | _ => .inner

/-- Registers that every master may read (R349). -/
def duOpen (off : Nat) : Bool := off == 0x004 || decide (0x040 ≤ off ∧ off ≤ 0x0C4)

/-- State of a movable block's hand-over. -/
def handState (s : State) (b : Nat) : HandState :=
  ((tget s.halls.blocks b).map (fun x => x.state)).getD .owned

/-- Whether a register target admits a hall attribute (R395). -/
def hallAdmits (s : State) (h : Hall) (w : Win) (off : Nat) (write : Bool) : Bool :=
  match winBlock w off with
  | some b =>
    (handState s b == .owned && ownerOf s b == h) || (w == .du && !write && duOpen off)
  | none =>
    match w with
    | .id => !write
    | .tally => !write
    | .hc =>
      h == .inner
        || (if write then decide (0x100 ≤ off ∧ off ≤ 0x154)
            else off == 0 || decide (0x100 ≤ off ∧ off ≤ 0x154))
    | .pc => h == .inner || (if write then off == 0x100 else off == 0x104)
    | _ => winHall w == h

/-- Whether a register target admits a transaction of a master (R395, R407). The Tally core reaches no
register window (R14). -/
def admits (s : State) (m : Nat) (w : Win) (off : Nat) (write : Bool) : Bool :=
  match w with
  | .mpu core => coreOf m == some core
  | _ =>
    if m = 0x70 then false
    else match masterHall s m with
    | some h => hallAdmits s h w off write
    | none => false

/-- Set a bit of `HC_ERR`. -/
def hcErr (s : State) (i : Nat) : State :=
  { s with halls := { s.halls with err := setBit s.halls.err i } }

/-- The fault of a refusal under R15: `ATTRIBUTE` and a `NOTE` on line 15. -/
def attrFault (s : State) (m addr : Nat) (write : Bool) : State :=
  noteAt (hcErr (perfAdd s 0 0x09 1) 0) 15 (if write then 2 else 1) addr m

/-- A refusal under R15: an error response and the fault. -/
def refuse (s : State) (m addr : Nat) (write : Bool) : State := busErr (attrFault s m addr write)

/-- A register write of a master: admitted under R395 and done, or refused. An address that names no
window gets an error response (R31). -/
def writeAs (s : State) (m addr : Nat) (op : State → State) : State :=
  match windowOf addr with
  | none => busErr s
  | some (w, off) => if admits s m w off true then op s else refuse s m addr true

/-- An accepted write, answered without an error. -/
def wrOk (s : State) : State := busOk s 0

/-! ### Register pairs (R5, R6) -/

/-- The half that a master's write of a _HI register left held. -/
def heldOf (s : State) (m addr : Nat) : Option Word :=
  (s.heldHi.find? (fun p => p.master == m && p.addr == addr)).map (fun p => p.value)

/-- Hold a _HI half for a master. -/
def holdHi (s : State) (m addr : Nat) (v : Word) : State :=
  { s with heldHi := s.heldHi.filter (fun p => !(p.master == m && p.addr == addr))
                      ++ [{ master := m, addr := addr, value := v }] }

/-- A held half has been committed. -/
def dropHeld (s : State) (m addr : Nat) : State :=
  { s with heldHi := s.heldHi.filter (fun p => !(p.master == m && p.addr == addr)) }

/-- Capture a _HI half for a master. -/
def captureHi (s : State) (m addr : Nat) (v : Word) : State :=
  { s with captured := s.captured.filter (fun p => !(p.master == m && p.addr == addr))
                        ++ [{ master := m, addr := addr, value := v }] }

/-- The half captured for a master. -/
def capturedOf (s : State) (m addr : Nat) : Option Word :=
  (s.captured.find? (fun p => p.master == m && p.addr == addr)).map (fun p => p.value)

/-- A pair write commits: the held half goes with the low half. Where the master holds none the spec names no upper
half, and `d` goes in its place: 0 for the write-one-to-clear and write-only pairs, the half in effect for the others
(DESIGN CHOICE, log 96). -/
def commitPair (s : State) (m hiAddr d : Nat) (op : State → Nat → State) : State :=
  op (dropHeld s m hiAddr) (((heldOf s m hiAddr).map (fun v => v.toNat)).getD d)

end Sys2Proof.Machine
end

