-- ==== Sys2Proof/Machine/KeyOps.lean ====
section
/-! DEFINITION. Operations of the key store: algorithms and classes (R170, R171), handles (R106, R181),
slots (R168, R183, R182), the cache and its pins (R187 to R189), use counts and invocation counters
(R115, R116, R207), and the queueing of mutations (R195, R196). -/

namespace Sys2Proof.Machine

/-! ### Algorithms and classes -/

/-- Material length of an algorithm and `BITS`, or none when the pair is not in the table (R170). -/
def materialLen (algo bits : Nat) : Option Nat :=
  if algo = 1 then (if bits = 128 ∨ bits = 192 ∨ bits = 256 then some (bits / 8) else none)
  else if algo = 2 then (if bits = 256 ∨ bits = 512 then some (bits / 8) else none)
  else if algo = 3 then (if bits = 192 then some 24 else none)
  else if algo = 4 then
    (if 128 ≤ bits ∧ bits ≤ 512 ∧ bits % 8 = 0 then some (bits / 8) else none)
  else if algo = 0x10 ∨ algo = 0x11 then (if bits = 256 then some 64 else none)
  else if algo = 0x12 then (if bits = 256 then some 96 else none)
  else if algo = 0x13 then (if bits = 384 then some 144 else none)
  else if algo = 0x14 then (if bits = 521 then some 198 else none)
  else if algo = 0x20 then
    (if 2048 ≤ bits ∧ bits ≤ 8192 ∧ bits % 256 = 0 then some (7 * bits / 16 + 4) else none)
  else if algo = 0x30 then (if bits = 0 then some 1248 else none)
  else if algo = 0x31 then (if bits = 0 then some 1632 else none)
  else if algo = 0x32 then (if bits = 0 then some 1984 else none)
  else if algo = 0x33 then (if bits = 0 then some 2624 else none)
  else none

/-- Asymmetric algorithms (R212: from 0x0010 upward). -/
def isAsym (algo : Nat) : Bool := decide (0x10 ≤ algo)

/-- Slots of a secret of material length `m` (R168). -/
def slotsFor (m : Nat) : Nat := if m ≤ 32 then 1 else 1 + ceilDiv (m - 32) 120

def isSignAlgo (algo : Nat) : Bool :=
  algo == 0x10 || algo == 0x12 || algo == 0x13 || algo == 0x14 || algo == 0x20 || algo == 0x32
    || algo == 0x33

def isAgreeAlgo (algo : Nat) : Bool := algo == 0x11 || algo == 0x12 || algo == 0x13 || algo == 0x14

/-- Whether a class may be taken by face number `n` of a secret of an algorithm (R171). -/
def classAllowed (algo bits : Nat) (c : UseClass) (n : Nat) : Bool :=
  match c with
  | .encrypt => algo == 1 || algo == 2 || (algo == 0x20 && n == 1)
  | .decrypt => algo == 1 || algo == 2 || (algo == 0x20 && n == 0)
  | .wrap => algo == 1 || algo == 3
  | .unwrap => algo == 1 || algo == 3
  | .derive => algo == 4
  | .macGenerate => algo == 1 || algo == 4
  | .macVerify => algo == 1 || algo == 4
  | .sign => isSignAlgo algo && n == 0
  | .verify => isSignAlgo algo && n == 1
  | .agree => isAgreeAlgo algo
  | .encapsulate => (algo == 0x30 || algo == 0x31) && n == 1
  | .decapsulate => (algo == 0x30 || algo == 0x31) && n == 0
  | .pinTranslate => (algo == 1 && (bits == 128 || bits == 256)) || algo == 3

/-- The class that the other face of a secret must have, if it may have a second face (R171). -/
def partnerClass : UseClass → Option UseClass
  | .encrypt => some .decrypt
  | .decrypt => some .encrypt
  | .wrap => some .unwrap
  | .unwrap => some .wrap
  | .derive => none
  | .macGenerate => some .macVerify
  | .macVerify => some .macGenerate
  | .sign => some .verify
  | .verify => some .sign
  | .agree => some .agree
  | .encapsulate => some .decapsulate
  | .decapsulate => some .encapsulate
  | .pinTranslate => none

/-- The payment flag where R175 requires it and only where R175 allows it. -/
def paymentOk (algo : Nat) (c : UseClass) (pay : Bool) : Bool :=
  if algo = 3 ∨ c = .pinTranslate then pay
  else if algo = 1 ∧ (c = .wrap ∨ c = .unwrap) then true
  else !pay

/-- Whether the faces of a new secret satisfy R171 and R175. -/
def facesOk (algo bits : Nat) (f0 f1 : Option Face) : Bool :=
  let one := fun (n : Nat) (f : Face) => classAllowed algo bits f.cls n && paymentOk algo f.cls f.payment
  match f0, f1 with
  | some a, some b => one 0 a && one 1 b && partnerClass a.cls == some b.cls
  | some a, none => one 0 a
  | none, some b => one 1 b
  | none, none => false

/-! ### Domains -/

/-- A domain that nothing has configured: no custodians, no root, the default quota (R184). -/
def domainReset (d : Nat) : Domain :=
  { set := [], threshold := 0, window := 0, epoch := 0, root := none
    quota := if d = 0 then 65536 else 7936, rates := [], seqNo := 1, pending := [], tickets := []
    witSeq := 0, witMark := 0, witKey := [], witCert := [], domKey := [], archKey := []
    opened := false, sequencer := 0, nextSide := none, grantKey := [] }

def domD (s : State) (d : Nat) : Domain := (dom s d).getD (domainReset d)

def setDom (s : State) (d : Nat) (f : Domain → Domain) : State :=
  { s with keys := { s.keys with domains := tput s.keys.domains d (f (domD s d)) } }

/-- Seconds of Tally time (R605). -/
def tallySec (s : State) : Nat := s.tally.time / 10 ^ 9

/-! ### Handles -/

/-- A key handle (05, Key handle). -/
def mkHandle (d slot face check : Nat) : Nat := d * 2 ^ 48 + slot * 2 ^ 24 + face * 2 ^ 22 + check

def hDomain (h : Nat) : Nat := h / 2 ^ 48
def hSlot (h : Nat) : Nat := h / 2 ^ 24 % 2 ^ 24
def hFace (h : Nat) : Nat := h / 2 ^ 22 % 4
def hCheck (h : Nat) : Nat := h % 2 ^ 22

/-- A face of a secret by number. -/
def faceAt (sec : Secret) (n : Nat) : Option Face :=
  if n = 0 then sec.face0 else if n = 1 then sec.face1 else none

def setFace (sec : Secret) (n : Nat) (f : Option Face) : Secret :=
  if n = 0 then { sec with face0 := f } else { sec with face1 := f }

/-- Whether an alcove lies among the owners of a face. -/
def ownedBy (o : Owners) (a : Nat) : Bool :=
  match o with
  | .all => true
  | .list l => l.contains a

/-- The handle that an alcove's handle map gives for a handle (R580). -/
def mapHandle (s : State) (a h : Nat) : Nat := ((alc s a).bind (fun x => tget x.handleMap h)).getD h

/-- The handle of a face of the secret at a head slot. -/
def handleOf (s : State) (slot face : Nat) : Nat :=
  mkHandle (((tget s.keys.secrets slot).map (fun x => x.domain)).getD 0) slot face
    (tgetD s.keys.checks slot 0)

/-- The face that a handle names for an alcove: slot, face number, secret and face; none where the device
answers `KEY_UNKNOWN` (R106, R181). -/
def resolve (s : State) (a h0 : Nat) : Option (Nat × Nat × Secret × Face) :=
  let h := mapHandle s a h0
  match tget s.keys.secrets (hSlot h) with
  | none => none
  | some sec =>
    if hDomain h = domainOf s a ∧ sec.domain = hDomain h ∧ hSlot h ≤ 2097151 ∧ hCheck h ≠ 0
        ∧ tgetD s.keys.checks (hSlot h) 0 = hCheck h then
      match faceAt sec (hFace h) with
      | some f => if ownedBy f.owners a then some (hSlot h, hFace h, sec, f) else none
      | none => none
    else none

/-- Whether Tally time lies in the face's validity window (R176). -/
def inWindow (s : State) (f : Face) : Bool :=
  decide (f.notBefore ≤ tallySec s) && decide (tallySec s ≤ f.notAfter)

/-- Uses of a face that the partner has counted or reserved (R555): single uses where the limit is 2^20 or
less, whole marks, at least the first, where it is larger. -/
def partnerUses (s : State) (slot n : Nat) (f : Face) : Nat :=
  let u := tgetD s.twin.uses (2 * slot + n) 0
  if s.twin.pair.paired = false ∨ f.limit ≤ 2 ^ 20 then u else max u (2 ^ 20)

/-- Whether the usage limit of a face allows one more use: the last test of check 7 (R105, R116). -/
def usesLeft (s : State) (slot n : Nat) (f : Face) : Bool := decide (f.uses + partnerUses s slot n f < f.limit)

/-- Check 7 of R105 for one face, but for its usage limit: the status that refuses it, or the face. `ok` is what the command
demands of it; `pay` whether it is a payment command (R175) (DEDUCED, log 49). -/
def faceCheck (s : State) (a h : Nat) (pay : Bool) (ok : Secret → Face → Bool) :
    Except Nat (Nat × Nat × Secret × Face) :=
  match resolve s a h with
  | none => .error stKeyUnknown
  | some (slot, n, sec, f) =>
    if ok sec f = false then .error stDeniedAttr
    else if f.payment ∧ pay = false then .error stDeniedAttr
    else if inWindow s f = false then .error stDeniedAttr
    else .ok (slot, n, sec, f)

/-! ### Slots -/

/-- Slots that local secrets may take: a gallery worker keeps the upper ones for grants (R576). -/
def slotLimit (s : State) : Nat := if s.gallery.role = 1 then 1572864 else 2097152

/-- Slots that a secret occupies. -/
def secretSlots (sec : Secret) : Nat := 1 + sec.chain.length

/-- Stair slots in use (R239, R240): an alias key a landing, two keys an alcove, two keys a domain with a
root and an archive key a domain. -/
def stairUse (s : State) : Nat :=
  s.stair.lands.length + 2 * tcount s.net.alcoves (fun _ x => !x.alcoveKey.isEmpty)
    + 2 * tcount s.keys.domains (fun _ x => !x.witKey.isEmpty)
    + tcount s.keys.domains (fun _ x => !x.archKey.isEmpty)

/-- A domain's use of slots (R185): its secrets, its proof secrets (R265) and, for domain 0, the Stair
slots (R240). -/
def domainUse (s : State) (d : Nat) : Nat :=
  sumNat (s.keys.secrets.map (fun e => if e.2.domain = d then secretSlots e.2 else 0))
    + (s.net.alcoves.filter (fun e => e.2.set.domain == d && e.2.proof.isSome)).length
    + (s.twin.alcoves.filter (fun e => e.2.set.domain == d && thas s.twin.mirrorProof e.1)).length
    + (if d = 0 then stairUse s else 0)

/-- Whether a slot is a head or continuation slot in use, or one that a mutation on its way to its commit takes. -/
def slotTaken (k : Keys) (n : Nat) : Bool :=
  k.secrets.any (fun e => e.1 == n || e.2.chain.contains n) || k.taken.contains n

/-- Whether a slot has not been allocated since the key store was last cleared: its check value is still 0 (R182). -/
def neverUsed (k : Keys) (n : Nat) : Bool := tgetD k.checks n 0 == 0 && !k.taken.contains n

/-- Free slots that an allocation may use: those never allocated and those freed, less the ones that a mutation on its
way to its commit takes. Retired slots are neither (R182). -/
def freeCount (s : State) : Nat :=
  let lim := slotLimit s
  (lim - tcount s.keys.checks (fun n _ => decide (n < lim)))
    + (s.keys.freed.filter (fun n => decide (n < lim))).length
    - (s.keys.taken.filter (fun n => decide (n < lim))).length

/-- Whether `n` more slots fit the domain's quota and the pool (R118, R185). -/
def slotsFit (s : State) (d n : Nat) : Bool :=
  decide (domainUse s d + n ≤ (domD s d).quota) && decide (n ≤ freeCount s)

/-- The lowest slot from `n` on that was never allocated; each slot passed over has a check value or is taken, so `fuel`
of their number and one more always finds it. -/
def lowestNew (k : Keys) : Nat → Nat → Nat
  | 0, n => n
  | fuel + 1, n => if neverUsed k n then n else lowestNew k fuel (n + 1)

/-- The next slot of an allocation: those never allocated in ascending order first, then the one freed least recently
(R183). -/
def nextSlot (k : Keys) (lim : Nat) : Option Nat :=
  let n := lowestNew k (k.checks.length + k.taken.length + 1) 0
  if n < lim then some n else k.freed.find? (fun n => decide (n < lim) && !k.taken.contains n)

/-- Take `n` slots, the head slot first; they stay taken until the mutation that they belong to applies. -/
def takeSlots : Nat → Nat → Keys → Option (List Nat × Keys)
  | 0, _, k => some ([], k)
  | n + 1, lim, k =>
    match nextSlot k lim with
    | none => none
    | some x => (takeSlots n lim { k with taken := k.taken ++ [x] }).map (fun r => (x :: r.1, r.2))

/-- The check value that a slot takes when it is allocated (R182). -/
def nextCheck (k : Keys) (n : Nat) : Nat := tgetD k.checks n 0 + 1

/-- A secret takes its slots: the head slot under a check value, each continuation slot that it did not have under its
next one (R182, R183). -/
def storeSecret (k : Keys) (slot check : Nat) (sec : Secret) : Keys :=
  let used := slot :: sec.chain
  let had := ((tget k.secrets slot).map (fun x => x.chain)).getD []
  let new := sec.chain.filter (fun n => !had.contains n)
  { k with
    secrets := tput k.secrets slot sec
    checks := new.foldl (fun t n => tput t n (nextCheck k n)) (tput k.checks slot check)
    freed := k.freed.filter (fun n => !used.contains n), taken := k.taken.filter (fun n => !used.contains n) }

/-- Numbers in ascending order, by insertion. -/
def insertNat (n : Nat) : List Nat → List Nat
  | [] => [n]
  | m :: r => if n ≤ m then n :: m :: r else m :: insertNat n r
def sortNat (l : List Nat) : List Nat := l.foldr insertNat []

/-- Free the slots of a secret: zeroised, in ascending order behind every slot freed before, or retired
at the last check value (R182, R183). -/
def freeSlots (k : Keys) (l : List Nat) : Keys :=
  let spent := (sortNat l).filter (fun n => tgetD k.checks n 0 == 0x3FFFFF)
  let back := (sortNat l).filter (fun n => tgetD k.checks n 0 != 0x3FFFFF)
  { k with freed := k.freed ++ back, retired := k.retired ++ spent }

/-! ### The key cache -/

/-- Entries that a cached face takes (R187). -/
def cacheSize (k : Keys) (c : Nat) : Nat :=
  match tget k.secrets (c / 2) with
  | some sec => if isAsym sec.algo = false ∧ 32 < sec.material.length then 2 else 1
  | none => 1

/-- Entries that a pinned old copy takes. -/
def oldSize (o : OldCopy) : Nat := if isAsym o.secret.algo = false ∧ 32 < o.secret.material.length then 2 else 1

/-- Entries that are pinned: those of the cache, and the old copies (R188, R189). -/
def pinned (k : Keys) : Nat := sumNat (k.pins.map (fun e => cacheSize k e.1)) + sumNat (k.old.map (fun e => oldSize e.2))

/-- Whether some faces can be pinned besides those that are: at most 1,024 entries are pinned at once (R188). -/
def pinsFit (k : Keys) (l : List Nat) : Bool :=
  decide (pinned k + sumNat (l.map (fun c => if thas k.pins c then 0 else cacheSize k c)) ≤ 1024)

/-- Evict the least recently used unpinned entries until `need` entries are free (R188). -/
def evict : Nat → Nat → Keys → Nat × Keys
  | 0, _, k => (0, k)
  | n + 1, need, k =>
    if sumNat (k.cache.map (cacheSize k)) + need ≤ 262144 then (0, k)
    else
      match k.cache.find? (fun c => tgetD k.pins c 0 == 0) with
      | none => (0, k)
      | some c =>
        let r := evict n need { k with cache := k.cache.filter (fun x => x != c) }
        (r.1 + 1, r.2)

/-- The key port delivers a face: a hit, or a miss that fills the entry; the entry becomes the most
recently used and is pinned (R19, R187, R188). -/
def pinFace (s : State) (slot face : Nat) : State :=
  let c := cacheKey slot face
  let hit := s.keys.cache.contains c
  let ev := if hit then (0, s.keys) else evict s.keys.cache.length (cacheSize s.keys c) s.keys
  let k := ev.2
  let k := { k with cache := k.cache.filter (fun x => x != c) ++ [c]
                    pins := tput k.pins c (tgetD k.pins c 0 + 1) }
  let s := { s with keys := k }
  let s := perfAdd s 13 (if hit then 0x20 else 0x21) 1
  if ev.1 = 0 then s else perfAdd s 13 0x22 ev.1

/-- A commit changes a face: a pinned entry keeps its old copy for the operations that pin it, and no other operation sees
that copy (R19, R189). -/
def splitPins (s : State) (slot n : Nat) : State :=
  let c := cacheKey slot n
  match tget s.keys.pins c, tget s.keys.secrets slot with
  | some m, some sec =>
    let o := oldKey s.keys.oldNext
    let rename := fun (l : List Nat) => l.map (fun p => if p = c then o else p)
    { s with
      keys := { s.keys with
        pins := tdel s.keys.pins c, old := tput s.keys.old o { secret := sec, face := n, pins := m }
        oldNext := s.keys.oldNext + 1 }
      cipher := { s.cipher with ops := tmap s.cipher.ops (fun _ x => { x with pins := rename x.pins }) }
      pk := { s.pk with jobs := tmap s.pk.jobs (fun _ x => { x with pins := rename x.pins }) } }
  | _, _ => s

/-! ### Mutations -/

/-- Owners with others added (R122). -/
def ownersJoin (old new : Owners) : Owners :=
  match old, new with
  | .list l, .list m => .list (l ++ m.filter (fun a => !l.contains a))
  | _, _ => .all

/-- The kind of a mark's record. -/
def markKind : MarkRef → MutKind
  | .invocation _ _ => .invMark
  | .use _ _ => .useMark
  | .proof => .proofMark
  | .witness _ => .witnessMark
  | .epoch _ => .epochMark

/-- The kind under which a journal record carries a body (R199); bodies that R199 gives no type are
journalled under kinds of the model (log 14). -/
def mutKind : MutBody → MutKind
  | .create _ _ => .create
  | .destroyFace _ _ => .destroyFace
  | .destroySecret _ => .destroySecret
  | .restrict _ _ _ _ _ _ _ => .restrict
  | .share _ _ _ => .share
  | .use _ _ => .use
  | .quota _ _ => .quota
  | .alcoveReset _ => .alcoveReset
  | .root _ _ _ _ _ => .root
  | .custodians _ _ _ _ => .custodians
  | .proofSecret _ _ => .proofSecret
  | .clientKeys _ _ _ => .clientKeys
  | .grant _ _ _ => .create
  | .revoke _ _ => .destroyFace
  | .alcoveSet _ _ _ => .alcoveSettings
  | .alcoveRemove _ => .alcoveSettings
  | .gapAck _ => .gapAck
  | .mark r => markKind r
  | .instNext _ => .instNumber
  | .alcovesLoad _ => .alcovesLoad
  | .mapped _ _ _ => .handleMap

/-- Bytes of the journal record of a body: 32 and the body, whose length the spec does not lay out
(DESIGN CHOICE, log 14). -/
def recordSize : MutBody → Nat
  | .create sec _ => 32 + 128 + sec.material.length
  | .grant _ _ sec => 32 + 128 + sec.material.length
  | .custodians set _ _ _ => 32 + min 3840 (8 + 1252 * set.length)
  | .root _ set _ _ _ => 32 + min 3840 (40 + 1252 * set.length)
  | .clientKeys _ a r => 32 + min 3840 (32 * (a.length + r.length))
  | .alcoveSet _ l _ => 32 + 72 + 32 * l.length
  | .alcovesLoad l => 32 + 2 * l.length
  | _ => 32 + 64

/-- Queue a mutation on its domain's commit sequencer (R195). -/
def queueMut (s : State) (d : Nat) (m : Mutation) : State :=
  setDom s d (fun x => { x with pending := x.pending ++ [m] })

/-- The mutation of a command, which then waits for it. -/
def mutateWork (s : State) (w : Nat) (k : Work) (body : MutBody) (quorum : Option Bytes)
    (resp : Bytes) : State :=
  let d := domainOf s k.alcove
  let s := queueMut s d
    { body := body, work := some w, gen := k.gen, alcove := k.alcove, quorum := quorum
      epoch := (domD s d).epoch, size := recordSize body, side := s.twin.side, resp := resp, sent := false, placed := none }
  modWork s w (fun k => { k with stage := .mutating })

/-- A mutation of no command: a mark or a use. -/
def mutateAlone (s : State) (d a : Nat) (body : MutBody) : State :=
  queueMut s d
    { body := body, work := none, gen := 0, alcove := a, quorum := none, epoch := (domD s d).epoch
      size := recordSize body, side := s.twin.side, resp := [], sent := false, placed := none }

/-! ### Uses and invocation counters -/

def keysFace (k : Keys) (slot n : Nat) (f : Face → Face) : Keys :=
  { k with secrets := tmod k.secrets slot (fun sec => setFace sec n ((faceAt sec n).map f)) }

def modFace (s : State) (slot n : Nat) (f : Face → Face) : State := { s with keys := keysFace s.keys slot n f }

/-- Count one use of a face at issue and pin it (R116, R19). A face whose limit is 2^20 or less journals
every use (R209). -/
def issueFace (s : State) (a slot n : Nat) (f : Face) : State :=
  let s := pinFace (modFace s slot n (fun g => { g with uses := g.uses + 1 })) slot n
  if f.limit ≤ 2 ^ 20 then mutateAlone s (domainOf s a) a (.use slot n) else s

/-- Whether the face's mark allows the draw of its next counter value (R207). -/
def markAllows (f : Face) : Bool := decide (f.nextInv < f.invMark * 2 ^ 20)

/-- Whether the face must commit its next mark (R207). -/
def markDue (next mark : Nat) : Bool := decide ((mark - 1) * 2 ^ 20 + 2 ^ 19 ≤ next)

/-- Draw the next invocation counter value (R115). -/
def drawInv (s : State) (slot n : Nat) : State :=
  modFace s slot n (fun g => { g with nextInv := g.nextInv + 1 })

/-- The nonce fixed field: member index, side and face instance number (05, worked example; R307). -/
def fixedField (s : State) (f : Face) : Nat :=
  (s.gallery.member.getD 0) * 2 ^ 26 + s.twin.side * 2 ^ 25 + f.instance_

/-- The 12-byte nonce of a drawn counter value. -/
def nonceOf (s : State) (f : Face) : Bytes := be 4 (fixedField s f) ++ be 8 f.nextInv

end Sys2Proof.Machine
end

