-- ==== Sys2Proof/Machine/Units.lean ====
section
/-! DEFINITION. The units of the wings: capacity (R155, R156, R159, R386, R419), the admission condition
(R149 to R153), what an operation's end does, and the loss of a unit (R157). Times of the condition are
counted in sixths of a nanosecond: a `CCLK` cycle is 4, a `KCLK` cycle 5. -/

namespace Sys2Proof.Machine

/-! ### Wings and capacity -/

/-- Number of a wing in the table of capacities. -/
def wingNo : Wing → Nat
  | .pk => 0
  | .cipher => 1
  | .hash => 2
  | .legacy => 3
  | .random => 4

/-- Sixths of a nanosecond in a cycle of the wing's clock. -/
def wingTick : Wing → Nat
  | .pk => 5
  | .cipher => 4
  | .hash => 4
  | .legacy => 4
  | .random => 4

/-- Blocking time in cycles of the wing's clock (R142). -/
def wingBlock : Wing → Nat
  | .pk => 26048
  | .cipher => 0
  | .hash => 80
  | .legacy => 32
  | .random => 0

/-- Fixed allowance in cycles of the wing's clock (R142). -/
def wingFixed : Wing → Nat
  | .pk => 2400
  | .cipher => 1500
  | .hash => 1500
  | .legacy => 1500
  | .random => 1500

/-- Added fixed allowance of a command that commits a mutation: 18,000 `CCLK` cycles (R143). -/
def wingCommit : Wing → Nat
  | .pk => 14400
  | .cipher => 18000
  | .hash => 18000
  | .legacy => 18000
  | .random => 18000

/-- In-service units of a wing, in tenths of a capacity unit (R142, R386, R419). -/
def unitsUp (s : State) (w : Wing) : Nat :=
  match w with
  | .pk => 10 * tcount s.pk.cores (fun i c =>
      coreServes c && ownerOf s (4 + i / 8) == .outer)
  | .cipher => 10 * tcount s.cipher.pipes (fun i u =>
      u.state == .inService && ownerOf s (i / 2) == .outer)
  | .hash => 10 * tcount s.cipher.lanes (fun _ u => u.state == .inService)
  | .legacy => if s.cipher.legacy.state = .inService ∧ ownerOf s 10 = .outer then 10 else 0
  | .random =>
    let n := tcount s.rng.cores (fun _ u => u.state == .inService)
    if n = 0 then 0 else if n = 1 then 6 else 16

/-- The repair reserve of a wing in tenths of a capacity unit (R159). -/
def reserveOf (s : State) (w : Wing) : Nat :=
  match w with
  | .pk => 80 * s.boot.resPk
  | .cipher => 20 * s.boot.resCipher
  | .hash => 10 * s.boot.resCipher
  | .legacy => 0
  | .random => 0

/-- `cap(w)` as an epoch sets it (R155). -/
def capNow (s : State) (w : Wing) : Nat := unitsUp s w - reserveOf s w

/-- `cap(w)` in force: in the first cycle of an epoch it is that of the epoch before (R155). -/
def capOf (s : State) (w : Wing) : Nat :=
  tgetD (if s.time = s.boot.epochAt then s.boot.capsOld else s.boot.caps) (wingNo w) 0

/-- Set every capacity at an epoch (R155). -/
def capAll (s : State) : State :=
  { s with boot := { s.boot with
    capsOld := s.boot.caps
    caps := [Wing.pk, .cipher, .hash, .legacy, .random].foldl (fun t w => tput t (wingNo w) (capNow s w)) s.boot.caps } }

/-- A loss lets the capacity fall at once, also in the first cycle of an epoch (R156). -/
def capFall (s : State) (w : Wing) : State :=
  let low := fun (t : Tab Nat) => tput t (wingNo w) (min (tgetD t (wingNo w) 0) (capNow s w))
  { s with boot := { s.boot with caps := low s.boot.caps, capsOld := low s.boot.capsOld } }

/-! ### Remaining cost -/

/-- Cycles that an operation has run (R151). -/
def ranOf (now : Nat) (c : Cost) : Nat :=
  c.ran + (match c.since with
    | some t => (now - t) * 6 / wingTick c.wing
    | none => 0)

/-- Remaining unit cost and remaining span (R151). -/
def costLeft (now : Nat) (c : Cost) : Nat := c.cost - c.width * ranOf now c
def spanLeft (now : Nat) (c : Cost) : Nat := c.span - ranOf now c

/-- The clock of a command's cost on a wing runs. -/
def runCost (now : Nat) (w : Wing) (l : List Cost) : List Cost :=
  l.map (fun c => if c.wing = w ∧ c.since = none then { c with since := some now } else c)

/-- The clock stops: the cycles run so far stay counted (R151). -/
def stopCost (now : Nat) (w : Wing) (l : List Cost) : List Cost :=
  l.map (fun c => if c.wing = w then { c with ran := ranOf now c, since := none } else c)

/-- An operation that is queued again has its full cost (R151). -/
def freshCost (w : Wing) (l : List Cost) : List Cost :=
  l.map (fun c => if c.wing = w then { c with ran := 0, since := none } else c)

/-- The operation of a wing has finished: its cost drops to zero, and its span is gone from the command's span on the other
wings (R151, R153). -/
def endCost (w : Wing) (l : List Cost) : List Cost :=
  let own := sumNat (l.map (fun c => if c.wing = w then c.own * wingTick w else 0))
  (l.filter (fun c => c.wing != w)).map (fun c => { c with span := c.span - own / wingTick c.wing })

/-- An operation as the admission condition sees it. -/
structure Load where
  num      : Nat
  deadline : Nat
  width    : Nat
  left     : Nat
  span     : Nat
  fixed    : Nat
  deriving DecidableEq, Repr

/-- The load of one command on a wing, if it has one there. -/
def loadOf (now w : Nat) (deadline : Nat) (costs : List Cost) (wing : Wing) : Option Load :=
  (costs.find? (fun c => c.wing == wing)).map (fun c =>
    { num := w, deadline := deadline, width := c.width, left := costLeft now c, span := spanLeft now c
      fixed := c.fixed })

/-- The accepted operations of a wing. -/
def loadsOn (s : State) (wing : Wing) : List Load :=
  s.net.work.filterMap (fun e => loadOf s.time e.1 e.2.deadline e.2.costs wing)

/-- Whether `r` is before `op` (R152). -/
def loadBefore (r op : Load) : Bool :=
  decide (r.deadline < op.deadline) || (r.deadline == op.deadline && decide (r.num < op.num))

/-- Whether one operation still meets its deadline with all of `l` accepted (R152). -/
def loadFits (now cap : Nat) (wing : Wing) (l : List Load) (op : Load) : Bool :=
  let ahead := sumNat (l.map (fun r => if loadBefore r op then r.left else 0))
  if cap + 10 ≤ 10 * op.width then false
  else
    let wait := ceilDiv (10 * ahead) (cap + 10 - 10 * op.width)
    decide (now * 6 + (wingBlock wing + wait + op.span + op.fixed) * wingTick wing ≤ op.deadline * 6)

/-- The admission condition of one wing for a new operation (R152). -/
def wingAdmits (s : State) (wing : Wing) (new : Load) : Bool :=
  let l := loadsOn s wing ++ [new]
  l.all (fun op => decide (op.deadline < new.deadline) || loadFits s.time (capOf s wing) wing l op)

/-- Whether the condition holds for an accepted operation and every operation after it (R157). -/
def wingHolds (s : State) (wing : Wing) (w : Nat) : Bool :=
  let l := loadsOn s wing
  match l.find? (fun r => r.num == w) with
  | none => true
  | some me => l.all (fun op => loadBefore op me || loadFits s.time (capOf s wing) wing l op)

/-! ### Operations on units -/

/-- Whether work belongs to the current generation of its alcove (R93, R95). -/
def genCurrent (s : State) (a gen : Nat) : Bool :=
  ((alc s a).map (fun x => x.gen == gen)).getD false

/-- A context takes the state an operation leaves it in, or is released. -/
def applyCtx (s : State) (a : Nat) (r : Result) : State :=
  let s := match r.ctx with
    | some (i, c) => modAlc s a (fun x => { x with contexts := tput x.contexts i { c with idle := s.time } })
    | none => s
  match r.relCtx with
  | some i => releaseCtx s a i
  | none => s

/-- The result of an operation goes to its command: the context state, and then the next operation of the command, the
mutation it commits or the completion. The results of work of an old generation change nothing else (R96). -/
def deliver (s : State) (w : Nat) (r : Result) : State :=
  match wrk s w with
  | none => s
  | some k =>
    if genCurrent s k.alcove k.gen = false then complete s w r.status r.payload r.meters
    else
      let s := applyCtx s k.alcove r
      if r.again ≠ .no then modWork s w (fun k =>
        { k with stage := .ready, part := k.part + 1, carry := some { r with again := .no } })
      else
      match r.body with
      | some b =>
        if r.status = stOk then
          modWork (mutateWork s w k b r.quorum r.payload) w (fun k => { k with carry := some r })
        else complete s w r.status r.payload r.meters
      | none => complete s w r.status r.payload r.meters

/-- A context of an operation that ended without a result is no longer in flight; it is released where the
operation was its last (R299) or its open. -/
def ctxIdle (s : State) (w a : Nat) (c : Option Nat) (r : Result) : State :=
  match c with
  | some i =>
    if r.relCtx.isSome ∨ ((wrk s w).map (fun k => k.opcode)) = some 0x0210 then releaseCtx s a i
    else modAlc s a (fun x => { x with contexts := tmod x.contexts i (fun y => { y with inFlight := false }) })
  | none => s

def delOp (s : State) (n : Nat) : State :=
  { s with cipher := { s.cipher with ops := tdel s.cipher.ops n } }

/-- Counting block of a unit (R610). -/
def wingBlockNo (w : Wing) (unit : Nat) : Nat :=
  match w with
  | .cipher => 1 + unit / 2
  | .pk => 5 + unit / 8
  | .hash => 11
  | .legacy => 12
  | .random => 24

/-- Slots that an operation has used: the issue slots of the cipher wing, the cycles run elsewhere. -/
def slotsUsed (now : Nat) (w : Wing) (costs : List Cost) : Nat :=
  match costs.find? (fun c => c.wing == w) with
  | none => 0
  | some c => if w = .cipher then c.cost else ranOf now c

/-- Note the slots of an operation that a unit ends (R614). -/
def noteSlots (s : State) (w : Nat) (wing : Wing) (unit : Nat) : State :=
  if wing = .random then s
  else modWork s w (fun k =>
    { k with slots := k.slots ++ [(wingBlockNo wing unit, slotsUsed s.time wing k.costs)] })

/-- The cost of a command once an operation on a wing has ended. -/
def costAfter (s : State) (w : Nat) (wing : Wing) (again : Again) : State :=
  modWork s w (fun k =>
    { k with costs := if again = .sameWing then stopCost s.time wing k.costs else endCost wing k.costs })

/-- An operation ends with its result (R284); the slots of two passes on one wing are noted at the end of the second. -/
def opDone (s : State) (n : Nat) (o : UnitOp) : State :=
  let s := if o.result.again = .sameWing then s else noteSlots s o.work o.wing o.unit
  let s := unpinAll (delOp s n) o.pins
  deliver (costAfter s o.work o.wing o.result.again) o.work o.result

/-- An operation ends without a result, with a status. -/
def opFail (s : State) (n : Nat) (o : UnitOp) (status : Nat) : State :=
  failWork (ctxIdle (unpinAll (delOp (noteSlots s o.work o.wing o.unit) n) o.pins) o.work o.alcove o.ctx o.result) o.work
    status

/-- The units of a wing that take new work, lowest number first. -/
def unitsFor (s : State) (w : Wing) : List Nat :=
  match w with
  | .pk => []
  | .cipher => tkeys (tfilter s.cipher.pipes (fun i u =>
      u.state == .inService && ownerOf s (i / 2) == .outer))
  | .hash => tkeys (tfilter s.cipher.lanes (fun _ u => u.state == .inService))
  | .legacy => if s.cipher.legacy.state = .inService ∧ ownerOf s 10 = .outer then [0] else []
  | .random => tkeys (tfilter s.rng.cores (fun _ u => u.state == .inService))

/-- Operations on a unit. -/
def opsOn (s : State) (w : Wing) (u : Nat) : Tab UnitOp :=
  tfilter s.cipher.ops (fun _ o => o.wing == w && o.unit == u)

/-- Whether the command `v` goes before the command `w`: the earlier deadline, then the order of acceptance (R45, R152). -/
def workBefore (s : State) (v w : Nat) : Bool :=
  match wrk s v, wrk s w with
  | some x, some y => decide (x.deadline < y.deadline) || (x.deadline == y.deadline && decide (v < w))
  | _, _ => false

/-- Work that a unit holds for commands before `w`. -/
def earlierWork (s : State) (wing : Wing) (u w : Nat) : Nat :=
  sumNat ((opsOn s wing u).map (fun e =>
    if workBefore s e.2.work w then
      sumNat (((wrk s e.2.work).map (fun k => k.costs.map (fun c => if c.wing = wing then costLeft s.time c else 0))).getD [])
    else 0))

/-- Whether a unit can hold one more operation: a lane has 64 operation states (R365). -/
def unitRoom (s : State) (w : Wing) (u : Nat) : Bool := w != .hash || decide ((opsOn s .hash u).length < 64)

/-- The unit that takes an operation of a command at issue: of those in service and with room the one whose ready work of
earlier deadline is least (R281), the lowest number among equals; the lanes, the legacy unit and the DRBG cores are chosen
in the same way (DEDUCED, log 59). -/
def pickUnit (s : State) (wing : Wing) (w : Nat) : Option Nat :=
  let l := (unitsFor s wing).filter (unitRoom s wing)
  l.find? (fun u => l.all (fun v => decide (earlierWork s wing u w ≤ earlierWork s wing v w)))

/-- Whether a command waits for a lane. -/
def wantsLane (k : Work) : Bool := k.stage == .ready && k.costs.any (fun c => c.wing == .hash)

/-- Operation states that the lanes in service have free. -/
def lanesFree (s : State) : Nat := sumNat ((unitsFor s .hash).map (fun u => 64 - (opsOn s .hash u).length))

/-- Whether a command has its turn on a wing: of the commands that wait for an operation state of a lane the earliest
deadline goes first (R45, R365). -/
def unitTurn (s : State) (wing : Wing) (w : Nat) : Bool :=
  wing != .hash || (unitsFor s .hash).isEmpty
    || decide (((tkeys (tfilter s.net.work (fun v k => wantsLane k && workBefore s v w))).length) < lanesFree s)

/-- Whether an operation that pins some faces may be issued to a wing now (R188, R365). -/
def mayIssue (s : State) (wing : Wing) (w : Nat) (pins : List Nat) : Bool := unitTurn s wing w && pinsFit s.keys pins

/-- Whether an operation may end now. Each block goes to the operation of earliest deadline, so an operation leaves a unit
ahead of one that goes before it only where that one came in during its last block, or is a serial one in a pipe,
which is not ready in every cycle (R281, R282, R365; DEDUCED, log 59). -/
def endsInTurn (s : State) (n : Nat) (o : UnitOp) : Bool :=
  let last := match o.wing with
    | .cipher => 54
    | .hash => 80
    | .legacy => 32
    | _ => 0
  o.wing == .random || (opsOn s o.wing o.unit).all (fun e =>
    e.1 == n || !workBefore s e.2.work o.work || (o.wing == .cipher && e.2.serial)
      || decide (s.time * 6 < e.2.at_ * 6 + last * wingTick o.wing))

/-- Whether a command's operation on a wing is a serial one. -/
def serialOn (k : Work) (wing : Wing) : Bool := k.costs.any (fun c => c.wing == wing && c.serial)

/-- Hand an operation to a unit of a wing; with no unit in service it ends with `UNIT_LOST` (R157). -/
def issueOp (s : State) (w : Nat) (k : Work) (wing : Wing) (pins : List Nat) (ctx : Option Nat)
    (offset : Nat) (r : Result) : State :=
  match pickUnit s wing w with
  | none => failWork (ctxIdle (unpinAll s pins) w k.alcove ctx r) w stUnitLost
  | some u =>
    let o : UnitOp := { work := w, alcove := k.alcove, gen := k.gen, wing := wing, unit := u, pins := pins
                        stream := k.stream, ctx := ctx, offset := offset, result := r, at_ := s.time
                        serial := serialOn k wing }
    let s := { s with cipher := { s.cipher with
      ops := tput s.cipher.ops s.cipher.nextOp o, nextOp := s.cipher.nextOp + 1 } }
    let s := if wing = .cipher then perfAdd s (1 + u / 2) 0x15 1 else s
    modWork s w (fun k => { k with stage := .issued, costs := runCost s.time wing k.costs })

/-- The operations of a lost unit: re-issued from their held inputs where the condition holds at their full cost, or ended
with `UNIT_LOST` (R151, R157). -/
def reissueOps (s : State) (w : Wing) (u : Nat) : State :=
  (opsOn s w u).foldl (fun s e =>
    let t := modWork s e.2.work (fun k => { k with costs := freshCost w k.costs })
    match pickUnit t w e.2.work with
    | some v =>
      if wingHolds t w e.2.work then
        modWork { t with cipher := { t.cipher with ops := tmod t.cipher.ops e.1 (fun o => { o with unit := v, at_ := t.time }) } }
          e.2.work (fun k => { k with costs := runCost t.time w k.costs })
      else opFail s e.1 e.2 stUnitLost
    | none => opFail s e.1 e.2 stUnitLost) s

/-- Units of the cipher wing side change. -/
def modPipe (s : State) (i : Nat) (f : EngineUnit → EngineUnit) : State :=
  { s with cipher := { s.cipher with pipes := tmod s.cipher.pipes i f } }
def modLane (s : State) (i : Nat) (f : EngineUnit → EngineUnit) : State :=
  { s with cipher := { s.cipher with lanes := tmod s.cipher.lanes i f } }
def modDrbgCore (s : State) (i : Nat) (f : EngineUnit → EngineUnit) : State :=
  { s with rng := { s.rng with cores := tmod s.rng.cores i f } }
def modLegacy (s : State) (f : EngineUnit → EngineUnit) : State :=
  { s with cipher := { s.cipher with legacy := f s.cipher.legacy } }

/-- A unit becomes lost: out of service until zeroisation and tests (R156); a retired one stays so. -/
def loseUnit (u : EngineUnit) : EngineUnit :=
  if u.state = .retired then u else { u with state := .out, lost := true, leaving := false, joining := false }

def losePipe (s : State) (i : Nat) : State :=
  reissueOps (capFall (modPipe s i loseUnit) .cipher) .cipher i
def loseLane (s : State) (i : Nat) : State :=
  reissueOps (capFall (modLane s i loseUnit) .hash) .hash i
def loseLegacy (s : State) : State :=
  reissueOps (capFall (modLegacy s loseUnit) .legacy) .legacy 0
def loseDrbgCore (s : State) (i : Nat) : State :=
  reissueOps (capFall (modDrbgCore s i loseUnit) .random) .random i

/-- Whether any unit lost in this start is not back in service or retired (R498). -/
def anyLost (s : State) : Bool :=
  s.cipher.pipes.any (fun e => e.2.lost) || s.cipher.lanes.any (fun e => e.2.lost)
    || s.cipher.legacy.lost || s.rng.cores.any (fun e => e.2.lost) || s.pk.cores.any (fun e => e.2.lost)

/-- `LOST_UNIT` clears when every lost unit is back or retired (R498). -/
def lostSettle (s : State) : State :=
  if anyLost s = false ∧ s.fc.causes.getLsbD 0 then clrCause s 0 else s

end Sys2Proof.Machine
end

