-- ==== Sys2Proof/Machine/Rng.lean ====
section
/-! DEFINITION. The random-number source: banks and their health tests, the main source's states, spores,
the DRBG instances and their budgets, the small sources and the registers (R369 to R394). -/

namespace Sys2Proof.Machine

def modRng (s : State) (f : Rng → Rng) : State := { s with rng := f s.rng }

/-- `RNG_ERR` sets a bit; with `ERR_IRQ_EN` its event goes to the Inner Hall. -/
def rngBit (s : State) (i : Nat) : State :=
  let s := modRng s (fun r => { r with err := setBit r.err i })
  if s.rng.irq then raise s 93 else s

/-! ### Instances -/

/-- What an instance answers to a request (R383, R387 to R389, R394). -/
inductive Draw where
  | ok | waits | absent | dead
  deriving DecidableEq, Repr

/-- How an instance stands. -/
def drawState (s : State) (i : Nat) : Draw :=
  if s.rng.source = .fatal then .dead
  else
    match tget s.rng.inst i with
    | none => .absent
    | some d =>
      if d.ready = false ∨ d.urgent ∨ 2 ^ 20 ≤ d.count ∨ d.grace = some 0 then .waits else .ok

/-- One generate request of an instance: its budget and its grace (R383, R388). -/
def countDraw (s : State) (i : Nat) : State :=
  modRng s (fun r => { r with inst := tmod r.inst i (fun d =>
    { d with count := d.count + 1, grace := d.grace.map (fun g => g - 1) }) })

/-- Draw `n` bytes from an instance that can serve: the bytes, and the state after. -/
def drawFrom (s : State) (i n : Nat) : Bytes × State := (drawn s n, countDraw (perfAdd (useFree s n) 19 0x59 n) i)

/-- The instance of an alcove (R379). -/
def alcInst (a : Nat) : Nat := 256 + a

/-- An instance fresh from a spore of its own, or from the alcove parent. -/
def freshInst (own : Bool) : Drbg :=
  { ready := true, own := own, count := 0, grace := none, urgent := false }

/-- Instance 0 seeds one alcove instance (R380, R382), if it can. -/
def seedAlcove (s : State) (a : Nat) : State :=
  if drawState s 0 = .ok ∧ s.rng.seeded < 1024 then
    modRng (countDraw s 0) (fun r =>
      { r with inst := tput r.inst (alcInst a) (freshInst false), seeded := r.seeded + 1 })
  else s

/-- Instance 0 seeds, in ascending number, the alcove instances that it has to seed: every one at its
first instantiation, and later those of alcoves that were created meanwhile (R380, R382). -/
def seedMissing (s : State) (first : Bool) : State :=
  ((List.range 1024).filter (fun a =>
    !thas s.rng.inst (alcInst a) && (first || thas s.net.alcoves a))).foldl seedAlcove s

/-- Whether an instance asks for a spore (R382, R383). -/
def asks (r : Rng) (i : Nat) (d : Drbg) : Bool :=
  decide (2 ^ 19 ≤ d.count) || (i == 0 && decide (1024 ≤ r.seeded))

/-- The asking instance with the highest count among those a test accepts; the lowest number of equals. -/
def topAsker (r : Rng) (p : Nat → Bool) : Option Nat :=
  let l := r.inst.filter (fun e => p e.1 && asks r e.1 e.2)
  (l.find? (fun e => l.all (fun q => decide (q.2.count ≤ e.2.count)))).map (·.1)

/-- The instance that takes the next spore: one instantiated again (R394), instance 0 after its seedings
(R382), the internal instances in order (R380), asking internal and then asking alcove instances (R383),
and alcove instances that hold no spore of their own (R380). -/
def sporeTaker (r : Rng) : Option Nat :=
  match r.inst.find? (fun e => e.2.urgent) with
  | some e => some e.1
  | none =>
    if thas r.inst 0 ∧ 1024 ≤ r.seeded then some 0
    else
      match (List.range 256).find? (fun i => !thas r.inst i) with
      | some i => some i
      | none =>
        match topAsker r (fun i => decide (i < 256)) with
        | some i => some i
        | none =>
          match topAsker r (fun i => decide (256 ≤ i)) with
          | some i => some i
          | none => (r.inst.find? (fun e => decide (256 ≤ e.1) && !e.2.own)).map (·.1)

/-- Commands that wait for an instance may run again. -/
def wakeRng (s : State) : State :=
  { s with net := { s.net with work := tmap s.net.work (fun _ k =>
      if k.stage = .waitRng then { k with stage := .ready } else k) } }

/-- An instance takes a spore: instantiation or reseed (R376, R380, R382). -/
def takeSpore (s : State) (i : Nat) : State :=
  let first := i == 0 && !thas s.rng.inst 0
  let s := modRng s (fun r =>
    { r with buffer := r.buffer - 1, inst := tput r.inst i (freshInst true)
             seeded := if i = 0 then 0 else r.seeded })
  wakeRng (if i = 0 then seedMissing s first else s)

/-! ### The main source -/

/-- Grace at the entry to `HOLD`; a grace that runs is not renewed (R388). -/
def giveGrace (d : Drbg) : Drbg :=
  { d with grace := match d.grace with
      | some g => some g
      | none => some (min (2 ^ 20 - d.count) (2 ^ 16)) }

/-- Entry to `HOLD` (R373, R388). -/
def enterHold (s : State) : State :=
  let s := modRng (rngBit s 5) (fun r => { r with source := .hold, inst := tmap r.inst (fun _ d => giveGrace d) })
  pulse s 7 .recover

/-- Requests on the random wing, running or waiting, end with `ENTROPY_FAULT` (R389). -/
def failDraws (s : State) : State :=
  let s := (tfilter s.cipher.ops (fun _ o => o.wing == .random)).foldl
    (fun s e => opFail s e.1 e.2 stEntropy) s
  (tfilter s.net.work (fun _ k => k.stage == .waitRng)).foldl (fun s e => failWork s e.1 stEntropy) s

/-- Entry to `FATAL` (R373, R389). -/
def enterFatal (s : State) : State :=
  let s := modRng (rngBit s 6) (fun r => { r with source := .fatal, inst := [], buffer := 0 })
  pulse (failDraws s) 7 .degrade

/-! ### Health tests (R369, R370) -/

/-- The 1,024 samples of a block, the earliest first: bit i is sample i. -/
def samplesOf (block : BitVec 1024) : List Bool := (List.range 1024).map block.getLsbD

/-- The repetition-count test on one sample: it fails on the 41st identical sample in a row, and starts again with the next.
The second value counts its failures. -/
def runStep (r : RunTest × Nat) (x : Bool) : RunTest × Nat :=
  let n := if 0 < r.1.count ∧ r.1.last = x then r.1.count + 1 else 1
  if 41 ≤ n then ({ count := 0, last := x }, r.2 + 1) else ({ count := n, last := x }, r.2)

/-- The repetition-count test over a block: its runs go on from block to block. -/
def runTest (r : RunTest) (block : BitVec 1024) : RunTest × Nat := (samplesOf block).foldl runStep (r, 0)

/-- The adaptive-proportion test within a window: occurrences of its first sample, 0 before that, and its failures. -/
structure PropTest where
  count : Nat
  first : Bool
  fails : Nat
  deriving DecidableEq, Repr

/-- The adaptive-proportion test on one sample: it fails on the 793rd occurrence of the window's first sample, and starts again
with the next sample. -/
def propStep (p : PropTest) (x : Bool) : PropTest :=
  if p.count = 0 then { p with count := 1, first := x }
  else if p.first ≠ x then p
  else if 793 ≤ p.count + 1 then { p with count := 0, fails := p.fails + 1 }
  else { p with count := p.count + 1 }

/-- Failures of the adaptive-proportion test in a block, which is its window. -/
def propFails (block : BitVec 1024) : Nat :=
  ((samplesOf block).foldl propStep { count := 0, first := false, fails := 0 }).fails

/-- Whether a block fails: either test fails on a sample of it. -/
def blockFails (r : RunTest) (block : BitVec 1024) : Bool := decide (0 < (runTest r block).2) || decide (0 < propFails block)

/-- A bank after one block: the failures of its tests are counted (R371). -/
def bankBlock (b : Bank) (block : BitVec 1024) : Bank :=
  let r := runTest b.run block
  let c := { b with run := r.1, rct := min (b.rct + r.2) 0xFFFF, apt := min (b.apt + propFails block) 0xFFFF }
  if blockFails b.run block then { c with failing := true, passed := 0 }
  else if b.failing then
    (if b.passed + 1 = 4 then { c with failing := false, passed := 0 } else { c with passed := b.passed + 1 })
  else c

/-- Entropy credit of a bank's block in bits: 512 where it passed and the bank was not failing before it, else 0 (R369, R371). -/
def blockCredit (b : Bank) (block : BitVec 1024) : Nat := if blockFails b.run block ∨ b.failing then 0 else 512

/-- Failing banks. -/
def failingBanks (r : Rng) : Nat := tcount r.banks (fun _ b => b.failing)

/-- The mask of failing banks. -/
def failingMask (r : Rng) : Nat := sumNat (r.banks.map (fun e => if e.2.failing then 2 ^ e.1 else 0))

/-- The state after a block end, by the failing count (R372). -/
def sourceNext (st : RngState) (f : Nat) : RngState :=
  match st with
  | .off => .off
  | .fatal => .fatal
  | .startup => if 8 < f then .fatal else if 4 < f then .hold else .run
  | .run => if 8 < f then .fatal else if 4 < f then .hold else .run
  | .hold => if 8 < f then .fatal else if 4 < f then .hold else .run

/-- Go to a state of the main source, with what its entry brings. -/
def goSource (s : State) (st : RngState) : State :=
  if st = s.rng.source then s
  else
    match st with
    | .hold => enterHold s
    | .fatal => enterFatal s
    | .off => modRng s (fun r => { r with source := st })
    | .startup => modRng s (fun r => { r with source := st })
    | .run => modRng s (fun r => { r with source := st, started := true })

/-- The conditioner on one burst of blocks (R375, R376): `credits` in bank order. -/
def condition (s : State) (credits : List Nat) (agree : Bool) : State :=
  let n := (credits.filter (fun c => c != 0)).length
  let tail := (credits.reverse.takeWhile (fun c => c == 0)).length
  if s.rng.source ≠ .run then modRng s (fun r => { r with carried := r.carried + credits.length })
  else if n = 0 then modRng s (fun r => { r with carried := r.carried + credits.length })
  else if agree ∧ s.rng.forceDup = false then
    modRng (perfAdd s 19 0x58 n) (fun r => { r with spores := r.spores + n, buffer := min (r.buffer + n) 64, carried := tail })
  else
    let s := modRng (rngBit s 2) (fun r => { r with condBad := r.condBad + 1, forceDup := false, carried := tail })
    if 2 ≤ s.rng.condBad then enterFatal s else enterHold s

/-- The blocks of every bank end (R371, R372, R374, R375). -/
def bankEnd (s : State) (blocks : List (BitVec 1024)) (agree : Bool) : State :=
  if s.rng.source = .off ∨ s.rng.source = .fatal then s
  else
    let credits := s.rng.banks.map (fun e => blockCredit e.2 (blocks.getD e.1 0))
    let bad := s.rng.banks.filter (fun e => blockFails e.2.run (blocks.getD e.1 0))
    let s := modRng s (fun r => { r with banks := tmap r.banks (fun i b => bankBlock b (blocks.getD i 0)) })
    let s := if bad.isEmpty then s
      else pulses (rngBit s 4) (bad.map (fun _ =>
        { line := 7, cls := .note, type := 0, addr := 0, master := 0xFF }))
    let s := goSource s (sourceNext s.rng.source (failingBanks s.rng))
    condition s credits agree

/-! ### The small sources -/

/-- Where the repetition-count test of a small source's bank stands. -/
def smallRun (x : SmallSource) (bank : Nat) : RunTest := if bank = 0 then x.run0 else x.run1

/-- A bank of a small source goes on with its test, or restarts with a start-up block. -/
def smallMark (x : SmallSource) (bank : Nat) (start : Bool) (r : RunTest) : SmallSource :=
  if bank = 0 then { x with start0 := start, run0 := r } else { x with start1 := start, run1 := r }

/-- A small source after one block of a bank (R391); the second value tells that its fatal alarm is raised. -/
def smallBlock (now : Nat) (x : SmallSource) (bank : Nat) (block : BitVec 1024) : SmallSource × Bool :=
  if x.state = 2 then (x, false)
  else
    let r := smallRun x bank
    if blockFails r block = false then
      (smallMark { x with state := 1, consec := 0, spores := x.spores + 1 } bank false (runTest r block).1, false)
    else
      let fails := (now :: x.fails).filter (fun t => decide (now < t + 10 ^ 9))
      let x := smallMark { x with consec := x.consec + 1, fails := fails } bank true runReset
      if 3 ≤ x.consec ∨ 6 ≤ x.fails.length then ({ x with state := 2, spores := 0 }, true) else (x, false)

/-- The always-on source raises its fatal alarm (R392). -/
def aonFatal (s : State) : State :=
  let s := modRng (rngBit s 7) (fun r => { r with aon := { r.aon with state := 2, spores := 0 } })
  if s.power.powered then pulse s 5 .degrade else s

/-! ### Errors and registers -/

/-- A source of `RNG_ERR` fires or is forced, with its response (R394). -/
def rngFire (s : State) (i inst : Nat) : State :=
  if i = 0 ∨ i = 1 then pulse (loseDrbgCore (rngBit s i) i) 7 .degrade
  else if i = 2 then modRng (rngBit s 2) (fun r => { r with forceDup := true })
  else if i = 3 then
    pulse (modRng (rngBit s 3) (fun r => { r with inst := tmod r.inst inst (fun d =>
      { d with ready := false, urgent := true, own := false, grace := none, count := 0 }) })) 7 .recover
  else if i = 4 then
    pulse (modRng (rngBit s 4) (fun r => { r with banks := tmod r.banks 0 (fun b =>
      { b with failing := true, passed := 0 }) })) 7 .note
  else if i = 5 then (if s.rng.source = .fatal then s else enterHold s)
  else if i = 6 then (if s.rng.source = .fatal then s else enterFatal s)
  else if i = 7 then aonFatal s
  else s

/-- `RNG_ERR_FORCE`; the list of R394 names no instance for a forced `PARITY`: instance 0 takes it. -/
def rngForce (s : State) (v : Word) : State := wrOk ((setBits 8 v.toNat).foldl (fun s i => rngFire s i 0) s)

/-- Codes of `RNG_STATUS.SOURCE`. -/
def rngCode : RngState → Nat
  | .off => 0
  | .startup => 1
  | .run => 2
  | .hold => 3
  | .fatal => 4

def coreState (t : Tab EngineUnit) (i : Nat) : Nat := ((tget t i).map (fun u => ustateCode u.state)).getD 2

def rngRead (s : State) (off : Nat) : Option Word :=
  let r := s.rng
  if off = 0x000 then some (pack [(b2n r.irq, 0)])
  else if off = 0x004 then some (pack [(rngCode r.source, 0), (failingBanks r, 8), (r.aon.state, 16)])
  else if off = 0x008 then some (w32 (failingMask r))
  else if off = 0x010 then some (loHalf r.spores)
  else if off = 0x014 then some (hiHalf r.spores)
  else if off = 0x018 then
    some (pack [(tcount r.inst (fun _ d => d.ready), 0), (tcount r.inst (fun _ d => d.grace.isSome), 16)])
  else if off = 0x01C then some (pack [(coreState r.cores 0, 0), (coreState r.cores 1, 3)])
  else if off = 0x020 then some (w32 r.err.toNat)
  else if off = 0x024 then some 0
  else if off % 4 = 0 ∧ 0x040 ≤ off ∧ off ≤ 0x0BC then
    (tget r.banks ((off - 0x040) / 4)).map (fun b => pack [(b.rct, 0), (b.apt, 16)])
  else if off = 0x0C0 then
    some (pack [(min r.aon.consec 3, 0),
      (min ((r.aon.fails.filter (fun t => decide (s.time < t + 10 ^ 9))).length) 6, 8)])
  else none

def rngWrite (s : State) (off : Nat) (v : Word) : Option State :=
  if off = 0x000 then some (wrOk (modRng s (fun r => { r with irq := bitOf v.toNat 0 })))
  else if off = 0x020 then some (wrOk (modRng s (fun r => { r with err := w1c r.err v.toNat })))
  else if off = 0x024 then some (rngForce s v)
  else if (rngRead s off).isSome then some (wrOk s)
  else none

/-! ### The commands -/

/-- `BANK_BLOCK_END` (R372): the blocks of the 32 banks, bank 0 first: of banks 0 to 15 and of banks 16 to 31. -/
def execBankBlockEnd (low high : List (BitVec 1024)) (condAgree : Bool) (s : State) : Out :=
  .next (bankEnd s (low ++ high) condAgree)

/-- A spore goes out (R376, R380, R383). -/
def deliverSpore (s : State) : State :=
  if s.rng.buffer = 0 ∨ s.rng.source = .fatal then s
  else
    match sporeTaker s.rng with
    | none => s
    | some i => takeSpore s i

/-- Whether operation `p` goes before `q`: the earlier deadline, then the order of acceptance (R385). -/
def drawBefore (s : State) (p q : Nat × UnitOp) : Bool :=
  let d := fun (o : UnitOp) => ((wrk s o.work).map (fun k => k.deadline)).getD 0
  decide (d p.2 < d q.2) || (d p.2 == d q.2 && decide (p.2.work ≤ q.2.work))

/-- `DRBG_GENERATE` (R378, R385): a generate request of an instance finishes. That of an alcove's instance
is the earliest operation of the alcove on the random wing; that of an internal instance counts against
its budget. -/
def execDrbgGenerate (inst : Nat) (s : State) : Out :=
  .next (if 256 ≤ inst then
      let l := tfilter s.cipher.ops (fun _ o => o.wing == .random && o.alcove == inst - 256)
      match l.find? (fun p => l.all (fun q => drawBefore s p q)) with
      | none => s
      | some e => opDone s e.1 e.2
    else if drawState s inst = .ok then countDraw s inst
    else s)

/-- `SMALL_SOURCE_BLOCK_END` (R391, R392): of the Tally's source or of the always-on source. A fatal alarm
of the Tally's source is a `DEGRADE` on line 38 (R587). -/
def execSmallSourceBlockEnd (tally : Bool) (bank : Nat) (block : BitVec 1024) (s : State) : Out :=
  .next (if tally then
      let r := smallBlock s.time s.rng.tally bank block
      let s := modRng s (fun g => { g with tally := r.1 })
      if r.2 then pulse s 38 .degrade else s
    else
      let r := smallBlock s.time s.rng.aon bank block
      let s := modRng s (fun g => { g with aon := r.1 })
      if r.2 then aonFatal s else s)

/-- `RNG_ERR_FORCE` (R394). -/
def execRngErrForce (master : Nat) (value : Word) (s : State) : Out :=
  .next (writeAs s master 0x50024 (fun s => rngForce s value))

/-- `RNG_ERR_FIRE` (R386, R394). -/
def execRngErrFire (source inst : Nat) (s : State) : Out := .next (rngFire s source inst)

end Sys2Proof.Machine
end

