-- ==== Sys2Proof/Machine/Tally.lean ====
section
/-! DEFINITION. The Tally (R586 to R609): totals, records and their signing, the event log, Tally time,
power and the register window. -/

namespace Sys2Proof.Machine

def modTally (s : State) (f : Tally → Tally) : State := { s with tally := f s.tally }

/-- Seal bits burnt. -/
def sealCount (s : State) : Nat := popCount 64 s.otp.sealBits.toNat

/-- Device key identifier (R245). -/
def deviceKeyId (s : State) : Bytes := (Config.sha512 s.stair.idPub).take 16

/-! ### The event log (R604) -/

/-- The signed bytes of a log entry. -/
def logBytes (t : Tally) (e : TallyLog) : Bytes :=
  let body := be 2 e.type ++ zeros 2 ++ be 4 e.num ++ be 8 e.time ++ be 1 e.sealCnt ++ zeros 7
    ++ e.oldD ++ e.newD ++ be 8 e.detail ++ zeros 32
  body ++ (match t.seed with
    | some k => Config.edSign k (ascii "WTEV1" ++ body)
    | none => zeros 64)

/-- Write a log entry; a full log counts entries of types 4 to 7 only. -/
def addLog (s : State) (type cnt : Nat) (oldD newD : Bytes) (detail : Nat) : State :=
  if 16384 ≤ s.tally.logNewest then modTally s (fun t => { t with logFull := min (t.logFull + 1) 255 })
  else
    modTally s (fun t =>
      { t with logNewest := t.logNewest + 1
               log := tput t.log (t.logNewest + 1)
                 { type := type, num := t.logNewest + 1, time := t.time, sealCnt := cnt, oldD := oldD
                   newD := newD, detail := detail } })

/-- An entry of types 4 to 7, whose digests and detail the spec does not state: free values. -/
def logEvent (s : State) (type : Nat) : State :=
  let f := drawn s 136
  addLog (useFree s 136) type (sealCount s) (slice f 0 64) (slice f 64 64) (fld f 128 8)

/-! ### The tariff map (R592, R593) -/

/-- Whether a sealed section follows R592 and R519. -/
def section8Ok (body : Bytes) : Bool :=
  match itemsOf body with
  | none => false
  | some l =>
    let tariffs := tagged l 0x0801
    let ints := tagged l 0x0802
    l.all (fun i =>
      (i.1 == 0x0801 && i.2.length == 8 && decide (fld i.2 2 1 ≤ 15) && zeroAt i.2 3 1)
        || (i.1 == 0x0802 && i.2.length == 2 && decide (10 ≤ fld i.2 0 2) && decide (fld i.2 0 2 ≤ 3600)
            && 86400 % fld i.2 0 2 == 0))
      && decide (tariffs.length ≤ 128) && noDup (tariffs.map (fun v => fld v 0 2)) && decide (ints.length ≤ 1)

/-- The sealed section comes into force: tariff, interval and digest. -/
def applySection8 (t : Tally) (body : Bytes) : Tally :=
  let l := (itemsOf body).getD []
  { t with
    section8 := body, secDigest := Config.sha512 body
    tariff := (tagged l 0x0801).foldl (fun m v => tput m (fld v 0 2) (fld v 2 1, fld v 4 4)) []
    interval := match tagged l 0x0802 with
      | v :: _ => fld v 0 2
      | [] => 60 }

/-- Step 4 of a reseal: the slots are flipped (R601). -/
def finishReseal (t : Tally) : Tally :=
  let t := match t.nextFw with
    | some f => { t with fwVersion := f.1, fwDigest := f.2, nextFw := none }
    | none => t
  match t.nextSec with
  | some b => { applySection8 t b with nextSec := none }
  | none => t

/-! ### Records (R594, R595) -/

/-- The bytes of a record before its signature. -/
def recordBody (s : State) (r : TallyRec) (prev : Bytes) : Bytes :=
  be 4 0x57544C59 ++ be 1 1 ++ be 1 r.flags ++ be 2 r.totals.length ++ be 8 r.num ++ be 8 r.time
    ++ deviceKeyId s ++ be 1 s.twin.side ++ be 1 (sealCount s) ++ zeros 2 ++ be 4 s.tally.fwVersion
    ++ s.tally.fwDigest ++ s.tally.secDigest ++ prev ++ be 8 s.tally.logNewest ++ zeros 8
    ++ r.totals.flatMap (fun e => be 2 e.1 ++ zeros 6 ++ e.2.flatMap (be 8))

/-- Hash of the previous record; zero in record 1. -/
def prevHash (t : Tally) (n : Nat) : Bytes :=
  match tget t.records (n - 1) with
  | some r => Config.sha512 r.bytes
  | none => zeros 64

/-- Sign the captured records in order and store them in the ring (R589, R596). -/
def signRecords : Nat → State → State
  | 0, s => s
  | n + 1, s =>
    match s.tally.seed, s.tally.waiting with
    | some k, r :: rest =>
      let body := recordBody s r (prevHash s.tally r.num)
      let r := { r with bytes := body ++ Config.edSign k (ascii "WTLY1" ++ body), signed := true }
      signRecords n (modTally s (fun t =>
        { t with waiting := rest, newest := r.num
                 records := tdel (tput t.records r.num r) (r.num - 1536) }))
    | _, _ => s

/-- The number of the newest captured record. -/
def lastNum (t : Tally) : Nat := t.newest + t.waiting.length

/-- Tally second of the newest captured record. -/
def lastSec (t : Tally) : Option Nat :=
  match t.waiting.getLast? with
  | some r => some (r.time / 10 ^ 9)
  | none => (tget t.records t.newest).map (fun r => r.time / 10 ^ 9)

/-- Capture a record: the totals are frozen (R594). -/
def capture (t : Tally) (onRequest : Bool) : Tally :=
  { t with
    waiting := t.waiting ++ [{ num := lastNum t + 1, time := t.time
                               flags := b2n t.suspect + 2 * b2n onRequest + 4 * b2n t.pathFault + 8 * b2n t.resumed
                               totals := t.totals, bytes := [], signed := false }]
    pathFault := false, resumed := false }

/-- Payload that returns records or log entries from `first` (R598). -/
def listPayload (newest : Nat) (items : List Bytes) : Bytes :=
  be 8 newest ++ be 2 items.length ++ zeros 6 ++ items.flatMap (fun b => be 4 b.length ++ b)

/-- Payload of one record. -/
def recordPayload (t : Tally) (n : Nat) : Bytes :=
  listPayload t.newest (match tget t.records n with
    | some r => [r.bytes]
    | none => [])

/-- Commands waiting for a cut complete once a record on request is signed (R598) (DEDUCED, log 66). -/
def serveCuts (s : State) : State :=
  match tget s.tally.records s.tally.newest with
  | none => s
  | some r =>
    if bitOf r.flags 1 then
      let l := s.tally.cut
      let s := modTally s (fun t => { t with cut := [] })
      l.foldl (fun s w => okWork s w (recordPayload s.tally r.num)) s
    else s

/-- Sign what waits, and serve the cuts. -/
def signAll (s : State) : State := serveCuts (signRecords (s.tally.waiting.length) s)

/-! ### Time (R606, R607) -/

/-- What Tally time steers toward, from device time. -/
def tallyTarget (s : State) : Int := (s.time : Int) - 1577836837 * 10 ^ 9

/-- A number of ppm within ±200. -/
def clampPpm (i : Int) : Int := if i < -200 then -200 else if 200 < i then 200 else i

/-! ### Registers (R608) -/

def digestWord (d : Bytes) (i : Nat) : Word := w32 (beNat (slice d (4 * i) 4))

def tallyRead (s : State) (off : Nat) : Option Word :=
  let t := s.tally
  if off = 0x000 then
    some (pack [(t.core, 0), (b2n t.discipl, 2), (b2n t.suspect, 3), (b2n t.pathFault, 4), (sealCount s, 16),
      (t.logFull, 24)])
  else if off = 0x004 then some (w32 t.fwVersion)
  else if off = 0x010 then some (loHalf t.time)
  else if off = 0x014 then some (hiHalf t.time)
  else if off = 0x018 then some (loHalf t.newest)
  else if off = 0x01C then some (hiHalf t.newest)
  else if off = 0x020 then some (w32 t.err.toNat)
  else if off % 4 = 0 ∧ 0x040 ≤ off ∧ off ≤ 0x07C then some (digestWord t.fwDigest ((off - 0x040) / 4))
  else if off % 4 = 0 ∧ 0x080 ≤ off ∧ off ≤ 0x0BC then some (digestWord t.secDigest ((off - 0x080) / 4))
  else none

/-! ### The commands -/

/-- `TALLY_SEED_DELIVERY` (R588, R589). -/
def execTallySeedDelivery (seed : Bytes) (s : State) : Out :=
  .next (match s.tally.seed with
    | none => signAll (modTally s (fun t => { t with seed := some seed }))
    | some k => if k = seed then s else pulse s 38 .degrade)

/-- `TALLY_ACCUMULATE` (R591, R593): 4 entries. -/
def execTallyAccumulate (s : State) : Out := .next (modTally s (tallyDrain 4))

/-- `TALLY_RECORD_DUE` (R594): at a Tally second that is a multiple of the interval, or for a cut. -/
def execTallyRecordDue (s : State) : Out :=
  .next (
    let sec := tallySec s
    let due := sec % s.tally.interval == 0
    if (due ∨ s.tally.cut ≠ []) ∧ lastSec s.tally ≠ some sec then
      signAll (modTally s (fun t => capture t (!t.cut.isEmpty)))
    else s)

/-- `TALLY_TIME_PATH` (R606, R607): once per second. The core has logged its errors by then and clears
them (R608). -/
def execTallyTimePath (disciplined : Bool) (s : State) : Out :=
  .next (
    let s := modTally s (fun t => { t with discipl := disciplined, err := t.err &&& 0x8 })
    let target := tallyTarget s
    if disciplined = false then modTally s (fun t => { t with rate := 0 })
    else if s.tally.suspect then
      logEvent (modTally s (fun t =>
        { t with time := max t.time target.toNat, suspect := false, rate := 0 })) 4
    else modTally s (fun t => { t with rate := clampPpm ((target - t.time) / 1000) }))

/-- `TALLY_POWER_UP` (R597, R602, R607): the totals and the time come back, and a reseal that power cut is
finished or abandoned. `elapsed` is the time the real-time clock counted, in ns. -/
def execTallyPowerUp (clockLost : Bool) (elapsed : Nat) (s : State) : Out :=
  .next (if s.tally.core ≠ 0 then s
    else
      let s := modTally s (fun t =>
        { t with core := 1, resumed := true, totals := t.checkTot
                 time := if clockLost then t.checkTime else t.checkTime + elapsed
                 suspect := t.suspect || clockLost })
      let s := if clockLost then logEvent s 5 else s
      match tget s.tally.log s.tally.logNewest with
      | none => s
      | some e =>
        if e.type = 0 ∨ 4 ≤ e.type then s
        else if e.sealCnt = sealCount s then modTally s finishReseal
        else logEvent (modTally s (fun t => { t with nextFw := none, nextSec := none })) 6)

/-- `TALLY_FAULT` (R587, R608, R609). -/
def execTallyFault (e : TallyErr) (s : State) : Out :=
  .next (match e with
    | .pathParity =>
      pulse (logEvent (modTally s (fun t => { t with err := setBit t.err 0, pathFault := true })) 7) 38 .degrade
    | .accParity =>
      pulse (logEvent (modTally s (fun t => { t with err := setBit t.err 1, pathFault := true })) 7) 38 .degrade
    | .watchdog => pulse (modTally s (fun t => { t with err := setBit t.err 2 })) 38 .note
    | .sourceFatal => pulse s 38 .degrade)

end Sys2Proof.Machine
end

