-- ==== Sys2Proof/Machine/Stair.lean ====
section
/-! DEFINITION. The Stair (R239 to R261) and the boot ledger (R268 to R272): Landing 0, the climbs, the
lineage vector, the Landing 5 keys and the certificates. -/

namespace Sys2Proof.Machine

def modStair (s : State) (f : Stair → Stair) : State := { s with stair := f s.stair }

/-- A label with a byte string, as the formulas of the chapter join them. -/
def lbl (t : String) (b : Bytes) : Bytes := ascii t ++ b

/-- `h^k(x)`: SHA-512 applied k times (07). -/
def hIter : Nat → Bytes → Bytes
  | 0, x => x
  | k + 1, x => hIter k (Config.sha512 x)

/-! ### Landing 0 (R242, R243) -/

/-- Device seed and custody seed. -/
def deviceSeed (otpRandom puf : Bytes) : Bytes := Config.hmac512 otpRandom (lbl "WST0 device" puf)
def custodySeed (d secret : Bytes) : Bytes := Config.hmac512 d (lbl "WST0 custody" secret)

/-- Landing 0 with a good PUF response (R242), and the seed of the Tally (R588). -/
def landingZero (s : State) (puf : Bytes) : State :=
  let d := deviceSeed s.otp.random puf
  let c := custodySeed d s.bb.secret
  let ident := (Config.hmac512 d (ascii "WST0 identity")).take 32
  let led := (Config.hmac512 d (ascii "WST0 ledger")).take 32
  modStair s (fun t =>
    { t with
      pufOk := true, ready := true, landing := 0, device := d, custody := c, identity := ident, ledger := led
      exact := Config.hmac512 c (ascii "WST0 exact"), signerV := Config.hmac512 c (ascii "WST0 lineage")
      tally := (Config.hmac512 d (ascii "WST0 tally")).take 32
      idPub := Config.edPub ident, ledPub := Config.edPub led, lands := [] })

/-- What tells custody keys apart in the archive: a function of the device seed and the erase secret. -/
def custodyId (s : State) : Bytes := Config.hmac512 s.otp.random (s.bb.secret)

/-! ### Certificates (R260) -/

/-- UTC in seconds from the Tally epoch (R605). -/
def utcSec (s : State) : Nat := (((tallySec s : Int) - (s.net.leap - 37))).toNat

/-- A certificate over a key, of a kind of `subjectName`, issued by a seed at Tally time: its issuer's name, rights and
extension are those of its kind. -/
def issueCert (s : State) (kind n : Nat) (issuer subject more : Bytes) : Bytes :=
  let name := subjectName (deviceKeyId s)
  let from_ := if kind = 2 ∨ (kind = 3 ∧ n = 1) then name 1 0 else if kind = 3 then name 3 (n - 1) else name 3 4
  let rights := derRights (if kind = 3 then some (4 - n) else none) (kind == 3 && n == 4)
  let tbs := certTbs from_ (derTime (utcSec s)) (name kind n) subject (Config.edPub issuer) rights more
  certOf tbs (Config.edSign issuer tbs)

/-! ### The ledger (R268 to R272) -/

/-- The retired-unit set as bytes (R269). -/
def retiredBytes (s : State) : Bytes := be 16 s.boot.attempt.retired.toNat

/-- The configuration slot in use. -/
def cfgSlot (s : State) : Config8 := if s.boot.attempt.prefer.getLsbD 2 then s.boot.cfgB else s.boot.cfgA

/-- The configuration digest (R518). -/
def configDigest (s : State) : Bytes := Config.sha512 (cfgSlot s).head

/-- Flags of a new core (R268, R272). -/
def coreFlags (s : State) : Nat :=
  let mismatch := !s.boot.bbLost && s.ledger.newest != 0 && (headHash s).take 24 != s.bb.head
  b2n mismatch + 2 * b2n s.boot.bbLost + 4 * b2n (s.bb.gap != 0) + 8 * b2n s.boot.evCommit
    + 16 * b2n s.boot.recovery

/-- The eight attempt words, newest first (R524). -/
def attemptsNewest (a : Attempt) : List Word :=
  (List.range 8).map (fun i => a.words.getD ((a.newest + 8 - i) % 8) 0)

/-- The entry core before its signature (R268). -/
def coreBody (s : State) (meas signer : Bytes) (svn : Nat) (aliasPub : Bytes) : Bytes :=
  be 4 0x574C4447 ++ [1, 0] ++ be 2 (coreFlags s) ++ be 8 (s.ledger.newest + 1) ++ headHash s
    ++ deviceKeyId s ++ be 8 s.time ++ be 4 (tallySec s) ++ be 2 (popCount 256 s.otp.evidence.toNat)
    ++ be 1 (lifeCode s.life.life) ++ [0] ++ (attemptsNewest s.boot.attempt).flatMap (fun w => be 4 w.toNat)
    ++ retiredBytes s ++ Config.fixLen 64 meas ++ Config.fixLen 64 signer ++ be 1 svn ++ zeros 7 ++ aliasPub

/-- A new entry with its signed core (R249 step 3). -/
def pushCore (s : State) (meas signer : Bytes) (svn : Nat) (aliasPub : Bytes) : State :=
  let body := coreBody s meas signer svn aliasPub
  let core := body ++ Config.edSign s.stair.ledger (ascii "WLDG core" ++ body)
  let n := s.ledger.newest + 1
  setHead { s with ledger := { s.ledger with
    newest := n, served := false, entries := tput s.ledger.entries (ledgerPos n) { core := core, exts := [] } } }

/-- An extension with its signature (R270). -/
def signExt (s : State) (key ext : Bytes) : Bytes :=
  ext ++ Config.edSign key (ascii "WLDG ext" ++ Config.sha512 (((ledgerEntry s s.ledger.newest).map (fun e => e.core)).getD []) ++ ext)

/-- Add a signed extension to the newest entry. -/
def pushExt (s : State) (key ext : Bytes) : State := writeExt s (signExt s key ext)

/-- The landing extension (R270). -/
def landingExt (n : Nat) (meas signer : Bytes) (svn : Nat) (aliasPub : Bytes) : Bytes :=
  be 1 1 ++ be 1 n ++ be 1 svn ++ zeros 5 ++ Config.fixLen 64 meas ++ Config.fixLen 64 signer ++ aliasPub ++ zeros 24

/-- The service extension (R270). -/
def serviceExt (s : State) : Bytes :=
  be 1 2 ++ zeros 1 ++ be 1 (serviceCode s.fc.service) ++ be 1 (b2n s.net.ptpHere) ++ zeros 4
    ++ be 8 s.time ++ be 4 (tallySec s) ++ zeros 4 ++ retiredBytes s ++ zeros 32 ++ configDigest s ++ zeros 56

/-- A signature with a Stair key waits for its admission (R253). -/
def addTask (s : State) (t : StairTask) : State := modStair s (fun x => { x with tasks := x.tasks ++ [t] })

/-- The service extension of a start is signed once by the statement key, after the start (R253, R270). -/
def askService (s : State) : State :=
  match tget s.stair.lands 4 with
  | none => s
  | some l => addTask s (.service (signExt s l.alias_ (serviceExt s)))

/-! ### Climbing (R247 to R251) -/

/-- Alias seed of a landing; the identity seed stands below landing 1. -/
def aliasSeed (t : Stair) (n : Nat) : Bytes :=
  if n = 0 then t.identity else ((tget t.lands n).map (fun l => l.alias_)).getD []

/-- The lineage value that a climb gives (R248). -/
def lineageVal (g : Bytes) (n : Nat) (signer : Bytes) (svn : Nat) : Bytes :=
  hIter (255 - svn) (Config.hmac512 g (lbl "WST lineage" (be 1 n ++ signer)))

/-- Whether a climb is served: only upward and only to the next landing (R250, R251). -/
def climbOk (s : State) (n svn : Nat) : Bool :=
  s.stair.ready && !s.stair.paused && n == s.stair.landing + 1 && decide (n ≤ 4) && decide (svn ≤ 255)

/-- The values of the climb to landing `n` (R248), the clears and locks (R249). -/
def climbValues (t : Stair) (n : Nat) (meas signer : Bytes) (svn : Nat) (cert : Bytes) : Stair :=
  let e := Config.hmac512 t.exact (lbl "WST exact" (be 1 n ++ meas))
  let l : Landing :=
    { meas := meas, signer := signer, svn := svn, lineage := lineageVal t.signerV n signer svn
      alias_ := (Config.hmac512 e (ascii "WST alias")).take 32, cert := cert }
  { t with
    landing := n, exact := e, signerV := Config.hmac512 t.signerV (lbl "WST signer" (be 1 n ++ signer))
    lands := tput (tmap t.lands (fun m x => if m < n then { x with alias_ := [] } else x)) n l
    identity := if n = 1 then [] else t.identity, ledger := if n = 1 then [] else t.ledger
    device := if n = 1 then [] else t.device, custody := if n = 1 then [] else t.custody }

/-- One climb (R249): the certificate, the ledger core or extension, and the new values. -/
def climb (s : State) (n : Nat) (meas signer : Bytes) (svn : Nat) : State :=
  let e := Config.hmac512 s.stair.exact (lbl "WST exact" (be 1 n ++ meas))
  let pub := Config.edPub ((Config.hmac512 e (ascii "WST alias")).take 32)
  let key := aliasSeed s.stair (n - 1)
  let cert := issueCert s 3 n key pub (landingItem n svn meas signer)
  let s := if n = 1 then pushCore s meas signer svn pub else pushExt s key (landingExt n meas signer svn pub)
  modStair s (fun t => climbValues t n meas signer svn cert)

/-- A refused request of the Stair (R250). -/
def stairRefuse (s : State) (m : Nat) : State :=
  busErr (pulses s [{ line := 6, cls := .note, type := 0, addr := 0, master := m }])

/-! ### The lineage vector (R254) -/

/-- The running vector: the SVNs of landings 1 to 4. -/
def runVector (s : State) : List Nat :=
  [1, 2, 3, 4].map (fun n => ((tget s.stair.lands n).map (fun l => l.svn)).getD 0)

/-- Whether every landing is climbed and no element of `v` exceeds its SVN. -/
def vectorOk (s : State) (v : List Nat) : Bool :=
  s.stair.landing == 4 && v.length == 4 && (List.zip v (runVector s)).all (fun p => decide (p.1 ≤ p.2))

/-- `kk[n]`. -/
def lineageAt (s : State) (n v : Nat) : Bytes :=
  match tget s.stair.lands n with
  | some l => hIter (l.svn - v) l.lineage
  | none => []

/-- `l(v)` (R254). -/
def vectorKey (s : State) (v : List Nat) : Bytes :=
  Config.hmac512 (lineageAt s 1 (v.getD 0 0))
    (lbl "WST vector" (lineageAt s 2 (v.getD 1 0) ++ lineageAt s 3 (v.getD 2 0) ++ lineageAt s 4 (v.getD 3 0)))

/-! ### Landing 5 (R258, R259, R261) -/

/-- The statement key. -/
def statementKey (s : State) : Bytes := aliasSeed s.stair 4

/-- A Landing 5 key on the exact branch. -/
def exactKey (s : State) (label : String) (b : Bytes) : Bytes := (Config.hmac512 s.stair.exact (lbl label b)).take 32

/-- The alcove key, the context key and the alcove certificate of an alcove that opens. The certificate is signed at once during
a start, and as D4 work of alcove 0 after it (R253, R261). -/
def deriveAlcove (s : State) (a : Nat) : State :=
  let d := domainOf s a
  let k := exactKey s "WST5 alcove" (be 2 d ++ be 2 a)
  let c := exactKey s "WST5 context" (be 2 d ++ be 2 a)
  let cert := issueCert s 4 a (statementKey s) (Config.edPub k) (placementItem d (some a))
  let s := modAlc s a (fun x => { x with alcoveKey := k, ctxKey := c, cert := if s.boot.running then cert else [] })
  if s.boot.running then s else addTask s (.alcoveCert a k cert)

/-- The archive key of a domain under a vector. -/
def archiveKey (s : State) (d : Nat) (v : List Nat) : Bytes :=
  (Config.hmac512 (vectorKey s v) (lbl "WST5 archive" (be 2 d))).take 32

/-- The domain key of a domain with a root. -/
def domainKey (s : State) (d : Nat) (root : Bytes) : Bytes :=
  (Config.hmac512 (vectorKey s (runVector s)) (lbl "WST5 domain" (be 2 d ++ root))).take 32

/-- The witness key, the domain key and the witness certificate of a domain whose root commits, signed as an alcove's is. -/
def deriveDomain (s : State) (d : Nat) : State :=
  match (domD s d).root with
  | none => s
  | some root =>
    let w := exactKey s "WST5 witness" (be 2 d ++ root)
    let cert := issueCert s 5 d (statementKey s) (Config.edPub w) (placementItem d none)
    let s := setDom s d (fun x =>
      { x with witKey := w, witCert := if s.boot.running then cert else [], domKey := domainKey s d root })
    if s.boot.running then s else addTask s (.witnessCert d w cert)

/-- The chain of `REPLY`: the alcove certificate, the aliases of landings 4 to 1 and the identity (R262). -/
def replyChain (s : State) (a : Nat) : List Bytes :=
  [((alc s a).map (fun x => x.cert)).getD []]
    ++ [4, 3, 2, 1].map (fun n => ((tget s.stair.lands n).map (fun l => l.cert)).getD []) ++ [s.stair.idCert]

/-! ### The commands -/

/-- `STAIR_CLIMB` (R247 to R251). -/
def execStairClimb (master landing : Nat) (meas signer : Bytes) (svn : Nat) (s : State) : Out :=
  .next (if master ≤ 3 ∧ climbOk s landing svn then busOk (climb s landing meas signer svn) 0
    else stairRefuse s master)

/-- `STAIR_LINEAGE_REQUEST` (R250, R254): only the key-store controller may ask. -/
def execStairLineageRequest (master : Nat) (v : List Nat) (s : State) : Out :=
  .next (if master = 0x6C ∧ vectorOk s v then busOk (modStair s (fun t => { t with vec := vectorKey s v })) 0
    else stairRefuse s master)

end Sys2Proof.Machine
end

