-- ==== Sys2Proof/Machine/Archive.lean ====
section
/-! DEFINITION. The key archive: journal records and their bytes (R199, R255), the pending journal (R200), what a record
changes in the committed store (R196), the replay of a start (R204), the seals of a snapshot (R255, R256), and the
continuity record (R665). -/

namespace Sys2Proof.Machine

def modKeys (s : State) (f : Keys → Keys) : State := { s with keys := f s.keys }

/-! ### What a record changes in the key store -/

def keysDom (k : Keys) (d : Nat) (f : Domain → Domain) : Keys :=
  { k with domains := tput k.domains d (f ((tget k.domains d).getD (domainReset d))) }

/-- A secret goes with both faces: its slots are freed (R182, R183). -/
def wipeSecretKeys (k : Keys) (slot : Nat) : Keys :=
  match tget k.secrets slot with
  | none => k
  | some sec => { freeSlots k (slot :: sec.chain) with secrets := tdel k.secrets slot }

/-- A face goes; the secret goes with its last one. -/
def wipeFaceKeys (k : Keys) (slot n : Nat) : Keys :=
  match tget k.secrets slot with
  | none => k
  | some sec =>
    if (setFace sec n none).face0.isNone ∧ (setFace sec n none).face1.isNone then wipeSecretKeys k slot
    else { k with secrets := tmod k.secrets slot (fun x => setFace x n none) }

/-- The rates of a domain (R164): a rate of 0 is no quota, a new bucket is full. No rates: those in force stay. -/
def takeRates (now : Nat) (rates : List Nat) (x : Domain) : Domain :=
  if rates.isEmpty then x
  else
    { x with rates := (List.range rates.length).foldl (fun t i =>
      let r := rates.getD i 0
      if r = 0 then t else tput t i { rate := r, tokens := r * 10 * 10 ^ 6, at_ := now }) [] }

/-- What the body of a record changes in the key store and its domains. -/
def storeBody (now d : Nat) (k : Keys) : MutBody → Keys
  | .grant slot check sec => storeSecret k slot check sec
  | .destroyFace slot n => wipeFaceKeys k slot n
  | .revoke slot n => wipeFaceKeys k slot n
  | .destroySecret slot => wipeSecretKeys k slot
  | .restrict slot n wrapped owners nb na limit =>
    keysFace k slot n (fun f =>
      { f with wrapped := wrapped.getD f.wrapped, owners := owners.getD f.owners, notBefore := nb.getD f.notBefore
               notAfter := na.getD f.notAfter, limit := limit.getD f.limit })
  | .share slot n o => keysFace k slot n (fun f => { f with owners := ownersJoin f.owners o })
  | .quota n rates => keysDom k d (fun x => takeRates now rates { x with quota := n })
  | .root v set t w e => keysDom k d (fun x => { x with root := some v, set := set, threshold := t, window := w, epoch := e })
  | .custodians set t w e =>
    keysDom k d (fun x => { x with set := set, threshold := t, window := w, epoch := e, tickets := [] })
  | .instNext n => { k with instNext := max k.instNext n }
  | .create _ _ => k
  | .use _ _ => k
  | .alcoveReset _ => k
  | .proofSecret _ _ => k
  | .clientKeys _ _ _ => k
  | .alcoveSet _ _ _ => k
  | .alcoveRemove _ => k
  | .gapAck _ => k
  | .mark _ => k
  | .alcovesLoad _ => k
  | .mapped _ _ _ => k

/-- A mark of this side rises by one (R207, R209, R267, R276). -/
def storeMark (k : Keys) : MarkRef → Keys
  | .invocation slot n => keysFace k slot n (fun f => { f with invMark := f.invMark + 1 })
  | .use slot n => keysFace k slot n (fun f => { f with useMark := f.useMark + 1 })
  | .proof => { k with proofMark := k.proofMark + 1 }
  | .witness d => keysDom k d (fun x => { x with witMark := x.witMark + 1 })
  | .epoch _ => k

/-! ### What a record changes in the committed image -/

/-- The part of an image that is laid out as the key store is. -/
def archKeys (a : Archive) : Keys :=
  { keysReset with
    secrets := a.secrets, checks := a.checks, freed := a.freed, retired := a.retired, domains := a.domains
    instNext := a.instNext, proofMark := a.proofMark }

def archTake (a : Archive) (k : Keys) : Archive :=
  { a with
    secrets := k.secrets, checks := k.checks, freed := k.freed, retired := k.retired, domains := k.domains
    instNext := k.instNext, proofMark := k.proofMark }

/-- What the image holds of an alcove of a domain. -/
def keptAt (a : Archive) (n d : Nat) : KeptAlcove :=
  (tget a.alcoves n).getD { domain := d, set := none, keys := [], proof := none, epochMark := 0, handleMap := [] }

def modKept (a : Archive) (n d : Nat) (f : KeptAlcove → KeptAlcove) : Archive :=
  { a with alcoves := tput a.alcoves n (f (keptAt a n d)) }

/-- Faces that go take their entries of the handle maps and the partner's counts with them (R580). -/
def dropKept (a : Archive) (slot : Nat) (gone : Nat → Bool) : Archive :=
  { a with
    alcoves := tmap a.alcoves (fun _ x => { x with handleMap := tfilter x.handleMap (fun _ h => hSlot h != slot || !gone (hFace h)) })
    uses := tfilter a.uses (fun k _ => k / 2 != slot || !gone (k % 2))
    invs := tfilter a.invs (fun k _ => k / 2 != slot || !gone (k % 2)) }

/-- Registered keys after `CLIENT_KEY_SET` (R235). -/
def clientsSet (adds removes : List Bytes) (l : List (Bytes × Role)) : List (Bytes × Role) :=
  l.filter (fun k => !removes.contains k.1) ++ adds.map (fun k => (k, Role.client))

/-- Registered keys after steward keys have been replaced (R661). -/
def stewardsSet (stew : List Bytes) (l : List (Bytes × Role)) : List (Bytes × Role) :=
  l.filter (fun k => k.2 != .steward && !stew.contains k.1) ++ stew.map (fun k => (k, Role.steward))

/-- Uses of the partner that one record of it adds (R555): one, or the block of a mark, whose first block is reserved at
the creation of the face (R209). -/
def partnerAdd (mark : Bool) (u : Nat) : Nat := if mark then max u (2 ^ 20) + 2 ^ 20 else u + 1

/-- The body of a record in the image, beside the key store; `own` whether this side is the record's. -/
def keepBody (own : Bool) (d : Nat) (a : Archive) : MutBody → Archive
  | .alcoveSet x stew new =>
    { modKept a x.alcove x.domain (fun y =>
        { y with domain := x.domain, set := some x, keys := stewardsSet stew (if new then [] else y.keys) }) with
      removed := a.removed.filter (fun n => n != x.alcove) }
  | .alcoveRemove n =>
    { a with alcoves := tdel a.alcoves n, removed := a.removed.filter (fun m => m != n) ++ [n] }
  | .alcovesLoad l =>
    { a with
      removed := []
      alcoves := tmap (tfilter a.alcoves (fun n _ => l.contains n)) (fun _ x =>
        { x with set := none, keys := x.keys.filter (fun k => k.2 == .client) }) }
  | .clientKeys n adds removes => modKept a n d (fun x => { x with keys := clientsSet adds removes x.keys })
  | .proofSecret n v => modKept a n d (fun x => { x with proof := some v })
  | .mapped n old new => modKept a n d (fun x => { x with handleMap := tput x.handleMap old new })
  | .quota n _ => { a with quotas := tput a.quotas d n }
  | .destroyFace slot n => dropKept a slot (fun f => f == n)
  | .revoke slot n => dropKept a slot (fun f => f == n)
  | .destroySecret slot => dropKept a slot (fun _ => true)
  | .use slot n =>
    if own then archTake a (keysFace (archKeys a) slot n (fun f => { f with uses := f.uses + 1 }))
    else { a with uses := tput a.uses (2 * slot + n) (partnerAdd false (tgetD a.uses (2 * slot + n) 0)) }
  | .mark (.invocation slot n) =>
    if own then a else { a with invs := tput a.invs (2 * slot + n) (tgetD a.invs (2 * slot + n) 1 + 1) }
  | .mark (.use slot n) =>
    if own then a else { a with uses := tput a.uses (2 * slot + n) (partnerAdd true (tgetD a.uses (2 * slot + n) 0)) }
  | .mark (.epoch n) => if own then modKept a n d (fun x => { x with epochMark := x.epochMark + 1 }) else a
  | .mark .proof => a
  | .mark (.witness _) => a
  | .create _ _ => a
  | .grant _ _ _ => a
  | .restrict _ _ _ _ _ _ _ => a
  | .share _ _ _ => a
  | .alcoveReset _ => a
  | .root _ _ _ _ _ => a
  | .custodians _ _ _ _ => a
  | .gapAck _ => a
  | .instNext _ => a

/-- One record replayed over an image, by the side that holds it. -/
def replayRec (side now : Nat) (a : Archive) (r : JournalRec) : Archive :=
  let k := storeBody now r.domain (archKeys a) r.body
  let k := match r.body with
    | .mark m => if r.side = side then storeMark k m else k
    | _ => k
  let k := keysDom k r.domain (fun x => { x with seqNo := r.seq + 1 })
  { keepBody (r.side == side) r.domain (archTake a k) r.body with last := tput a.last r.domain r.seq }

/-! ### Journal records (R199, R255) -/

/-- `TYPE` of a record; the codes above 10 are the model's, for kinds that R199 does not list (log 14). -/
def recordType : MutKind → Nat
  | .create => 1
  | .destroyFace => 2
  | .destroySecret => 3
  | .restrict => 4
  | .share => 5
  | .invMark => 6
  | .useMark => 7
  | .use => 8
  | .quota => 9
  | .alcoveReset => 10
  | .root => 11
  | .custodians => 12
  | .proofSecret => 13
  | .clientKeys => 14
  | .alcoveSettings => 15
  | .witnessMark => 16
  | .proofMark => 17
  | .epochMark => 18
  | .gapAck => 19
  | .instNumber => 20
  | .alcovesLoad => 21
  | .handleMap => 22

/-- The bytes of a record under its domain's archive key: header, encrypted body and tag. -/
def recordBytes (key : Bytes) (r : JournalRec) : Bytes :=
  let body := Config.fixLen (recordSize r.body - 32) (Config.recordBody r.body)
  let nonce := Config.fixLen 12 (Config.recordNonce r.domain r.seq)
  let head := be 8 r.seq ++ be 2 r.domain ++ be 1 (recordType r.kind) ++ [0] ++ be 2 body.length ++ zeros 2
  let ct := Config.gcmCrypt key nonce body
  head ++ ct ++ Config.gcmTag key nonce head ct

/-- Whether the tag of a record holds under a key. -/
def recordOpens (key b : Bytes) : Bool :=
  let n := fld b 12 2
  let nonce := Config.fixLen 12 (Config.recordNonce (fld b 8 2) (fld b 0 8))
  Config.gcmTag key nonce (b.take 16) (slice b 16 n) == slice b (16 + n) 16

/-- The snapshot partition marked current (R203). -/
def currentSnap (k : Keys) : Archive := if k.current = 0 then k.snap0 else k.snap1

/-- The vector under which journal records are sealed: that of the current snapshot, and before the first one the running
vector (R255; DESIGN CHOICE, log 37). -/
def journalVector (s : State) : List Nat :=
  if (currentSnap s.keys).valid then (currentSnap s.keys).vector else runVector s

/-- Bytes of a run of records. -/
def recordsLen (l : List ArchRec) : Nat := sumNat (l.map (fun r => recordSize r.body.body))

/-- Bytes of the pending journal (R200). -/
def journalBytes (s : State) : Nat := recordsLen s.keys.journal

/-- Whether the pair can take a record, and the pending journal `n` bytes more (R196, R200) (DEDUCED, log 36). -/
def journalTakes (s : State) (n : Nat) : Bool :=
  (s.twin.state != .joined || s.twin.link == 3) && decide (journalBytes s + n ≤ 65536)

/-- A record enters the pending journal, sealed, and is part of what the journal has committed. -/
def journalAdd (s : State) (r : JournalRec) : State :=
  let v := journalVector s
  modKeys s (fun k => { k with
    journal := k.journal ++ [{ body := r, vector := v, bytes := recordBytes (archiveKey s r.domain v) r }]
    archive := replayRec s.twin.side s.time k.archive r })

/-- The record of a body takes the next commit sequence number of its domain and goes to the journal and to the twin
(R195, R196). -/
def sequence (s : State) (d : Nat) (kind : MutKind) (side : Nat) (origin : Option (Nat × Nat × Nat)) (body : MutBody) :
    JournalRec × State :=
  let r : JournalRec := { seq := (domD s d).seqNo, domain := d, kind := kind, side := side, origin := origin, body := body }
  let s := if twinned s then emit s (.journalMirror r) else s
  (r, journalAdd (setDom s d (fun x => { x with seqNo := x.seqNo + 1 })) r)

/-- Whether a domain's sequencer runs on this side (R552): always without a partner. -/
def seqHere (s : State) (d : Nat) : Bool := s.twin.state != .joined || (domD s d).sequencer == s.twin.side

/-- A record that belongs to no command is sequenced here, or forwarded to the side that sequences the domain (R552). -/
def recordAlone (s : State) (d : Nat) (body : MutBody) : State :=
  if seqHere s d then (sequence s d (mutKind body) s.twin.side none body).2
  else
    emit s (.forwardMutation
      { seq := 0, domain := d, kind := mutKind body, side := s.twin.side, origin := none, body := body } (domD s d).epoch)

/-! ### Snapshots (R203, R255 to R257) -/

/-- The tag that seals a domain's part of a snapshot whose last number of the domain is `last`. The spec lays out no
snapshot; the tag stands for the seal of its content (log 37). -/
def sealTag (key : Bytes) (d last : Nat) : Bytes :=
  Config.gcmTag key (Config.fixLen 12 (Config.recordNonce d 0)) (be 2 d ++ be 8 last) []

/-- An image as a snapshot under the running vector. -/
def sealSnap (s : State) (a : Archive) : Archive :=
  let v := runVector s
  { a with
    vector := v, valid := true
    seals := (tput a.domains 0 (domainReset 0)).map (fun e => (e.1, sealTag (archiveKey s e.1 v) e.1 (tgetD a.last e.1 0))) }

/-- A snapshot begins: it writes the store as committed now. -/
def beginSnap (s : State) : State :=
  if s.keys.snapping.isSome then s else modKeys s (fun k => { k with snapping := some k.archive })

/-- Whether the Stair gives the keys of the current snapshot: no element of its vector exceeds the running one (R256). -/
def vectorServes (s : State) : Bool :=
  (currentSnap s.keys).valid = false || vectorOk s (currentSnap s.keys).vector

/-- Whether the current snapshot opens: the Stair gives its keys and the seals of its domains hold (R255, R256, R514).
Partitions that hold no snapshot open as an empty store, over which the journal is replayed (DESIGN CHOICE, log 37). -/
def archiveOpens (s : State) : Bool :=
  let a := currentSnap s.keys
  !a.valid || (vectorServes s
    && a.seals.all (fun e => e.2 == sealTag (archiveKey s e.1 a.vector) e.1 (tgetD a.last e.1 0)))

/-- Whether a record is the first of a domain (R195). -/
def isRoot (b : MutBody) : Bool :=
  match b with
  | .root _ _ _ _ _ => true
  | _ => false

/-- Replay records in order over an image; a record whose tag fails ends the replay of its domain (R204). `ended` are those
domains. -/
def replayAll (s : State) (torn : List (Nat × Nat)) : List ArchRec → List Nat → Archive → Archive
  | [], _, a => a
  | r :: l, ended, a =>
    let d := r.body.domain
    if ended.contains d then replayAll s torn l ended a
    else if torn.contains (d, r.body.seq) ∨ vectorOk s r.vector = false
        ∨ recordOpens (archiveKey s d r.vector) r.bytes = false then replayAll s torn l (d :: ended) a
    else if r.body.seq ≤ tgetD a.last d 0 ∧ isRoot r.body.body = false then replayAll s torn l ended a
    else replayAll s torn l ended (replayRec s.twin.side s.time a r.body)

/-- What a start reads: the current snapshot with the journal replayed over it (R204). -/
def readArchive (s : State) (torn : List (Nat × Nat)) : Archive :=
  let base := if (currentSnap s.keys).valid then currentSnap s.keys else archiveReset
  replayAll s torn (if s.keys.oldJournal.isEmpty then s.keys.archJournal else s.keys.oldJournal) [] base

/-- Whether the archive holds a domain that this start has not loaded (R454, R528). -/
def unopened (s : State) (d : Nat) : Bool :=
  thas s.keys.archive.domains d && !((dom s d).map (fun x => x.opened)).getD false

/-- The pending journal is written to the Archive (R201, R636). A start that has not read its archive and one whose
secrets have been erased leave it as it is. -/
def persist (s : State) : State :=
  if s.boot.step < 9 ∨ s.tamper.erased then s
  else modKeys s (fun k => { k with archJournal := k.archJournal ++ k.journal, journal := [] })

/-! ### The continuity record (R665) -/

/-- The bytes of a copy. -/
def contBytes (c : ContCopy) : Bytes :=
  let b := be 4 0x57434F4E ++ [1] ++ zeros 3 ++ be 4 c.seq ++ be 4 c.inst ++ be 8 c.proof
    ++ (List.range 257).flatMap (fun d => be 8 (tgetD c.wit d 0)) ++ (List.range 1024).flatMap (fun a => be 8 (tgetD c.epoch a 0))
    ++ zeros 6108
  b ++ be 4 (crc32 b).toNat

/-- Which copy was written last: the one whose `CHECK` holds and whose `SEQ` is higher; none when neither holds. -/
def contLast (k : Keys) : Option Nat :=
  if k.cont0.holds ∧ (k.cont1.holds = false ∨ k.cont1.seq ≤ k.cont0.seq) then some 0
  else if k.cont1.holds then some 1
  else none

/-- The copy that a reader takes. -/
def contNow (k : Keys) : Option ContCopy := (contLast k).map (fun n => if n = 0 then k.cont0 else k.cont1)

/-- The floors in force. -/
def floors (k : Keys) : ContCopy := (contNow k).getD (contReset false 0)

/-- Write new floors into the copy not last written, with `SEQ` raised by one; a record neither of whose copies holds is
not written before the next move to `RETURN`. -/
def contWrite (k : Keys) (f : ContCopy → ContCopy) : Keys :=
  match contLast k with
  | none => k
  | some n =>
    let c := f (floors k)
    let c := { c with holds := true, seq := (floors k).seq + 1 }
    if n = 0 then { k with cont1 := c } else { k with cont0 := c }

/-- The value at which a counter resumes: its committed mark, or a floor above it (R665). -/
def resumeAt (mark floor : Nat) : Nat := max (mark * 2 ^ 20) floor

/-- A mark of this side rises by one, and the floor of a counter that has one with it (R665). -/
def liftMark (s : State) (m : MarkRef) : State :=
  let s := modKeys s (fun k => storeMark k m)
  match m with
  | .invocation _ _ => s
  | .use _ _ => s
  | .proof => modKeys s (fun k => contWrite k (fun c => { c with proof := max c.proof (k.proofMark * 2 ^ 20) }))
  | .witness d =>
    let n := (domD s d).witMark * 2 ^ 20
    modKeys s (fun k => contWrite k (fun c => { c with wit := tput c.wit d (max (tgetD c.wit d 0) n) }))
  | .epoch a =>
    let s := modAlc s a (fun x => { x with epochMark := x.epochMark + 1 })
    let n := (((alc s a).map (fun x => x.epochMark)).getD 0) * 2 ^ 20
    modKeys s (fun k => contWrite k (fun c => { c with epoch := tput c.epoch a (max (tgetD c.epoch a 0) n) }))

/-- A new record at the move to `RETURN`, when neither copy holds. -/
def contRenew (k : Keys) : Keys :=
  if (contNow k).isSome then k else { k with cont0 := contReset true 1, cont1 := contReset false 0 }

end Sys2Proof.Machine
end

