-- ==== Sys2Proof/Machine/Perf.lean ====
section
/-! DEFINITION. The performance reader (R610 to R623) and what a clock cycle counts. -/

namespace Sys2Proof.Machine

def modPerf (s : State) (f : Perf → Perf) : State := { s with perf := f s.perf }

/-- Events of a counting block (R610). -/
def blockEvents (b : Nat) : List Nat :=
  if b = 0 then [0x08, 0x09]
  else if b ≤ 4 then [0x10, 0x11, 0x12, 0x13, 0x14, 0x15, 0x16]
  else if b ≤ 10 then [0x10, 0x11, 0x12, 0x13, 0x14, 0x15, 0x16, 0x17, 0x18, 0x19]
  else if b = 11 then [0x10, 0x11, 0x12, 0x13, 0x14, 0x15]
  else if b = 12 then [0x10, 0x11, 0x12, 0x13, 0x15]
  else if b = 13 then [0x20, 0x21, 0x22, 0x23]
  else if b ≤ 15 then [0x30, 0x31, 0x32, 0x33, 0x34, 0x35, 0x36]
  else if b = 16 then [0x40, 0x41, 0x42, 0x43]
  else if b = 17 then [0x48, 0x49, 0x4A, 0x4B]
  else if b = 18 then [0x50, 0x51, 0x52, 0x53, 0x54]
  else if b = 19 then [0x58, 0x59, 0x5A]
  else if b = 20 then [0x60, 0x61, 0x62, 0x63, 0x64]
  else if b = 21 then [0x68, 0x69, 0x6A]
  else if b = 22 then [0x70, 0x71, 0x72]
  else if b = 23 then [0x78, 0x79, 0x7A]
  else []

/-- Whether a block has an event; every block has 0x00 and 0x01. -/
def hasEvent (b e : Nat) : Bool := decide (e ≤ 1) || (blockEvents b).contains e

/-- Whether a select may be written (R611). -/
def selectOk (k : Nat) (v : Word) : Bool :=
  hasEvent (k / 8) (bitsOf v.toNat 7 0) && (!bitOf v.toNat 24 || isOcc (k / 8) (bitsOf v.toNat 7 0))

/-! ### What a cycle counts -/

/-- Clock of a counting block as a fraction of 1 GHz (R610; 01, Clock domains). -/
def blockClock (b : Nat) : Nat × Nat :=
  if 5 ≤ b ∧ b ≤ 10 then (6, 5)
  else if b = 14 ∨ b = 15 then (17, 20)
  else if b = 19 ∨ b = 20 then (1, 1)
  else if b = 21 then (8, 5)
  else if b = 22 then (25, 32)
  else (3, 2)

/-- Cycles of a block's clock in the nanosecond that begins at `t`. -/
def cyclesAt (b t : Nat) : Nat :=
  let c := blockClock b
  (t + 1) * c.1 / c.2 - t * c.1 / c.2

/-- Occupancy of a block (R610). Blocks within the pipes of a bay follow a timing that the model leaves
out: a free value of at most 54 a pipe while the bay holds operations. -/
def occupancy (s : State) (b : Nat) : Nat :=
  if 1 ≤ b ∧ b ≤ 4 then
    sumNat ([2 * (b - 1), 2 * (b - 1) + 1].map (fun u =>
      if (opsOn s .cipher u).isEmpty then 0 else Config.freeNat (s.fresh + u) % 55))
  else if b ≤ 10 then tcount s.pk.cores (fun i c => i / 8 == b - 5 && c.busy)
  else if b = 11 then tcount s.cipher.ops (fun _ o => o.wing == .hash)
  else if b = 13 then pinned s.keys
  else if b = 14 then sumNat (tvals s.net.portA.recvUsed) / 1024
  else if b = 15 then sumNat (tvals s.net.portB.recvUsed) / 1024
  else if b = 16 then
    sumNat (s.net.sessions.map (fun e => tcount e.2.entries (fun _ x =>
      match x with | .assembling _ => true | _ => false)))
  else if b = 18 then tcount s.net.work (fun _ k => k.stage == .ready)
  else if b = 23 then
    sumNat (s.net.alcoves.map (fun e => tcount e.2.contexts (fun _ c => c.present && !c.spilled)))
  else 0

/-- What counter `k` adds in `n` cycles of its clock (R611). -/
def tickAdd (s : State) (k n : Nat) : Nat :=
  let v := (tgetD s.perf.sel k 0).toNat
  let e := bitsOf v 7 0
  if e = 1 then n
  else if (k / 8 = 14 ∨ k / 8 = 15) ∧ e = 0x34 then
    (if (portOf s (k / 8 - 14)).paused.any (fun q => decide (s.time < q.2)) then n else 0)
  else if isOcc (k / 8) e then
    (if bitOf v 24 then (if bitsOf v 23 8 < occupancy s (k / 8) then n else 0)
     else n * occupancy s (k / 8))
  else 0

/-- Every selected counter counts one nanosecond. -/
def perfTick (s : State) : State :=
  let counts := s.perf.sel.foldl (fun t e =>
    let n := tickAdd s e.1 (cyclesAt (e.1 / 8) s.time)
    if n = 0 then t else tput t e.1 ((tgetD t e.1 0 + n) % 2 ^ 48)) s.perf.counts
  let s := modPerf s (fun p => { p with counts := counts })
  if s.cipher.ops.isEmpty then s else useFree s 8

/-! ### Snapshots (R615 to R620) -/

/-- The snapshot header (R617). -/
def snapHeader (s : State) (kind alcove gen : Nat) : Bytes :=
  let p := s.perf
  be 4 0x57504346 ++ [1, BitVec.ofNat 8 kind] ++ be 2 (b2n p.stepped + 2 * b2n p.changed + 4 * b2n p.gap)
    ++ be 8 p.snapSeq ++ be 8 s.time ++ be 4 p.interval ++ be 2 alcove ++ be 1 gen ++ [0]

/-- One counter entry. -/
def snapEntry (event mode value : Nat) : Bytes :=
  be 8 (event % 256 * 2 ^ 56 + mode % 2 * 2 ^ 55 + value % 2 ^ 48)

/-- Events that follow a timing which the model leaves out: starved slots, changes of key between slots, blocks
of the hash lanes and the legacy unit, corrected codewords and errors, requests served ahead, cycles without
credit. A snapshot shows a free value for them (DESIGN CHOICE, log 63). -/
def untimed (b e : Nat) : Bool :=
  (decide (1 ≤ b ∧ b ≤ 12) && (e == 0x12 || e == 0x13)) || (decide (1 ≤ b ∧ b ≤ 4) && e == 0x16)
    || (decide (b = 11 ∨ b = 12) && e == 0x15) || (decide (b = 14 ∨ b = 15) && e == 0x35) || (b == 19 && e == 0x5A)
    || (b == 21 && e == 0x6A) || (b == 22 && e == 0x72)

/-- What a snapshot shows of counter `k`. -/
def counterShown (s : State) (k : Nat) : Nat :=
  if untimed (k / 8) (bitsOf (tgetD s.perf.sel k 0).toNat 7 0) then Config.freeNat (s.fresh + 16 + k)
  else tgetD s.perf.counts k 0

/-- A device snapshot. -/
def deviceSnap (s : State) : Bytes :=
  snapHeader s 0 0xFFFF 0 ++ (List.range 192).flatMap (fun k =>
    let v := (tgetD s.perf.sel k 0).toNat
    snapEntry (bitsOf v 7 0) (bitsOf v 24 24) (counterShown s k))

/-- An alcove snapshot; the event code of its entries is not stated and is a free value (DESIGN CHOICE, log 64). -/
def alcoveSnap (s : State) (a : Nat) (x : Alcove) : Bytes :=
  snapHeader s 1 a x.gen ++ (List.range 16).flatMap (fun i =>
    snapEntry (Config.freeByte (s.fresh + i)).toNat 0 (tgetD x.counters i 0))

/-- Whether the reader is owned by the Outer Hall (R619). -/
def readerRuns (s : State) : Bool := handState s 20 == .owned && ownerOf s 20 == .outer

/-- A strobe: the latch, and then the commit of the shadowed selects and interval (R615, R616). -/
def strobe (s : State) : State :=
  let s := modPerf s (fun p => { p with snapSeq := p.snapSeq + p.missed + 1, missed := 0 })
  let snap := deviceSnap s
  let s := { s with net := { s.net with alcoves := tmap s.net.alcoves (fun a x =>
    { x with snaps := (alcoveSnap s a x :: x.snaps).take 8 }) } }
  let s := useFree s 208
  modPerf s (fun p =>
    { p with
      snaps := ((p.snapSeq, snap) :: p.snaps).take 64
      interval := p.intNext
      sel := p.selNext.foldl (fun t e => if e.2 = 0 then tdel t e.1 else tput t e.1 e.2) p.sel
      counts := p.selNext.foldl (fun t e => tdel t e.1) p.counts
      changed := !p.selNext.isEmpty, selNext := [], stepped := false, gap := false, lastAt := s.time })

/-- The reset of the reader in a hand-over (R612, R619): the snapshots lie in the mezzanine. -/
def perfHandReset (p : Perf) : Perf :=
  { perfReset with snapSeq := p.snapSeq, snaps := p.snaps, gap := p.gap, missed := p.missed, lastAt := p.lastAt }

/-! ### Registers (R623) -/

/-- A source of `PR_ERR` fires or is forced. -/
def prFire (s : State) (i : Nat) : State :=
  let s := modPerf s (fun p => { p with err := setBit p.err i })
  if i = 0 then pulse s 37 .note
  else if i = 1 then pulse (modPerf s (fun p => { p with snaps := p.snaps.drop 1 })) 37 .recover
  else pulse (modPerf s (fun p => { p with gap := true })) 37 .note

def prForce (s : State) (v : Word) : State := wrOk ((setBits 3 v.toNat).foldl prFire s)

def prRead (s : State) (off : Nat) : Option Word :=
  let p := s.perf
  if off = 0x008 then some (w32 p.intNext)
  else if off = 0x020 then some (w32 p.err.toNat)
  else if off = 0x024 then some 0
  else if off % 4 = 0 ∧ 0x1000 ≤ off ∧ off ≤ 0x12FC then
    (let k := (off - 0x1000) / 4
     some (match tget p.selNext k with
       | some v => v
       | none => tgetD p.sel k 0))
  else none

/-- A write of a select (R611, R616). -/
def prSelect (s : State) (k : Nat) (v : Word) : State :=
  let v := v &&& 0x01FFFFFF
  if selectOk k v then wrOk (modPerf s (fun p => { p with selNext := tput p.selNext k v })) else busErr s

def prWrite (s : State) (off : Nat) (v : Word) : Option State :=
  if off = 0x008 then
    (let us := bitsOf v.toNat 19 0
     some (if us = 0 ∨ 1000000 < us then busErr s else wrOk (modPerf s (fun p => { p with intNext := us }))))
  else if off = 0x020 then some (wrOk (modPerf s (fun p => { p with err := w1c p.err v.toNat })))
  else if off = 0x024 then some (prForce s v)
  else if off % 4 = 0 ∧ 0x1000 ≤ off ∧ off ≤ 0x12FC then some (prSelect s ((off - 0x1000) / 4) v)
  else none

/-! ### The commands -/

/-- `SNAPSHOT_STROBE` (R615, R619): device time has crossed a multiple of the interval. -/
def execSnapshotStrobe (s : State) : Out :=
  .next (
    let i := s.perf.interval * 1000
    if s.time / i = s.perf.lastAt / i ∧ s.perf.stepped = false then s
    else if readerRuns s then strobe s
    else modPerf s (fun p => { p with missed := p.missed + 1, gap := true, lastAt := s.time }))

/-- `PR_ERR_FORCE` (R623). -/
def execPrErrForce (master : Nat) (value : Word) (s : State) : Out :=
  .next (writeAs s master 0x90024 (fun s => prForce s value))

end Sys2Proof.Machine
end

