-- ==== Sys2Proof/Machine/Tamper.lean ====
section
/-! DEFINITION. The tamper controller (R428 to R456): arming, alarms and responses, erasure powered and on
the backup cell, the evidence counter, the watch gap, the built-in tests and the registers. -/

namespace Sys2Proof.Machine

def modTamp (s : State) (f : Tamper → Tamper) : State := { s with tamper := f s.tamper }

/-- Arming while powered: 0 off, 1 record only, 2 full (R428). -/
def armOf (l : Life) : Nat :=
  match l with
  | .blank => 1
  | .vendor => 1
  | .transit => 2
  | .commissioned => 2
  | .inService => 2
  | .return => 2
  | .scrapped => 0

/-- The life-cycle state by which the tamper controller arms: as in `IN_SERVICE` after a failed vote
(R461). -/
def tampLife (s : State) : Life := if s.life.voteFail then .inService else s.life.life

/-- Whether the watch runs on the backup cell (R428). -/
def watchOn (l : Life) : Bool := armOf l == 2

/-- Whether a response counts as evidence (R428). -/
def counted (l : Life) : Bool := l == .transit || l == .commissioned || l == .inService

/-! ### The battery-backed bits -/

/-- `BB_CHECK` over bits [479:0], highest byte first (R29). -/
def bbCrc (b : Battery) : BitVec 32 :=
  crc32 ([0] ++ be 1 b.gap.toNat ++ be 2 b.pending.toNat ++ b.head ++ b.secret)

/-- A change to bits [479:0] starts or restarts the rewrite of the check (R449). -/
def bbChange (s : State) (f : Battery → Battery) : State := { s with bb := { f s.bb with busy := true } }

/-- The rewrite of the check ends (R449). -/
def bbRewrite (b : Battery) : Battery := { b with check := bbCrc b, busy := false }

/-- One `BB_PENDING` flag, the lowest that is clear; `EVIDENCE_OVERFLOW` when none is (R450). -/
def bbFlag (b : Battery) : Battery × Option Nat :=
  match (List.range 16).find? (fun i => !b.pending.getLsbD i) with
  | some i => ({ b with pending := setBit b.pending i }, some i)
  | none => ({ b with gap := setBit b.gap 2 }, none)

/-- The evidence count (R451). -/
def evidence (s : State) : Nat := popCount 256 s.otp.evidence.toNat

/-- Burn one evidence bit of which `bad` clear bits do not read back: none after three failures (R451). -/
def burnEvidence (ev : BitVec 256) (bad : Nat) : Option (BitVec 256) :=
  if 3 ≤ bad then none
  else (((List.range 256).filter (fun i => !ev.getLsbD i))[bad]?).map (fun i => setBit ev i)

/-- `TAMP_ERR` sources by bit, with their class (R456). -/
def tampErr (s : State) (i : Nat) : State :=
  let s := modTamp s (fun t => { t with err := setBit t.err i })
  let s := if s.tamper.irq then raise s 89 else s
  pulse s 2 (if i = 2 ∨ i = 4 then .degrade else .safe)

/-- Commit one pending flag (R451): cleared with a burn, or without one at 256; after three failed bits it
stays and `OTP_BURN` is set. -/
def commitFlag (s : State) (i bad : Nat) : State :=
  if evidence s = 256 then { s with bb := { s.bb with pending := clrBit s.bb.pending i } }
  else
    match burnEvidence s.otp.evidence bad with
    | some ev =>
      { s with otp := { s.otp with evidence := ev }
               bb := { s.bb with pending := clrBit s.bb.pending i } }
    | none => tampErr s 4

/-! ### Erasure -/

/-- The volatile stores that an `ERASE` response clears (R444), and a user wipe too (R464): the erase
secret, the Stair registers, the random-number states, the units, the operand memories and the park
store, the Inner side of the logic die and the Inner side of the mezzanine. -/
def clearVolatile (s : State) : State :=
  { s with
    bb := { s.bb with secret := zeros 32 }
    stair := { stairReset with idPub := s.stair.idPub, ledPub := s.stair.ledPub, idCert := s.stair.idCert
                               ledCert := s.stair.ledCert }
    rng := { s.rng with inst := [], buffer := 0, aon := { s.rng.aon with spores := 0 } }
    cipher := { s.cipher with ops := [] }
    pk := { s.pk with
      jobs := [], queue := [], park := []
      cores := tmap s.pk.cores (fun _ c => { c with om := [], job := none, next := none, busy := false }) }
    keys := { s.keys with
      secrets := [], checks := [], freed := [], retired := [], taken := [], cache := [], pins := [], old := []
      journal := [], snapping := none, archive := archiveReset
      domains := tmap s.keys.domains (fun _ d =>
        { d with root := none, pending := [], tickets := [], witKey := [], domKey := [], archKey := []
                 opened := false, grantKey := [] }) }
    net := { s.net with
      alcoves := tmap s.net.alcoves (fun _ a =>
        { a with proof := none, contexts := [], alcoveKey := [], ctxKey := [] }) }
    halls := { s.halls with
      logicMem := Mem.zero s.halls.logicMem 0 (s.halls.logic.cur * 0x10000)
      mezzMem := Mem.zero s.halls.mezzMem 0 (s.halls.mezz.cur * 0x100000) } }

/-- End the test in progress when a response begins (R439). -/
def endTest (t : Tamper) : Tamper :=
  if t.bistOn then { t with bistOn := false, bistDone := true, bistPass := false, round := none } else t

/-- An `ERASE` response while powered, to the end of phase 2 (R444): the flag, the clears, `TAMPERED`. -/
def eraseNow (s : State) : State :=
  let fl := if counted (tampLife s) then bbFlag s.bb else (s.bb, none)
  let s := { s with bb := fl.1, tamper := { endTest s.tamper with erased := true, flag := fl.2 } }
  let s := clearVolatile s
  let s := { s with bb := { s.bb with busy := true }, tamper := { s.tamper with phase := 2 }
                    life := { s.life with dbg := 0, trans := none } }
  pulse s 2 .erase

/-- A `SAFE` response of an alarm (R441, R443). -/
def safeNow (s : State) : State :=
  pulse { s with tamper := { endTest s.tamper with safed := true } } 2 .safe

/-- An alarm on the backup cell alone (R448): the secret is cleared, one flag is set and the check is
rewritten. -/
def cellErase (s : State) : State :=
  let s := { s with bb := { s.bb with secret := zeros 32 }, tamper := { s.tamper with erased := true } }
  bbChange s (fun b => if counted (tampLife s) then (bbFlag b).1 else b)

/-- Set a cause bit. -/
def tampCause (s : State) (i : Nat) : State := modTamp s (fun t => { t with cause := setBit t.cause i })

/-- An alarm with a cause bit and a response (R428, R441 to R443, R447, R448). -/
def alarm (s : State) (cause : Nat) (erase : Bool) : State :=
  if s.power.powered then
    if armOf (tampLife s) = 0 then s
    else
      let s := tampCause s cause
      if armOf (tampLife s) = 1 ∨ s.tamper.erased then s
      else if erase then eraseNow s
      else if s.tamper.safed then s
      else safeNow s
  else if watchOn (tampLife s) then
    let s := tampCause s cause
    if s.tamper.erased then s else cellErase s
  else s

/-! ### Soft monitors -/

/-- Sample period in ns, loosest K and smallest W in µs of a soft monitor (R433). -/
def monLimits (n : Nat) : Nat × Nat × Nat :=
  if n = 2 then (1000, 4, 3)
  else if n = 3 then (100, 8, 1)
  else if n = 4 then (10000, 16, 200)
  else if n = 5 then (1000, 4, 3)
  else if n = 6 then (10, 8, 1)
  else (10, 2, 1)

def monResp (w : Word) : Nat := bitsOf w.toNat 31 30
def monK (w : Word) : Nat := bitsOf w.toNat 28 24
def monW (w : Word) : Nat := bitsOf w.toNat 19 0

/-- Whether a setting may commit (R435). -/
def monOk (n : Nat) (w : Word) : Bool :=
  let l := monLimits n
  (monResp w == 1 || monResp w == 2) && decide (1 ≤ monK w) && decide (monK w ≤ l.2.1)
    && decide (l.2.2 ≤ monW w) && decide (monW w ≤ 1000000)
    && decide ((monK w - 1) * l.1 ≤ monW w * 1000)

/-- Whether the last K events lie within W at the resolution of the RC oscillator (R434) (DEDUCED, log 91). -/
def monFires (m : Monitor) : Bool :=
  match m.stamps, m.stamps[monK m.set - 1]? with
  | t :: _, some u => decide (t / 250 * 250 - u / 250 * 250 ≤ monW m.set * 1000)
  | _, _ => false

/-- One event of a soft monitor: counted unless its instance is under test or the same sample has been
counted (R434, R437), and an alarm when the count is reached. -/
def softEvent (s : State) (n inst : Nat) : State :=
  match tget s.tamper.mons n with
  | none => s
  | some m =>
    let period := (monLimits n).1
    let same : Bool := match m.stamps with
      | t :: _ => t / period == s.time / period
      | [] => false
    if s.power.powered = false ∨ armOf (tampLife s) = 0 ∨ same
        ∨ (s.tamper.bistOn ∧ s.tamper.bistMon = n ∧ s.tamper.bistInst = inst) then s
    else
      let m := { m with stamps := (s.time :: m.stamps).take 16 }
      let s := modTamp s (fun t => { t with mons := tput t.mons n m })
      if monFires m then alarm s (n + 1) (monResp m.set == 2) else s

/-- `TAMP_CTRL.APPLY` (R435). -/
def tampApply (s : State) : State :=
  if s.tamper.mons.all (fun e => monOk e.1 e.2.shadow) then
    wrOk (modTamp s (fun t => { t with mons := tmap t.mons (fun _ m => { m with set := m.shadow }) }))
  else busErr s

/-! ### Built-in test -/

/-- Begin a test of one instance (R437). -/
def testBegin (now : Nat) (t : Tamper) (mon inst : Nat) : Tamper :=
  { t with bistOn := true, bistMon := mon, bistInst := inst, bistDone := false, bistPass := false
           bistAt := now }

/-- A write of `TAMP_BIST` (R437, R439). -/
def tampBist (s : State) (v : Word) : State :=
  let mon := bitsOf v.toNat 3 0
  let inst := bitsOf v.toNat 8 8
  if bitOf v.toNat 12 then
    if s.tamper.bistOn ∨ 9 ≤ mon then busErr s
    else wrOk (modTamp s (fun t => testBegin s.time { t with selMon := mon, selInst := inst } mon inst))
  else wrOk (modTamp s (fun t => { t with selMon := mon, selInst := inst }))

/-- Mark an instance as failed (R440). -/
def markFail (s : State) (mon inst : Nat) : State :=
  let s := tampErr (modTamp s (fun t => { t with instFail := setBit t.instFail (2 * mon + inst) })) 2
  if s.tamper.instFail.getLsbD (2 * mon) ∧ s.tamper.instFail.getLsbD (2 * mon + 1) then tampErr s 3
  else s

/-- The next test of a round of the Inner runtime (R440). -/
def nextTest (s : State) : State :=
  match s.tamper.round with
  | none => s
  | some k =>
    if s.tamper.bistOn then s
    else if 18 ≤ k then modTamp s (fun t => { t with round := none })
    else modTamp s (fun t => testBegin s.time { t with round := some (k + 1) } (k / 2) (k % 2))

/-! ### Registers -/

/-- The alarm of a cause bit, with the response that its monitor is set to; the mesh and light alarms erase. -/
def causeAlarm (s : State) (i : Nat) : State :=
  alarm s i (if 3 ≤ i then ((tget s.tamper.mons (i - 1)).map (fun m => monResp m.set == 2)).getD true else true)

def tampAlarmForce (s : State) (v : Word) : State :=
  if s.life.life = .vendor ∨ s.life.life = .return then
    wrOk ((setBits 9 v.toNat).foldl (fun s i => causeAlarm (tampCause s 9) i) s)
  else busErr s

def tampForce (s : State) (v : Word) : State := wrOk ((setBits 5 v.toNat).foldl tampErr s)

/-- `TAMP_STATUS` (R456). -/
def tampStatus (s : State) : Word :=
  pack [(armOf (tampLife s), 0), (s.tamper.phase, 4), (b2n s.tamper.bistOn, 8), (b2n s.tamper.cellExt, 11),
    (b2n s.tamper.cellLow, 12), (evidence s, 16)]

def tampRead (s : State) (off : Nat) : Option Word :=
  let t := s.tamper
  if off = 0x000 then some (pack [(b2n t.irq, 0)])
  else if off = 0x004 then some (tampStatus s)
  else if off = 0x008 then some (w32 t.cause.toNat)
  else if off = 0x020 then some (w32 t.err.toNat)
  else if off = 0x024 ∨ off = 0x028 then some 0
  else if off % 4 = 0 ∧ 0x048 ≤ off ∧ off ≤ 0x05C then (tget t.mons ((off - 0x040) / 4)).map (fun m => m.shadow)
  else if off = 0x100 then some (pack [(t.selMon, 0), (t.selInst, 8)])
  else if off = 0x104 then some (pack [(t.instFail.toNat, 0), (b2n t.bistPass, 30), (b2n t.bistDone, 31)])
  else if off = 0x180 then
    some (pack [(b2n s.bb.busy, 0), (s.bb.gap.toNat, 8), (s.bb.pending.toNat, 16)])
  else none

/-- A write of `TAMP_CTRL`. -/
def tampCtrl (s : State) (v : Word) : State :=
  let s := modTamp s (fun t => { t with irq := bitOf v.toNat 0 })
  if bitOf v.toNat 1 then tampApply s else wrOk s

def tampWrite (s : State) (off : Nat) (v : Word) : Option State :=
  let n := v.toNat
  if off = 0x000 then some (tampCtrl s v)
  else if off = 0x004 ∨ off = 0x104 ∨ off = 0x180 then some (wrOk s)
  else if off = 0x008 then some (wrOk (modTamp s (fun t => { t with cause := w1c t.cause n })))
  else if off = 0x020 then some (wrOk (modTamp s (fun t => { t with err := w1c t.err n })))
  else if off = 0x024 then some (tampForce s v)
  else if off = 0x028 then some (tampAlarmForce s v)
  else if off % 4 = 0 ∧ 0x048 ≤ off ∧ off ≤ 0x05C then
    some (wrOk (modTamp s (fun t => { t with mons := tmod t.mons ((off - 0x040) / 4) (fun m =>
      { m with shadow := v &&& 0xDF0FFFFF }) })))
  else if off = 0x100 then some (tampBist s v)
  else none

/-! ### The commands -/

/-- `LICHEN_TRACE_FAIL` (R429): an alarm on the cause bit of the layer, 1 or 2 (DEDUCED, log 76). -/
def execLichenTraceFail (layer : Nat) (s : State) : Out :=
  .next (if layer = 1 then alarm s 0 true else if layer = 2 then alarm s 1 true else s)

/-- `LIGHT_ALARM` (R431). -/
def execLightAlarm (s : State) : Out := .next (alarm s 2 true)

/-- `SOFT_MONITOR_EVENT` (R434). -/
def execSoftMonitorEvent (monitor inst : Nat) (s : State) : Out := .next (softEvent s monitor inst)

/-- `CELL_TEMP_SAMPLE` (R447): on the cell alone, two consecutive samples out of range are an alarm. -/
def execCellTempSample (outOfRange : Bool) (s : State) : Out :=
  .next (if s.power.powered ∨ watchOn (tampLife s) = false then s
    else if outOfRange = false then modTamp s (fun t => { t with tempOut := 0 })
    else
      let s := modTamp s (fun t => { t with tempOut := t.tempOut + 1 })
      if 2 ≤ s.tamper.tempOut then alarm s 5 true else s)

/-- `ERASE_COMPLETE` (R444, R451): the evidence bit is burnt, the flag cleared and the check rewritten. -/
def execEraseComplete (badBits : Nat) (s : State) : Out :=
  .next (if s.tamper.phase = 2 then
    let s := match s.tamper.flag with
      | some i => commitFlag s i badBits
      | none => s
    { s with bb := bbRewrite s.bb, tamper := { s.tamper with phase := 3, flag := none } }
  else s)

/-- `BB_CHECK_REWRITE_DONE` (R449). -/
def execBbCheckRewriteDone (s : State) : Out :=
  .next (if s.bb.busy then { s with bb := bbRewrite s.bb } else s)

/-- `TAMP_APPLY` (R435): `APPLY` written as 1, `ERR_IRQ_EN` as it stands. -/
def execTampApply (master : Nat) (s : State) : Out := .next (writeAs s master 0x60000 tampApply)

/-- `TAMP_BIST_START` (R437). -/
def execTampBistStart (master : Nat) (value : Word) (s : State) : Out :=
  .next (writeAs s master 0x60100 (fun s => tampBist s value))

/-- `TAMP_BIST_END` (R438, R440): the instance reported, or 1 ms has passed. -/
def execTampBistEnd (reported : Bool) (s : State) : Out :=
  .next (if s.tamper.bistOn = false then s
    else if reported = false ∧ s.time < s.tamper.bistAt + 1000000 then s
    else
      let mon := s.tamper.bistMon
      let inst := s.tamper.bistInst
      let s := modTamp s (fun t => { t with bistOn := false, bistDone := true, bistPass := reported })
      nextTest (if reported then s else markFail s mon inst))

/-- `TAMP_TEST_INTERVAL` (R440): the Inner runtime begins a round of tests of every instance. -/
def execTampTestInterval (s : State) : Out :=
  .next (if s.power.powered ∧ s.tamper.testedAt + s.tamper.interval * 10 ^ 9 ≤ s.time then
    nextTest (modTamp s (fun t => { t with testedAt := s.time, round := some 0 }))
  else s)

/-- `TAMP_ERR_FORCE` (R456). -/
def execTampErrForce (master : Nat) (value : Word) (s : State) : Out :=
  .next (writeAs s master 0x60024 (fun s => tampForce s value))

/-- `TAMP_ALARM_FORCE` (R456). -/
def execTampAlarmForce (master : Nat) (value : Word) (s : State) : Out :=
  .next (writeAs s master 0x60028 (fun s => tampAlarmForce s value))

/-- `CELL_LOW` (R453): the backup supply stands at `mv` mV. -/
def execCellLow (mv : Nat) (s : State) : Out :=
  .next (
    let s := { s with power := { s.power with cellMv := mv } }
    if s.power.powered then
      if mv < 2400 ∧ s.tamper.cellLow = false then
        pulse (modTamp s (fun t => { t with cellLow := true })) 2 .note
      else s
    else if mv < 2200 ∧ watchOn (tampLife s) ∧ s.bb.gap.getLsbD 0 = false then
      bbChange s (fun b => { b with gap := setBit b.gap 0 })
    else s)

/-- `CELL_LOW_CLEAR` (R453): the backup supply is at 2.4 V or above again. -/
def execCellLowClear (s : State) : Out :=
  .next (modTamp s (fun t => { t with cellLow := false }))

/-- `RETENTION_LATCH_CLEAR` (R29): the supply of the always-on domain has fallen below 1.8 V; the latch
clears and the bits are lost, which leaves free values in them. -/
def execRetentionLatchClear (s : State) : Out :=
  .next (
    let f := drawn s 64
    useFree { s with bb := { s.bb with
      latch := false, busy := false, secret := slice f 0 32, head := slice f 32 24
      gap := BitVec.ofNat 8 (fld f 56 1), pending := BitVec.ofNat 16 (fld f 57 2)
      check := BitVec.ofNat 32 (fld f 59 4) } } 64)

end Sys2Proof.Machine
end

