-- ==== Sys2Proof/Machine/Image.lean ====
section
/-! DEFINITION. The configuration image (R517 to R522, R549, R592, R622) and the firmware images (R515,
R516, R342, R343): their layouts, their checks and the values that their items give. -/

namespace Sys2Proof.Machine

/-! ### The head (R517) -/

/-- Length and digest of section `n` in the directory. -/
def dirLen (head : Bytes) (n : Nat) : Nat := fld head (64 + 80 * (n - 1) + 4) 4
def dirDigest (head : Bytes) (n : Nat) : Bytes := slice head (64 + 80 * (n - 1) + 16) 64

/-- Whether a directory entry is well formed. -/
def dirOk (head : Bytes) (n : Nat) : Bool :=
  let o := 64 + 80 * (n - 1)
  fld head o 1 == n && zeroAt head (o + 1) 3 && decide (dirLen head n ≤ 1040384) && zeroAt head (o + 8) 8

/-- Whether a head is well formed. -/
def headOk (head : Bytes) : Bool :=
  head.length == 768 && fld head 0 4 == 0x57434647 && fld head 4 1 == 1 && fld head 5 1 == 8
    && zeroAt head 6 2 && decide (1 ≤ fld head 8 4) && fld head 12 2 == 0x0800 && zeroAt head 14 2
    && ([1, 2, 3, 4, 5, 6, 7, 8] : List Nat).all (dirOk head)

def headSerial (head : Bytes) : Nat := fld head 8 4
def headOwner (head : Bytes) : Bytes := slice head 32 32

/-- Whether a head's signature verifies under a key. -/
def headSigned (head key : Bytes) : Bool :=
  Config.edVerify key (ascii "WCFG1" ++ head.take 704) (slice head 704 64)

/-- Whether a head serves this device. -/
def headHere (s : State) (head : Bytes) : Bool := zeroAt head 16 16 || slice head 16 16 == deviceKeyId s

/-- The body of a section in a slot. -/
def bodyOf (c : Config8) (n : Nat) : Bytes := (tget c.bodies n).getD []

/-- Whether a body matches its directory entry. -/
def bodyMatches (head : Bytes) (n : Nat) (b : Bytes) : Bool :=
  b.length == dirLen head n && Config.sha512 b == dirDigest head n

/-- Whether an owner key has the hash in OTP. -/
def ownerOk (s : State) (key : Bytes) : Bool := Config.sha512 key == s.otp.ownerHash

/-- Cut an image laid out as a slot holds it: the head and sections 1 to 7 at 64-byte boundaries
(R518). -/
def cutBodies (head : Bytes) : List Nat → Bytes → Tab Bytes
  | [], _ => []
  | n :: r, l => (n, l.take (dirLen head n)) :: cutBodies head r (l.drop (roundUp (dirLen head n) 64))
def cutImage (img : Bytes) : Config8 :=
  { head := img.take 768, bodies := cutBodies (img.take 768) [1, 2, 3, 4, 5, 6, 7] (img.drop 768) }

/-! ### Custodian records (R215) -/

/-- Whether a record of 1,252 bytes is laid out as R215 has it. -/
def custShape (r : Bytes) : Bool :=
  r.length == 1252 && decide (1 ≤ fld r 0 1 ∧ fld r 0 1 ≤ 16) && zeroAt r 1 3

/-- Whether the keys of a record pass their checks. -/
def custKeysOk (r : Bytes) : Bool :=
  Config.edPointOk (slice r 4 32) && !Config.edSmallOrder (slice r 4 32)
    && !Config.xSmallOrder (slice r 36 32) && Config.kemEkOk false (slice r 68 1184)

def custOf (r : Bytes) : Custodian :=
  { index := fld r 0 1, signKey := slice r 4 32, x25519 := slice r 36 32, ek := slice r 68 1184 }

/-- The `n` records of a list. -/
def custRecs (n : Nat) (l : Bytes) : List Bytes := (List.range n).map (fun i => slice l (1252 * i) 1252)

/-- Whether a set is within the limits of R217. -/
def custSetOk (m n window : Nat) (recs : List Bytes) : Bool :=
  decide (1 ≤ n ∧ n ≤ 16) && decide (1 ≤ m ∧ m ≤ n) && decide (60 ≤ window ∧ window ≤ 86400)
    && recs.all custShape && noDup (recs.map (fun r => fld r 0 1))

/-! ### Alcove items (R42, R43, R521) -/

/-- The settings of an `ALCOVE` value of 72 bytes. -/
def alcoveOf (v : Bytes) : AlcoveSettings :=
  let fl := fld v 14 1
  { alcove := fld v 0 2, domain := fld v 2 2, mac := fld v 4 6, vlan := fld v 10 2, udp := fld v 12 2
    ipv4 := if bitOf fl 0 then some (fld v 16 4) else none
    ipv6a := if bitOf fl 1 then some (fld v 20 16) else none
    ipv6b := if bitOf fl 2 then some (fld v 36 16) else none
    assemblyUs := fld v 52 2, modUs := fld v 54 2, idleS := fld v 56 2, modCount := fld v 58 1
    retention := fld v 60 4, share := fld v 64 2, poolShare := fld v 68 4 }

/-- Whether the identity of an alcove, bytes 4 to 51 of R521, is within its ranges. -/
def identOk (v : Bytes) : Bool :=
  !bitOf (fld v 0 1) 0 && decide (fld v 6 2 ≤ 4094) && decide (1024 ≤ fld v 8 2)
    && decide (fld v 10 1 ≤ 7) && zeroAt v 11 1

/-- Whether an `ALCOVE` value is within the ranges of R42, R78, R163, R167 and R521. -/
def alcoveOk (v : Bytes) : Bool :=
  let x := alcoveOf v
  v.length == 72 && decide (x.alcove ≤ 1023) && decide (x.domain ≤ 256) && identOk (slice v 4 48)
    && decide (10 ≤ x.assemblyUs ∧ x.assemblyUs ≤ 1000) && decide (x.modUs ≤ 1000)
    && decide (1 ≤ x.idleS ∧ x.idleS ≤ 3600) && decide (1 ≤ x.modCount) && zeroAt v 59 1
    && decide (16384 ≤ x.retention ∧ x.retention ≤ 2 ^ 22) && decide (1 ≤ x.share ∧ x.share ≤ 1000)
    && zeroAt v 66 2 && decide (65536 ≤ x.poolShare ∧ x.poolShare ≤ 2 ^ 24)
    && (x.alcove != 0 || (x.domain == 0 && x.share == 1000))

/-- The IP addresses of an alcove, told apart by family. -/
def ipsOf (x : AlcoveSettings) : List (Bool × Nat) :=
  (x.ipv4.map (fun i => (false, i))).toList ++ (x.ipv6a.map (fun i => (true, i))).toList
    ++ (x.ipv6b.map (fun i => (true, i))).toList

/-- Whether two alcoves collide under R43. -/
def collide (x y : AlcoveSettings) : Bool :=
  x.mac == y.mac || (x.vlan == y.vlan && x.udp == y.udp && (ipsOf x).any (fun i => (ipsOf y).contains i))

/-- Whether no two alcoves of a list collide. -/
def noCollide : List AlcoveSettings → Bool
  | [] => true
  | x :: r => r.all (fun y => !collide x y) && noCollide r

/-! ### Sections (R519, R520) -/

/-- At most `n` items of a tag. -/
def atMost (l : List (Nat × Bytes)) (tag n : Nat) : Bool := decide ((tagged l tag).length ≤ n)

def section1Ok (l : List (Nat × Bytes)) : Bool :=
  l.all (fun i =>
    (i.1 == 0x0101 && i.2.length == 2 && decide (fld i.2 0 1 ≤ 1) && decide (fld i.2 1 1 ≤ 2))
    || (i.1 == 0x0102 && i.2.length == 4 && decide (fld i.2 1 1 ≤ 1) && decide (fld i.2 2 1 ≤ 1) && zeroAt i.2 3 1)
    || (i.1 == 0x0103 && i.2.length == 1 && decide (fld i.2 0 1 ≤ 1))
    || (i.1 == 0x0104 && i.2.length == 2 && decide (1 ≤ fld i.2 0 2) && decide (fld i.2 0 2 ≤ 4094)))
  && atMost l 0x0101 2 && noDup ((tagged l 0x0101).map (fun v => fld v 0 1)) && atMost l 0x0102 1
  && atMost l 0x0103 1 && atMost l 0x0104 1

def section2Ok (l : List (Nat × Bytes)) : Bool :=
  let alcs := tagged l 0x0201
  let nums := alcs.map (fun v => fld v 0 2)
  let stew := tagged l 0x0203
  l.all (fun i =>
    (i.1 == 0x0201 && alcoveOk i.2)
    || (i.1 == 0x0202 && i.2.length == 32)
    || (i.1 == 0x0203 && i.2.length == 36 && zeroAt i.2 2 2 && nums.contains (fld i.2 0 2)))
  && nums.contains 0 && noDup nums && decide (1 ≤ (tagged l 0x0202).length) && atMost l 0x0202 8
  && nums.all (fun a => decide ((stew.filter (fun v => fld v 0 2 == a)).length ≤ 16))
  && noCollide (alcs.map alcoveOf)

/-- A `DOMAIN` value: domain, M, N, window, slot quota and N records. -/
def domainOk (v : Bytes) : Bool :=
  let n := fld v 3 1
  let recs := custRecs n (v.drop 12)
  v.length == 12 + 1252 * n && decide (fld v 0 2 ≤ 256) && custSetOk (fld v 2 1) n (fld v 4 4) recs
    && recs.all custKeysOk

def section3Ok (l : List (Nat × Bytes)) : Bool :=
  let nums := (tagged l 0x0301).map (fun v => fld v 0 2)
  l.all (fun i => i.1 == 0x0301 && domainOk i.2) && nums.contains 0 && noDup nums

def section4Ok (l : List (Nat × Bytes)) : Bool :=
  l.all (fun i =>
    (i.1 == 0x0401 && i.2.length == 2 && decide (100 ≤ fld i.2 0 2) && decide (fld i.2 0 2 ≤ 400))
    || (i.1 == 0x0402 && i.2.length == 2 && decide (fld i.2 0 1 ≤ 2) && decide (fld i.2 1 1 ≤ 2))
    || (i.1 == 0x0403 && i.2.length == 2 && decide (4 ≤ fld i.2 0 1) && decide (4 ≤ fld i.2 1 1)
        && decide (fld i.2 0 1 + fld i.2 1 1 ≤ 56)))
  && atMost l 0x0401 1 && atMost l 0x0402 1 && atMost l 0x0403 1

/-- The register word of a `MONITOR` item. -/
def monWord (v : Bytes) : Word := pack [(fld v 4 4, 0), (fld v 2 1, 24), (fld v 1 1, 30)]

def section5Ok (l : List (Nat × Bytes)) : Bool :=
  l.all (fun i =>
    (i.1 == 0x0501 && i.2.length == 8 && decide (2 ≤ fld i.2 0 1 ∧ fld i.2 0 1 ≤ 7)
        && decide (1 ≤ fld i.2 1 1 ∧ fld i.2 1 1 ≤ 2) && decide (1 ≤ fld i.2 2 1 ∧ fld i.2 2 1 ≤ 16)
        && zeroAt i.2 3 1 && decide (1 ≤ fld i.2 4 4 ∧ fld i.2 4 4 ≤ 1000000) && monOk (fld i.2 0 1) (monWord i.2))
    || (i.1 == 0x0502 && i.2.length == 4 && decide (1 ≤ fld i.2 0 4) && decide (fld i.2 0 4 ≤ 3600))
    || (i.1 == 0x0503 && i.2.length == 2 && decide (fld i.2 0 2 ≤ 3600)))
  && atMost l 0x0501 6 && noDup ((tagged l 0x0501).map (fun v => fld v 0 1)) && atMost l 0x0502 1
  && atMost l 0x0503 1

def section6Ok (l : List (Nat × Bytes)) : Bool :=
  let worker := (tagged l 0x0607).any (fun v => fld v 0 1 == 1)
  l.all (fun i =>
    (i.1 == 0x0601 && i.2.length == 20 && decide (fld i.2 0 1 ≤ 1) && zeroAt i.2 1 3)
    || (i.1 == 0x0602 && i.2.length == 16)
    || (i.1 == 0x0603 && i.2.length == 4 && decide (1 ≤ fld i.2 0 2 ∧ fld i.2 0 2 ≤ 1023)
        && decide (fld i.2 2 1 ≤ 1) && zeroAt i.2 3 1)
    || (i.1 == 0x0604 && i.2.length == 4 && decide (fld i.2 0 2 ≤ 256) && decide (fld i.2 2 1 ≤ 1)
        && zeroAt i.2 3 1)
    || (i.1 == 0x0605 && i.2.length == 48 && identOk i.2)
    || (i.1 == 0x0606 && i.2.length == 2 && decide (1 ≤ fld i.2 0 2) && decide (fld i.2 0 2 ≤ 3600))
    || (i.1 == 0x0607 && i.2.length == 4 && decide (fld i.2 0 1 ≤ 2) && decide (fld i.2 1 1 ≤ 15) && zeroAt i.2 2 2)
    || (i.1 == 0x0608 && i.2.length == 24 && decide (fld i.2 0 1 ≤ 7) && zeroAt i.2 1 1)
    || (i.1 == 0x0609 && i.2.length == 32))
  && atMost l 0x0601 1 && atMost l 0x0602 1 && noDup ((tagged l 0x0603).map (fun v => fld v 0 2))
  && noDup ((tagged l 0x0604).map (fun v => fld v 0 2)) && atMost l 0x0605 1
  && (decide ((tagged l 0x0602).length ≤ (tagged l 0x0605).length)) && atMost l 0x0606 1 && atMost l 0x0607 1
  && atMost l 0x0608 1 && (!worker || (tagged l 0x0608).length == 1) && atMost l 0x0609 1
  && (!worker || (tagged l 0x0601).any (fun v => fld v 0 1 == 1))

/-- Counter index, select word of a `SELECT` item (R611, R622). -/
def selIndex (v : Bytes) : Nat := 8 * fld v 0 1 + fld v 1 1
def selWord (v : Bytes) : Word := pack [(fld v 2 1, 0), (fld v 4 2, 8), (fld v 3 1, 24)]

def section7Ok (l : List (Nat × Bytes)) : Bool :=
  l.all (fun i =>
    (i.1 == 0x0701 && i.2.length == 4 && decide (1 ≤ fld i.2 0 4) && decide (fld i.2 0 4 ≤ 1000000))
    || (i.1 == 0x0702 && i.2.length == 8 && decide (fld i.2 0 1 ≤ 24) && decide (fld i.2 1 1 ≤ 7)
        && decide (fld i.2 3 1 ≤ 1) && zeroAt i.2 6 2 && selectOk (selIndex i.2) (selWord i.2)))
  && atMost l 0x0701 1 && atMost l 0x0702 192 && noDup ((tagged l 0x0702).map selIndex)

/-- Whether the body of a section meets R519. -/
def sectionOk (n : Nat) (b : Bytes) : Bool :=
  match itemsOf b with
  | none => false
  | some l =>
    if n = 1 then section1Ok l
    else if n = 2 then section2Ok l
    else if n = 3 then section3Ok l
    else if n = 4 then section4Ok l
    else if n = 5 then section5Ok l
    else if n = 6 then section6Ok l
    else if n = 7 then section7Ok l
    else section8Ok b

/-- The sections that a slot holds. -/
def slotSections : List Nat := [1, 2, 3, 4, 5, 6, 7]

/-- The slot quotas that the items of section 3 give domains 1 to 256 (R184). -/
def quotasIn (l : List (Nat × Bytes)) : List (Nat × Nat) :=
  ((tagged l 0x0301).filter (fun v => fld v 0 2 != 0)).map (fun v => (fld v 0 2, fld v 8 4))

/-- Whether the quotas of an image fit the store: each domain that it does not name has the default of 7,936 (R184). -/
def quotasFit (c : Config8) : Bool :=
  let l := quotasIn ((itemsOf (bodyOf c 3)).getD [])
  decide (sumNat ((List.range 256).map (fun i => tgetD l (i + 1) 7936)) ≤ 2031616)

/-- The items of a section of a slot. -/
def secItems (c : Config8) (n : Nat) : List (Nat × Bytes) := (itemsOf (bodyOf c n)).getD []

/-- The alcoves of section 2. -/
def alcovesIn (l : List (Nat × Bytes)) : List AlcoveSettings := (tagged l 0x0201).map alcoveOf

/-- An alcove with the identity of bytes 4 to 51 of an item of R521. -/
def withItem (x : AlcoveSettings) (v : Bytes) : AlcoveSettings :=
  let y := alcoveOf (zeros 4 ++ v ++ zeros 20)
  { x with mac := y.mac, vlan := y.vlan, udp := y.udp, ipv4 := y.ipv4, ipv6a := y.ipv6a, ipv6b := y.ipv6b }

/-- The alcove 0 that a side opens (R551). -/
def alcoveZero (c : Config8) (side : Nat) : Option AlcoveSettings :=
  ((alcovesIn (secItems c 2)).find? (fun x => x.alcove == 0)).map (fun x =>
    if side = 0 then x else ((tagged (secItems c 6) 0x0605).head?).elim x (withItem x))

/-- Alcove 0 of each side of a pair: side 1 has its own only where section 6 names its identity (R549, R551). -/
def zerosIn (c : Config8) : List AlcoveSettings :=
  (alcoveZero c 0).toList ++ (if (tagged (secItems c 6) 0x0605).isEmpty then [] else (alcoveZero c 1).toList)

/-- Whether no two alcoves of an image collide, the alcove 0 of side 1 among them (R43). -/
def imageApart (c : Config8) : Bool :=
  noCollide ((alcovesIn (secItems c 2)).filter (fun x => x.alcove != 0) ++ zerosIn c)

/-- Whether the image of a slot is valid (R43, R184, R522). -/
def imageValid (s : State) (c : Config8) : Bool :=
  headOk c.head && ownerOk s (headOwner c.head) && headSigned c.head (headOwner c.head) && headHere s c.head
    && slotSections.all (fun n => bodyMatches c.head n (bodyOf c n) && sectionOk n (bodyOf c n))
    && dirDigest c.head 8 == s.tally.secDigest && quotasFit c && imageApart c

/-- Whether an image presented for commissioning verifies under the owner's key (R472) (DEDUCED, log 61). -/
def commissionOk (s : State) (key : Bytes) (c : Config8) : Bool :=
  headOk c.head && headOwner c.head == key && headSigned c.head key && headHere s c.head
    && slotSections.all (fun n => bodyMatches c.head n (bodyOf c n) && sectionOk n (bodyOf c n))
    && dirDigest c.head 8 == s.tally.secDigest && quotasFit c && imageApart c

/-! ### What the sections give -/

/-- The first value of a tag, or a default. -/
def firstOf (l : List (Nat × Bytes)) (tag : Nat) (d : Bytes) : Bytes := ((tagged l tag).head?).getD d

/-- Breakout of a port. -/
def breakoutOf (l : List (Nat × Bytes)) (p : Nat) : Nat :=
  (((tagged l 0x0101).find? (fun v => fld v 0 1 == p)).map (fun v => fld v 1 1)).getD 0

/-- The keys that section 2 gives an alcove: its manager and steward keys. -/
def keysIn (l : List (Nat × Bytes)) (a : Nat) : List (Bytes × Role) :=
  (if a = 0 then (tagged l 0x0202).map (fun v => (v, Role.manager)) else [])
    ++ ((tagged l 0x0203).filter (fun v => fld v 0 2 == a)).map (fun v => (v.drop 4, Role.steward))

/-- The `DOMAIN` value of a domain. -/
def domainIn (l : List (Nat × Bytes)) (d : Nat) : Option Bytes := (tagged l 0x0301).find? (fun v => fld v 0 2 == d)

/-- A domain takes its custodian set, threshold, window and quota from a `DOMAIN` value. -/
def takeDomain (x : Domain) (v : Bytes) : Domain :=
  { x with set := (custRecs (fld v 3 1) (v.drop 12)).map custOf, threshold := fld v 2 1, window := fld v 4 4 }

def quotaOf (v : Bytes) : Nat := fld v 8 4

/-- The authority of section 6 (R236). -/
def authorityIn (l : List (Nat × Bytes)) : Option Bytes :=
  let v := firstOf l 0x0601 (zeros 20)
  if fld v 0 1 = 1 then some (v.drop 4) else none

/-! ### Firmware images (R515, R516) and microcode packages (R342, R343) -/

/-- Whether the root key has the hash in OTP. -/
def rootKeyOk (s : State) (key : Bytes) : Bool := !allZero s.otp.rootHash && Config.sha512 key == s.otp.rootHash

/-- Whether a firmware image for a component is laid out as R515 has it. -/
def fwShape (comp : Nat) (img : Bytes) : Bool :=
  fld img 0 4 == 0x57465749 && fld img 4 1 == 1 && fld img 5 1 == comp && zeroAt img 7 1 && fld img 8 2 == 0x0800
    && fld img 10 1 == 0xA0 && zeroAt img 11 1 && decide (1 ≤ fld img 12 4) && decide (fld img 12 4 ≤ 1040096)
    && zeroAt img 20 12 && img.length == 288 + fld img 12 4

/-- Whether its keys, signatures and digest hold. -/
def fwSigned (s : State) (img : Bytes) : Bool :=
  rootKeyOk s (slice img 32 32)
    && Config.edVerify (slice img 32 32) (ascii "WFWS signer" ++ slice img 64 32) (slice img 96 64)
    && Config.edVerify (slice img 64 32) (ascii "WFWI1" ++ img.take 224) (slice img 224 64)
    && Config.sha512 (img.drop 288) == slice img 160 64

def fwOk (s : State) (comp : Nat) (img : Bytes) : Bool := fwShape comp img && fwSigned s img

/-- The Stair's inputs of a firmware image: measurement, signer and SVN (R516). -/
def fwMeas (img : Bytes) : Bytes := Config.sha512 img
def fwSigner (img : Bytes) : Bytes := Config.sha512 (slice img 64 32)
def fwSvn (img : Bytes) : Nat := fld img 6 1

/-! ### Spans of the public-key programs (R144) -/

/-- The RSA row that a modulus length takes: the row above it (R144). -/
def rsaRow (bits : Nat) : Nat :=
  if bits ≤ 2048 then 0 else if bits ≤ 3072 then 1 else if bits ≤ 4096 then 2 else 3

/-- The program of R144 whose row a program takes: ECDH and curve key generation cost as signing. -/
def costProg (prog : Nat) : Nat :=
  match prog with
  | 0x03 => 0x01
  | 0x09 => 0x08
  | 0x12 => 0x10
  | 0x13 => 0x10
  | 0x16 => 0x14
  | 0x17 => 0x14
  | 0x1A => 0x18
  | 0x1B => 0x18
  | p => p

/-- Width and span of the operation that a program begins, by its size in bits (R144). -/
def pkSpan (prog bits : Nat) : Option (Nat × Nat) :=
  let rsa := fun (l : List Nat) => l.getD (rsaRow bits) 0
  match prog with
  | 0x01 => some (1, 17048)
  | 0x02 => some (1, 41648)
  | 0x08 => some (1, 26048)
  | 0x10 => some (1, 22088)
  | 0x11 => some (1, 50048)
  | 0x14 => some (1, 50048)
  | 0x15 => some (1, 117248)
  | 0x18 => some (1, 110048)
  | 0x19 => some (1, 261248)
  | 0x20 => some (1, rsa [14048, 29048, 50048, 194048])
  | 0x21 => some (2, rsa [158048, 458048, 1010048, 7208048])
  | 0x23 => some (if rsaRow bits = 3 then 8 else 2, rsa [336002048, 1104002048, 2640002048, 5400002048])
  | 0x30 => some (1, 11648)
  | 0x31 => some (1, 12848)
  | 0x32 => some (1, 15248)
  | 0x34 => some (1, 14648)
  | 0x35 => some (1, 16448)
  | 0x36 => some (1, 21248)
  | 0x38 => some (1, 284288)
  | 0x39 => some (1, 38048)
  | 0x3C => some (1, 470048)
  | 0x3D => some (1, 56048)
  | 0x3A => some (1, 16448)
  | 0x3E => some (1, 23648)
  | _ => none

/-- The rows of R144: program and modulus length. -/
def pkRows : List (Nat × Nat) :=
  ([0x01, 0x02, 0x08, 0x10, 0x11, 0x14, 0x15, 0x18, 0x19, 0x30, 0x31, 0x32, 0x34, 0x35, 0x36, 0x38, 0x39, 0x3A,
    0x3C, 0x3D, 0x3E] : List Nat).map (fun p => (p, 0))
    ++ ([0x20, 0x21, 0x23] : List Nat).flatMap (fun p =>
      ([2048, 3072, 4096, 8192] : List Nat).map (fun b => (p, b)))

/-- The program IDs of R320. -/
def progIds : List Nat :=
  [0x01, 0x02, 0x03, 0x08, 0x09, 0x10, 0x11, 0x12, 0x13, 0x14, 0x15, 0x16, 0x17, 0x18, 0x19, 0x1A, 0x1B, 0x20, 0x21,
    0x22, 0x23, 0x24, 0x30, 0x31, 0x32, 0x34, 0x35, 0x36, 0x38, 0x39, 0x3A, 0x3C, 0x3D, 0x3E, 0x40, 0x7F]

/-! ### Microcode packages (R342, R343) -/

def ucPrograms (p : Bytes) : Nat := fld p 10 2
def ucCosts (p : Bytes) : Nat := fld p 12 2
def ucSetLen (p : Bytes) : Nat := fld p 16 4
def ucSetOff (p : Bytes) : Nat := 128 + 16 * ucPrograms p + 8 * ucCosts p
def ucSigner (p : Bytes) : Bytes := slice p 24 32
def ucSvn (p : Bytes) : Nat := fld p 5 1

/-- The directory and cost entries of a package. -/
def ucDir (p : Bytes) : List Bytes := (List.range (ucPrograms p)).map (fun i => slice p (128 + 16 * i) 16)
def ucCostList (p : Bytes) : List Bytes :=
  (List.range (ucCosts p)).map (fun i => slice p (128 + 16 * ucPrograms p + 8 * i) 8)

/-- Whether the header, the lengths, the directory and the costs of a package are right (DEDUCED, log 62). -/
def ucShape (p : Bytes) : Bool :=
  let dir := ucDir p
  let costs := ucCostList p
  let ids := dir.map (fun e => fld e 0 1)
  fld p 0 4 == 0x57504B4D && fld p 4 1 == 1 && fld p 6 2 == 0x0800 && fld p 8 1 == 0xA0 && zeroAt p 9 1
    && decide (1 ≤ ucPrograms p ∧ ucPrograms p ≤ 64) && decide (1 ≤ ucCosts p ∧ ucCosts p ≤ 128) && zeroAt p 14 2
    && ucSetLen p % 16 == 0 && decide (ucSetLen p ≤ 65536) && zeroAt p 120 8
    && p.length == ucSetOff p + ucSetLen p + 64
    && progIds.all (fun i => ids.contains i) && noDup ids
    && dir.all (fun e => zeroAt e 1 1 && zeroAt e 6 2 && decide ((fld e 2 2 + fld e 4 2) * 16 ≤ ucSetLen p)
        && decide (fld e 8 4 ≤ 24000) && decide (fld e 12 4 ≤ 32768))
    && pkRows.all (fun r => costs.any (fun c => fld c 0 1 == r.1 && fld c 1 2 == r.2))
    && costs.all (fun c => match pkSpan (costProg (fld c 0 1)) (fld c 1 2) with
        | some x => fld c 3 1 == x.1 && decide (fld c 4 4 ≤ x.2)
        | none => true)

/-- Whether its signature, its signer's certificate under Golune's root and its set digest hold. -/
def ucSigned (root cert p : Bytes) : Bool :=
  Config.edVerify (ucSigner p) (ascii "WPKM1" ++ p.take (p.length - 64)) (p.drop (p.length - 64))
    && Config.edVerify root (ascii "WFWS signer" ++ ucSigner p) cert
    && Config.hash 4 (slice p (ucSetOff p) (ucSetLen p)) == slice p 56 64

/-- Whether a microcode slot, a signer certificate of 64 bytes and a package, is valid under a root key. -/
def ucOk (root slot : Bytes) : Bool := ucShape (slot.drop 64) && ucSigned root (slot.take 64) (slot.drop 64)

end Sys2Proof.Machine
end

