-- ==== Sys2Proof/Machine/Operands.lean ====
section
/-! DEFINITION. The operand forms of the WCP commands: the common request (R108), attribute templates
(R172, R173, R664), mechanisms and their parameters (R112), deadline classes by mechanism (R110) and
approval blocks (R224). Each parser answers none where check 4 of R105 refuses. -/

namespace Sys2Proof.Machine

/-! ### The common request and response -/

/-- The common request (R108). -/
structure Req where
  handle  : Nat
  mech    : Nat
  pre     : Bool
  keyBits : Nat
  param   : Bytes
  data    : Bytes
  deriving DecidableEq, Repr

/-- Parse a common request. -/
def commonReq (p : Bytes) : Option Req :=
  let pl := fld p 12 4
  let dl := fld p 16 4
  let pp := roundUp pl 8
  if 24 ≤ p.length ∧ p.length = 24 + pp + dl ∧ fld p 10 2 < 2 ∧ zeroAt p 22 2 ∧ zeroAt p (24 + pl) (pp - pl) then
    some { handle := fld p 0 8, mech := fld p 8 2, pre := bitOf (fld p 10 2) 0, keyBits := fld p 20 2
           param := slice p 24 pl, data := slice p (24 + pp) dl }
  else none

/-- The common response (R109). -/
def commonResp (out aux : Bytes) : Bytes := be 4 out.length ++ be 4 aux.length ++ out ++ aux

/-! ### Templates -/

/-- What a template carries (R172). -/
structure Template where
  cls     : Option UseClass
  wrapped : Option Bool
  quorum  : Option Bool
  owners  : Option Owners
  nb      : Option Nat
  na      : Option Nat
  limit   : Option Nat
  pay     : Option Bool
  key     : Option (Nat × Nat)
  deriving DecidableEq, Repr

def noTemplate : Template :=
  { cls := none, wrapped := none, quorum := none, owners := none, nb := none, na := none, limit := none
    pay := none, key := none }

/-- Items of a 1-byte tag, a 1-byte length and a value (R173). `n` bounds the items. -/
def shortItems : Nat → Bytes → Option (List (Nat × Bytes))
  | 0, l => if l.isEmpty then some [] else none
  | n + 1, l =>
    if l.isEmpty then some []
    else if l.length < 2 ∨ l.length < 2 + fld l 1 1 then none
    else (shortItems n (l.drop (2 + fld l 1 1))).map (fun r => (fld l 0 1, slice l 2 (fld l 1 1)) :: r)

/-- 2-byte numbers of a value. -/
def halves (v : Bytes) : List Nat := (List.range (v.length / 2)).map (fun i => fld v (2 * i) 2)

/-- The owning alcoves of a template item (R172, R664). -/
def ownersOf (v : Bytes) : Option Owners :=
  let l := halves v
  if v.length % 2 ≠ 0 ∨ l.length = 0 ∨ 4 < l.length then none
  else if l = [0xFFFF] then some .all
  else if l.all (fun a => decide (a ≤ 1023)) ∧ noDup l then some (.list l)
  else none

/-- A 1-byte flag. -/
def flagOf (v : Bytes) : Option Bool :=
  if v = [0#8] then some false else if v = [1#8] then some true else none

/-- Take one item into a template. -/
def takeItem (t : Template) (i : Nat × Bytes) : Option Template :=
  let v := i.2
  match i.1 with
  | 0x01 => if v.length = 1 then (useOf (beNat v)).map (fun c => { t with cls := some c }) else none
  | 0x02 => (flagOf v).map (fun b => { t with wrapped := some b })
  | 0x03 => (flagOf v).map (fun b => { t with quorum := some b })
  | 0x04 => (ownersOf v).map (fun o => { t with owners := some o })
  | 0x05 => if v.length = 4 ∧ beNat v ≤ 0xFFFFFFFE then some { t with nb := some (beNat v) } else none
  | 0x06 => if v.length = 4 ∧ 1 ≤ beNat v then some { t with na := some (beNat v) } else none
  | 0x07 => if v.length = 8 ∧ 1 ≤ beNat v ∧ beNat v ≤ 2 ^ 40 then some { t with limit := some (beNat v) } else none
  | 0x08 => (flagOf v).map (fun b => { t with pay := some b })
  | 0x09 =>
    if v.length = 4 ∧ (materialLen (fld v 0 2) (fld v 2 2)).isSome then
      some { t with key := some (fld v 0 2, fld v 2 2) }
    else none
  | _ => none

/-- Take the items in order. -/
def takeItems : Template → List (Nat × Bytes) → Option Template
  | t, [] => some t
  | t, i :: r => (takeItem t i).bind (fun u => takeItems u r)

/-- A template at the front of a byte string and its whole length (R173). -/
def template (p : Bytes) : Option (Template × Nat) :=
  let n := fld p 0 2
  if p.length < 2 ∨ 256 < n ∨ p.length < 2 + n then none
  else
    match shortItems 129 (slice p 2 n) with
    | none => none
    | some l =>
      if noDup (l.map (·.1)) then
        match takeItems noTemplate l with
        | none => none
        | some t =>
          if t.na.getD 0xFFFFFFFF < t.nb.getD 0 then none else some (t, 2 + n)
      else none

/-- A template of a command that makes a face: the use class is there, and the key type exactly where the
command needs it (R173, R174). -/
def makeTemplate (p : Bytes) (key : Bool) : Option (Template × Nat) :=
  (template p).bind (fun x => if x.1.cls.isSome ∧ x.1.key.isSome = key then some x else none)

/-- The settings of an alcove that the pair has, served here or by the partner. -/
def pairAlcove (s : State) (a : Nat) : Option AlcoveSettings :=
  match alc s a with
  | some x => some x.set
  | none => (tget s.twin.alcoves a).map (fun e => e.set)

/-- Whether the owners a template names exist in the caller's domain (R664). -/
def ownersExist (s : State) (a : Nat) (o : Owners) : Bool :=
  match o with
  | .all => true
  | .list l => l.all (fun b => ((pairAlcove s b).map (fun x => x.domain == domainOf s a)).getD false)

/-- The face that a template makes (R172): the use class is `cls` where the template has none. -/
def faceOf (a : Nat) (t : Template) : Face :=
  { cls := t.cls.getD .encrypt, payment := t.pay.getD false, wrapped := t.wrapped.getD false
    quorum := t.quorum.getD false, owners := t.owners.getD (.list [a]), notBefore := t.nb.getD 0
    notAfter := t.na.getD 0xFFFFFFFF, limit := t.limit.getD (2 ^ 40), instance_ := 0, uses := 0
    useMark := 0, nextInv := 0, invMark := 0, lineage := 0 }

/-- The face made from another face: bounds that the template omits come from the parent, and the parent's
quorum flag stays (R178). -/
def childFace (a : Nat) (t : Template) (parent : Face) (handle : Nat) : Face :=
  let f := faceOf a t
  { f with notBefore := t.nb.getD parent.notBefore, notAfter := t.na.getD parent.notAfter
           quorum := f.quorum || parent.quorum, lineage := handle }

/-- Whether owners lie among others. -/
def ownersWithin (o p : Owners) : Bool :=
  match o, p with
  | _, .all => true
  | .all, .list _ => false
  | .list l, .list m => l.all (fun a => m.contains a)

/-- The bounds of R178. -/
def childWithin (f parent : Face) : Bool :=
  ownersWithin f.owners parent.owners && decide (parent.notBefore ≤ f.notBefore)
    && decide (f.notAfter ≤ parent.notAfter) && (!f.wrapped || parent.wrapped)

/-! ### Mechanisms -/

/-- The mechanisms of R112, by family. Hashes are numbered as in `Config.hash`, curves as in
`Config.ecPub`; `big` is the larger parameter set. -/
inductive Fam where
  | cbc | ctr | gcm | ccm | xts | ff1 | gmac | cmac
  | hmac (h : Nat) | hash (h : Nat) | shake (big : Bool)
  | ed | ecdsa (c : Nat) | pss (h : Nat) | oaep (h : Nat) | mldsa (big : Bool)
  | x25519 | ecdh (c : Nat) | mlkem (big : Bool) | kdf | hkdf
  deriving DecidableEq, Repr

/-- The family of a mechanism code (DEDUCED, log 47). -/
def famOf (m : Nat) : Option Fam :=
  if m = 0x0001 then some .cbc
  else if m = 0x0002 then some .ctr
  else if m = 0x0003 then some .gcm
  else if m = 0x0004 then some .ccm
  else if m = 0x0005 then some .xts
  else if m = 0x0006 then some .ff1
  else if m = 0x0010 then some .gmac
  else if m = 0x0011 then some .cmac
  else if 0x0020 ≤ m ∧ m ≤ 0x0024 then some (.hmac (m - 0x20))
  else if 0x0040 ≤ m ∧ m ≤ 0x0044 then some (.hash (m - 0x40))
  else if m = 0x0045 then some (.shake false)
  else if m = 0x0046 then some (.shake true)
  else if m = 0x0100 then some .ed
  else if 0x0101 ≤ m ∧ m ≤ 0x0103 then some (.ecdsa (m - 0x101))
  else if m = 0x0110 then some (.pss 0)
  else if m = 0x0111 then some (.pss 2)
  else if m = 0x0112 then some (.oaep 0)
  else if m = 0x0113 then some (.oaep 2)
  else if m = 0x0120 then some (.mldsa false)
  else if m = 0x0121 then some (.mldsa true)
  else if m = 0x0130 then some .x25519
  else if 0x0131 ≤ m ∧ m ≤ 0x0133 then some (.ecdh (m - 0x131))
  else if m = 0x0140 then some (.mlkem false)
  else if m = 0x0141 then some (.mlkem true)
  else if m = 0x0200 then some .kdf
  else if m = 0x0201 then some .hkdf
  else none

/-- The opcodes that a family serves (R112). -/
def famOps : Fam → List Nat
  | .cbc => [0x0201, 0x0202]
  | .ctr => [0x0201, 0x0202]
  | .gcm => [0x0201, 0x0202]
  | .ccm => [0x0201, 0x0202]
  | .xts => [0x0201, 0x0202]
  | .ff1 => [0x0201, 0x0202]
  | .gmac => [0x0203, 0x0204]
  | .cmac => [0x0203, 0x0204]
  | .hmac _ => [0x0203, 0x0204]
  | .hash _ => [0x0205]
  | .shake _ => [0x0205]
  | .ed => [0x0301, 0x0302]
  | .ecdsa _ => [0x0301, 0x0302]
  | .pss _ => [0x0301, 0x0302]
  | .oaep _ => [0x0306, 0x0307]
  | .mldsa _ => [0x0301, 0x0302]
  | .x25519 => [0x0303]
  | .ecdh _ => [0x0303]
  | .mlkem _ => [0x0304, 0x0305]
  | .kdf => [0x0503]
  | .hkdf => [0x0503]

/-- The families that a context may carry (R295: those that the table of cipher modes marks). -/
def famContext : Fam → Bool
  | .cbc => true
  | .ctr => true
  | .gcm => true
  | .gmac => true
  | .cmac => true
  | _ => false

/-- The `ALGO` that a family needs of its face (R112, R170). -/
def famAlgo : Fam → Nat
  | .cbc => 1
  | .ctr => 1
  | .gcm => 1
  | .ccm => 1
  | .xts => 2
  | .ff1 => 1
  | .gmac => 1
  | .cmac => 1
  | .hmac _ => 4
  | .hash _ => 0
  | .shake _ => 0
  | .ed => 0x10
  | .ecdsa c => 0x12 + c
  | .pss _ => 0x20
  | .oaep _ => 0x20
  | .mldsa big => if big then 0x33 else 0x32
  | .x25519 => 0x11
  | .ecdh c => 0x12 + c
  | .mlkem big => if big then 0x31 else 0x30
  | .kdf => 4
  | .hkdf => 4

/-- Whether a family is an RSA mechanism. -/
def famRsa : Fam → Bool
  | .pss _ => true
  | .oaep _ => true
  | _ => false

/-- The hash that a family's `PREHASHED` form names, if it allows one. -/
def famPre : Fam → Option Nat
  | .ecdsa c => some c
  | .pss h => some h
  | _ => none

/-- The use class that an opcode needs (R102). -/
def opUse : Nat → Option UseClass
  | 0x0201 => some .encrypt
  | 0x0202 => some .decrypt
  | 0x0203 => some .macGenerate
  | 0x0204 => some .macVerify
  | 0x0301 => some .sign
  | 0x0302 => some .verify
  | 0x0303 => some .agree
  | 0x0304 => some .encapsulate
  | 0x0305 => some .decapsulate
  | 0x0306 => some .encrypt
  | 0x0307 => some .decrypt
  | 0x0503 => some .derive
  | _ => none

/-- What `PARAM` carries (R112); a field that a family does not use is empty. -/
structure Prm where
  iv     : Bytes
  width  : Nat
  tagLen : Nat
  tag    : Bytes
  aad    : Bytes
  unit   : Nat
  radix  : Nat
  sig    : Bytes
  label  : Bytes
  outLen : Nat
  tmpl   : Template
  deriving DecidableEq, Repr

def noPrm : Prm :=
  { iv := [], width := 0, tagLen := 0, tag := [], aad := [], unit := 0, radix := 0, sig := [], label := []
    outLen := 0, tmpl := noTemplate }

/-- Length of a signature of a family. -/
def sigLen (f : Fam) (keyBits : Nat) : Nat :=
  match f with
  | .ed => 64
  | .ecdsa c => 2 * Config.curveLen c
  | .pss _ => keyBits / 8
  | .mldsa big => Config.dsaSigLen big
  | _ => 0

/-- `PARAM` of the tag modes: tag length, nonce, tag, AAD. -/
def tagPrm (p : Bytes) (lenOk : Nat → Bool) : Option Prm :=
  if 32 ≤ p.length ∧ zeroAt p 1 3 ∧ lenOk (fld p 0 1) then
    some { noPrm with tagLen := fld p 0 1, iv := slice p 4 12, tag := slice p 16 16, aad := p.drop 32 }
  else none

/-- `PARAM` of the MACs: tag length and a MAC field of `n` bytes. -/
def macPrm (p : Bytes) (n : Nat) (lenOk : Nat → Bool) : Option Prm :=
  if p.length = 4 + n ∧ zeroAt p 1 3 ∧ lenOk (fld p 0 1) then
    some { noPrm with tagLen := fld p 0 1, tag := p.drop 4 }
  else none

/-- `PARAM` of a family in an opcode (R112). -/
def prmOf (f : Fam) (op keyBits : Nat) (p : Bytes) : Option Prm :=
  let verify : Bool := op == 0x0302
  match f with
  | .cbc => if p.length = 16 then some { noPrm with iv := p } else none
  | .ctr =>
    let w := fld p 16 1
    if p.length = 20 ∧ zeroAt p 17 3 ∧ (w = 32 ∨ w = 64 ∨ w = 128) then
      some { noPrm with iv := p.take 16, width := w }
    else none
  | .gcm => tagPrm p (fun n => decide (12 ≤ n ∧ n ≤ 16))
  | .ccm => tagPrm p (fun n => decide (4 ≤ n ∧ n ≤ 16 ∧ n % 2 = 0))
  | .gmac => if p.length = 32 then tagPrm p (fun n => decide (12 ≤ n ∧ n ≤ 16)) else none
  | .xts => if p.length = 20 then some { noPrm with iv := p.take 16, unit := fld p 16 4 } else none
  | .ff1 =>
    if 4 ≤ p.length ∧ p.length = 4 + fld p 2 2 ∧ 1 ≤ fld p 0 2 then
      some { noPrm with radix := fld p 0 2 + 1, label := p.drop 4 }
    else none
  | .cmac => macPrm p 16 (fun n => decide (8 ≤ n ∧ n ≤ 16))
  | .hmac h => macPrm p 64 (fun n => decide (16 ≤ n ∧ n ≤ Config.hashLen h))
  | .hash _ => if p.isEmpty then some noPrm else none
  | .shake _ =>
    if p.length = 4 ∧ 1 ≤ beNat p ∧ beNat p ≤ 65536 then some { noPrm with outLen := beNat p } else none
  | .ed => if p.length = (if verify then 64 else 0) then some { noPrm with sig := p } else none
  | .ecdsa c =>
    if p.length = (if verify then 2 * Config.curveLen c else 0) then some { noPrm with sig := p } else none
  | .pss _ => if p.length = (if verify then keyBits / 8 else 0) then some { noPrm with sig := p } else none
  | .oaep _ => if p.length ≤ 256 then some { noPrm with label := p } else none
  | .mldsa big =>
    let n := if verify then Config.dsaSigLen big else 0
    if n ≤ p.length ∧ p.length ≤ n + 255 then some { noPrm with sig := p.take n, label := p.drop n } else none
  | .x25519 => (makeTemplate p true).bind (fun x => if x.2 = p.length then some { noPrm with tmpl := x.1 } else none)
  | .ecdh _ => (makeTemplate p true).bind (fun x => if x.2 = p.length then some { noPrm with tmpl := x.1 } else none)
  | .mlkem _ => (makeTemplate p true).bind (fun x => if x.2 = p.length then some { noPrm with tmpl := x.1 } else none)
  | .kdf => (makeTemplate p true).bind (fun x => if x.2 = p.length then some { noPrm with tmpl := x.1 } else none)
  | .hkdf => (makeTemplate p true).map (fun x => { noPrm with tmpl := x.1, label := p.drop x.2 })

/-- Lengths of `DATA` that a standard fixes (R331, last row). -/
def dataLenOk (f : Fam) (op keyBits n : Nat) : Bool :=
  match f with
  | .x25519 => n == 32
  | .ecdh c => n == 1 + 2 * Config.curveLen c
  | .mlkem big => n == (if op = 0x0304 then 0 else Config.kemCtLen big)
  | .oaep _ => if op = 0x0307 then n == keyBits / 8 else true
  | _ => true

/-! ### Deadline classes -/

/-- Promise of a class in ns (R134). -/
def promiseNs : DClass → Nat
  | .d0 => 4000
  | .d1 => 25000
  | .d2 => 500000
  | .d3 => 50000000
  | .d4 => 5000000000
  | .d5 => 60000000000

def classNo : DClass → Nat
  | .d0 => 0
  | .d1 => 1
  | .d2 => 2
  | .d3 => 3
  | .d4 => 4
  | .d5 => 5

/-- A class by two limits of length. -/
def byLen (n l1 l2 : Nat) (c : DClass) : Option DClass :=
  if n ≤ l1 then some .d1 else if n ≤ l2 then some c else none

/-- The class of a family, an opcode, `KEY_BITS` and a data length (R110). -/
def famClass (f : Fam) (op keyBits n : Nat) : Option DClass :=
  match f with
  | .cbc => if op = 0x0202 then byLen n 65536 1048576 .d2 else byLen n 8192 1048576 .d3
  | .ctr => byLen n 65536 1048576 .d2
  | .gcm => byLen n 65536 1048576 .d2
  | .xts => byLen n 65536 1048576 .d2
  | .gmac => byLen n 65536 1048576 .d2
  | .ccm => byLen n 8192 1048576 .d3
  | .cmac => byLen n 8192 1048576 .d3
  | .ff1 => byLen n 8192 1048576 .d3
  | .hmac _ => byLen n 16384 1048576 .d3
  | .hash _ => byLen n 16384 1048576 .d3
  | .shake _ => byLen n 16384 1048576 .d3
  | .pss _ => if op = 0x0301 ∧ 3072 < keyBits then some .d3 else some .d2
  | .oaep _ => if op = 0x0307 ∧ 3072 < keyBits then some .d3 else some .d2
  | .kdf => some .d1
  | .hkdf => some .d1
  | _ => some .d2

/-- A keyed command as check 4 of R105 passes it: the request, its family and parameters. -/
structure Keyed where
  req : Req
  fam : Fam
  prm : Prm
  cls : DClass
  deriving DecidableEq, Repr

/-- Check 4 of the commands of R108; a mechanism that R112 does not offer for the opcode is unknown. -/
def keyedOf (op : Nat) (p : Bytes) : Option Keyed :=
  match commonReq p with
  | none => none
  | some r =>
    match famOf r.mech with
    | none => none
    | some f =>
      let bitsOk := if famRsa f then decide (2048 ≤ r.keyBits ∧ r.keyBits ≤ 8192) else r.keyBits == 0
      let preOk := !r.pre || (match famPre f with
        | some h => r.data.length == Config.hashLen h
        | none => false)
      if (famOps f).contains op ∧ bitsOk ∧ preOk ∧ (op ≠ 0x0205 ∨ r.handle = 0)
          ∧ dataLenOk f op r.keyBits r.data.length then
        match prmOf f op r.keyBits r.param, famClass f op r.keyBits r.data.length with
        | some q, some c => some { req := r, fam := f, prm := q, cls := c }
        | _, _ => none
      else none

/-- Check 4 of `CONTEXT_OPEN` (R295). The class of the face, which R102 leaves to the face, decides the
direction; the parameters are read as those of `ENCRYPT` or `MAC_GENERATE`. -/
def openOf (p : Bytes) : Option Keyed :=
  match commonReq p with
  | none => none
  | some r =>
    match famOf r.mech with
    | none => none
    | some f =>
      if famContext f ∧ r.pre = false ∧ r.keyBits = 0 ∧ r.data.isEmpty then
        (prmOf f 0x0201 0 r.param).bind (fun q =>
          if 65536 < q.aad.length then none else some { req := r, fam := f, prm := q, cls := .d1 })
      else none

/-! ### Approval blocks -/

/-- An approval block (R224). -/
structure Approval where
  ticket  : Bytes
  entries : List (Nat × Bytes)
  deriving DecidableEq, Repr

/-- Whether numbers rise strictly. -/
def rising : List Nat → Bool
  | a :: b :: r => decide (a < b) && rising (b :: r)
  | _ => true

/-- The approval block from offset `o` to the end of a payload. -/
def approvalAt (p : Bytes) (o : Nat) : Option Approval :=
  let n := fld p (o + 5) 1
  let e := (List.range n).map (fun i => slice p (o + 24 + 72 * i) 72)
  if p.length = o + 24 + 72 * n ∧ fld p o 4 = 0x57514142 ∧ fld p (o + 4) 1 = 1 ∧ 1 ≤ n ∧ n ≤ 16
      ∧ zeroAt p (o + 6) 2 ∧ e.all (fun x => zeroAt x 1 7) ∧ rising (e.map (fun x => fld x 0 1)) then
    some { ticket := slice p (o + 8) 16, entries := e.map (fun x => (fld x 0 1, slice x 8 64)) }
  else none

end Sys2Proof.Machine
end

