-- ==== Sys2Proof/Machine/Cost.lean ====
section
/-! DEFINITION. Reserved costs: the widths, spans and slots of R144 to R148, the cost margin (R141) and
the fixed allowances (R142, R143). -/

namespace Sys2Proof.Machine

/-- An operation before margin and allowance: wing, width, span, and the issue slots of the cipher wing. -/
structure Step4 where
  wing  : Wing
  width : Nat
  span  : Nat
  slots : Nat
  serial : Bool                         -- a serial mode of the cipher wing (R282)
  deriving DecidableEq, Repr

/-! ### Spans of the wings -/

/-- A public-key operation (R144). -/
def pkStep (prog bits : Nat) : Step4 :=
  let x := (pkSpan (costProg prog) bits).getD (1, 0)
  { wing := .pk, width := x.1, span := x.2, slots := 0, serial := false }

/-- The program that an opcode runs for a family (R320). -/
def famProg (f : Fam) (op : Nat) : Nat :=
  let v := b2n (op == 0x0302)
  match f with
  | .ed => 0x01 + v
  | .ecdsa c => 0x10 + 4 * c + v
  | .pss _ => if op = 0x0302 then 0x20 else 0x21
  | .oaep _ => if op = 0x0306 then 0x20 else 0x21
  | .mldsa big => (if big then 0x3C else 0x38) + v
  | .x25519 => 0x08
  | .ecdh c => 0x12 + 4 * c
  | .mlkem big => (if big then 0x34 else 0x30) + (if op = 0x0304 then 1 else 2)
  | _ => 0

/-- The key generation program of an algorithm (R320). -/
def genProg (algo : Nat) : Nat :=
  match algo with
  | 0x10 => 0x03
  | 0x11 => 0x09
  | 0x12 => 0x13
  | 0x13 => 0x17
  | 0x14 => 0x1B
  | 0x20 => 0x23
  | 0x30 => 0x30
  | 0x31 => 0x34
  | 0x32 => 0x3A
  | 0x33 => 0x3E
  | _ => 0

/-- Whether a program is long: its program time exceeds 24,000 cycles (R320, R322). -/
def progLong (prog bits : Nat) : Bool :=
  if prog = 0x20 then decide (2048 < bits)
  else ([0x02, 0x11, 0x14, 0x15, 0x16, 0x17, 0x18, 0x19, 0x1A, 0x1B, 0x21, 0x23, 0x38, 0x39, 0x3C, 0x3D] : List Nat).contains prog

/-- Meter and quantity of a program (R590). -/
def pkMeter (prog bits : Nat) : Nat × Nat :=
  (0x300 + prog, if prog = 0x20 ∨ prog = 0x21 ∨ prog = 0x23 then bits / 256 else 1)

/-- Bits that a half-string of `v` numerals of a radix takes: ceil(v × log2(radix)). -/
def numeralBits (radix v : Nat) : Nat := if radix ^ v ≤ 1 then 0 else Nat.log2 (radix ^ v - 1) + 1

/-- Byte length of the FF1 half-string of `n` numerals (R291). -/
def ff1Bytes (radix n : Nat) : Nat := ceilDiv (numeralBits radix (n - n / 2)) 8

/-- A cipher operation by slots and span. -/
def cipherStep (slots span : Nat) : Step4 :=
  { wing := .cipher, width := 1, span := span, slots := slots, serial := false }

/-- A serial cipher operation of `n` blocks, in `slots` slots. -/
def serialIn (slots n : Nat) : Step4 := { cipherStep slots (54 * n) with serial := true }
def serialStep (n : Nat) : Step4 := serialIn n n

/-- The row of R145 for a family, the direction, its parameters and a data length. -/
def cipherCost (f : Fam) (enc : Bool) (q : Prm) (len : Nat) : Step4 :=
  let n := ceilDiv len 16
  let a := ceilDiv q.aad.length 16
  match f with
  | .cbc => if enc then serialStep n else cipherStep n (n + 54)
  | .ctr => cipherStep n (n + 54)
  | .gcm => cipherStep (n + a + 2) (n + a + 2 + 54)
  | .gmac => cipherStep (n + 2) (n + 2 + 54)
  | .xts =>
    let u := if q.unit = 0 then 0 else len / q.unit
    cipherStep (n + u) (n + u + 54)
  | .cmac => serialStep (n + 1)
  | .ccm => serialIn (2 * n + a + 2) (n + a + 2)
  | .ff1 =>
    let t := q.label.length
    serialStep (10 * (2 + ceilDiv (t + ff1Bytes q.radix (len / 2)) 16))
  | _ => cipherStep 0 0

/-- A lane operation: blocks × cycles per block (R146). -/
def laneStep (cycles : Nat) : Step4 := { wing := .hash, width := 1, span := cycles, slots := 0, serial := false }

/-- Cycles per block of a hash (R146). -/
def hashCycles (h : Nat) : Nat := if h = 0 then 64 else if h = 1 ∨ h = 2 then 80 else 48

/-- A hash, or an HMAC, over a message of `n` bytes. -/
def hashCycle (h n : Nat) (mac : Bool) : Nat :=
  (ceilDiv n (Config.hashBlock h) + 1 + (if mac then 3 else 0)) * hashCycles h

/-- A SHAKE over `n` bytes with `out` bytes of output. -/
def shakeCycle (big : Bool) (n out : Nat) : Nat :=
  let blk := if big then 136 else 168
  (ceilDiv n blk + 1 + ceilDiv out blk) * 48

/-- Legacy blocks (R147). -/
def legacyStep (blocks : Nat) : Step4 := { wing := .legacy, width := 1, span := 32 * blocks, slots := 0, serial := false }

/-- `RANDOM` of `n` bytes (R148). -/
def randomStep (n : Nat) : Step4 :=
  { wing := .random, width := 1, span := 1500 + ceilDiv (48 * n) 100, slots := 0, serial := false }

/-- The lane work of a long message before its core job: the message hash of pure Ed25519, in two passes
for a signature, of ML-DSA, and of the other families that hash their message (R319). -/
def longHash (k : Keyed) (op : Nat) : Option Nat :=
  let n := k.req.data.length
  if k.req.pre ∨ n ≤ 1024 ∨ (op ≠ 0x0301 ∧ op ≠ 0x0302) then none
  else
    match k.fam with
    | .ed => some (if op = 0x0301 then hashCycle 2 (32 + n) false + hashCycle 2 (64 + n) false
        else hashCycle 2 (64 + n) false)
    | .mldsa _ => some (shakeCycle true (n + k.prm.label.length + 66) 64)
    | .ecdsa c => some (hashCycle c n false)
    | .pss h => some (hashCycle h n false)
    | _ => none

/-- The steps of a keyed command. -/
def keyedSteps (op : Nat) (k : Keyed) : List Step4 :=
  let n := k.req.data.length
  match k.fam with
  | .hmac h => [laneStep (hashCycle h n true)]
  | .hash h => [laneStep (hashCycle h n false)]
  | .shake big => [laneStep (shakeCycle big n k.prm.outLen)]
  | .kdf =>
    let m := ((k.prm.tmpl.key.bind (fun x => materialLen x.1 x.2))).getD 0
    [laneStep (ceilDiv m 64 * hashCycle 2 (n + 8) true)]
  | .hkdf =>
    let m := ((k.prm.tmpl.key.bind (fun x => materialLen x.1 x.2))).getD 0
    [laneStep (hashCycle 2 64 true + ceilDiv m 64 * hashCycle 2 (n + 65) true)]
  | f =>
    if op ≤ 0x0204 then [cipherCost f (op == 0x0201 || op == 0x0203) k.prm n]
    else
      let p := pkStep (famProg f op) k.req.keyBits
      match longHash k op with
      | some c => [laneStep c, p]
      | none => [p]

/-! ### Costs -/

/-- A span under the cost margin (R141). -/
def margined (s : State) (span : Nat) : Nat := ceilDiv (span * s.boot.margin) 100

/-- The cost of a command on one wing: its steps there one after the other, with the sum of the spans on all its wings as its
span (R153); a commit adds to the fixed allowance (R143) (DEDUCED, log 39). -/
def costOn (s : State) (l : List Step4) (commit : Bool) (total : Nat) (wing : Wing) : Option Cost :=
  let here := l.filter (fun x => x.wing == wing)
  let sum := fun (f : Step4 → Nat) => sumNat (here.map f)
  if here.isEmpty then none
  else
    some { wing := wing, width := here.foldl (fun n x => max n x.width) 1, span := ceilDiv total (wingTick wing)
           own := sum (fun x => margined s x.span), serial := here.any (fun x => x.serial)
           cost := sum (fun x => if wing = .cipher then x.slots else x.width * margined s x.span)
           fixed := wingFixed wing + (if commit then wingCommit wing else 0), ran := 0, since := none }

/-- The costs of the steps of a command, one for each wing that it needs (DEDUCED, log 39). -/
def costsOf (s : State) (l : List Step4) (commit : Bool) : List Cost :=
  let total := sumNat (l.map (fun x => margined s x.span * wingTick x.wing))
  ([Wing.legacy, .cipher, .hash, .random, .pk] : List Wing).filterMap (costOn s l commit total)

end Sys2Proof.Machine
end

