-- ==== Sys2Proof/Machine/Quorum.lean ====
section
/-! DEFINITION. Tickets and the quorum check (R218 to R226). -/

namespace Sys2Proof.Machine

/-- Opcodes of R218, with whether domain 0 approves them. -/
def quorumOps : List (Nat × Bool) :=
  [(0x0802, false), (0x0803, false), (0x0804, false), (0x0805, false), (0x0806, false), (0x0505, false),
   (0x0A04, true), (0x0A05, true), (0x0A06, true), (0x0A09, true), (0x0A0C, true), (0x0A0D, true),
   (0x0A11, true), (0x0B01, true)]

/-- The digest that custodians sign (R222). -/
def opDigest (s : State) (d : Nat) (id : Bytes) (op epoch expires : Nat) (digest : Bytes) : Bytes :=
  Config.sha512 (ascii "WQA1 ticket" ++ id ++ deviceKeyId s ++ be 2 d ++ be 2 op ++ be 4 epoch ++ be 4 expires ++ digest)

/-- An open ticket of a domain. -/
def ticketOf (x : Domain) (id : Bytes) : Option Ticket := x.tickets.find? (fun t => t.id == id)

/-- End a ticket (R223). -/
def endTicket (s : State) (d : Nat) (id : Bytes) : State :=
  setDom s d (fun x => { x with tickets := x.tickets.filter (fun t => t.id != id) })

/-- A ticket fails the check: the third failure ends it (R223). -/
def failTicket (s : State) (d : Nat) (id : Bytes) : State :=
  setDom s d (fun x => { x with
    tickets := (x.tickets.map (fun t => if t.id = id then { t with fails := t.fails + 1 } else t)).filter
      (fun t => decide (t.fails < 3)) })

/-- One entry of a block: a custodian of the set and a signature of it that verifies. -/
def entryOk (x : Domain) (digest : Bytes) (e : Nat × Bytes) : Bool :=
  match x.set.find? (fun c => c.index == e.1) with
  | some c => Config.edVerify c.signKey (ascii "WQA1 approve" ++ digest) e.2
  | none => false

/-- The quorum check of R225 on the payload without its block. -/
def approvalOk (s : State) (d op : Nat) (body : Bytes) (a : Approval) : Bool :=
  let x := domD s d
  match ticketOf x a.ticket with
  | none => false
  | some t =>
    t.opcode == op && Config.sha512 body == t.digest && decide (tallySec s ≤ t.expires)
      && decide (x.threshold ≤ a.entries.length) && a.entries.all (entryOk x t.opDig)

/-- The check at check 7. A ticket that passes ends at once, or at the commit point of a command that
mutates, where the check runs again (R223, R226). -/
def quorumPass (s : State) (d op : Nat) (body : Bytes) (a : Approval) (mutates : Bool) : Bool × State :=
  if approvalOk s d op body a then (true, if mutates then s else endTicket s d a.ticket)
  else (false, failTicket s d a.ticket)

/-- A ticket ends when Tally time has passed its end (R223). -/
def execTicketExpiry (domain : Nat) (ticket : Bytes) (s : State) : Out :=
  .next (match ticketOf (domD s domain) ticket with
    | some t => if t.expires < tallySec s then endTicket s domain ticket else s
    | none => s)

end Sys2Proof.Machine
end

