-- ==== Sys2Proof/Machine/Forms.lean ====
section
/-! DEFINITION. The requests of the catalogue (R102): the layout of each, its check 4 (R105), and what
admission needs to know of it: its class, the length of its largest completion, its wing operations, the
largest journal record it may commit and the slots it may take. Layouts that the spec does not give
(`SLICE_CREATE`, `SLICE_MODIFY`, `SLICE_REMOVE`, `QP_CONNECT`, `QP_RESET`, `DIRTY_ENABLE`, `QUOTA_SET`,
`ARCHIVE_SNAPSHOT`) are the model's (log 20, DESIGN CHOICE). -/

namespace Sys2Proof.Machine

/-- What admission needs to know of a command. -/
structure Plan where
  cls    : DClass
  out    : Nat
  steps  : List Step4
  record : Option Nat
  slots  : Nat
  deriving DecidableEq, Repr

/-- A command without wing work. -/
def plainPlan (cls : DClass) (out : Nat) : Plan :=
  { cls := cls, out := out, steps := [], record := none, slots := 0 }

/-- A command that commits a mutation with a record of at most `n` bytes. -/
def mutPlan (cls : DClass) (out n : Nat) : Plan := { plainPlan cls out with record := some n }

/-- A plan when a layout holds. -/
def planIf (b : Bool) (p : Plan) : Option Plan := if b then some p else none

/-- Slots and record of a secret of an algorithm. -/
def secretPlan (p : Plan) (key : Option (Nat × Nat)) : Plan :=
  match key.bind (fun k => materialLen k.1 k.2) with
  | some m => { p with record := some (160 + m), slots := slotsFor m }
  | none => { p with record := some 96 }

/-! ### Keyed commands and contexts -/

/-- Largest completion of a keyed command. -/
def keyedOut (k : Keyed) : Nat := 8 + max (k.req.data.length + 32) (max k.prm.outLen 5000)

/-- Whether a face journals every use (R209). -/
def journalsUse (s : State) (a h : Nat) : Bool :=
  match resolve s a h with
  | some (_, _, _, f) => decide (f.limit ≤ 2 ^ 20)
  | none => false

/-- A plan of a command that uses the faces of some handles: a use that is journalled is a mutation (R143, R209). -/
def usePlan (s : State) (a : Nat) (hs : List Nat) (r : Plan) : Plan :=
  if r.record = none ∧ hs.any (journalsUse s a) then { r with record := some (96 * hs.length) } else r

def keyedPlan (s : State) (a op : Nat) (p : Bytes) : Option Plan :=
  (keyedOf op p).map (fun k =>
    let r : Plan := { plainPlan k.cls (keyedOut k) with steps := keyedSteps op k }
    let r := if op = 0x0303 ∨ op = 0x0304 ∨ op = 0x0305 ∨ op = 0x0503 then secretPlan r k.prm.tmpl.key else r
    usePlan s a [k.req.handle] r)

/-- The context that an alcove holds under an identifier and that still has its state (R294, R303). -/
def ctxOf (s : State) (a id : Nat) : Option Context :=
  ((alc s a).bind (fun x => tget x.contexts id)).bind (fun c => if c.present then some c else none)

/-- Whether a context is one of a decryption or verification. -/
def ctxChecks (c : Context) : Bool := c.decrypt || c.verify

/-- A `CONTEXT_UPDATE` or `CONTEXT_FINAL` request (R296). -/
structure CtxReq where
  id   : Nat
  tag  : Bytes
  data : Bytes
  deriving DecidableEq, Repr

def ctxReq (p : Bytes) : Option CtxReq :=
  if 32 ≤ p.length ∧ p.length = 32 + fld p 8 4 ∧ zeroAt p 4 4 ∧ zeroAt p 12 4 then
    some { id := fld p 0 4, tag := slice p 16 16, data := p.drop 32 }
  else none

/-- Family and opcode that class and cost of a context's parts follow; a context that is not held takes
those of a parallel mode and is refused at check 8. -/
def ctxFam (c : Option Context) : Fam × Nat :=
  match c with
  | some c => ((famOf c.mech).getD .ctr, if c.decrypt then 0x0202 else 0x0201)
  | none => (.ctr, 0x0201)

def ctxPlan (s : State) (a : Nat) (final : Bool) (p : Bytes) : Option Plan :=
  match ctxReq p with
  | none => none
  | some r =>
    let c := ctxOf s a r.id
    let f := ctxFam c
    let tagUsed : Bool := final && (match c with
      | some x => ctxChecks x && f.1 != .cbc && f.1 != .ctr
      | none => true)
    if tagUsed = false ∧ allZero r.tag = false then none
    else
      (famClass f.1 f.2 0 r.data.length).map (fun cls => usePlan s a (c.map (fun x => x.handle)).toList
        { plainPlan cls (8 + r.data.length + 16) with
          steps := [cipherCost f.1 (f.2 == 0x0201) noPrm r.data.length] })

/-- Slots of a `CONTEXT_OPEN`: hash subkey, pre-counter block and AAD, or the CMAC subkey; an open of CBC
or CTR takes the face and no slot. -/
def openSteps (k : Keyed) : List Step4 :=
  match k.fam with
  | .gcm => [cipherCost .gcm true k.prm 0]
  | .gmac => [cipherCost .gmac true k.prm 0]
  | .cmac => [cipherCost .cmac true k.prm 0]
  | _ => [cipherCost .ctr true k.prm 0]

/-! ### Keys -/

/-- A generation request (R117). -/
structure GenReq where
  algo : Nat
  bits : Nat
  t0   : Template
  t1   : Option Template
  deriving DecidableEq, Repr

def genReq (pair : Bool) (p : Bytes) : Option GenReq :=
  let algo := fld p 0 2
  let bits := fld p 2 2
  let n := fld p 4 1
  if p.length < 8 ∨ zeroAt p 5 3 = false ∨ (materialLen algo bits).isNone ∨ isAsym algo ≠ pair
      ∨ (n ≠ 1 ∧ n ≠ 2) ∨ (pair ∧ n ≠ 2) then none
  else
    match makeTemplate (p.drop 8) false with
    | none => none
    | some (t0, l0) =>
      if n = 1 then (if p.length = 8 + l0 then some { algo := algo, bits := bits, t0 := t0, t1 := none } else none)
      else
        match makeTemplate (p.drop (8 + l0)) false with
        | none => none
        | some (t1, l1) =>
          if p.length = 8 + l0 + l1 then some { algo := algo, bits := bits, t0 := t0, t1 := some t1 } else none

def genPlan (pair : Bool) (p : Bytes) : Option Plan :=
  (genReq pair p).map (fun r =>
    { secretPlan (plainPlan .d4 16) (some (r.algo, r.bits)) with
      steps := if pair then [pkStep (genProg r.algo) r.bits] else [] })

/-- Steps of wrapping material of `m` bytes under a mechanism; `head` is the length of an envelope's additional data (R145,
R191). -/
def wrapStep (mech head m : Nat) : Step4 :=
  if mech = 0x50 then
    let n := ceilDiv m 16 + ceilDiv head 16 + 2
    cipherStep n (n + 54)
  else serialStep (6 * ceilDiv m 8)

def isWrapMech (m : Nat) : Bool := m == 0x30 || m == 0x31 || m == 0x50

/-- The material length of a secret that a handle names, and the length of the head of its envelope. -/
def targetLens (s : State) (a h : Nat) : Nat × Nat :=
  match resolve s a h with
  | some (_, _, sec, _) =>
    (sec.material.length, 40 + 24 * (sec.face0.toList ++ sec.face1.toList).countP (fun f => f.wrapped))
  | none => (0, 0)

def wrapPlan (s : State) (a : Nat) (p : Bytes) : Option Plan :=
  let m := targetLens s a (fld p 8 8)
  planIf (p.length == 24 && isWrapMech (fld p 16 2) && zeroAt p 18 6)
    (usePlan s a [fld p 0 8] { plainPlan .d1 (124 + m.1) with steps := [wrapStep (fld p 16 2) m.2 m.1] })

/-- An envelope's layout and the ranges of its fields (R191, R193). -/
def envelopeOk (b : Bytes) : Bool :=
  let n := fld b 5 1
  let fs := (List.range n).map (fun i => slice b (40 + 24 * i) 24)
  fld b 0 4 == 0x57454E56 && fld b 4 1 == 1 && (n == 1 || n == 2) && decide (fld b 10 1 ≤ 3) && zeroAt b 11 1
    && materialLen (fld b 6 2) (fld b 8 2) == some (fld b 12 4)
    && bitOf (fld b 10 1) 1 == isAsym (fld b 6 2) && zeroAt b 36 4
    && b.length == 40 + 24 * n + fld b 12 4 + 16
    && fs.all (fun f => decide (fld f 0 1 ≤ 1) && (useOf (fld f 1 1)).isSome && decide (fld f 2 1 ≤ 3) && zeroAt f 3 1
        && decide (fld f 4 4 ≤ 0xFFFFFFFE) && decide (fld f 4 4 ≤ fld f 8 4) && decide (1 ≤ fld f 8 4)
        && decide (1 ≤ fld f 12 8 ∧ fld f 12 8 ≤ 2 ^ 40) && zeroAt f 20 4)
    && rising (fs.map (fun f => fld f 0 1))

/-- A `KEY_UNWRAP` request. -/
structure UnwrapReq where
  handle : Nat
  mech   : Nat
  tmpl   : Template
  blob   : Bytes
  body   : Bytes
  appr   : Option Approval
  deriving DecidableEq, Repr

/-- An approval block that may be absent at the end of a payload. -/
def maybeApproval (p : Bytes) (o : Nat) : Option (Option Approval) :=
  if p.length = o then some none else (approvalAt p o).map some

def unwrapReq (p : Bytes) : Option UnwrapReq :=
  let mech := fld p 8 2
  let tl := fld p 10 2
  let bl := fld p 12 4
  if p.length < 16 + tl + bl ∨ isWrapMech mech = false then none
  else
    let blob := slice p (16 + tl) bl
    let t := if mech = 0x50 then (if tl = 0 ∧ envelopeOk blob then some noTemplate else none)
      else (makeTemplate (slice p 16 tl) true).bind (fun x => if x.2 = tl then some x.1 else none)
    match t, maybeApproval p (16 + tl + bl) with
    | some t, some a =>
      some { handle := fld p 0 8, mech := mech, tmpl := t, blob := blob, body := p.take (16 + tl + bl), appr := a }
    | _, _ => none

/-- The algorithm that an unwrap makes a secret of. -/
def unwrapKey (r : UnwrapReq) : Option (Nat × Nat) :=
  if r.mech = 0x50 then some (fld r.blob 6 2, fld r.blob 8 2) else r.tmpl.key

/-- The wing operations of an unwrap: the cipher operation on the material, which an integrity block of 8 bytes precedes outside an
envelope, and for an asymmetric secret program 0x40, for which R144 has no row (R145, R290, R334; DEDUCED, log 50). -/
def unwrapSteps (r : UnwrapReq) : List Step4 :=
  let m := if r.mech = 0x50 then fld r.blob 12 4 else r.blob.length - 8
  wrapStep r.mech (40 + 24 * fld r.blob 5 1) m
    :: (if (unwrapKey r).any (fun x => isAsym x.1) then [pkStep 0x40 0] else [])

def unwrapPlan (p : Bytes) : Option Plan :=
  (unwrapReq p).map (fun r => { secretPlan (plainPlan .d1 16) (unwrapKey r) with steps := unwrapSteps r })

/-- A handle and the template that changes its face (R122). -/
def changeReq (p : Bytes) (share : Bool) : Option (Nat × Template) :=
  match template (p.drop 8) with
  | none => none
  | some (t, n) =>
    if p.length = 8 + n ∧ t.cls = none ∧ t.quorum = none ∧ t.pay = none ∧ t.key = none
        ∧ (share = false ∨ (t.owners.isSome ∧ t.wrapped = none ∧ t.nb = none ∧ t.na = none ∧ t.limit = none)) then
      some (fld p 0 8, t)
    else none

/-! ### Payment -/

def pinFormat (n : Nat) : Bool := n == 0 || n == 1 || n == 3 || n == 4

/-- BCD digits, left-justified, padded with 0xF. -/
def bcdOk (n : Nat) (b : Bytes) : Bool :=
  (nibbles b).take n |>.all (fun d => decide (d ≤ 9)) |> (fun x => x && ((nibbles b).drop n).all (fun d => d == 15))

/-- The layout of `PIN_TRANSLATE` (R123). -/
def pinOk (p : Bytes) : Bool :=
  let fi := fld p 16 1
  let fo := fld p 17 1
  let n := fld p 18 1
  p.length == 48 && pinFormat fi && pinFormat fo && (n == 0 || decide (12 ≤ n ∧ n ≤ 19)) && zeroAt p 19 1
    && bcdOk n (slice p 20 10) && zeroAt p 30 2 && (fi == 4 || zeroAt p 40 8)
    && (n != 0 || (fi == 1 && fo == 1))

/-- The sides of a translation: legacy blocks, or serial cipher slots for format 4 (R147). -/
def pinSteps (p : Bytes) : List Step4 :=
  let n := b2n (fld p 16 1 != 4) + b2n (fld p 17 1 != 4)
  (if n = 0 then [] else [legacyStep (6 * n)]) ++ (if n = 2 then [] else [serialStep (3 * (2 - n))])

/-- Bytes as upper-case hexadecimal characters, and back. -/
def toHex (l : Bytes) : Bytes := (nibbles l).map hexDigit
def fromHex (l : Bytes) : Option Bytes :=
  let v := l.map hexVal
  if l.length % 2 = 0 ∧ v.all Option.isSome then some (packNibbles (v.map (fun x => x.getD 0))) else none

/-- Decimal digits as a number. -/
def decOf (l : Bytes) : Option Nat :=
  if l.all (fun b => decide (48 ≤ b.toNat ∧ b.toNat ≤ 57)) then some (l.foldl (fun a b => a * 10 + (b.toNat - 48)) 0)
  else none

/-- Length of the optional blocks of a key block's header: `n` blocks at the front of a string. -/
def optLen : Nat → Bytes → Option Nat
  | 0, _ => some 0
  | n + 1, l =>
    match fromHex (slice l 2 2) with
    | none => none
    | some v =>
      let len := if beNat v ≠ 0 then some (beNat v)
        else if slice l 4 2 = ascii "02" then (fromHex (slice l 6 4)).map beNat else none
      match len with
      | none => none
      | some m => if m < 4 ∨ l.length < m then none else (optLen n (l.drop m)).map (fun r => m + r)

/-- Binary length of a key block: its header as it is, and the bytes that its hexadecimal characters spell (R147; DEDUCED, log
50). -/
def blockBinary (b : Bytes) : Nat :=
  let h := 16 + (((decOf (slice b 12 2)).bind (fun n => optLen n (b.drop 16))).getD 0)
  h + (b.length - h) / 2

/-- Binary length of the block that carries material of `m` bytes: header, length and padded key, MAC (R147). -/
def blockOutLen (tdes : Bool) (m : Nat) : Nat :=
  let n := if tdes then 8 else 16
  16 + roundUp (2 + m) n + n

/-- A key block's wing operation (R147): `len` bytes, version B or D. -/
def blockStep (b : Bool) (len : Nat) : Step4 :=
  if b then legacyStep (2 * ceilDiv len 8 + 4) else serialStep (2 * ceilDiv len 16 + 4)

def keyblockOutOk (p : Bytes) : Bool :=
  p.length == 24 && (fld p 16 1 == 0x42 || fld p 16 1 == 0x44)
    && (fld p 22 1 == 0x4E || fld p 22 1 == 0x45 || fld p 22 1 == 0x53) && zeroAt p 23 1

/-- A `KEYBLOCK_IMPORT` request: template and block (DEDUCED, log 50). -/
def keyblockIn (p : Bytes) : Option (Template × Bytes) :=
  let tl := fld p 8 2
  let bl := fld p 12 4
  if p.length < 16 ∨ p.length ≠ 16 + tl + bl ∨ zeroAt p 10 2 = false ∨ bl < 16
      ∨ (fld p (16 + tl) 1 ≠ 0x42 ∧ fld p (16 + tl) 1 ≠ 0x44) then none
  else
    (template (slice p 16 tl)).bind (fun x =>
      if x.2 = tl ∧ x.1.key = none then some (x.1, slice p (16 + tl) bl) else none)

/-! ### Stewards' commands -/

/-- A `SLICE_CREATE` or `SLICE_MODIFY` request (log 20). -/
structure SliceReq where
  pid    : Nat
  imm    : Bool
  log    : Bool
  mech   : Nat
  handle : Nat
  qp     : Option Nat
  frames : Nat
  bytes  : Nat
  region : Option (Nat × Nat × Nat)
  deriving DecidableEq, Repr

def sliceReq (p : Bytes) : Option SliceReq :=
  let fl := fld p 4 2
  let base := fld p 32 8
  let len := fld p 40 8
  if p.length = 56 ∧ fld p 0 4 < 2 ^ 20 ∧ fl < 16 ∧ zeroAt p 18 2 ∧ zeroAt p 52 4 ∧ (famOf (fld p 6 2)).isSome
      ∧ (bitOf fl 2 = false ∨ fld p 16 2 < 4096)
      ∧ (bitOf fl 3 = false ∨ (bitOf fl 2 ∧ base % 4096 = 0 ∧ 4096 ≤ len ∧ len ≤ 2 ^ 40)) then
    some { pid := fld p 0 4, imm := bitOf fl 0, log := bitOf fl 1, mech := fld p 6 2, handle := fld p 8 8
           qp := if bitOf fl 2 then some (fld p 16 2) else none, frames := fld p 20 4, bytes := fld p 24 8
           region := if bitOf fl 3 then some (base, len, fld p 48 4) else none }
  else none

/-- The layout of `QP_CONNECT` (R85, R86; log 20). -/
def qpOk (p : Bytes) : Bool :=
  p.length == 32 && decide (fld p 0 2 < 4096)
    && (fld p 2 2 == 1024 || fld p 2 2 == 2048 || fld p 2 2 == 4096) && decide (fld p 4 1 ≤ 31)
    && decide (fld p 5 1 ≤ 7) && decide (fld p 6 1 ≤ 7) && zeroAt p 7 1 && decide (fld p 8 4 < 2 ^ 24) && zeroAt p 12 4

/-- The entries of a `CLIENT_KEY_SET`: adds, role and key (R660). -/
def keyEntries (p : Bytes) : List (Bool × Nat × Bytes) :=
  (List.range (fld p 0 1)).map (fun i =>
    (fld p (8 + 40 * i) 1 == 1, fld p (9 + 40 * i) 1, slice p (16 + 40 * i) 32))

def keySetOk (p : Bytes) : Bool :=
  let n := fld p 0 1
  decide (1 ≤ n ∧ n ≤ 64) && p.length == 8 + 40 * n && zeroAt p 1 7
    && (List.range n).all (fun i =>
      decide (1 ≤ fld p (8 + 40 * i) 1 ∧ fld p (8 + 40 * i) 1 ≤ 2) && decide (fld p (9 + 40 * i) 1 ≤ 3)
        && zeroAt p (10 + 40 * i) 6)

/-! ### Custodians -/

/-- The records of a `CUSTODIANS_SET` (R217) and where the approval block begins. -/
def custPart (p : Bytes) : List Bytes := custRecs (fld p 0 1) (p.drop 8)
def custEnd (p : Bytes) : Nat := 8 + 1252 * fld p 0 1

def custReqOk (p : Bytes) : Bool :=
  zeroAt p 2 2 && custSetOk (fld p 1 1) (fld p 0 1) (fld p 4 4) (custPart p) && (approvalAt p (custEnd p)).isSome

/-- The rates of a `QUOTA_SET`, classes 0 to 5 and stream bytes (log 20). -/
def quotaRates (p : Bytes) : List Nat := (List.range 7).map (fun i => fld p (8 + 8 * i) 8)

/-- The envelopes of a `ROOT_RESTORE` (R232). -/
def restoreParts (p : Bytes) : List Bytes := (List.range (fld p 0 1)).map (fun i => slice p (8 + 1192 * i) 1192)

/-! ### Management -/

/-- The keys of an `ALCOVE_CREATE` or `ALCOVE_CONFIGURE` (R661). -/
def stewardKeys (p : Bytes) : List Bytes := (List.range (fld p 72 1)).map (fun i => slice p (80 + 32 * i) 32)

/-- Alcove 0 of the other side of a pair, where the image in force names it (R549, R551). -/
def otherZero (s : State) : Option AlcoveSettings :=
  if (tagged (secItems (cfgSlot s) 6) 0x0605).isEmpty then none else alcoveZero (cfgSlot s) (1 - s.twin.side)

/-- The alcoves of this device and its partner but alcove 0. -/
def pairSets (s : State) : List AlcoveSettings :=
  (s.net.alcoves.filter (fun e => e.1 != 0)).map (fun e => e.2.set) ++ s.twin.alcoves.map (fun e => e.2.set)

/-- Whether an alcove's settings collide with those of no other alcove (R43). -/
def alcoveApart (s : State) (x : AlcoveSettings) : Bool :=
  (pairSets s).all (fun y => y.alcove == x.alcove || !collide x y)
    && ((alc s 0).map (fun z => z.set)).all (fun y => x.alcove == 0 || !collide x y)
    && (otherZero s).all (fun y => !collide x y)

def alcoveReqOk (s : State) (p : Bytes) : Bool :=
  let x := alcoveOf (p.take 72)
  decide (fld p 72 1 ≤ 16) && p.length == 80 + 32 * fld p 72 1 && alcoveOk (p.take 72) && zeroAt p 73 7
    && noDup (stewardKeys p) && alcoveApart s x

/-- The bodies of the sections that a `SECTION_LOAD` names, with their numbers. -/
def namedSecs (m : Nat) : List Nat := ([1, 2, 3, 4, 5, 6, 7, 8] : List Nat).filter (fun n => bitOf m (n - 1))
def cutNamed (head : Bytes) : List Nat → Bytes → List (Nat × Bytes)
  | [], _ => []
  | n :: r, l => (n, l.take (dirLen head n)) :: cutNamed head r (l.drop (dirLen head n))

def secHead (p : Bytes) : Bytes := slice p 16 768
def secLoad (p : Bytes) : List (Nat × Bytes) :=
  cutNamed (secHead p) (namedSecs (fld p 0 1)) (slice p 784 (fld p 4 4))

/-- The image that a head and bodies make with the other bodies of a slot. -/
def mergeConfig (cur : Config8) (head : Bytes) (bodies : List (Nat × Bytes)) : Config8 :=
  { head := head
    bodies := slotSections.map (fun n => (n, ((bodies.find? (fun e => e.1 == n)).map (·.2)).getD (bodyOf cur n))) }

/-- Whether a load gives no two alcoves the same address: section 2 gives every alcove; without it, a new section 6 gives
the identity of alcove 0 of side 1 (R43, R532, R551). -/
def loadApart (s : State) (l : List (Nat × Bytes)) : Bool :=
  let c := mergeConfig (cfgSlot s) [] l
  if l.any (fun e => e.1 == 2) then imageApart c
  else if l.any (fun e => e.1 == 6) then noCollide (pairSets s ++ zerosIn c)
  else true

/-- Whether a named section 6 changes the configuration authority (R237). -/
def changesAuthority (s : State) (l : List (Nat × Bytes)) : Bool :=
  l.any (fun e => e.1 == 6 && authorityIn ((itemsOf e.2).getD []) != s.boot.authority)

/-- Whether a `SECTION_LOAD` needs its approval block (R218, R236, R237). -/
def loadNeedsQuorum (s : State) (p : Bytes) : Bool := s.boot.authority.isNone || changesAuthority s (secLoad p)

def secReqOk (s : State) (p : Bytes) : Bool :=
  let m := fld p 0 1
  let l := secLoad p
  784 ≤ p.length && m != 0 && zeroAt p 1 3 && zeroAt p 8 8 && headOk (secHead p)
    && fld p 4 4 == sumNat ((namedSecs m).map (dirLen (secHead p)))
    && l.all (fun e => sectionOk e.1 e.2) && loadApart s l
    && (s.fc.service != .recovery || imageValid s (cfgSlot s) || m % 128 == 127)
    && (if loadNeedsQuorum s p then (approvalAt p (784 + fld p 4 4)).isSome else p.length == 784 + fld p 4 4)

def lifeReqOk (p : Bytes) : Bool :=
  let t := fld p 0 1
  48 ≤ p.length && decide (t ≤ 6) && zeroAt p 1 7 && zeroAt p 44 4 && (t == 3 || zeroAt p 8 36)
    && (approvalAt p (48 + fld p 40 4)).isSome

def debugReqOk (p : Bytes) : Bool :=
  decide (fld p 0 1 < 16) && zeroAt p 1 3 && (zeroAt p 4 4 || decide (60 ≤ fld p 4 4 ∧ fld p 4 4 ≤ 86400))
    && (approvalAt p 8).isSome

/-- The unit kind of a code (R535) and how many it has. -/
def unitKindOf (n : Nat) : Option (UnitKind × Nat) :=
  match n with
  | 1 => some (.cipherBay, 4)
  | 2 => some (.pkBay, 6)
  | 3 => some (.lane, 8)
  | 4 => some (.legacy, 1)
  | _ => none

def unitReqOk (p : Bytes) : Bool :=
  p.length == 8 && zeroAt p 2 6 && (match unitKindOf (fld p 0 1) with
    | some (_, n) => decide (fld p 1 1 < n)
    | none => false)

def updateReqOk (p : Bytes) : Bool :=
  let c := fld p 0 1
  let n := fld p 4 4
  let img := slice p 16 n
  16 ≤ p.length && decide (c ≤ 4) && (fld p 1 1 == 0 || fld p 1 1 == 1 || fld p 1 1 == 3) && zeroAt p 2 2
    && zeroAt p 8 8 && decide (n ≤ 1040384) && (approvalAt p (16 + n)).isSome
    && (if c = 0 then n == 0 else if c = 4 then ucShape (img.drop 64) else fwShape c img)

def recordReqOk (p : Bytes) : Bool :=
  let f := fld p 0 1
  let n := fld p 16 2
  p.length == 24 && decide (f ≤ 3) && zeroAt p 1 7 && zeroAt p 18 6 && (f != 0 || decide (1 ≤ n ∧ n ≤ 16))
    && (f != 2 || decide (1 ≤ n ∧ n ≤ 64))

def resealBody (p : Bytes) : Bytes := slice p 784 (fld p 4 4)
def resealImage (p : Bytes) : Bytes := slice p (784 + fld p 4 4) (fld p 8 4)

def resealReqOk (p : Bytes) : Bool :=
  let f := fld p 0 1
  784 ≤ p.length && decide (1 ≤ f ∧ f ≤ 3) && zeroAt p 1 3 && zeroAt p 12 4
    && (if bitOf f 0 then headOk (secHead p) && dirLen (secHead p) 8 == fld p 4 4 && sectionOk 8 (resealBody p)
        else zeroAt p 16 768 && fld p 4 4 == 0)
    && (if bitOf f 1 then fwShape 5 (resealImage p) else fld p 8 4 == 0)
    && (approvalAt p (784 + fld p 4 4 + fld p 8 4)).isSome

def regReadOk (p : Bytes) : Bool :=
  let n := fld p 0 2
  decide (1 ≤ n ∧ n ≤ 64) && zeroAt p 2 2 && p.length == 4 + 4 * n

def regWriteOk (p : Bytes) : Bool :=
  let n := fld p 0 2
  decide (1 ≤ n ∧ n ≤ 16) && zeroAt p 2 2 && (approvalAt p (4 + 12 * n)).isSome

/-- Where the approval block of `TWIN_PAIR` begins (R545). -/
def pairEnd (p : Bytes) : Nat := if fld p 0 1 = 1 then 1014 + fld p 4 4 else 8

/-- The certificates of a chain, each behind its 2-byte length; none when the chain is cut short. -/
def chainCerts : Nat → Bytes → Option (List Bytes)
  | 0, l => if l.isEmpty then some [] else none
  | n + 1, l =>
    if l.isEmpty then some []
    else if l.length < 2 + fld l 0 2 then none
    else (chainCerts n (l.drop (2 + fld l 0 2))).map (fun r => slice l 2 (fld l 0 2) :: r)

def pairChain (p : Bytes) : Option (List Bytes) := chainCerts 6 (slice p 1014 (fld p 4 4))

/-- Tags of a statement in their order, with the length of each value (R263). -/
def statementTags : List (Nat × Nat) :=
  [(0x01, 32), (0x02, 16), (0x03, 32), (0x04, 16), (0x05, 2), (0x06, 4), (0x07, 2), (0x11, 132), (0x12, 132),
   (0x13, 132), (0x14, 132), (0x20, 64), (0x21, 16), (0x22, 72), (0x23, 68), (0x24, 14), (0xFF, 64)]

/-- Whether a statement has every item once, in order, with its length (R263, R264). -/
def statementShape (st : Bytes) : Bool :=
  st.length == 1006 && fld st 0 4 == 0x5753544D && fld st 4 1 == 1 && zeroAt st 5 1 && fld st 6 2 == 998
    && ((itemsOf (st.drop 8)).map (fun l => l.map (fun i => (i.1, i.2.length)))) == some statementTags

/-- An item of a statement. -/
def statementItem (st : Bytes) (tag : Nat) : Bytes := firstOf ((itemsOf (st.drop 8)).getD []) tag []

def pairReqOk (p : Bytes) : Bool :=
  let f := fld p 0 1
  decide (1 ≤ f ∧ f ≤ 3) && zeroAt p 1 3 && (f == 1 || zeroAt p 4 4)
    && (f != 1 || (statementShape (slice p 8 1006) && (pairChain p).isSome))
    && (approvalAt p (pairEnd p)).isSome

/-- Body lengths of `GRANT_INSTALL` (R574); a grant carries an envelope of any length. -/
def grantReqOk (p : Bytes) : Bool :=
  let f := fld p 0 1
  8 ≤ p.length && zeroAt p 1 7 && (match f with
    | 0 => p.length == 8
    | 1 => p.length == 16 && zeroAt p 10 2 && decide (fld p 8 1 ≤ 63) && decide (fld p 9 1 ≤ 15)
        && fld p 12 4 % 4096 == 0
    | 2 => p.length == 16 && zeroAt p 12 4 && fld p 8 4 % 4096 == 0
    | 3 => p.length == 16 + 1192 && decide (fld p 8 2 ≤ 256) && zeroAt p 10 6
    | 4 => envelopeOk (p.drop 24) && zeroAt p 20 4
    | 5 => p.length == 16
    | _ => false)

/-- Layout of the migration commands (R577): `key` phases carry an envelope, `chunk` phases a chunk. -/
def migrateReqOk (inn : Bool) (p : Bytes) : Bool :=
  let ph := fld p 0 1
  16 ≤ p.length && zeroAt p 1 1 && decide (fld p 2 2 ≤ 1023) && zeroAt p 9 7
    && (if ph = 1 then p.length == 16 + 1192
        else if ph = 5 then p.length == 16
        else if inn then (ph == 2 || ph == 3) && decide (56 ≤ p.length)
        else (ph == 2 || ph == 3 || ph == 4) && p.length == 16)

/-! ### The catalogue -/

/-- Whether a payload is `n` bytes of which those from `o` on are zero. -/
def zeroTail (p : Bytes) (n o : Nat) : Bool := p.length == n && zeroAt p o (n - o)

/-- Check 4 of R105 for every opcode of R102: what admission needs, or none for `FORMAT_INVALID`. -/
def planOf (s : State) (a op : Nat) (p : Bytes) : Option Plan :=
  match op with
  | 0x0101 => planIf (zeroTail p 8 0) (plainPlan .d1 24)
  | 0x0102 => planIf (p.length == 8) (plainPlan .d1 72)
  | 0x0103 => planIf (zeroTail p 8 0) (plainPlan .d1 24)
  | 0x0201 => keyedPlan s a op p
  | 0x0202 => keyedPlan s a op p
  | 0x0203 => keyedPlan s a op p
  | 0x0204 => keyedPlan s a op p
  | 0x0205 => keyedPlan s a op p
  | 0x0210 => (openOf p).map (fun k => usePlan s a [k.req.handle] { plainPlan .d1 24 with steps := openSteps k })
  | 0x0211 => ctxPlan s a false p
  | 0x0212 => ctxPlan s a true p
  | 0x0213 => planIf (zeroTail p 8 5 && decide (fld p 4 1 < 2)) (plainPlan .d1 288)
  | 0x0214 => planIf (p.length == 288 && fld p 0 4 == 0x57435458 && fld p 4 1 == 1 && zeroAt p 5 1 && zeroAt p 10 2)
      (plainPlan .d1 8)
  | 0x0215 => planIf (zeroTail p 8 4) (plainPlan .d1 0)
  | 0x0301 => keyedPlan s a op p
  | 0x0302 => keyedPlan s a op p
  | 0x0303 => keyedPlan s a op p
  | 0x0304 => keyedPlan s a op p
  | 0x0305 => keyedPlan s a op p
  | 0x0306 => keyedPlan s a op p
  | 0x0307 => keyedPlan s a op p
  | 0x0401 => planIf (zeroTail p 8 4 && decide (1 ≤ fld p 0 4 ∧ fld p 0 4 ≤ 4096))
      { plainPlan .d1 (fld p 0 4) with steps := [randomStep (fld p 0 4)] }
  | 0x0501 => genPlan false p
  | 0x0502 => genPlan true p
  | 0x0503 => keyedPlan s a op p
  | 0x0504 => wrapPlan s a p
  | 0x0505 => unwrapPlan p
  | 0x0506 => planIf (p.length == 8) (mutPlan .d1 0 96)
  | 0x0507 => planIf (p.length == 8) (mutPlan .d1 0 96)
  | 0x0508 => (changeReq p false).map (fun _ => mutPlan .d1 0 96)
  | 0x0509 => (changeReq p true).map (fun _ => mutPlan .d1 0 96)
  | 0x050A => planIf (p.length == 8) (plainPlan .d1 2700)
  | 0x0601 => planIf (pinOk p) (usePlan s a [fld p 0 8, fld p 8 8] { plainPlan .d1 16 with steps := pinSteps p })
  | 0x0602 => planIf (keyblockOutOk p) (usePlan s a [fld p 0 8]
      { plainPlan .d1 400 with
        steps := [blockStep (fld p 16 1 == 0x42) (blockOutLen (fld p 16 1 == 0x42) (targetLens s a (fld p 8 8)).1)] })
  | 0x0603 => (keyblockIn p).map (fun x =>
      { plainPlan .d1 16 with
        steps := [blockStep (fld x.2 0 1 == 0x42) (blockBinary x.2)], record := some 224, slots := 1 })
  | 0x0701 => (sliceReq p).map (fun _ => plainPlan .d1 0)
  | 0x0702 => (sliceReq p).map (fun _ => plainPlan .d1 0)
  | 0x0703 => planIf (zeroTail p 8 4 && decide (fld p 0 4 < 2 ^ 20)) (plainPlan .d1 0)
  | 0x0704 => planIf (qpOk p) (plainPlan .d1 8)
  | 0x0705 => planIf (zeroTail p 8 2 && decide (fld p 0 2 < 4096)) (plainPlan .d1 0)
  | 0x0706 => planIf (zeroTail p 8 4 && decide (fld p 0 4 < 2 ^ 20)) (plainPlan .d1 0)
  | 0x0707 => planIf (zeroTail p 16 10 && decide (fld p 0 4 < 2 ^ 20)
      && decide (1 ≤ fld p 8 2 ∧ fld p 8 2 ≤ 1024)) (plainPlan .d1 (8 * fld p 8 2))
  | 0x0708 => planIf (zeroTail p 8 1 && (decide (fld p 0 1 ≤ 15) || fld p 0 1 == 0xFF)) (plainPlan .d1 0)
  | 0x0709 => planIf (zeroTail p 8 0) (mutPlan .d5 0 96)
  | 0x070A => planIf (p.length == 24 && decide (fld p 0 1 ≤ 1) && zeroAt p 1 7
      && decide (1 ≤ fld p 16 2 ∧ fld p 16 2 ≤ 8) && zeroAt p 18 6) (plainPlan .d1 (8 + 1568 * fld p 16 2))
  | 0x070B => planIf (keySetOk p) (mutPlan .d5 0 (32 + 32 * fld p 0 1))
  | 0x0801 => planIf (p.length == 72 && zeroAt p 2 6 && quorumOps.any (fun q => q.1 == fld p 0 2))
      (plainPlan .d1 1328)
  | 0x0802 => planIf (zeroAt p 0 8 && (approvalAt p 8).isSome) (mutPlan .d4 19088 3872)
  | 0x0803 => planIf (decide (1 ≤ fld p 0 1 ∧ fld p 0 1 ≤ 16) && decide ((domD s (domainOf s a)).threshold ≤ fld p 0 1)
      && zeroAt p 1 7 && (restoreParts p).all (fun e => zeroAt e 1 7)
      && (approvalAt p (8 + 1192 * fld p 0 1)).isSome) (mutPlan .d4 8 3872)
  | 0x0804 => planIf (zeroAt p 0 8 && (approvalAt p 8).isSome) (plainPlan .d4 19088)
  | 0x0805 => planIf (zeroAt p 4 4 && (approvalAt p 64).isSome) (mutPlan .d5 0 96)
  | 0x0806 => planIf (custReqOk p) (mutPlan .d5 0 3872)
  | 0x0901 => planIf (zeroTail p 8 1 && decide (fld p 0 1 ≤ 2)) (plainPlan .d1 4096)
  | 0x0902 => planIf (p.length == 40 && decide (fld p 0 1 ≤ 1) && zeroAt p 1 7)
      (if fld p 0 1 = 1 then { mutPlan .d1 0 96 with slots := 1 } else plainPlan .d1 80)
  | 0x0903 => planIf (p.length == 32) { plainPlan .d2 1006 with steps := [pkStep 0x01 0] }
  | 0x0904 => planIf (zeroTail p 16 10 && decide (1 ≤ fld p 8 2 ∧ fld p 8 2 ≤ 8)) (plainPlan .d1 (16 + 4096 * fld p 8 2))
  | 0x0905 => planIf (p.length == 40 + fld p 32 4 && decide (1 ≤ fld p 32 4 ∧ fld p 32 4 ≤ 65536) && zeroAt p 36 4)
      { plainPlan .d2 216 with steps := [pkStep 0x01 0] }
  | 0x0A01 => planIf (alcoveReqOk s p) (mutPlan .d5 0 (32 + 72 + 32 * fld p 72 1))
  | 0x0A02 => planIf (alcoveReqOk s p) (mutPlan .d5 0 (32 + 72 + 32 * fld p 72 1))
  | 0x0A03 => planIf (zeroTail p 8 2) (mutPlan .d5 0 96)
  | 0x0A04 => planIf (secReqOk s p) (plainPlan .d5 72)
  | 0x0A05 => planIf (lifeReqOk p) (plainPlan .d5 0)
  | 0x0A06 => planIf (debugReqOk p) (plainPlan .d5 8)
  | 0x0A07 => planIf (unitReqOk p) (plainPlan .d5 0)
  | 0x0A08 => planIf (unitReqOk p) (plainPlan .d5 0)
  | 0x0A09 => planIf (updateReqOk p) (plainPlan .d5 8)
  | 0x0A0A => planIf (zeroTail p 8 0) (plainPlan .d4 0)
  | 0x0A0B => planIf (recordReqOk p) (plainPlan .d1 (16 + 35276 * max 1 (fld p 16 2)))
  | 0x0A0C => planIf (resealReqOk p) (plainPlan .d5 0)
  | 0x0A0D => planIf (zeroAt p 1 7 && (approvalAt p 8).isSome) (mutPlan .d5 0 96)
  | 0x0A10 => planIf (regReadOk p) (plainPlan .d1 (8 + 4 * fld p 0 2))
  | 0x0A11 => planIf (regWriteOk p) (plainPlan .d5 2)
  | 0x0B01 => planIf (pairReqOk p) (plainPlan .d5 0)
  | 0x0B02 => planIf (grantReqOk p)
      (if fld p 0 1 = 4 then secretPlan (plainPlan .d4 16) (some (fld p 30 2, fld p 32 2))
       else if fld p 0 1 = 5 then mutPlan .d4 8 96 else plainPlan .d4 1224)
  | 0x0B03 => planIf (migrateReqOk false p) (plainPlan .d5 1048560)
  | 0x0B04 => planIf (migrateReqOk true p) (plainPlan .d5 0)
  | _ => none

end Sys2Proof.Machine
end

