-- ==== Sys2Proof/Machine/Pairs.lean ====
section
/-! DEFINITION. The checks of asymmetric key material: those of program 0x40 on a pair (R334), and the search for the primes
of an RSA key (R330). -/

namespace Sys2Proof.Machine

/-- Orders of the NIST curves (SP 800-186). -/
def curveOrder (c : Nat) : Nat := (Std.curveOf c).n

/-- Whether RSA material is what program 0x40 accepts (R170, R334). -/
def rsaPairOk (bits : Nat) (m : Bytes) : Bool :=
  let h := bits / 16
  let at_ := fun (i : Nat) => fld m (bits / 8 + 4 + i * h) h
  let p := at_ 0
  let q := at_ 1
  let size := fun (x : Nat) => decide (2 ^ (bits / 2 - 1) ≤ x ∧ x < 2 ^ (bits / 2))
  fld m (bits / 8) 4 == 65537 && size p && size q && fld m 0 (bits / 8) == p * q
    && at_ 2 * 65537 % (p - 1) == 1 && at_ 3 * 65537 % (q - 1) == 1 && at_ 4 * q % p == 1

/-- Whether an asymmetric secret passes program 0x40 (R334). -/
def pairOk (algo bits : Nat) (m : Bytes) : Bool :=
  if algo = 0x10 then
    m.drop 32 == Config.edPub (m.take 32) && Config.edPointOk (m.drop 32) && !Config.edSmallOrder (m.drop 32)
  else if algo = 0x11 then m.drop 32 == Config.xPub (m.take 32) && !Config.xSmallOrder (m.drop 32)
  else if algo = 0x20 then rsaPairOk bits m
  else if algo = 0x30 ∨ algo = 0x31 then m.drop 64 == Config.kemPub (algo == 0x31) (m.take 64)
  else if algo = 0x32 ∨ algo = 0x33 then m.drop 32 == Config.dsaPub (algo == 0x33) (m.take 32)
  else
    let c := algo - 0x12
    let d := m.take (Config.curveLen c)
    decide (1 ≤ beNat d ∧ beNat d < curveOrder c) && Config.ecPointOk c (m.drop (Config.curveLen c))
      && m.drop (Config.curveLen c) == Config.ecPub c d

/-! ### Primes -/

/-- Whether no prime below 256 divides a candidate: the trial division of R330. -/
def noSmallFactor (n : Nat) : Bool :=
  ([2, 3, 5, 7, 11, 13, 17, 19, 23, 29, 31, 37, 41, 43, 47, 53, 59, 61, 67, 71, 73, 79, 83, 89, 97, 101, 103, 107, 109, 113,
    127, 131, 137, 139, 149, 151, 157, 163, 167, 173, 179, 181, 191, 193, 197, 199, 211, 223, 227, 229, 233, 239, 241,
    251] : List Nat).all (fun p => n % p != 0)

/-- The exponent of 2 in a number and its odd part, by at most `k` halvings. -/
def oddPart : Nat → Nat → Nat × Nat
  | 0, n => (0, n)
  | k + 1, n => if n % 2 = 0 ∧ n ≠ 0 then (let r := oddPart k (n / 2); (r.1 + 1, r.2)) else (0, n)

/-- One Miller-Rabin round on an odd candidate with a base. -/
def millerRabin (n a : Nat) : Bool :=
  let bits := Nat.log2 n + 1
  let d := oddPart bits (n - 1)
  let x := Std.powMod n bits (a % n) d.2
  x == 1 || (List.range d.1).any (fun i => Std.powMod n bits x (2 ^ i) == n - 1)

/-- Whether a candidate of `bits` bits passes trial division and five Miller-Rabin rounds, at least as many as FIPS 186-5 asks for
these sizes, with the bases that the core draws (R330; PRESUMED, log 3). -/
def primePasses (bits n : Nat) (rnd : Bytes) : Bool :=
  decide (2 ^ (bits - 1) ≤ n ∧ n < 2 ^ bits) && noSmallFactor n
    && (List.range 5).all (fun i => millerRabin n (2 + beNat (slice rnd (16 * i) 16)))

/-- Whether both primes of RSA material have been found. -/
def primesFound (bits : Nat) (m rnd : Bytes) : Bool :=
  let h := bits / 16
  primePasses (bits / 2) (fld m (bits / 8 + 4) h) (rnd.take 80)
    && primePasses (bits / 2) (fld m (bits / 8 + 4 + h) h) (rnd.drop 80)

end Sys2Proof.Machine
end

