-- ==== Sys2Proof/Machine/Wings.lean ====
section
/-! DEFINITION. The cipher wing, the hash lanes and the legacy unit as units: the ends of their operations
(R284, R365, R368, R311), their errors (R314, R316), their tests (R313, R315) and their registers. -/

namespace Sys2Proof.Machine

/-! ### Retirement (R269, R338, R536) -/

/-- Put a unit into the retired-unit set of the boot-attempt record, and set the `RETIRED` cause. -/
def retireBit (s : State) (bit : Nat) : State :=
  setCause { s with boot := { s.boot with attempt :=
    { s.boot.attempt with retired := setBit s.boot.attempt.retired bit } } } 1

/-- A unit that failed its tests is retired. -/
def retireUnit (u : EngineUnit) : EngineUnit :=
  { u with state := .retired, lost := false, leaving := false, joining := false }

/-- A unit that passed its tests joins capacity at the next epoch (R158). -/
def passUnit (u : EngineUnit) : EngineUnit := { u with state := .out, joining := true }

/-- Whether a unit is under test. -/
def underTest (u : UState) : Bool := u == .testing || u == .zeroising

/-! ### Bays and the legacy unit -/

def modBay (s : State) (b : Nat) (f : BayRegs → BayRegs) : State :=
  { s with cipher := { s.cipher with bays := tmod s.cipher.bays b f } }

def modLegReg (s : State) (f : BayRegs → BayRegs) : State :=
  { s with cipher := { s.cipher with legReg := f s.cipher.legReg } }

def bayOf (s : State) (b : Nat) : BayRegs := (tget s.cipher.bays b).getD bayReset

def pipeState (s : State) (i : Nat) : UState := ((tget s.cipher.pipes i).map (fun u => u.state)).getD .out

/-- A unit's zeroisation and tests begin. -/
def beginTest (now : Nat) (u : EngineUnit) : EngineUnit := { u with state := .testing, leaving := false, testAt := now }

/-- The result bits as a run begins: its results are gathered from here on, and show once it is done. -/
def beginBits (r : BayRegs) : BayRegs := { r with bistDone := false, bist := true, kat := true }

/-- Zeroisation and tests of a pipe begin; a run of the bay that goes on takes it in (R313). -/
def beginPipe (s : State) (i : Nat) : State :=
  let on : Bool := underTest (pipeState s (2 * (i / 2))) || underTest (pipeState s (2 * (i / 2) + 1))
  let s := modPipe s i (beginTest s.time)
  if on then s else modBay s (i / 2) beginBits

/-- Tests of a bay's pipes that are out of service start (R313). -/
def bayBist (s : State) (b : Nat) : State :=
  if ([2 * b, 2 * b + 1] : List Nat).all (fun i => pipeState s i != .out) then busErr s
  else
    let go := fun (s : State) (i : Nat) => if pipeState s i = .out then beginPipe s i else s
    wrOk (go (go s (2 * b)) (2 * b + 1))

/-- Zeroisation and tests of the legacy unit begin (R315). -/
def beginLegacy (s : State) : State := modLegReg (modLegacy s (beginTest s.time)) beginBits

/-- The `STATE` code of a unit of the cipher wing: zeroising for a time that the spec leaves open, then testing (R313, R315; log
112). -/
def unitCodeNow (now : Nat) (u : EngineUnit) : Nat :=
  if u.state = .testing ∧ now < u.testAt + Config.zeroiseTime then ustateCode .zeroising else ustateCode u.state

def pipeCode (s : State) (i : Nat) : Nat := ((tget s.cipher.pipes i).map (unitCodeNow s.time)).getD (ustateCode .out)

/-- Operations on a pipe that may have blocks in it: a free value up to 54, 0 with none (R313). -/
def pipeLoad (s : State) (i free : Nat) : Nat := if (opsOn s .cipher i).isEmpty then 0 else Config.freeNat free % 55

/-- A source of `CB_ERR` fires or is forced (R314). -/
def bayFire (s : State) (b i : Nat) : State :=
  let s := modBay s b (fun r => { r with err := setBit r.err i })
  let s := if (bayOf s b).irq then raise s (64 + b) else s
  let s :=
    if i = 0 ∨ i = 7 then losePipe (losePipe s (2 * b)) (2 * b + 1)
    else losePipe s (2 * b + (i + 1) % 2)
  pulse s (16 + b) .degrade

def bayForce (s : State) (b : Nat) (v : Word) : State := wrOk ((setBits 8 v.toNat).foldl (fun s i => bayFire s b i) s)

/-- A source of `CW_LEGACY_ERR` fires or is forced (R316). -/
def legacyFire (s : State) (i : Nat) : State :=
  let s := modLegReg s (fun r => { r with err := setBit r.err i })
  let s := if s.cipher.legReg.irq then raise s 74 else s
  pulse (loseLegacy s) 20 .degrade

def legacyForce (s : State) (v : Word) : State := wrOk ((setBits 3 v.toNat).foldl legacyFire s)

/-- Tests of the legacy unit start: a static field, which needs the unit out of service (R9, R315). -/
def legacyBist (s : State) (m : Nat) : State :=
  if s.cipher.legacy.state = .out then wrOk (beginLegacy s)
  else staticErr s 20 0x102010 m

/-! ### The context store -/

/-- A context as the command names it here: alcove and identifier. -/
def ctxAlcove (c : Nat) : Nat := c / 2 ^ 32
def ctxIdent (c : Nat) : Nat := c % 2 ^ 32

/-- An uncorrectable error of a context: the command in flight on it ends, and it is released (R316). -/
def loseCtx (s : State) (c : Nat) : State :=
  let a := ctxAlcove c
  let i := ctxIdent c
  if thas (((alc s a).map (fun x => x.contexts)).getD []) i then
    let s := (tfilter s.cipher.ops (fun _ o => o.alcove == a && o.ctx == some i)).foldl
      (fun s e => opFail s e.1 e.2 stFaultDetected) s
    releaseCtx s a i
  else s

/-- A source of `CW_CTX_ERR` fires or is forced (R316); a forced one concerns no context. -/
def ctxFire (s : State) (i : Nat) (c : Option Nat) : State :=
  let s := { s with cipher := { s.cipher with ctxErr := setBit s.cipher.ctxErr i } }
  if i = 0 then pulse s 13 .note
  else
    match c with
    | some c => pulse (loseCtx s c) 13 .recover
    | none => pulse s 13 .recover

/-- A forced error of a context concerns no context (R316; DEDUCED, log 60). -/
def ctxForce (s : State) (v : Word) : State := wrOk ((setBits 3 v.toNat).foldl (fun s i => ctxFire s i none) s)

/-- Contexts in the store, and in the spill area. -/
def liveCtx (s : State) : Nat := sumNat (s.net.alcoves.map (fun a => tcount a.2.contexts (fun _ c => c.present && !c.spilled)))
def spiltCtx (s : State) : Nat := sumNat (s.net.alcoves.map (fun a => tcount a.2.contexts (fun _ c => c.present && c.spilled)))

/-! ### Registers (R313, R315) -/

def hallOf (s : State) (b : Nat) : Nat := if ownerOf s b = .inner then 0 else 1

/-- Registers of a cipher bay; bay 0's window holds the wing-common ones too. `CB_INFLIGHT` shows the
blocks in the pipes at that instant, which this model does not place in time: a free value up to 54 while a pipe holds an
operation. -/
def cbRead (s : State) (b off : Nat) : Option Word :=
  let r := bayOf s b
  if off = 0x000 then some (pack [(b, 0), (2, 4)])
  else if off = 0x004 then some (w32 (b2n r.irq))
  else if off = 0x008 then
    some (pack [(pipeCode s (2 * b), 0), (pipeCode s (2 * b + 1), 4), (hallOf s b, 8),
      (b2n r.bistDone, 9), (b2n (r.bistDone && r.bist), 10), (b2n (r.bistDone && r.kat), 11)])
  else if off = 0x00C then some (pack [(pipeLoad s (2 * b) s.fresh, 0), (pipeLoad s (2 * b + 1) (s.fresh + 1), 8)])
  else if off = 0x010 then some 54
  else if off = 0x020 then some (w32 r.err.toNat)
  else if off = 0x024 then some 0
  else if b ≠ 0 then none
  else
    let g := s.cipher.legReg
    if off = 0x2000 then some (pack [(liveCtx s, 0), (spiltCtx s, 16)])
    else if off = 0x2004 then some (w32 s.cipher.ctxErr.toNat)
    else if off = 0x2008 then some 0
    else if off = 0x2010 then some (w32 (b2n g.irq))
    else if off = 0x2014 then
      some (pack [(unitCodeNow s.time s.cipher.legacy, 0), (hallOf s 10, 8), (b2n g.bistDone, 9),
        (b2n (g.bistDone && g.bist), 10), (b2n (g.bistDone && g.kat), 11)])
    else if off = 0x2018 then some (w32 g.err.toNat)
    else if off = 0x201C then some 0
    else none

def cbWrite (s : State) (m b off : Nat) (v : Word) : Option State :=
  let n := v.toNat
  if off = 0x004 then
    (let s := modBay s b (fun r => { r with irq := bitOf n 0 })
     some (if bitOf n 8 then bayBist s b else wrOk s))
  else if off = 0x020 then some (wrOk (modBay s b (fun r => { r with err := w1c r.err n })))
  else if off = 0x024 then some (bayForce s b v)
  else if b = 0 ∧ off = 0x2004 then
    some (wrOk { s with cipher := { s.cipher with ctxErr := w1c s.cipher.ctxErr n } })
  else if b = 0 ∧ off = 0x2008 then some (ctxForce s v)
  else if b = 0 ∧ off = 0x2010 then
    (let s := modLegReg s (fun r => { r with irq := bitOf n 0 })
     some (if bitOf n 8 then legacyBist s m else wrOk s))
  else if b = 0 ∧ off = 0x2018 then some (wrOk (modLegReg s (fun r => { r with err := w1c r.err n })))
  else if b = 0 ∧ off = 0x201C then some (legacyForce s v)
  else if (cbRead s b off).isSome then some (wrOk s)
  else none

def cbAddr (bay off : Nat) : Nat := 0x100000 + 0x4000 * (bay % 4) + off

/-! ### The commands -/

/-- End an operation of a wing, if the number names one. -/
def endOp (s : State) (n : Nat) (w : Wing) : State :=
  match tget s.cipher.ops n with
  | none => s
  | some o => if o.wing = w ∧ endsInTurn s n o then opDone s n o else s

/-- `CIPHER_OP_DONE` (R284). -/
def execCipherOpDone (op : Nat) (s : State) : Out := .next (endOp s op .cipher)

/-- `HASH_OP_DONE` (R365, R368): when the two copies disagree the result is withheld and the lane is
lost. -/
def execHashOpDone (op : Nat) (copiesAgree : Bool) (s : State) : Out :=
  .next (if copiesAgree then endOp s op .hash
    else
      match tget s.cipher.ops op with
      | none => s
      | some o => if o.wing = .hash then pulse (loseLane s o.unit) 21 .degrade else s)

/-- `LEGACY_OP_DONE` (R311). -/
def execLegacyOpDone (op : Nat) (s : State) : Out := .next (endOp s op .legacy)

/-- `CB_BIST_START` (R313). -/
def execCbBistStart (master bay : Nat) (s : State) : Out :=
  .next (writeAs s master (cbAddr bay 0x004) (fun s => bayBist s (bay % 4)))

/-- `CB_ERR_FORCE` (R313, R314). -/
def execCbErrForce (master bay : Nat) (value : Word) (s : State) : Out :=
  .next (writeAs s master (cbAddr bay 0x024) (fun s => bayForce s (bay % 4) value))

/-- `CB_ERR_FIRE` (R314). -/
def execCbErrFire (bay source : Nat) (s : State) : Out :=
  .next (if bay < 4 ∧ source < 8 then bayFire s bay source else s)

/-- `CW_CTX_FORCE` (R315). -/
def execCwCtxForce (master : Nat) (value : Word) (s : State) : Out :=
  .next (writeAs s master 0x102008 (fun s => ctxForce s value))

/-- `CW_CTX_ERR_FIRE` (R316). -/
def execCwCtxErrFire (source : Nat) (ctx : Option Nat) (s : State) : Out :=
  .next (if source < 3 then ctxFire s source ctx else s)

/-- `CW_LEGACY_BIST_START` (R315). -/
def execCwLegacyBistStart (master : Nat) (s : State) : Out :=
  .next (writeAs s master 0x102010 (fun s => legacyBist s master))

/-- `CW_LEGACY_FORCE` (R315). -/
def execCwLegacyForce (master : Nat) (value : Word) (s : State) : Out :=
  .next (writeAs s master 0x10201C (fun s => legacyForce s value))

/-- `CW_LEGACY_ERR_FIRE` (R316). -/
def execCwLegacyErrFire (source : Nat) (s : State) : Out := .next (if source < 3 then legacyFire s source else s)

end Sys2Proof.Machine
end

