-- ==== Sys2Proof/Machine/PkWing.lean ====
section
/-! DEFINITION. The public-key wing: jobs, cores and the park store (R323 to R330), aborts and failed
checks (R335 to R341), lost cores (R338, R346), tests of units (R158, R338, R345) and the registers (R345
to R348). Cores are numbered 8 × bay + core. -/

namespace Sys2Proof.Machine

/-! ### Which job a core takes -/

/-- The ready jobs: queued ones, and parked ones that wait for no recombination (R325, R327). -/
def readyJobs (s : State) : List Nat :=
  s.pk.queue ++ (tvals s.pk.park).filter (fun j =>
    match jobAt s j with
    | some x => !x.waiting && !onCore s j
    | none => false)

/-- Whether a bay has a core in service. -/
def bayServes (s : State) (b : Nat) : Bool := s.pk.cores.any (fun e => e.1 / 8 == b && coreServes e.2)

/-- The core of the signatures with Stair keys: the lowest in service of bay 0, else of the lowest bay that has one,
whichever hall owns the bay (R253). -/
def stairCore (s : State) : Option Nat := (List.range 48).find? (fun i => coreServes (coreAt s i))

/-- Whether a job may take a core: a signature with a Stair key only its own; any other a core of a bay of the Outer Hall,
and one bound to another bay only once no core of that bay serves (R253, R329). -/
def mayTake (s : State) (i j : Nat) : Bool :=
  match jobAt s j with
  | none => false
  | some x =>
    if x.stair then stairCore s == some i
    else
      ownerOf s (4 + i / 8) == .outer
        && (match x.bay with
          | none => true
          | some b => b == i / 8 || !bayServes s b)

/-- Whether one job goes before another: the earlier deadline, then the order of acceptance (R325). -/
def jobBefore (s : State) (i j : Nat) : Bool :=
  match jobAt s i, jobAt s j with
  | some x, some y => decide (x.deadline < y.deadline) || (x.deadline == y.deadline && decide (x.order < y.order))
  | _, _ => false

/-- The job that a core takes next among those that no other core has been promised to; one that drains takes none (R158,
R325). -/
def nextExcept (s : State) (i : Nat) (taken : List Nat) : Option Nat :=
  if coreServes (coreAt s i) = false then none
  else
  let l := (readyJobs s).filter (fun j => mayTake s i j && !taken.contains j)
  l.find? (fun i => l.all (fun j => !jobBefore s j i))

/-- The job that a core takes next. -/
def nextJob (s : State) (i : Nat) : Option Nat := nextExcept s i []

/-- Whether a core is free to take work: in service and idle. -/
def coreFree (s : State) (i : Nat) : Bool :=
  let c := coreAt s i
  c.state == .inService && !c.busy && c.job.isNone && c.next.isNone

/-- When the first half of an RSA private operation starts, the halves that have not started are bound to its bay (R329). -/
def bindBay (s : State) (b j : Nat) : State :=
  match jobAt s j with
  | none => s
  | some x =>
    if x.prog = 0x21 ∧ x.half then
      modPk s (fun p => { p with jobs := tmap p.jobs (fun n y =>
        if y.work = x.work ∧ n ≠ j ∧ p.queue.contains n then { y with bay := some b } else y) })
    else s

/-! ### Cycles run (R151, R327) -/

/-- Whether a job runs: it holds a core that moves nothing. -/
def jobRuns (s : State) (j : Nat) : Bool := s.pk.cores.any (fun c => c.2.job == some j && c.2.state != .moving)

/-- Program cycles that a job has run. -/
def jobRan (now : Nat) (x : Job) : Nat :=
  x.ran + (match x.since with
    | some t => (now - t) * 6 / wingTick .pk
    | none => 0)

/-- The clock of a job goes or stands. -/
def clockJob (now : Nat) (runs : Bool) (x : Job) : Job :=
  if runs then { x with since := some (x.since.getD now) } else { x with ran := jobRan now x, since := none }

/-- Whether the operation of a command runs: each of its jobs that is not done does. A move into or out of the park store
is no program cycle (R327; DEDUCED, log 110). -/
def pkRuns (s : State) (w : Nat) : Bool :=
  let l := (jobsOf s w).filter (fun e => !e.2.waiting)
  !l.isEmpty && l.all (fun e => jobRuns s e.1)

/-- The clocks of the jobs, and of the costs of their commands. -/
def pkClocks (s : State) : State :=
  let s := modPk s (fun p => { p with jobs := tmap p.jobs (fun n x => clockJob s.time (jobRuns s n) x) })
  { s with net := { s.net with work := tmap s.net.work (fun w k =>
    if (jobsOf s w).isEmpty then k
    else { k with costs := if pkRuns s w then runCost s.time .pk k.costs else stopCost s.time .pk k.costs }) } }

/-! ### Key material in the core (R187) -/

/-- The material of the secret of a pinned face, or of a pinned old copy. -/
def pinMaterial (s : State) (c : Nat) : Bytes :=
  match tget s.keys.old c with
  | some o => o.secret.material
  | none => ((tget s.keys.secrets (c / 2)).map (fun x => x.material)).getD []

/-- What the key port streams into a core for a job: the material of its faces, and for program 0x40 that of the new secret
(R187, R334). -/
def jobMaterial (s : State) (x : Job) : Bytes :=
  x.pins.flatMap (pinMaterial s)
    ++ (if x.prog = 0x40 then
        (match x.result.body with
          | some (.create sec _) => sec.material
          | _ => [])
      else [])

/-- Bytes as lines of the operand memory from line 0 on (DESIGN CHOICE, log 111). -/
def omLines (m : Bytes) : Tab Bytes :=
  (List.range (min 2048 (ceilDiv m.length 16))).foldl (fun t n =>
    let l := (slice m (16 * n) 16 ++ zeros 16).take 16
    if allZero l then t else tput t n l) []

/-! ### Cores -/

/-- The programs that draw at their start: those that use or make a private key, and the encryptions, whose standards call
for randomness (R322, R330). -/
def drawsFresh (s : State) (x : Job) : Bool :=
  if x.prog = 0x20 then (wrk s x.work).any (fun k => k.opcode == 0x0306)
  else !([0x02, 0x11, 0x15, 0x19, 0x39, 0x3D, 0x7F] : List Nat).contains x.prog

/-- DRBG instance of a core (R379). -/
def coreInst (i : Nat) : Nat := 16 + i

/-- A core begins a program at its entry (R317, R342). -/
def coreProg (s : State) (i prog : Nat) : State :=
  modCore s i (fun c => { c with prog := prog, seq := tgetD s.pk.entries prog 0 })

/-- A core without a job; the program has cleared its operands (R320). -/
def coreIdle (s : State) (i : Nat) : State :=
  modCore s i (fun c => { c with job := none, next := none, busy := false, om := [] })

/-- A core frees itself of its job and zeroises its operand memory before the next (R318, R340). -/
def coreZero (s : State) (i : Nat) : State := modCore s i (fun c => { c with job := none, next := none, busy := true })

/-- An aborted job goes. With the last job of a command that a reset of its alcove discards, the command goes too, and
its slots are wasted (R95, R340, R613); `i` is the core that ran it. -/
def endAborted (s : State) (i : Option Nat) (j : Nat) : State :=
  match jobAt s j with
  | none => s
  | some x =>
    let s := removeJob s j
    if (jobsOf s x.work).isEmpty ∧ (wrk s x.work).any (fun k => k.stage == .issued) then
      let s := match i with
        | some i => noteSlots s x.work .pk i
        | none => s
      match (wrk s x.work).bind (fun k => k.task) with
      | some _ => failWork s x.work stFaultDetected
      | none => delWork (countSlots s x.alcove false (((wrk s x.work).map (fun k => k.slots)).getD [])) x.work
    else s

/-- Jobs are aborted: those on cores at their next yield point, the others at once (R339, R340). -/
def dropJobs (s : State) (l : List Nat) : State :=
  l.foldl (fun s n => if onCore s n then modJob s n (fun j => { j with abort := true }) else endAborted s none n) s

/-- The jobs of a command that has ended early are aborted (R339). -/
def abortFellows (s : State) (w : Nat) : State := dropJobs s (tkeys (jobsOf s w))

/-- A program finds its core's instance unable to serve: the operation ends with `ENTROPY_FAULT` and the
core zeroises its operand memory (R322, R339). -/
def noEntropy (s : State) (i j w : Nat) : State :=
  coreZero (abortFellows (removeJob (failWork (noteSlots s w .pk i) w stEntropy) j) w) i

/-- A program starts on a core: it draws from the core's instance where it must (R322). -/
def startProg (s : State) (i j : Nat) (x : Job) : State :=
  let s := coreProg s i x.prog
  if x.abort ∨ drawsFresh s x = false then s
  else if drawState s (coreInst i) = .ok then countDraw s (coreInst i)
  else noEntropy s i j x.work

/-- A free core takes a job: a queued one starts, with its key material in the operand memory; a parked one is moved in,
and leaves its slot (R187, R327). -/
def giveCore (s : State) (i j : Nat) : State :=
  match jobAt s j with
  | none => s
  | some x =>
    if s.pk.queue.contains j then
      let s := modPk s (fun p => { p with queue := p.queue.filter (fun q => q != j) })
      let s := modCore s i (fun c => { c with job := some j, busy := true, om := omLines (jobMaterial s x) })
      startProg (perfAdd (bindBay s (i / 8) j) (5 + i / 8) 0x15 1) i j x
    else
      let s := modPk s (fun p => { p with park := p.park.filter (fun e => e.2 != j) })
      modCore s i (fun c => { c with state := .moving, next := some j, busy := true })

/-- Free cores take the ready jobs in order. `n` bounds the assignments. -/
def assignJobs : Nat → State → State
  | 0, s => s
  | n + 1, s =>
    match (List.range 48).find? (fun i => coreFree s i && (nextJob s i).isSome) with
    | none => s
    | some i =>
      match nextJob s i with
      | none => s
      | some j => assignJobs n (giveCore s i j)

/-- Assign what can be assigned, and set the clocks: what ends every event of the wing. -/
def pkSchedule (s : State) : State := pkClocks (assignJobs 48 s)

/-- Abort every job of an alcove (R96). -/
def abortAlcove (s : State) (a : Nat) : State :=
  dropJobs s (tkeys (tfilter s.pk.jobs (fun _ j => j.alcove == a)))

/-! ### Issue -/

/-- Put the jobs of an operation in front of the wing (DEDUCED, log 51). -/
def addJobs : Nat → State → Job → State
  | 0, s, _ => s
  | n + 1, s, j =>
    let s := modPk s (fun p => { p with jobs := tput p.jobs p.nextJob j, nextJob := p.nextJob + 1
                                        queue := p.queue ++ [p.nextJob] })
    addJobs n s j

/-- A job as it is issued. -/
def newJob (w : Nat) (k : Work) (prog width : Nat) (long stair : Bool) (pins : List Nat) (r : Result) : Job :=
  { work := w, alcove := k.alcove, gen := k.gen, pins := pins, prog := prog, long := long, deadline := k.deadline
    order := w, bay := none, width := width, half := decide (1 < width), waiting := false, rerun := false
    abort := false, stair := stair, iters := 0, ran := 0, since := none, om := [], result := r }

/-- Hand an operation of the public-key wing to its scheduler: the jobs of a program, with the result that they deliver
(R325, R329, R330). From here on the wing counts its long jobs (R328). -/
def issueJob (s : State) (w : Nat) (k : Work) (prog width : Nat) (long stair : Bool) (pins : List Nat) (r : Result) :
    State :=
  pkSchedule (modWork (addJobs width s (newJob w k prog width long stair pins r)) w (fun k =>
    { k with stage := .issued, longJobs := 0 }))

/-- The command of a job, with the full cost of an operation that is queued again (R151). -/
def freshWork (s : State) (w : Nat) : State := modWork s w (fun k => { k with costs := freshCost .pk k.costs })

/-- Run an operation again from its held inputs: every job of the command begins afresh (R157, R337). -/
def rerunWork (s : State) (w : Nat) (again : Bool) : State :=
  match jobsOf s w with
  | [] => s
  | (n, j) :: r =>
    let fresh := { j with prog := if j.prog = 0x22 then 0x21 else if j.prog = 0x24 then 0x23 else j.prog
                          bay := none, half := decide (1 < j.width), waiting := false, abort := false
                          rerun := again || j.rerun, iters := 0, ran := 0, since := none, om := [] }
    dropJobs (addJobs j.width (freshWork s w) fresh) (n :: tkeys r)

/-- Whether an operation may run again: the condition holds for it at its full cost and for every operation after it
(R152, R157, R337). -/
def mayRerun (s : State) (w : Nat) : Bool := wingHolds (freshWork s w) .pk w

/-! ### Ends -/

/-- The operation of a command ends with a status and no result. -/
def pkFail (s : State) (w i status : Nat) : State :=
  let s := noteSlots s w .pk i
  abortFellows (failWork s w status) w

/-- The slots of an operation that ends with a result: those of a re-run are wasted, those of the run that it replaced stay
noted with the command (R337, R613). -/
def endSlots (s : State) (i : Nat) (x : Job) : State :=
  if x.rerun then
    countSlots s x.alcove false
      [(wingBlockNo .pk i, slotsUsed s.time .pk (((wrk s x.work).map (fun k => k.costs)).getD []))]
  else noteSlots s x.work .pk i

/-- The result of an operation is released (R284, R335). -/
def pkDeliver (s : State) (i j : Nat) (x : Job) : State :=
  deliver (costAfter (removeJob (endSlots s i x) j) x.work .pk x.result.again) x.work x.result

/-- A free park slot, lowest first. -/
def freeSlot (p : Pk) : Option Nat := (List.range 384).find? (fun n => !thas p.park n)

/-- Put a job into the park store, with the operand memory of the core that held it (R326). -/
def parkJob (s : State) (i j : Nat) : State :=
  match freeSlot s.pk with
  | none => s
  | some n =>
    let om := (coreAt s i).om
    modPk (modJob s j (fun x => { x with om := om, bay := none })) (fun p => { p with park := tput p.park n j })

/-- A job of width 2 or more that ends first leaves its result in a park slot and frees its core; the last one's core goes on
to the program that completes the operation (R329, R330). -/
def halfEnd (s : State) (i j : Nat) (x : Job) : State :=
  let others := (jobsOf s x.work).filter (fun e => e.1 != j && !e.2.abort)
  if others.any (fun e => !e.2.waiting) then
    coreIdle (modJob (parkJob s i j) j (fun y => { y with waiting := true })) i
  else
    let s := modPk s (fun p => { p with
      jobs := p.jobs.filter (fun e => !(others.any (fun o => o.1 == e.1)))
      park := p.park.filter (fun e => !(others.any (fun o => o.1 == e.2))) })
    let y := { x with half := false, prog := if x.prog = 0x23 then 0x24 else 0x22 }
    startProg (modJob s j (fun x => { x with half := false, prog := y.prog })) i j y

/-- Set a bit of a core's `PK_ERR`; its event goes to the bay's owner. -/
def coreErr (s : State) (i b : Nat) : State :=
  let s := modCore s i (fun c => { c with err := setBit c.err b })
  if (coreAt s i).irq then raise s (68 + i / 8) else s

/-- A core becomes lost (R156): it returns by itself, or is retired at its second loss in a start (R338). -/
def loseCore (s : State) (i : Nat) : State :=
  let c := coreAt s i
  if c.state = .retired then s
  else
    let s := modCore s i (fun c =>
      { c with state := .zeroising, lost := true, leaving := false, joining := false, drains := false, busy := false
               job := none, next := none })
    capFall s .pk

/-- After the fault of a loss: a core lost for the second time in the start is retired. -/
def settleCore (s : State) (i : Nat) : State :=
  let c := coreAt s i
  if c.state = .retired then s
  else if c.lostOnce then
    lostSettle (retireBit (modCore s i (fun c => { c with state := .retired, lost := false })) (8 + i))
  else modCore s i (fun c => { c with lostOnce := true })

/-- The job that a lost core held: run again from its held inputs where the condition holds, else
`UNIT_LOST` (R157). -/
def reissueJob (s : State) (i j : Nat) : State :=
  match jobAt s j with
  | none => s
  | some x =>
    if x.abort then endAborted s (some i) j
    else if mayRerun s x.work then rerunWork s x.work false
    else pkFail s x.work i stUnitLost

/-- A core is lost with what it held. -/
def coreLost (s : State) (i : Nat) : State :=
  let c := coreAt s i
  let s := loseCore s i
  let s := match c.job with
    | some j => reissueJob s i j
    | none => s
  match c.next with
  | some j => reissueJob s i j
  | none => s

/-- The check of a core's job failed (R336, R337, R341): the result is withheld and the core is lost; the
operation runs once more where it can. -/
def checkFailed (s : State) (i : Nat) : State :=
  let c := coreAt s i
  let s := loseCore (coreErr s i 6) i
  let s := match c.job with
    | none => s
    | some j =>
      match jobAt s j with
      | none => s
      | some x =>
        if x.abort then endAborted s (some i) j
        else if x.rerun = false ∧ mayRerun s x.work then rerunWork (noteSlots s x.work .pk i) x.work true
        else pkFail s x.work i stFaultDetected
  let s := match c.next with
    | none => s
    | some j => reissueJob s i j
  pkSchedule (settleCore (pulse s (22 + i / 8) .degrade) i)

/-- A source of `PK_ERR` fires or is forced (R346). -/
def pkFire (s : State) (i b : Nat) : State :=
  if b = 6 then checkFailed s i
  else
    let l := if b = 0 then (List.range 8).map (fun c => i / 8 * 8 + c) else [i]
    let s := l.foldl coreLost (coreErr s i b)
    pkSchedule (l.foldl settleCore (pulse s (22 + i / 8) .degrade))

def pkForce (s : State) (i : Nat) (v : Word) : State := wrOk ((setBits 8 v.toNat).foldl (fun s b => pkFire s i b) s)

/-! ### Yield points (R324, R161, R162) -/

/-- Cycles of one more iteration of a program: those of R144 for ML-DSA, else the longest interval between
yield points (R323). -/
def iteration (prog : Nat) : Nat := if prog = 0x38 then 11760 else if prog = 0x3C then 23400 else 24000

/-- Modulus length of the key that a job makes. -/
def jobBits (x : Job) : Nat :=
  match x.result.body with
  | some (.create sec _) => sec.bits
  | _ => 0

/-- The budget of an RSA prime search in cycles: 9 times the expected search time of a prime, 4.2 s at 8,192 bits (R162). -/
def primeBudget (bits : Nat) : Nat := ([324000000, 1080000000, 2592000000, 5040000000] : List Nat).getD (rsaRow bits) 0

/-- Whether the budget of a job is spent: 24 or 20 iterations of a signature, the search time of a prime (R162). -/
def budgetSpent (now : Nat) (x : Job) : Bool :=
  if x.prog = 0x38 then decide (24 ≤ x.iters)
  else if x.prog = 0x3C then decide (20 ≤ x.iters)
  else x.prog == 0x23 && decide (primeBudget (jobBits x) ≤ jobRan now x)

/-- The fixed allowance of a command on the wing (R142, R143). -/
def pkFixed (s : State) (w : Nat) : Nat :=
  (((wrk s w).bind (fun k => k.costs.find? (fun c => c.wing == .pk))).map (fun c => c.fixed)).getD (wingFixed .pk)

/-- Whether a job whose budget is spent goes on (R161). -/
def overBudget (s : State) (x : Job) : Bool :=
  (readyJobs s).isEmpty && decide (s.time * 6 + (iteration x.prog + 2048 + pkFixed s x.work) * wingTick .pk ≤ x.deadline * 6)

/-- Whether a core of the wing is free. -/
def anyFree (s : State) : Bool := (List.range 48).any (fun i => coreFree s i && ownerOf s (4 + i / 8) == .outer)

/-- The waiting jobs that a list of cores takes, each the next that no other has been promised to; a core that runs a job
takes one only of earlier deadline. -/
def promisedTo (s : State) (l : List Nat) (taken : List Nat) : List Nat :=
  l.foldl (fun t i =>
    match nextExcept s i t with
    | none => t
    | some j =>
      if (coreAt s i).state = .moving then t ++ [j]
      else
        match ((coreAt s i).job).bind (jobAt s), jobAt s j with
        | some x, some y => if y.deadline < x.deadline then t ++ [j] else t
        | _, _ => t) taken

/-- Of the cores that reach a yield point in the same cycle those that park before a core `i` with a job `x`: the latest deadline
first, then the lower number (R325). -/
def rivals (s : State) (i : Nat) (x : Job) (same : List Nat) : List Nat :=
  (List.range 48).filter (fun r =>
    same.contains r && r != i && (coreAt s r).state != .moving
      && (match ((coreAt s r).job).bind (jobAt s) with
        | some y => !y.abort && (decide (x.deadline < y.deadline) || (x.deadline == y.deadline && decide (r < i)))
        | none => false))

/-- Whether a job with an earlier deadline waits for the core of a running job (R324): one that takes a core which parks its job,
or which parks first in the same cycle, waits for no other (R325) (DEDUCED, log 115). -/
def displaced (s : State) (i : Nat) (x : Job) (same : List Nat) : Bool :=
  let parking := (List.range 48).filter (fun r => (coreAt s r).state == .moving && (coreAt s r).job.isSome)
  let taken := promisedTo s (rivals s i x same) (promisedTo s parking [])
  match (nextExcept s i taken).bind (jobAt s) with
  | some y => decide (y.deadline < x.deadline)
  | none => false

/-- A running job at its yield point. -/
def yieldPoint (s : State) (i : Nat) (same : List Nat) : State :=
  match (coreAt s i).job with
  | none => s
  | some j =>
    match jobAt s j with
    | none => s
    | some x =>
      if x.waiting ∨ x.long = false ∨ (coreAt s i).state = .moving then s
      else
        let x := { x with iters := x.iters + 1 }
        let s := modJob s j (fun y => { y with iters := x.iters })
        let s := perfAdd s (5 + i / 8) 0x17 1
        let s := if x.prog = 0x38 ∨ x.prog = 0x3C then perfAdd s (5 + i / 8) 0x18 1 else s
        if x.abort then pkSchedule (coreZero (endAborted s (some i) j) i)
        else if budgetSpent s.time x ∧ overBudget s x = false then
          let s := perfAdd (noteSlots s x.work .pk i) (5 + i / 8) 0x19 1
          pkSchedule (coreZero (abortFellows (removeJob (failWork s x.work stRetry) j) x.work) i)
        else if anyFree s = false ∧ displaced s i x same then
          pkSchedule (modCore s i (fun c => { c with state := .moving }))
        else s

/-- A move out of or into a park slot ends (R326, R327). -/
def parkMoved (s : State) (i : Nat) : State :=
  let c := coreAt s i
  if c.state ≠ .moving then s
  else
    let s := modCore s i (fun c => { c with state := if c.drains then .draining else .inService, drains := false })
    match c.job, c.next with
    | some j, _ =>
      let s := perfAdd (parkJob s i j) (5 + i / 8) 0x16 1
      let s := coreIdle s i
      pkSchedule (match jobAt s j with
        | some x => if x.abort then endAborted s (some i) j else s
        | none => s)
    | none, some j =>
      match jobAt s j with
      | none => pkSchedule (coreIdle s i)
      | some x =>
        let s := coreProg (modCore s i (fun c => { c with next := none, job := some j, om := x.om })) i x.prog
        pkSchedule (modJob s j (fun y => { y with om := [] }))
    | none, none => pkSchedule (coreIdle s i)

/-- Whether the new pair that a key generation delivers is one: what the check at its end finds (R334, R335). -/
def pairStands (r : Result) : Bool :=
  match r.body with
  | some (.create sec _) => pairOk sec.algo sec.bits sec.material
  | _ => true

/-- The programs that end a key generation (R320). -/
def endsKey (prog : Nat) : Bool := ([0x03, 0x09, 0x13, 0x17, 0x1B, 0x24, 0x30, 0x34, 0x3A, 0x3E] : List Nat).contains prog

/-- Whether the search of a job has found the primes of its key; the bases of the rounds come from its core's instance (R330). -/
def searchDone (s : State) (x : Job) : Bool :=
  match x.result.body with
  | some (.create sec _) => primesFound sec.bits sec.material (drawn s 160)
  | _ => true

/-- A running job ends (R335 to R341). A prime search ends only once it has found its primes (R330). -/
def jobEnd (s : State) (i : Nat) (ok : Bool) : State :=
  match (coreAt s i).job with
  | none => s
  | some j =>
    match jobAt s j with
    | none => s
    | some x =>
      if (coreAt s i).state = .moving then s
      else if x.prog = 0x23 ∧ x.abort = false ∧ searchDone s x = false then useFree s 160
      else if ok = false ∨ (endsKey x.prog ∧ pairStands x.result = false) then checkFailed s i
      else if x.abort then pkSchedule (coreZero (endAborted s (some i) j) i)
      else if x.half then pkSchedule (halfEnd s i j x)
      else pkSchedule (coreIdle (pkDeliver s i j x) i)

/-! ### Tests of units -/

/-- The unit of a kind passes or fails its tests; a core that is lost follows R338 instead. -/
def unitTested (s : State) (k : UnitKind) (index sub : Nat) (ok : Bool) : State :=
  match k with
  | .cipherBay =>
    let i := 2 * index + sub
    if underTest (pipeState s i) then
      (if ok then modPipe s i passUnit else lostSettle (retireBit (modPipe s i retireUnit) i))
    else s
  | .pkBay =>
    let i := 8 * index + sub
    let c := coreAt s i
    if underTest c.state ∧ c.lost = false then
      (if ok then modCore s i (fun c => { c with state := .out, joining := true, om := [] })
       else retireBit (modCore s i (fun c => { c with state := .retired, joining := false, om := [] })) (8 + i))
    else s
  | .lane =>
    if underTest (((tget s.cipher.lanes index).map (fun u => u.state)).getD .out) then
      (if ok then modLane s index passUnit else lostSettle (retireBit (modLane s index retireUnit) (56 + index)))
    else s
  | .legacy =>
    if underTest s.cipher.legacy.state then
      (if ok then modLegacy s passUnit else lostSettle (retireBit (modLegacy s retireUnit) 64))
    else s

/-- Zeroisation and tests of a unit begin; the result bits of the run before are gone (R158, R313, R315, R345). -/
def unitBegin (s : State) (k : UnitKind) (i : Nat) : State :=
  match k with
  | .cipherBay => beginPipe s i
  | .pkBay => modCore s i (fun c => { c with state := .zeroising, bistDone := false, bist := false, kat := false })
  | .lane => modLane s i (beginTest s.time)
  | .legacy => beginLegacy s

/-- The result bits of the last run of a bay, core or the legacy unit: a bay's run ends with its last pipe and passes where
every pipe does. -/
def testBits (s : State) (k : UnitKind) (index sub : Nat) (bist kat : Bool) : State :=
  match k with
  | .cipherBay =>
    let more := underTest (pipeState s (2 * index + (sub + 1) % 2))
    modBay s index (fun r => { r with bistDone := !more, bist := r.bist && bist, kat := r.kat && kat })
  | .pkBay => coreProg (modCore s (8 * index + sub) (fun c => { c with bistDone := true, bist := bist, kat := kat }))
      (8 * index + sub) 0x7F
  | .lane => s
  | .legacy => modLegReg s (fun r => { r with bistDone := true, bist := bist, kat := kat })

/-- Whether a unit is under test. -/
def unitInTest (s : State) (k : UnitKind) (index sub : Nat) : Bool :=
  match k with
  | .cipherBay => underTest (pipeState s (2 * index + sub))
  | .pkBay => underTest (coreAt s (8 * index + sub)).state && !(coreAt s (8 * index + sub)).lost
  | .lane => underTest (((tget s.cipher.lanes index).map (fun u => u.state)).getD .out)
  | .legacy => underTest s.cipher.legacy.state

/-- A lost core finishes its zeroisation and tests (R338). -/
def selfReturn (s : State) (i : Nat) (pass : Bool) : State :=
  let c := coreAt s i
  if c.lost ∧ underTest c.state then
    let s := coreProg (modCore s i (fun c => { c with bistDone := true, bist := pass, kat := pass, om := [] })) i 0x7F
    if pass then modCore s i (fun c => { c with state := .out, joining := true })
    else lostSettle (retireBit (modCore s i (fun c => { c with state := .retired, lost := false })) (8 + i))
  else s

/-! ### The park store (R348) -/

/-- A source of `PW_PARK_ERR` in a slot, or in none. -/
def parkFire (s : State) (b : Nat) (slot : Option Nat) : State :=
  let s := modPk s (fun p => { p with parkErr := setBit p.parkErr b, parkSlot := slot.getD 0x1FF })
  if b = 0 then pulse s 22 .note
  else
    let s := pulse s 22 .recover
    match slot.bind (tget s.pk.park) with
    | none => s
    | some j =>
      match jobAt s j with
      | none => s
      | some x =>
        let s := modPk s (fun p => { p with park := p.park.filter (fun e => e.2 != j) })
        pkSchedule (if x.abort then endAborted s none j
          else if mayRerun s x.work then rerunWork s x.work false
          else removeJob (pkFail s x.work 0 stUnitLost) j)

/-- `PW_PARK_FORCE`: the occupied slot with the lowest number. -/
def parkForce (s : State) (v : Word) : State :=
  wrOk ((setBits 2 v.toNat).foldl (fun s b => parkFire s b ((tkeys s.pk.park).head?)) s)

/-! ### Registers -/

/-- Whether the operand window of a core works (R347). -/
def omWorks (s : State) (i : Nat) : Bool := (coreAt s i).state == .out && ownerOf s (4 + i / 8) == .inner

/-- The four words of an operand line. -/
def lineWords (c : PkCore) (n : Nat) : List Word :=
  let l := (tget c.om n).getD (zeros 16)
  (List.range 4).map (fun k => w32 (fld l (4 * k) 4))

/-- `PK_OM_ADDR`: the line is loaded into the data registers (R347). -/
def omAddr (s : State) (i : Nat) (v : Word) : State :=
  if omWorks s i then
    let n := bitsOf v.toNat 10 0
    wrOk (modCore s i (fun c => { c with line := n, data := lineWords c n }))
  else busErr s

/-- A write of `PK_OM_DATA_n`; `PK_OM_DATA_3` writes the line and advances it (R347). -/
def omData (s : State) (i n : Nat) (v : Word) : State :=
  if omWorks s i then
    wrOk (modCore s i (fun c =>
      let c := { c with data := c.data.set n v }
      if n = 3 then
        let l := c.data.flatMap (fun w => be 4 w.toNat)
        { c with om := if allZero l then tdel c.om c.line else tput c.om c.line l, line := (c.line + 1) % 2048 }
      else c))
  else busErr s

/-- Tests of a core start: a static field, which needs the core out of service (R9, R345). -/
def coreBist (s : State) (m i : Nat) : State :=
  let c := coreAt s i
  if c.state = .out then wrOk (unitBegin s .pkBay i)
  else staticErr s (22 + i / 8) (0x200004 + 0x10000 * (i / 8) + 0x2000 * (i % 8)) m

/-- The jobs in the park store (R347). -/
def parked (s : State) : Nat := s.pk.park.length

def pkRead (s : State) (b n off : Nat) : Option Word :=
  let i := 8 * b + n
  let c := coreAt s i
  if off = 0x000 then some (pack [(n, 0), (b, 4)])
  else if off = 0x004 then some (w32 (b2n c.irq))
  else if off = 0x008 then
    some (pack [(ustateCode c.state, 0), (b2n (c.job.isSome && c.state != .moving), 3), (hallOf s (4 + b), 8), (b2n c.bistDone, 9), (b2n c.bist, 10),
      (b2n c.kat, 11), (c.prog, 16)])
  else if off = 0x020 then some (w32 c.err.toNat)
  else if off = 0x024 then some 0
  else if off = 0x040 then (if omWorks s i then some (w32 c.line) else none)
  else if off % 4 = 0 ∧ 0x044 ≤ off ∧ off ≤ 0x050 then
    (if omWorks s i then some (c.data.getD ((off - 0x044) / 4) 0) else none)
  else if n = 0 ∧ off = 0x1000 then
    let bits := fun (p : PkCore → Bool) => sumNat ((List.range 8).map (fun k => if p (coreAt s (8 * b + k)) then 2 ^ k else 0))
    some (pack [(bits coreServes, 0), (hallOf s (4 + b), 8),
      (bits (fun c => c.state == .retired), 16)])
  else if n = 0 ∧ b = 0 ∧ off = 0x1800 then some (pack [(parked s, 0), (longAccepted s, 16)])
  else if n = 0 ∧ b = 0 ∧ off = 0x1804 then some (pack [(s.pk.parkErr.toNat, 0), (s.pk.parkSlot, 16)])
  else if n = 0 ∧ b = 0 ∧ off = 0x1808 then some 0
  else none

def pkWrite (s : State) (m b n off : Nat) (v : Word) : Option State :=
  let i := 8 * b + n
  let x := v.toNat
  if off = 0x004 then
    (let s := modCore s i (fun c => { c with irq := bitOf x 0 })
     some (if bitOf x 8 then coreBist s m i else wrOk s))
  else if off = 0x020 then some (wrOk (modCore s i (fun c => { c with err := w1c c.err x })))
  else if off = 0x024 then some (pkForce s i v)
  else if off = 0x040 then some (omAddr s i v)
  else if off % 4 = 0 ∧ 0x044 ≤ off ∧ off ≤ 0x050 then some (omData s i ((off - 0x044) / 4) v)
  else if n = 0 ∧ b = 0 ∧ off = 0x1804 then some (wrOk (modPk s (fun p => { p with parkErr := w1c p.parkErr x })))
  else if n = 0 ∧ b = 0 ∧ off = 0x1808 then some (parkForce s v)
  else if (pkRead s b n off).isSome then some (wrOk s)
  else none

def pkAddr (bay core off : Nat) : Nat := 0x200000 + 0x10000 * (bay % 6) + 0x2000 * (core % 8) + off
def pkNo (bay core : Nat) : Nat := 8 * (bay % 6) + core % 8

/-! ### The commands -/

/-- `PK_YIELD_POINT` (R324): `same` names the other cores that reach a yield point in the same cycle (R325). -/
def execPkYieldPoint (bay core : Nat) (same : List Nat) (s : State) : Out := .next (yieldPoint s (pkNo bay core) same)

/-- `PK_PARK_MOVE_DONE` (R326, R327). -/
def execPkParkMoveDone (bay core : Nat) (s : State) : Out := .next (parkMoved s (pkNo bay core))

/-- `PK_JOB_END` (R335 to R341). -/
def execPkJobEnd (bay core : Nat) (checkOk : Bool) (s : State) : Out := .next (jobEnd s (pkNo bay core) checkOk)

/-- `PK_ZEROISE_DONE` (R318): the operand memory is clear, or a line read back non-zero. A core under test goes on to BIST and
program 0x7F (R338, R345). -/
def execPkZeroiseDone (bay core : Nat) (clean : Bool) (s : State) : Out :=
  .next (
    let i := pkNo bay core
    let c := coreAt s i
    if c.state = .zeroising then
      let s := modCore s i (fun c => { c with om := [] })
      if clean then coreProg (modCore s i (fun c => { c with state := .testing })) i 0x7F else pkFire s i 7
    else if c.busy ∧ c.job.isNone ∧ c.next.isNone then
      let s := modCore s i (fun c => { c with om := [], busy := false })
      if clean then pkSchedule s else pkFire s i 7
    else s)

/-- `PK_CORE_SELF_RETURN` (R338). -/
def execPkCoreSelfReturn (bay core : Nat) (pass : Bool) (s : State) : Out := .next (selfReturn s (pkNo bay core) pass)

/-- `UNIT_BIST_DONE` (R158, R313, R315, R345, R536). -/
def execUnitBistDone (k : UnitKind) (index sub : Nat) (bistPass katPass : Bool) (s : State) : Out :=
  .next (if unitInTest s k index sub then
      unitTested (testBits s k index sub bistPass katPass) k index sub (bistPass && katPass)
    else s)

/-- `PK_BIST_START` (R345). -/
def execPkBistStart (master bay core : Nat) (s : State) : Out :=
  .next (writeAs s master (pkAddr bay core 0x004) (fun s => coreBist s master (pkNo bay core)))

/-- `PK_ERR_FORCE` (R346). -/
def execPkErrForce (master bay core : Nat) (value : Word) (s : State) : Out :=
  .next (writeAs s master (pkAddr bay core 0x024) (fun s => pkForce s (pkNo bay core) value))

/-- `PK_ERR_FIRE` (R346). -/
def execPkErrFire (bay core source : Nat) (s : State) : Out :=
  .next (if bay < 6 ∧ core < 8 ∧ source < 8 then pkFire s (pkNo bay core) source else s)

/-- `PK_OM_ADDR_WRITE` (R347). -/
def execPkOmAddrWrite (master bay core : Nat) (value : Word) (s : State) : Out :=
  .next (writeAs s master (pkAddr bay core 0x040) (fun s => omAddr s (pkNo bay core) value))

/-- `PK_OM_DATA_3_WRITE` (R347). -/
def execPkOmData3Write (master bay core : Nat) (value : Word) (s : State) : Out :=
  .next (writeAs s master (pkAddr bay core 0x050) (fun s => omData s (pkNo bay core) 3 value))

/-- `PW_PARK_FORCE` (R348). -/
def execPwParkForce (master : Nat) (value : Word) (s : State) : Out :=
  .next (writeAs s master 0x201808 (fun s => parkForce s value))

/-- `PW_PARK_ERR_FIRE` (R348). -/
def execPwParkErrFire (source slot : Nat) (s : State) : Out :=
  .next (if source < 2 ∧ slot < 384 then parkFire s source (some slot) else s)

end Sys2Proof.Machine
end

