-- ==== Sys2Proof/Machine/Admission.lean ====
section
/-! DEFINITION. Checks 2 to 6 of R105, the shares, quotas and pool room they count (R163 to R167), the
refusal or acceptance of a command (R16, R17, R54), the admission epoch (R155) and the units that leave
and join at it (R158, R535, R536). -/

namespace Sys2Proof.Machine

/-! ### Check 2: opcode and caller -/

def clientOps : List Nat :=
  [0x0101, 0x0102, 0x0103, 0x0201, 0x0202, 0x0203, 0x0204, 0x0205, 0x0210, 0x0211, 0x0212, 0x0213, 0x0214,
   0x0215, 0x0301, 0x0302, 0x0303, 0x0304, 0x0305, 0x0306, 0x0307, 0x0401, 0x0501, 0x0502, 0x0503, 0x0504,
   0x0505, 0x0506, 0x0507, 0x0508, 0x050A, 0x0601, 0x0602, 0x0603, 0x0901, 0x0902, 0x0905]

def stewardOps : List Nat :=
  [0x0509, 0x0701, 0x0702, 0x0703, 0x0704, 0x0705, 0x0706, 0x0707, 0x0708, 0x0709, 0x070A, 0x070B, 0x0801,
   0x0802, 0x0803, 0x0804, 0x0805, 0x0806, 0x0903]

def managerOps : List Nat :=
  [0x0904, 0x0A01, 0x0A02, 0x0A03, 0x0A04, 0x0A05, 0x0A06, 0x0A07, 0x0A08, 0x0A09, 0x0A0A, 0x0A0B, 0x0A0C,
   0x0A0D, 0x0A10, 0x0A11, 0x0B01, 0x0B02, 0x0B03, 0x0B04]

/-- What a gallery-manager session may issue (R571). -/
def galleryOps : List Nat :=
  [0x0A04, 0x0B02, 0x0B03, 0x0B04, 0x0101, 0x0103, 0x0901, 0x0903, 0x0904, 0x0A0B]

/-- What executes in `RECOVERY` (R104). -/
def recoveryOps : List Nat :=
  [0x0101, 0x0103, 0x0901, 0x0903, 0x0904, 0x0A10, 0x0801, 0x0A04, 0x0A09, 0x0A05, 0x0A0B]

/-- What executes in `TRANSIT` (R457). -/
def transitOps : List Nat := [0x0101, 0x0103, 0x0901, 0x0903, 0x0801, 0x0A05]

/-- Whether an opcode is in the catalogue (R101). -/
def knownOp (op : Nat) : Bool := clientOps.contains op || stewardOps.contains op || managerOps.contains op

/-- Whether a role may issue an opcode in an alcove (R100, R101, R571). -/
def mayCall (r : Role) (op a : Nat) : Bool :=
  (match r with
    | .client => clientOps.contains op
    | .steward => clientOps.contains op || stewardOps.contains op
    | .manager => true
    | .galleryManager => galleryOps.contains op)
  && (op / 256 != 0x0A || a == 0)

/-- Whether a `SECTION_LOAD` comes from another caller than the configuration authority in force: `LOCAL` is a manager
key of alcove 0, `GALLERY` the key that the named manager proved (R236, R237, R570). -/
def loadDenied (s : State) (r : Role) (key : Bytes) : Bool :=
  match s.boot.authority with
  | none => r == .galleryManager
  | some id => r != .galleryManager || s.gallery.mgrOf != some id || s.gallery.mgrKey != some key

/-- Check 2: the status that refuses, if any. Bit 7 of `SECTIONS` and another caller than the configuration authority are
refused here (R236, R531). -/
def check2 (s : State) (a : Nat) (r : Role) (key : Bytes) (op : Nat) (p : Bytes) : Option Nat :=
  if knownOp op = false then some stOpcodeUnknown
  else if mayCall r op a = false ∨ (op = 0x0A04 ∧ (bitOf (fld p 0 1) 7 ∨ loadDenied s r key)) then some stDeniedAuth
  else if s.fc.service = .starting ∨ (s.fc.service = .recovery ∧ recoveryOps.contains op = false)
      ∨ (s.life.life = .transit ∧ transitOps.contains op = false) then some stNotReady
  else none

/-- Check 3: the service state. -/
def check3 (s : State) : Option Nat :=
  match s.fc.service with
  | .safe => some stDeviceSafe
  | .tampered => some stTampered
  | _ => none

/-! ### Refusals by authority after check 4 -/

/-- The role with which an alcove registers a key (R62, R234). -/
def roleOfKey (x : Alcove) (key : Bytes) : Option Role := (x.keys.find? (fun k => k.1 == key)).map (·.2)

/-- A `CLIENT_KEY_SET` that names another role, or removes a key of another role (R234, R660). -/
def keySetDenied (s : State) (a : Nat) (p : Bytes) : Bool :=
  (keyEntries p).any (fun e => e.2.1 != 0 || (!e.1 && (match (alc s a).bind (fun x => roleOfKey x e.2.2) with
    | some r => r != .client
    | none => false)))

/-- Whether a payload asks what its caller may not do (R234, R265, R660). -/
def authDenied (s : State) (a : Nat) (r : Role) (op : Nat) (p : Bytes) : Bool :=
  if op = 0x070B then keySetDenied s a p
  else op == 0x0902 && fld p 0 1 == 1 && r == .client

/-! ### Check 5: quota and share -/

/-- Bytes that an alcove's commands in assembly hold. -/
def assemblyBytes (s : State) (a : Nat) : Nat :=
  sumNat ((s.net.sessions.filter (fun e => e.1 / 256 == a)).map (fun e =>
    sumNat (e.2.entries.map (fun x =>
      match x.2 with
      | .assembling b => sumNat (b.segs.map (fun g => g.2.length))
      | _ => 0))))

/-- Pool bytes of an alcove: segments in assembly, room of its accepted commands, retained results. -/
def poolUsed (s : State) (a : Nat) : Nat :=
  assemblyBytes s a + retainedBytes s a
    + sumNat (s.net.work.map (fun e => if e.2.alcove = a then e.2.room else 0))

/-- An alcove's frame-pool share. -/
def poolShare (s : State) (a : Nat) : Nat := ((alc s a).map (fun x => x.set.poolShare)).getD 0

/-- Size of the common region (R165), or of the internal region for alcove 0. -/
def commonSize (s : State) (a : Nat) : Nat :=
  if a = 0 then 8 * 2 ^ 20 else (56 - s.net.portA.region - s.net.portB.region) * 2 ^ 20

/-- Bytes in that region. -/
def commonUsed (s : State) (a : Nat) : Nat :=
  if a = 0 then poolUsed s 0
  else sumNat ((tkeys s.net.alcoves).map (fun b => if b = 0 then 0 else poolUsed s b))

/-- Whether an alcove's frame-pool share can hold an arriving segment of `n` bytes (R56); the internal region is the
management alcove's. -/
def shareHolds (s : State) (a n : Nat) : Bool :=
  decide (poolUsed s a + n ≤ (if a = 0 then commonSize s 0 else poolShare s a))

/-- Whether the share or the region can hold `n` bytes more (R167). -/
def roomFits (s : State) (a n : Nat) : Bool :=
  decide (poolUsed s a + n ≤ poolShare s a) || decide (commonUsed s a + n ≤ commonSize s a)

/-- A bucket of depth `ms` of its rate, filled up to now; tokens in thousand-millionths of one (DEDUCED, log
73) (DEDUCED, log 73). -/
def bucketNow (now ms : Nat) (b : Bucket) : Bucket :=
  { b with tokens := min (b.tokens + (now - b.at_) * b.rate) (b.rate * ms * 10 ^ 6), at_ := now }

/-- Whether a bucket of a domain holds `n` tokens (R164). -/
def tokensHeld (s : State) (d i n : Nat) : Bool :=
  match tget (domD s d).rates i with
  | none => true
  | some b => decide (n * 10 ^ 9 ≤ (bucketNow s.time 10 b).tokens)

/-- Take the tokens. -/
def takeTokens (s : State) (d i n : Nat) : State :=
  setDom s d (fun x => { x with rates := tmod x.rates i (fun b =>
    let b := bucketNow s.time 10 b
    { b with tokens := b.tokens - n * 10 ^ 9 }) })

/-- Remaining cost of an alcove in a class on a wing, and whether it has an operation there. -/
def shareCost (s : State) (a : Nat) (cls : DClass) (w : Wing) : Nat × Bool :=
  let l := (tvals s.net.work).filter (fun k => k.alcove == a && k.cls == cls)
  let c := l.filterMap (fun k => k.costs.find? (fun x => x.wing == w))
  (sumNat (c.map (costLeft s.time)), !c.isEmpty)

/-- Share per mille of an alcove (R163). -/
def shareOf (s : State) (a : Nat) : Nat :=
  if a = 0 then 1000 else ((alc s a).map (fun x => x.set.share)).getD 125

/-- Whether the share of an alcove holds one more cost on a wing (R163). -/
def shareFits (s : State) (a : Nat) (cls : DClass) (c : Cost) : Bool :=
  let x := shareCost s a cls c.wing
  !x.2 || decide ((x.1 + c.cost) * 10000 * wingTick c.wing
    ≤ shareOf s a * capOf s c.wing * promiseNs cls * 6)

/-- Commands of an opcode that are accepted and not completed. -/
def inFlight (s : State) (p : Work → Bool) : Nat :=
  ((tvals s.net.work).filter (fun k => p k && k.stage != .completed)).length

/-- Words that a host region's dirty log takes (R89). -/
def dirtyWords (len : Nat) : Nat := ceilDiv len 262144

/-- Bytes of the dirty-page area that are allocated. -/
def dirtyUsed (s : State) : Nat := 8 * sumNat (s.net.slices.map (fun e => e.2.words))

/-- Whether the alcove and the device have a place for one more slice: up to 256 per alcove and 32,768 per device
(R1). -/
def sliceRoom (s : State) (a : Nat) : Bool :=
  decide (tcount s.net.slices (fun k _ => k / 2 ^ 20 == a) < 256) && decide (s.net.slices.length < 32768)

/-- Whether a log of `n` words fits the dirty-page area of 32 MiB in place of one of `old` words (R89). -/
def dirtyFits (s : State) (old n : Nat) : Bool := decide (dirtyUsed s - 8 * old + 8 * n ≤ 32 * 2 ^ 20)

/-- Contexts whose state the device holds (R293). -/
def ctxHeld (s : State) : Nat :=
  sumNat (s.net.alcoves.map (fun e => tcount e.2.contexts (fun _ c => c.present)))

/-- Whether the alcove and the device have a place for one more context (R293). -/
def ctxRoom (s : State) (a : Nat) : Bool :=
  decide ((((alc s a).map (fun x => x.contexts.length)).getD 0) < 256) && decide (ctxHeld s < 65536)

/-- The quota of a domain once the mutations of a section load that wait have committed (R238). -/
def quotaDue (s : State) (d : Nat) : Nat :=
  (domD s d).pending.foldl (fun q m =>
    match m.body with
    | .quota n _ => if m.work.isNone then n else q
    | _ => q) (domD s d).quota

/-- The slot quotas of the other domains from 1 to 256, the default where none is set (R184). -/
def otherQuotas (s : State) (d : Nat) : Nat :=
  sumNat ((List.range 256).map (fun i => if i + 1 = d then 0 else quotaDue s (i + 1)))

/-- Whether domain `d` may take a quota of `n`: the fixed quota of domain 0 is its own (R184) (DESIGN CHOICE,
log 72). -/
def quotaServes (s : State) (d n : Nat) : Bool := d == 0 || decide (otherQuotas s d + n ≤ 2031616)

/-- Client keys after a `CLIENT_KEY_SET` (R660). -/
def clientKeysAfter (s : State) (a : Nat) (p : Bytes) : Nat :=
  let l := keyEntries p
  let have_ := ((alc s a).map (fun x => (x.keys.filter (fun k => k.2 == .client)).map (·.1))).getD []
  (have_.filter (fun k => !l.any (fun e => !e.1 && e.2.2 == k))).length + (l.filter (fun e => e.1)).length

/-- Whether the quotas fit the store once a section 3 has set its own (R184). -/
def loadQuotas (s : State) (bodies : List (Nat × Bytes)) : Bool :=
  bodies.all (fun e =>
    e.1 != 3 ||
      (let l := quotasIn ((itemsOf e.2).getD [])
       decide (sumNat ((List.range 256).map (fun i => tgetD l (i + 1) (quotaDue s (i + 1)))) ≤ 2031616)))

/-- The limits of single opcodes that check 5 counts: tickets (R223), client keys (R660), contexts
(R293), dirty words (R89) and quotas (R184). -/
def opLimit (s : State) (a op : Nat) (p : Bytes) : Bool :=
  if op = 0x0701 then sliceRoom s a else
  let d := domainOf s a
  if op = 0x0801 then
    decide ((domD s d).tickets.length + inFlight s (fun k => k.opcode == 0x0801 && domainOf s k.alcove == d) < 8)
  else if op = 0x070B then decide (clientKeysAfter s a p ≤ 64)
  else if op = 0x0210 then ctxRoom s a
  else if op = 0x0706 then
    (match tget s.net.slices (sliceKey a (fld p 0 4)) with
      | some x => (match x.region with
        | some r => dirtyFits s x.words (dirtyWords r.2.1)
        | none => true)
      | none => true)
  else if op = 0x0A04 then loadQuotas s (secLoad p)
  else if op = 0x0805 then quotaServes s d (fld p 0 4)
  else true

/-- Check 5. -/
def check5 (s : State) (a op : Nat) (p : Bytes) (pl : Plan) (costs : List Cost) : Bool :=
  (pl.slots == 0 || slotsFit s (domainOf s a) pl.slots)
    && costs.all (shareFits s a pl.cls) && tokensHeld s (domainOf s a) (classNo pl.cls) 1
    && roomFits s a pl.out && opLimit s a op p

/-! ### Check 6: admission -/

/-- Whether an operation fits its class promise at all (R149). -/
def fitsPromise (promise : Nat) (c : Cost) : Bool := decide ((c.span + c.fixed) * wingTick c.wing ≤ promise * 6)

/-- Whether the wings take the costs of a command accepted now (R149, R152, R153). -/
def wingsAdmit (s : State) (cls : DClass) (costs : List Cost) : Bool :=
  costs.all (fun c => fitsPromise (promiseNs cls) c
    && (match loadOf s.time s.net.nextWork (s.time + promiseNs cls) costs c.wing with
      | some l => wingAdmits s c.wing l
      | none => true))

/-- Whether a class is one of the long classes that a planned move holds back (R569). -/
def longClass (c : DClass) : Bool := decide (2 ≤ classNo c)

/-- The limits of R150 and R200, and what a planned move or a stop holds back (R500, R534, R569). -/
def controlFits (s : State) (a : Nat) (pl : Plan) : Bool :=
  let live := fun (p : Work → Bool) => ((tvals s.net.work).filter p).length
  !s.boot.admitStop
    && !(longClass pl.cls && ((alc s a).map (fun x => x.quiesced)).getD false)
    && (pl.cls != .d1 || !pl.steps.isEmpty || decide (live (fun k => k.cls == .d1 && !k.wingWork) < 1024))
    && (pl.cls != .d4 || decide (live (fun k => k.cls == .d4) < 16))
    && (pl.cls != .d5 || (decide (live (fun k => k.cls == .d5) < 8) && live (fun k => k.cls == .d5 && k.alcove == a) == 0))
    && (match pl.record with
      | some n => decide (journalBytes s + n ≤ 65536)
      | none => true)

/-- Long jobs of a command (R328): a long program runs one job a core. -/
def longOf (op : Nat) (p : Bytes) (steps : List Step4) : Nat :=
  let w := sumNat (steps.map (fun x => if x.wing = .pk then x.width else 0))
  if op = 0x0502 then (if progLong (genProg (fld p 0 2)) (fld p 2 2) then w else 0)
  else
    match keyedOf op p with
    | some k => if progLong (famProg k.fam op) k.req.keyBits then w else 0
    | none => 0

/-- Check 6. -/
def check6 (s : State) (a op : Nat) (p : Bytes) (pl : Plan) (costs : List Cost) : Bool :=
  controlFits s a pl && wingsAdmit s pl.cls costs && decide (longAccepted s + longOf op p pl.steps ≤ 384)

/-! ### Refusal and acceptance -/

/-- What a command brings to admission. -/
structure Offer where
  alcove  : Nat
  session : Nat
  seq     : Nat
  queue   : Nat
  opcode  : Nat
  event   : Bool
  sublink : Nat
  prio    : Nat
  pktNum  : Nat
  payload : Bytes
  deriving DecidableEq, Repr

/-- Counters of a refusal (R610, R620). -/
def countRefusal (s : State) (a st : Nat) : State :=
  if st = stBusyClass then perfAdd (alcCount s a 1 1) 18 0x51 1
  else if st = stBusyQuota then perfAdd (alcCount s a 2 1) 18 0x52 1
  else alcCount s a 3 1

/-- A refusal at checks 1 to 6: the sequence number is retired and the completion is built (R54, R138). -/
def refuseCmd (s : State) (x : Session) (o : Offer) (st : Nat) : State :=
  let s := modSess s o.alcove o.session (fun y =>
    { y with entries := tput y.entries o.seq (.done st 0 (some []) o.queue s.net.nextComp) })
  let s := countRefusal s o.alcove st
  addComp s
    { sid := x.sid, alcove := o.alcove, session := o.session, seq := o.seq, queue := o.queue, opcode := o.opcode
      status := st, payload := [], gen := ((alc s o.alcove).map (fun y => y.gen)).getD 0, sublink := o.sublink
      prio := o.prio, event := o.event, replay := false, truncated := false, declLen := 0, work := none
      meters := [], stream := none, pktNum := o.pktNum, tagged := true }

/-- The work of an accepted command (R17). -/
def workOf (s : State) (x : Session) (o : Offer) (pl : Plan) (costs : List Cost) : Work :=
  { sid := x.sid, alcove := o.alcove, session := o.session, seq := o.seq, queue := o.queue, opcode := o.opcode
    payload := o.payload, gen := ((alc s o.alcove).map (fun y => y.gen)).getD 0, cls := pl.cls, accepted := s.time
    deadline := s.time + promiseNs pl.cls, role := x.role, key := x.key, event := o.event, sublink := o.sublink
    prio := o.prio, stream := none, pktNum := o.pktNum, room := pl.out, costs := costs
    longJobs := longOf o.opcode o.payload pl.steps, wingWork := !pl.steps.isEmpty, waited := false, part := 0, carry := none
    slots := [], task := none, stage := .ready }

/-- The acceptance record of a mutating command goes to the twin, with its payload up to 65,536 bytes
(R553, R554). -/
def mirrorAccept (s : State) (o : Offer) (pl : Plan) : State :=
  if twinned s ∧ o.alcove ≠ 0 ∧ pl.record.isSome then
    emit s (.acceptMirror
      { alcove := o.alcove, session := o.session, seq := o.seq, queue := o.queue, opcode := o.opcode
        payload := if o.payload.length ≤ 65536 then some o.payload else none, accepted := s.time
        quorum := quorumOps.any (fun q => q.1 == o.opcode), event := o.event })
  else s

/-- A command that is firmware work, whole or in part, sets its alcove's event source (R503) (DEDUCED, log 77). -/
def firmwareEvent (s : State) (o : Offer) (pl : Plan) : State :=
  if pl.steps.isEmpty ∨ pl.cls = .d4 ∨ pl.cls = .d5 then raise s (256 + o.alcove) else s

/-- Accept a command. -/
def acceptCmd (s : State) (x : Session) (o : Offer) (pl : Plan) (costs : List Cost) : State :=
  let w := s.net.nextWork
  let k := workOf s x o pl costs
  let s := firmwareEvent (mirrorAccept s o pl) o pl
  let s := { s with net := { s.net with work := tput s.net.work w k, nextWork := w + 1 } }
  let s := modSess s o.alcove o.session (fun y => { y with entries := tput y.entries o.seq (.accepted w) })
  perfAdd (alcCount s o.alcove 0 1) 18 0x50 1

/-- Checks 2 to 6, in order, on a command that is assembled (R105) (DEDUCED, log 40). -/
def admitCmd (s : State) (x : Session) (o : Offer) : State :=
  match check2 s o.alcove x.role x.key o.opcode o.payload with
  | some st => refuseCmd s x o st
  | none =>
    match check3 s with
    | some st => refuseCmd s x o st
    | none =>
      match planOf s o.alcove o.opcode o.payload with
      | none => refuseCmd s x o stFormat
      | some pl =>
        let costs := costsOf s pl.steps pl.record.isSome
        if authDenied s o.alcove x.role o.opcode o.payload then refuseCmd s x o stDeniedAuth
        else if check5 s o.alcove o.opcode o.payload pl costs = false then refuseCmd s x o stBusyQuota
        else if check6 s o.alcove o.opcode o.payload pl costs = false then refuseCmd s x o stBusyClass
        else acceptCmd (takeTokens s (domainOf s o.alcove) (classNo pl.cls) 1) x o pl costs

/-! ### Signatures that no command carries (R61, R253) -/

/-- Start a signature with a Stair key: its work in a class, for an alcove and a session number, and its job. -/
def startSign (s : State) (sid a : Nat) (cls : DClass) (till link prio : Nat) (costs : List Cost) (t : StairTask) : State :=
  let w := s.net.nextWork
  let k : Work :=
    { sid := sid, alcove := a, session := 0xFF, seq := 0, queue := 0, opcode := 0, payload := []
      gen := ((alc s a).map (fun y => y.gen)).getD 0, cls := cls, accepted := s.time, deadline := till, role := .manager
      key := [], event := false, sublink := link, prio := prio, stream := none, pktNum := 0, room := 0, costs := costs
      longJobs := 0, wingWork := true, waited := false, part := 0, carry := none, slots := [], task := some t, stage := .ready }
  issueJob { s with net := { s.net with work := tput s.net.work w k, nextWork := w + 1 } } w k 0x01 1 false true []
    (plainResult stOk [] [])

/-- A signature that serves no client is admitted as D4 work of alcove 0, or goes on waiting (R253). -/
def admitTask (s : State) (t : StairTask) : State :=
  let pl : Plan := { plainPlan .d4 0 with steps := [pkStep 0x01 0] }
  let costs := costsOf s pl.steps false
  if controlFits s 0 pl && wingsAdmit s .d4 costs then
    let s := { s with stair := { s.stair with tasks := s.stair.tasks.filter (fun x => x != t) }
                      net := { s.net with nextSid := s.net.nextSid + 1 } }
    startSign s (s.net.nextSid - 1) 0 .d4 (s.time + promiseNs .d4) 0 0 costs t
  else s

/-- The waiting signatures, in their order. -/
def admitTasks (s : State) : State := s.stair.tasks.foldl admitTask s

/-! ### Units out and back -/

/-- Numbers of the units of a bay or single unit. -/
def unitNos (k : UnitKind) (index : Nat) : List Nat :=
  match k with
  | .cipherBay => [2 * index, 2 * index + 1]
  | .pkBay => (List.range 8).map (fun i => 8 * index + i)
  | .lane => [index]
  | .legacy => [0]

/-- State of a unit, and whether it is lost. -/
def unitAt (s : State) (k : UnitKind) (i : Nat) : UState × Bool :=
  match k with
  | .cipherBay => ((tget s.cipher.pipes i).map (fun u => (u.state, u.lost))).getD (.out, false)
  | .pkBay => ((coreAt s i).state, (coreAt s i).lost)
  | .lane => ((tget s.cipher.lanes i).map (fun u => (u.state, u.lost))).getD (.out, false)
  | .legacy => (s.cipher.legacy.state, s.cipher.legacy.lost)

/-- Change a unit, whichever engine it belongs to: its state and whether it leaves. -/
def putUnit (s : State) (k : UnitKind) (i : Nat) (st : UState) (leave : Bool) : State :=
  match k with
  | .cipherBay => modPipe s i (fun u => { u with state := st, leaving := leave })
  | .pkBay => modCore s i (fun c => { c with state := st, leaving := leave })
  | .lane => modLane s i (fun u => { u with state := st, leaving := leave })
  | .legacy => modLegacy s (fun u => { u with state := st, leaving := leave })

def unitLeaves (s : State) (k : UnitKind) (i : Nat) : Bool :=
  match k with
  | .cipherBay => ((tget s.cipher.pipes i).map (fun u => u.leaving)).getD false
  | .pkBay => (coreAt s i).leaving
  | .lane => ((tget s.cipher.lanes i).map (fun u => u.leaving)).getD false
  | .legacy => s.cipher.legacy.leaving

/-- Whether a unit takes or finishes work. -/
def unitServes (u : UState) : Bool := u == .inService || u == .draining || u == .moving

/-- Whether a unit holds work: an operation, or a job on its core. -/
def unitBusy (s : State) (k : UnitKind) (i : Nat) : Bool :=
  match k with
  | .cipherBay => !(opsOn s .cipher i).isEmpty
  | .pkBay => (coreAt s i).busy || (coreAt s i).job.isSome || (coreAt s i).next.isSome
  | .lane => !(opsOn s .hash i).isEmpty
  | .legacy => !(opsOn s .legacy 0).isEmpty

/-- The movable block of a unit, if it has one (R415). -/
def unitBlock (k : UnitKind) (index : Nat) : Option Nat :=
  match k with
  | .cipherBay => some index
  | .pkBay => some (4 + index)
  | .lane => none
  | .legacy => some 10

/-- Whether a unit's block is in hand-over. -/
def unitHanding (s : State) (k : UnitKind) (index : Nat) : Bool :=
  match unitBlock k index with
  | some b => handState s b != .owned
  | none => false

/-- Whether a unit's block is not the Outer Hall's. -/
def unitInner (s : State) (k : UnitKind) (index : Nat) : Bool :=
  match unitBlock k index with
  | some b => ownerOf s b != .outer
  | none => false

/-- Code of a unit kind (R535). -/
def unitCode : UnitKind → Nat
  | .cipherBay => 1
  | .pkBay => 2
  | .lane => 3
  | .legacy => 4

/-- Whether every unit named is out of service, lost or retired (R535). -/
def unitsAllOut (s : State) (k : UnitKind) (index : Nat) : Bool :=
  (unitNos k index).all (fun i => !unitServes (unitAt s k i).1)

/-- Commands that waited for units to go out, complete once all are (R535) (DEDUCED, log 38). -/
def settleOut (s : State) : State :=
  (tkeys s.net.work).foldl (fun s w =>
    match wrk s w with
    | some k =>
      (match k.stage with
        | .waitEpoch c i _ =>
          if k.opcode = 0x0A07 then
            (match unitKindOf c with
              | some (u, _) => if unitsAllOut s u i then okWork s w [] else s
              | none => s)
          else s
        | _ => s)
    | none => s) s

/-- A unit that drains and holds no work goes out of service (R158). -/
def execUnitOutDone (k : UnitKind) (index : Nat) (s : State) : Out :=
  .next (settleOut ((unitNos k index).foldl (fun s i =>
    if (unitAt s k i).1 = .draining ∧ unitBusy s k i = false then putUnit s k i .out false else s) s))

/-! ### The epoch -/

/-- Units that `UNIT_OUT` named leave capacity; returned units join it (R158). -/
def stepUnit (u : EngineUnit) : EngineUnit :=
  if u.leaving ∧ u.state = .inService then { u with state := .draining, leaving := false }
  else if u.joining ∧ u.state = .out then { u with state := .inService, joining := false, lost := false }
  else u

def stepCore (c : PkCore) : PkCore :=
  if c.leaving ∧ c.state = .inService then { c with state := .draining, leaving := false }
  else if c.leaving ∧ c.state = .moving then { c with drains := true, leaving := false }
  else if c.joining ∧ c.state = .out then { c with state := .inService, joining := false, lost := false }
  else c

def stepUnits (s : State) : State :=
  { s with cipher := { s.cipher with pipes := tmap s.cipher.pipes (fun _ u => stepUnit u)
                                     lanes := tmap s.cipher.lanes (fun _ u => stepUnit u)
                                     legacy := stepUnit s.cipher.legacy }
           pk := { s.pk with cores := tmap s.pk.cores (fun _ c => stepCore c) } }

/-- `UNIT_RETURN` completes at the epoch at which no unit it acted on is under test (R536). -/
def settleReturn (s : State) : State :=
  (tkeys s.net.work).foldl (fun s w =>
    match wrk s w with
    | some k =>
      (match k.stage with
        | .waitEpoch c _ l =>
          if k.opcode = 0x0A08 then
            (match unitKindOf c with
              | some (u, _) =>
                if l.any (fun i => underTest (unitAt s u i).1) then s
                else if l.all (fun i => (unitAt s u i).1 != .retired) then okWork s w [] else failWork s w stFaultDetected
              | none => s)
          else s
        | _ => s)
    | none => s) s

/-- The work of an epoch: reserve, margin and alcove settings that waited, the units, and `cap(w)` (R141,
R155, R158, R159). -/
def epoch (s : State) : State :=
  let s := stepUnits s
  let s := { s with net := { s.net with alcoves := tmap s.net.alcoves (fun _ a =>
    { a with set := a.setNext.getD a.set, setNext := none }) } }
  let s := { s with boot := { s.boot with
    margin := s.boot.marginNext, resCipher := s.boot.resNext.1, resPk := s.boot.resNext.2, epochAt := s.time } }
  raise (perfAdd (admitTasks (settleReturn (lostSettle (pkSchedule (capAll s))))) 18 0x54 1) 133

end Sys2Proof.Machine
end

