-- ==== Sys2Proof/Machine/Cmd.lean ====
section
/-! DEFINITION. What the commands of the catalogue share: running an accepted command, check 7 of R105 on
its face, the quorum check, and the symmetric computations of the cipher wing and the hash lanes. -/

namespace Sys2Proof.Machine

/-! ### Running a command -/

/-- Run the accepted command numbered `w` when it carries the opcode and is ready to execute. -/
def onWork (s : State) (w op : Nat) (f : Work → State) : State :=
  match wrk s w with
  | some k => if k.opcode = op ∧ k.stage = .ready ∧ k.stream = none then f k else s
  | none => s

/-- Check 7 on a face: the command ends with the status that refuses it, or goes on (R105, R107). -/
def withFace (s : State) (w : Nat) (k : Work) (h : Nat) (pay : Bool) (ok : Secret → Face → Bool)
    (f : Nat → Nat → Secret → Face → State) : State :=
  match faceCheck s k.alcove h pay ok with
  | .error st => failWork s w st
  | .ok (slot, n, sec, face) => f slot n sec face

/-- The quorum check of a command: refused with `DENIED_QUORUM`, or it goes on (R105, R225). -/
def withQuorum (s : State) (w : Nat) (d op : Nat) (body : Bytes) (a : Option Approval) (mutates : Bool)
    (f : State → Approval → State) : State :=
  match a with
  | none => failWork s w stDeniedQuorum
  | some ap =>
    match quorumPass s d op body ap mutates with
    | (true, s) => f s ap
    | (false, s) => failWork s w stDeniedQuorum

/-- Whether a face's marks allow one more use and, where it draws, one more counter value (R207, R209). -/
def marksAllow (f : Face) (draws : Bool) : Bool :=
  (decide (f.limit ≤ 2 ^ 20) || decide (f.uses < f.useMark * 2 ^ 20)) && (!draws || markAllows f)

/-! ### Symmetric modes -/

/-- Whether a single-shot operation draws an invocation counter value (R308). -/
def drawsNonce (f : Fam) (op : Nat) : Bool :=
  match f with
  | .gcm => op == 0x0201
  | .ccm => op == 0x0201
  | .gmac => op == 0x0203
  | _ => false

/-- Numerals of FF1, 2 bytes each (R291). -/
def numerals (d : Bytes) : List Nat := halves d

/-- Whether FF1 accepts an input (R291, R292). -/
def ff1Ok (q : Prm) (d : Bytes) : Bool :=
  let n := d.length / 2
  d.length % 2 == 0 && decide (2 ≤ n) && decide (1000000 ≤ q.radix ^ n) && decide (ff1Bytes q.radix n ≤ 12)
    && decide (q.label.length ≤ 256) && (numerals d).all (fun x => decide (x < q.radix))

/-- Whether a CTR counter passes the end of its field in an operation of `n` blocks (R286). -/
def ctrPasses (q : Prm) (n : Nat) : Bool :=
  decide (2 ^ q.width < beNat q.iv % 2 ^ q.width + n)

/-- Check 8 of a symmetric operation, with the counter check of CTR before it: the status that refuses. -/
def symRefused (f : Fam) (op : Nat) (q : Prm) (d : Bytes) : Option Nat :=
  match f with
  | .cbc => if d.isEmpty ∨ d.length % 16 ≠ 0 then some stInput else none
  | .ctr => if ctrPasses q (ceilDiv d.length 16) then some stCounterExh else none
  | .xts => if q.unit < 16 ∨ 1048576 < q.unit ∨ d.length % q.unit ≠ 0 then some stInput else none
  | .ff1 => if ff1Ok q d then none else some stInput
  | f => if drawsNonce f op ∧ allZero q.iv = false then some stInput else none

/-- Status and output of a comparison with a tag or MAC (R113, R283). -/
def compare (want have_ : Bytes) (out : Bytes) : Nat × Bytes × Bytes :=
  if want = have_ then (stOk, out, []) else (stVerifyFailed, [], [])

/-- A symmetric operation: key material, the nonce in force, data; status, `OUT` and `AUX` (R112). -/
def symDo (f : Fam) (op : Nat) (q : Prm) (key nonce d : Bytes) : Nat × Bytes × Bytes :=
  let dec : Bool := op == 0x0202
  let verify : Bool := op == 0x0204
  let mac := fun (m : Bytes) => if verify then compare (q.tag.take q.tagLen) m [] else (stOk, m, [])
  match f with
  | .cbc => (stOk, Config.aesMode 0 dec key q.iv 16 d, [])
  | .ctr => (stOk, Config.aesCtr key q.iv q.width d, [])
  | .xts => (stOk, Config.aesMode 1 dec key q.iv q.unit d, [])
  | .ff1 => (stOk, (Config.ff1 dec key q.radix q.label (numerals d)).flatMap (be 2), [])
  | .gcm =>
    if dec then compare (q.tag.take q.tagLen) ((Config.gcmTag key nonce q.aad d).take q.tagLen) (Config.gcmCrypt key nonce d)
    else
      let ct := Config.gcmCrypt key nonce d
      (stOk, ct, nonce ++ (Config.gcmTag key nonce q.aad ct).take q.tagLen)
  | .ccm =>
    if dec then
      let pt := Config.ccmCrypt key nonce d
      compare (q.tag.take q.tagLen) (Config.ccmTag key nonce q.aad pt q.tagLen) pt
    else (stOk, Config.ccmCrypt key nonce d, nonce ++ Config.ccmTag key nonce q.aad d q.tagLen)
  | .gmac =>
    let m := (Config.gcmTag key nonce d []).take q.tagLen
    if verify then compare (q.tag.take q.tagLen) m [] else (stOk, m, nonce)
  | .cmac => mac ((Config.cmac false key d).take q.tagLen)
  | .hmac h => mac ((Config.hmac h key d).take q.tagLen)
  | .hash h => (stOk, Config.hash h d, [])
  | .shake big => (stOk, Config.shake big d q.outLen, [])
  | _ => (stOk, [], [])

/-- The wing of a symmetric family. -/
def symWing (f : Fam) : Wing :=
  match f with
  | .hmac _ => .hash
  | .hash _ => .hash
  | .shake _ => .hash
  | .kdf => .hash
  | .hkdf => .hash
  | _ => .cipher

/-- Meters of a symmetric operation (R590). -/
def symMeters (w : Wing) (n : Nat) : List (Nat × Nat) :=
  if w = .hash then [(0x0201, n), (0x0202, 1)] else [(0x0101, n), (0x0102, 1)]

/-- Whether a face serves a family in an opcode: algorithm, class and, for RSA, the modulus (R111, R112). -/
def famServes (f : Fam) (op keyBits : Nat) (sec : Secret) (face : Face) : Bool :=
  sec.algo == famAlgo f && some face.cls == opUse op && (!famRsa f || sec.bits == keyBits)

/-- Issue a symmetric operation on a face that serves it: the use limit, check 8, the marks, the draw of a
counter value, the use, and the operation on its wing (R107, R115, R116). -/
def issueSym (s : State) (w : Nat) (k : Work) (op : Nat) (f : Fam) (q : Prm) (d : Bytes) (slot n : Nat)
    (sec : Secret) (face : Face) (offset : Nat) (reply : Bytes → Bytes → Bytes) : State :=
  let draws := drawsNonce f op
  if usesLeft s slot n face = false then failWork s w stUsageExh
  else if draws ∧ 2 ^ 64 ≤ face.nextInv then failWork s w stCounterExh
  else
    match symRefused f op q d with
    | some st => failWork s w st
    | none =>
      if marksAllow face draws = false ∨ mayIssue s (symWing f) w [cacheKey slot n] = false then s
      else
        let nonce := if draws then nonceOf s face else q.iv
        let s := if draws then drawInv s slot n else s
        let s := issueFace s k.alcove slot n face
        let r := symDo f op q sec.material nonce d
        issueOp s w k (symWing f) [cacheKey slot n] none offset
          (plainResult r.1 (reply r.2.1 r.2.2) (symMeters (symWing f) d.length))

/-- A keyed symmetric command (R108 to R116). -/
def runSym (s : State) (w op : Nat) (k : Work) : State :=
  match keyedOf op k.payload with
  | none => failWork s w stFormat
  | some x =>
    withFace s w k x.req.handle false (famServes x.fam op x.req.keyBits) (fun slot n sec face =>
      issueSym s w k op x.fam x.prm x.req.data slot n sec face 0 commonResp)

end Sys2Proof.Machine
end

