-- ==== Sys2Proof/Machine/ContextCmd.lean ====
section
/-! DEFINITION. The commands of the context store: `CONTEXT_OPEN`, `CONTEXT_UPDATE`, `CONTEXT_FINAL`,
`CONTEXT_SAVE`, `CONTEXT_RESTORE` and `CONTEXT_CLOSE` (R293 to R306, R133). -/

namespace Sys2Proof.Machine

/-! ### The store -/

def modCtx (s : State) (a i : Nat) (f : Context → Context) : State :=
  modAlc s a (fun x => { x with contexts := tmod x.contexts i f })

/-- The context that a command names, if it is one of the context commands (R296, R303). -/
def ctxNamed (k : Work) : Option Nat :=
  if k.opcode = 0x0214 then some (fld k.payload 12 4)
  else if 0x0211 ≤ k.opcode ∧ k.opcode ≤ 0x0215 then some (fld k.payload 0 4)
  else none

/-- Whether a command in flight holds a context that the command `w` names: an operation of it, or a command accepted before and
not completed (R133). -/
def ctxClaimed (s : State) (w a id : Nat) (c : Context) : Bool :=
  c.inFlight || s.net.work.any (fun e =>
    decide (e.1 < w) && e.2.alcove == a && e.2.stage != .completed && e.2.stream.isNone && ctxNamed e.2 == some id)

/-- An identifier that the alcove holds, saved ones included (R303). -/
def ctxHolds (s : State) (a id : Nat) : Option Context := (alc s a).bind (fun x => tget x.contexts id)

/-- The live contexts that no command holds: alcove, identifier, end of their last command. -/
def idleCtxs (s : State) : List (Nat × Nat × Nat) :=
  s.net.alcoves.flatMap (fun e => e.2.contexts.filterMap (fun c =>
    if c.2.present ∧ c.2.spilled = false ∧ c.2.inFlight = false then some (e.1, c.1, c.2.idle) else none))

/-- When the store holds more than it can, the context idle longest spills (R301). -/
def spillIdle (s : State) : State :=
  if liveCtx s ≤ 32768 then s
  else
    let l := idleCtxs s
    match l.find? (fun c => l.all (fun d => decide (c.2.2 ≤ d.2.2))) with
    | some c => perfAdd (modCtx s c.1 c.2.1 (fun x => { x with spilled := true })) 23 0x78 1
    | none => s

/-- A context becomes live at its command (R301). -/
def makeLive (s : State) (a id : Nat) : State :=
  let refill := ((ctxHolds s a id).map (fun c => c.spilled)).getD false
  let s := modCtx s a id (fun c => { c with spilled := false, idle := s.time, inFlight := true })
  spillIdle (if refill then perfAdd s 23 0x79 1 else s)

/-- The identifier that the alcove gives its lowest free index (R294). -/
def freshCtx (x : Alcove) : Option Nat :=
  ((List.range 256).find? (fun i => !x.contexts.any (fun e => e.1 % 256 == i))).map (fun i =>
    x.gen % 256 * 2 ^ 24 + tgetD x.reuse i 0 * 256 + i)

/-! ### Opening -/

/-- Whether a face serves a context of a family: its class gives the direction (R102, R112). -/
def openServes (f : Fam) (sec : Secret) (face : Face) : Bool :=
  sec.algo == 1 && (match f with
    | .gmac => face.cls == .macGenerate || face.cls == .macVerify
    | .cmac => face.cls == .macGenerate || face.cls == .macVerify
    | _ => face.cls == .encrypt || face.cls == .decrypt)

/-- Whether an open draws an invocation counter value (R308). -/
def openDraws (f : Fam) (face : Face) : Bool :=
  (f == .gcm && face.cls == .encrypt) || (f == .gmac && face.cls == .macGenerate)

/-- The context of an open, before any data. -/
def openCtx (k : Work) (x : Keyed) (face : Face) (nonce : Bytes) : Context :=
  { alcove := k.alcove, handle := x.req.handle, mech := x.req.mech, decrypt := face.cls == .decrypt
    verify := face.cls == .macVerify
    counter := if x.fam = .ctr then beNat x.prm.iv % 2 ^ x.prm.width else 2
    width := x.prm.width, nonce := nonce, aad := x.prm.aad, tagLen := x.prm.tagLen, history := []
    inFlight := true, spilled := false, present := true, epoch := none, idle := 0 }

/-- `CONTEXT_OPEN` (R295, R308). -/
def runOpen (s : State) (w : Nat) (k : Work) : State :=
  match openOf k.payload, alc s k.alcove with
  | some x, some y =>
    withFace s w k x.req.handle false (openServes x.fam) (fun slot n _ face =>
      let draws := openDraws x.fam face
      if usesLeft s slot n face = false then failWork s w stUsageExh
      else if draws ∧ 2 ^ 64 ≤ face.nextInv then failWork s w stCounterExh
      else if draws ∧ allZero x.prm.iv = false then failWork s w stInput
      else if marksAllow face draws = false ∨ mayIssue s .cipher w [cacheKey slot n] = false then s
      else
        match ctxRoom s k.alcove, freshCtx y with
        | true, some id =>
          let nonce := if draws then nonceOf s face else x.prm.iv
          let c := openCtx k x face nonce
          let s := if draws then drawInv s slot n else s
          let s := issueFace s k.alcove slot n face
          let s := makeLive (modAlc s k.alcove (fun z => { z with contexts := tput z.contexts id c })) k.alcove id
          let r := plainResult stOk (commonResp [] (be 4 id ++ (if draws then nonce else []))) [(0x0101, 0), (0x0102, 1)]
          issueOp s w k .cipher [cacheKey slot n] (some id) 0
            { r with ctx := some (id, { c with inFlight := false }) }
        | _, _ => failWork s w stBusyQuota)
  | _, _ => failWork s w stFormat

/-- `CONTEXT_OPEN`. -/
def execContextOpen (w : Nat) (s : State) : Out := .next (onWork s w 0x0210 (runOpen s w))

/-! ### Data -/

/-- `PARAM` of a context as its single-shot form has it. -/
def ctxPrm (c : Context) : Prm :=
  { noPrm with iv := c.nonce, width := c.width, tagLen := c.tagLen, aad := c.aad }

/-- Output of the message so far and more data: the last `d.length` bytes of the whole message's output. -/
def ctxOut (c : Context) (f : Fam) (key d : Bytes) : Bytes :=
  let m := c.history ++ d
  match f with
  | .cbc => (Config.aesMode 0 c.decrypt key c.nonce 16 m).drop c.history.length
  | .ctr => (Config.aesCtr key c.nonce c.width m).drop c.history.length
  | .gcm => (Config.gcmCrypt key c.nonce m).drop c.history.length
  | _ => []

/-- The tag or MAC of a whole message (R296). -/
def ctxTag (c : Context) (f : Fam) (key d : Bytes) : Bytes :=
  let m := c.history ++ d
  match f with
  | .gcm => (Config.gcmTag key c.nonce c.aad (if c.decrypt then m else Config.gcmCrypt key c.nonce m)).take c.tagLen
  | .gmac => (Config.gcmTag key c.nonce m []).take c.tagLen
  | .cmac => (Config.cmac false key m).take c.tagLen
  | _ => []

/-- Whether the data pass the end of the context's counter (R286, R287, R298). -/
def ctxSpent (c : Context) (f : Fam) (d : Bytes) : Bool :=
  match f with
  | .gcm => decide (2 ^ 32 < c.counter + ceilDiv d.length 16)
  | .ctr => decide (2 ^ c.width < c.counter + ceilDiv d.length 16)
  | _ => false

/-- The context after an update (R304): its latest epoch is none once its state has changed. -/
def ctxNext (c : Context) (d : Bytes) : Context :=
  { c with history := c.history ++ d, counter := c.counter + ceilDiv d.length 16, inFlight := false
           epoch := if d.isEmpty then c.epoch else none }

/-- The result of an update or a final. -/
def ctxResult (c : Context) (f : Fam) (id : Nat) (key tag d : Bytes) (final : Bool) : Result :=
  let out := ctxOut c f key d
  let meters := symMeters .cipher d.length
  if final then
    let t := ctxTag c f key d
    let r := if ctxChecks c ∧ f ≠ .cbc ∧ f ≠ .ctr then compare (tag.take c.tagLen) t out else (stOk, out, t)
    { plainResult r.1 (commonResp r.2.1 r.2.2) meters with relCtx := some id }
  else { plainResult stOk (commonResp out []) meters with ctx := some (id, ctxNext c d) }

/-- A refusal at check 7 or 8: a `CONTEXT_FINAL` releases its context all the same (R299). -/
def ctxRefuse (s : State) (w a id st : Nat) (final : Bool) : State :=
  failWork (if final then releaseCtx s a id else s) w st

/-- `CONTEXT_UPDATE` and `CONTEXT_FINAL` (R296 to R300). -/
def runData (s : State) (w : Nat) (final : Bool) (k : Work) : State :=
  match ctxReq k.payload with
  | none => failWork s w stFormat
  | some r =>
    match ctxOf s k.alcove r.id with
    | none => failWork s w stInput
    | some c =>
      let f := (famOf c.mech).getD .ctr
      if ctxClaimed s w k.alcove r.id c then failWork s w stConflict
      else
        match faceCheck s k.alcove c.handle false (openServes f) with
        | .error st => ctxRefuse s w k.alcove r.id st final
        | .ok (slot, n, sec, face) =>
          if usesLeft s slot n face = false then ctxRefuse s w k.alcove r.id stUsageExh final
          else if ctxSpent c f r.data then ctxRefuse s w k.alcove r.id stCounterExh final
          else if (final = false ∨ f = .cbc) ∧ r.data.length % 16 ≠ 0 then ctxRefuse s w k.alcove r.id stInput final
          else if marksAllow face false = false ∨ mayIssue s .cipher w [cacheKey slot n] = false then s
          else
            let s := makeLive (issueFace s k.alcove slot n face) k.alcove r.id
            issueOp s w k .cipher [cacheKey slot n] (some r.id) 0
              (ctxResult { c with spilled := false } f r.id sec.material r.tag r.data final)

/-- `CONTEXT_UPDATE`. -/
def execContextUpdate (w : Nat) (s : State) : Out := .next (onWork s w 0x0211 (runData s w false))

/-- `CONTEXT_FINAL`. -/
def execContextFinal (w : Nat) (s : State) : Out := .next (onWork s w 0x0212 (runData s w true))

/-! ### Save, restore and close -/

/-- The first 32 bytes of a wrapped context (R303) (DEDUCED, log 48). -/
def blobHead (mech a id epoch handle : Nat) : Bytes :=
  be 4 0x57435458 ++ [1, 0] ++ be 2 mech ++ be 2 a ++ zeros 2 ++ be 4 id ++ be 8 epoch ++ be 8 handle

/-- The tag over a wrapped context. -/
def blobTag (key head state : Bytes) : Bytes := Config.gcmTag key (zeros 4 ++ slice head 16 8) head state

/-- Whether a counter that persists by marks may be drawn from (R267, R304, R665). -/
def markedDraw (s : State) (d next mark : Nat) : Draw :=
  if (contNow s.keys).isNone ∧ ((dom s d).map (fun x => x.opened)).getD false = false then .absent
  else if next < mark * 2 ^ 20 then .ok
  else .waits

/-- `CONTEXT_SAVE` (R303, R304). The 240 bytes of chaining state are the encryption of an encoding that the
spec does not lay out: free values. -/
def runSave (s : State) (w : Nat) (k : Work) : State :=
  let id := fld k.payload 0 4
  match ctxOf s k.alcove id, alc s k.alcove with
  | some c, some x =>
    if (resolve s k.alcove c.handle).isNone then failWork s w stKeyUnknown
    else if ctxClaimed s w k.alcove id c then failWork s w stConflict
    else
      match markedDraw s x.set.domain x.epoch x.epochMark with
      | .ok =>
        let head := blobHead c.mech k.alcove id x.epoch c.handle
        let body := Config.gcmCrypt x.ctxKey (zeros 4 ++ be 8 x.epoch) (drawn s 240)
        let s := useFree s 240
        let s := modAlc s k.alcove (fun y => { y with epoch := y.epoch + 1 })
        let s := modCtx (makeLive s k.alcove id) k.alcove id (fun c =>
          { c with epoch := some x.epoch, inFlight := false, present := !bitOf (fld k.payload 4 1) 0 })
        okWork s w (head ++ body ++ blobTag x.ctxKey head body)
      | .waits => s
      | _ => failWork s w stCounterExh
  | _, _ => failWork s w stInput

/-- `CONTEXT_SAVE`. -/
def execContextSave (w : Nat) (s : State) : Out := .next (onWork s w 0x0213 (runSave s w))

/-- `CONTEXT_RESTORE` (R305, R306): the blob of the latest epoch, whose state the context still is. -/
def runRestore (s : State) (w : Nat) (k : Work) : State :=
  let p := k.payload
  let id := fld p 12 4
  match ctxHolds s k.alcove id, alc s k.alcove with
  | some c, some x =>
    if (resolve s k.alcove c.handle).isNone then failWork s w stKeyUnknown
    else if fld p 8 2 ≠ k.alcove ∨ blobTag x.ctxKey (p.take 32) (slice p 32 240) ≠ slice p 272 16
        ∨ c.epoch ≠ some (fld p 16 8) then failWork s w stContextStale
    else if ctxClaimed s w k.alcove id c then failWork s w stConflict
    else if c.present = false ∧ 65536 ≤ ctxHeld s then failWork s w stBusyQuota
    else
      let s := makeLive (modCtx s k.alcove id (fun c => { c with present := true })) k.alcove id
      okWork (modCtx s k.alcove id (fun c => { c with inFlight := false })) w (be 4 id ++ zeros 4)
  | _, _ => failWork s w stContextStale

/-- `CONTEXT_RESTORE`. -/
def execContextRestore (w : Nat) (s : State) : Out := .next (onWork s w 0x0214 (runRestore s w))

/-- `CONTEXT_CLOSE` (R299, R303). -/
def execContextClose (w : Nat) (s : State) : Out :=
  .next (onWork s w 0x0215 (fun k =>
    let id := fld k.payload 0 4
    match ctxHolds s k.alcove id with
    | none => failWork s w stInput
    | some c => if ctxClaimed s w k.alcove id c then failWork s w stConflict else okWork (releaseCtx s k.alcove id) w []))

end Sys2Proof.Machine
end

