-- ==== Sys2Proof/Machine/NewKey.lean ====
section
/-! DEFINITION. New secrets and faces: what check 7 asks of them (R171, R175, R178, R219, R664, R205), and
the bodies that create them. -/

namespace Sys2Proof.Machine

/-- Whether a domain may not hold new secrets, for want of a root (R219). -/
def rootMissing (s : State) (d : Nat) : Bool := d != 0 && (domD s d).root.isNone

/-- Whether a face takes a face instance number (R205). -/
def needsInst (algo : Nat) (c : UseClass) : Bool :=
  algo == 1 && (c == .encrypt || c == .macGenerate || c == .wrap)

/-- The numbers that this device may give: in an estate those whose bits [24:21] are its gallery number, else all
(R205, R583). -/
def instRange (s : State) : Nat × Nat :=
  if s.gallery.estate.isSome then (s.gallery.number * 2 ^ 21, s.gallery.number * 2 ^ 21 + 0x1FFFFF) else (0, 0x1FFFFFF)

/-- Whether a number may be given here. -/
def instHere (s : State) (n : Nat) : Bool := decide ((instRange s).1 ≤ n ∧ n ≤ (instRange s).2)

/-- The next number of the allocator: from the manager's blocks on a worker (R572), else its own; none when
it is spent or both copies of the continuity record have gone (R205, R583, R665). -/
def nextInst (s : State) : Option Nat :=
  if (contNow s.keys).isNone then none
  else if s.gallery.role = 1 then
    (s.keys.blocks.find? (fun b => decide (b.2 < b.1 + 4096) && instHere s b.2)).map (·.2)
  else
    let n := max s.keys.instNext (max 1 (instRange s).1)
    if instHere s n then some n else none

/-- The allocator after a number: the floor rises in blocks of 4,096 before a number at or above it is given (R665). -/
def takeInst (s : State) : State :=
  match nextInst s with
  | none => s
  | some n =>
    let k := if (floors s.keys).inst ≤ n then contWrite s.keys (fun c => { c with inst := (n / 4096 + 1) * 4096 }) else s.keys
    if s.gallery.role = 1 then
      { s with keys := { k with blocks := k.blocks.map (fun b => if b.2 = n then (b.1, b.2 + 1) else b) } }
    else { s with keys := { k with instNext := n + 1 } }

/-- Whether the allocator can serve the faces of a new secret. -/
def instServes (s : State) (algo : Nat) (fs : List Face) : Bool :=
  (nextInst s).isSome || !fs.any (fun f => needsInst algo f.cls)

/-- A face as it is created: its first marks are committed with it (R207, R209). -/
def bornFace (f : Face) (inst : Nat) : Face :=
  { f with instance_ := inst, uses := 0, useMark := 1, nextInv := 0, invMark := 1 }

/-- A secret not yet in the store. -/
def newSecret (d algo bits : Nat) (material : Bytes) (f0 f1 : Option Face) : Secret :=
  { domain := d, algo := algo, bits := bits, granted := false, material := material, face0 := f0, face1 := f1
    chain := [] }

/-- Whether a face made from another passes check 7 (R171, R175, R178, R219, R664). -/
def childOk (s : State) (a : Nat) (t : Template) (f parent : Face) : Bool :=
  match t.key with
  | some (algo, bits) =>
    ownersExist s a f.owners && childWithin f parent && !rootMissing s (domainOf s a)
      && facesOk algo bits (some f) none
  | none => false

/-- The result of an operation that creates a face from `material`: the response without its handle, and the
mutation. Two equal XTS halves are refused (R289). -/
def childResult (s : State) (a : Nat) (t : Template) (f : Face) (material out : Bytes) (meters : List (Nat × Nat)) :
    Result :=
  let key := t.key.getD (0, 0)
  let m := (materialLen key.1 key.2).getD 0
  if key.1 = 2 ∧ material.take (m / 2) = material.drop (m / 2) then plainResult stInput [] meters
  else
    { plainResult stOk (be 4 out.length ++ be 4 8 ++ out) meters with
      body := some (.create (newSecret (domainOf s a) key.1 key.2 material (some f) none) 1) }

/-- Material of a template's length from a shared secret: the secret itself where the lengths agree; the spec
states no other case, which is a free value (log 21). -/
def sharedMaterial (s : State) (t : Template) (shared : Bytes) : Bytes :=
  let m := (t.key.bind (fun x => materialLen x.1 x.2)).getD 0
  if m = shared.length then shared else drawn s m

end Sys2Proof.Machine
end

