-- ==== Sys2Proof/Machine/PkCmd.lean ====
section
/-! DEFINITION. The public-key commands: `SIGN`, `VERIFY`, `AGREE`, `ENCAPSULATE`, `DECAPSULATE`,
`PK_ENCRYPT` and `PK_DECRYPT` (R102, R319 to R335). -/

namespace Sys2Proof.Machine

/-! ### Inputs (R331) -/

/-- An Ed25519 signature whose R decodes and whose S is below L. -/
def edSigOk (sig : Bytes) : Bool := Config.edPointOk (sig.take 32) && decide (beNat (sig.drop 32).reverse < Std.edL)

/-- An ECDSA signature with r and s from 1 to n - 1. -/
def ecdsaSigOk (c : Nat) (sig : Bytes) : Bool :=
  let r := beNat (sig.take (Config.curveLen c))
  let t := beNat (sig.drop (Config.curveLen c))
  decide (1 ≤ r ∧ r < curveOrder c ∧ 1 ≤ t ∧ t < curveOrder c)

/-- An RSA representative that is neither 0, nor 1, nor at least n. -/
def rsaRepOk (n rep : Bytes) : Bool := decide (2 ≤ beNat rep ∧ beNat rep < beNat n)

/-- Modulus of RSA material (R170). -/
def rsaModulus (sec : Secret) : Bytes := sec.material.take (sec.bits / 8)

/-- Public part of a curve's or a lattice scheme's material (R170). -/
def pubPart (sec : Secret) : Bytes :=
  if sec.algo = 0x10 ∨ sec.algo = 0x11 ∨ sec.algo = 0x32 ∨ sec.algo = 0x33 then sec.material.drop 32
  else if sec.algo = 0x30 ∨ sec.algo = 0x31 then sec.material.drop 64
  else if sec.algo = 0x20 then rsaModulus sec
  else sec.material.drop (Config.curveLen (sec.algo - 0x12))

/-- Private part of a curve's or a lattice scheme's material. -/
def privPart (sec : Secret) : Bytes :=
  if sec.algo = 0x10 ∨ sec.algo = 0x11 ∨ sec.algo = 0x32 ∨ sec.algo = 0x33 then sec.material.take 32
  else if sec.algo = 0x30 ∨ sec.algo = 0x31 then sec.material.take 64
  else sec.material.take (Config.curveLen (sec.algo - 0x12))

/-- The digest that ECDSA and RSA-PSS sign (R112, R319). -/
def digestFor (x : Keyed) (h : Nat) : Bytes := if x.req.pre then x.req.data else Config.hash h x.req.data

/-- A signature (R112); `rnd` is what the standard draws. -/
def signOut (x : Keyed) (sec : Secret) (rnd : Bytes) : Bytes :=
  match x.fam with
  | .ed => Config.edSign (privPart sec) x.req.data
  | .ecdsa c => Config.ecdsa c (privPart sec) (digestFor x c) rnd
  | .pss h => Config.pssSign h (sec.bits / 8) sec.material (digestFor x h) (rnd.take (Config.hashLen h))
  | .mldsa big => Config.dsaSign big (privPart sec) x.prm.label x.req.data (rnd.take 32)
  | _ => []

/-- The status of a verification (R331, R332). -/
def verifyStatus (x : Keyed) (sec : Secret) : Nat :=
  let st := fun (ok good : Bool) => if ok = false then stInput else if good then stOk else stVerifyFailed
  match x.fam with
  | .ed => st (edSigOk x.prm.sig) (Config.edVerify (pubPart sec) x.req.data x.prm.sig)
  | .ecdsa c => st (ecdsaSigOk c x.prm.sig) (Config.ecdsaVerify c (pubPart sec) (digestFor x c) x.prm.sig)
  | .pss h => st (rsaRepOk (rsaModulus sec) x.prm.sig) (Config.pssVerify h (rsaModulus sec) (digestFor x h) x.prm.sig)
  | .mldsa big => st true (Config.dsaVerify big (pubPart sec) x.prm.label x.req.data x.prm.sig)
  | _ => stInput

/-- The shared secret of `AGREE`, or none where the input is refused (R331). -/
def agreed (x : Keyed) (sec : Secret) : Option Bytes :=
  match x.fam with
  | .x25519 =>
    let z := Config.x25519 (privPart sec) x.req.data
    if allZero z then none else some z
  | .ecdh c =>
    if fld x.req.data 0 1 = 4 ∧ Config.ecPointOk c (x.req.data.drop 1) then
      some (Config.ecdh c (privPart sec) (x.req.data.drop 1))
    else none
  | _ => none

/-- What an operation of the wing delivers. -/
def pkResult (s : State) (k : Work) (op : Nat) (x : Keyed) (sec : Secret) (child : Face) (meters : List (Nat × Nat)) :
    Result :=
  let bad := plainResult stInput [] meters
  match op with
  | 0x0301 => plainResult stOk (commonResp (signOut x sec (drawn s 66)) []) meters
  | 0x0302 => plainResult (verifyStatus x sec) (commonResp [] []) meters
  | 0x0303 =>
    match agreed x sec with
    | none => bad
    | some z => childResult s k.alcove x.prm.tmpl child (sharedMaterial s x.prm.tmpl z) [] meters
  | 0x0304 =>
    let big : Bool := x.fam == .mlkem true
    if Config.kemEkOk big (pubPart sec) = false then bad
    else
      let e := Config.kemEnc big (pubPart sec) (drawn s 32)
      childResult (useFree s 32) k.alcove x.prm.tmpl child (sharedMaterial (useFree s 32) x.prm.tmpl e.2) e.1 meters
  | 0x0305 =>
    let z := Config.kemDec (x.fam == .mlkem true) (privPart sec) x.req.data
    childResult s k.alcove x.prm.tmpl child (sharedMaterial s x.prm.tmpl z) [] meters
  | 0x0306 =>
    (match x.fam with
      | .oaep h =>
        if sec.bits / 8 < x.req.data.length + 2 * Config.hashLen h + 2 then bad
        else
          plainResult stOk
            (commonResp (Config.oaepEnc h (sec.bits / 8) (rsaModulus sec) x.prm.label x.req.data (drawn s (Config.hashLen h))) [])
            meters
      | _ => bad)
  | _ =>
    (match x.fam with
      | .oaep h =>
        if rsaRepOk (rsaModulus sec) x.req.data = false then bad
        else
          match Config.oaepDec h sec.material x.prm.label x.req.data with
          | some m => plainResult stOk (commonResp m []) meters
          | none => plainResult stVerifyFailed [] meters
      | _ => bad)

/-- Free bytes that the computation of a result may use. -/
def pkFree : Nat := 4096

/-! ### The run -/

/-- Hand the core job of a command to the wing. -/
def pkIssue (s : State) (w : Nat) (k : Work) (op : Nat) (x : Keyed) (pins : List Nat) (r : Result) : State :=
  let prog := famProg x.fam op
  let st := pkStep prog x.req.keyBits
  issueJob s w k prog st.width (progLong prog x.req.keyBits) false pins r

/-- Whether an opcode makes a new face. -/
def makesFace (op : Nat) : Bool := op == 0x0303 || op == 0x0304 || op == 0x0305

/-- Whether a command takes two lane passes: a pure Ed25519 signature of a long message (R319). -/
def twoPasses (x : Keyed) (op : Nat) : Bool := x.fam == .ed && op == 0x0301

/-- What a command issues after a lane pass: the second pass, or the core job. A change of the face that has committed since
applies to it (R19); the use is counted (R116). -/
def pkNext (s : State) (w op : Nat) (k : Work) (x : Keyed) (r : Result) : State :=
  withFace s w k x.req.handle false (famServes x.fam op x.req.keyBits) (fun slot n _ _ =>
    let pins := [cacheKey slot n]
    let second : Bool := twoPasses x op && k.part == 1
    if mayIssue s (if second then .hash else .pk) w pins = false then s
    else if second then issueOp (pinFace s slot n) w k .hash pins none 0 { r with again := .nextWing }
    else pkIssue (pinFace s slot n) w k op x pins r)

/-- A public-key command: check 7, the first issue, and, after the lane's hash of a long message, what follows
(R116, R153, R319). -/
def runPk (s : State) (w op : Nat) (k : Work) : State :=
  match keyedOf op k.payload with
  | none => failWork s w stFormat
  | some x =>
    match k.carry with
    | some r => pkNext s w op k x r
    | none =>
      withFace s w k x.req.handle false
        (fun sec face => famServes x.fam op x.req.keyBits sec face
          && (op != 0x0303 || hFace (mapHandle s k.alcove x.req.handle) == 0))
        (fun slot n sec face =>
          let child := childFace k.alcove x.prm.tmpl face (mapHandle s k.alcove x.req.handle)
          if makesFace op ∧ childOk s k.alcove x.prm.tmpl child face = false then failWork s w stDeniedAttr
          else if usesLeft s slot n face = false then failWork s w stUsageExh
          else if makesFace op ∧ instServes s ((x.prm.tmpl.key.getD (0, 0)).1) [child] = false then failWork s w stCounterExh
          else
          let lane := longHash x op
          if marksAllow face false = false ∨ mayIssue s (if lane.isSome then .hash else .pk) w [cacheKey slot n] = false then s
          else
            let meters := pkMeter (famProg x.fam op) x.req.keyBits
              :: (if lane.isSome then symMeters .hash x.req.data.length else [])
            let r := pkResult s k op x sec child meters
            let s := issueFace (useFree s pkFree) k.alcove slot n face
            match lane with
            | some _ =>
              issueOp s w k .hash [cacheKey slot n] none 0
                { r with again := if twoPasses x op then .sameWing else .nextWing }
            | none => pkIssue s w k op x [cacheKey slot n] r)

/-- `SIGN`. -/
def execSign (w : Nat) (s : State) : Out := .next (onWork s w 0x0301 (runPk s w 0x0301))

/-- `VERIFY`. -/
def execVerify (w : Nat) (s : State) : Out := .next (onWork s w 0x0302 (runPk s w 0x0302))

/-- `AGREE`. -/
def execAgree (w : Nat) (s : State) : Out := .next (onWork s w 0x0303 (runPk s w 0x0303))

/-- `ENCAPSULATE`. -/
def execEncapsulate (w : Nat) (s : State) : Out := .next (onWork s w 0x0304 (runPk s w 0x0304))

/-- `DECAPSULATE`. -/
def execDecapsulate (w : Nat) (s : State) : Out := .next (onWork s w 0x0305 (runPk s w 0x0305))

/-- `PK_ENCRYPT`. -/
def execPkEncrypt (w : Nat) (s : State) : Out := .next (onWork s w 0x0306 (runPk s w 0x0306))

/-- `PK_DECRYPT`. -/
def execPkDecrypt (w : Nat) (s : State) : Out := .next (onWork s w 0x0307 (runPk s w 0x0307))

end Sys2Proof.Machine
end

