-- ==== Sys2Proof/Machine/StairCmd.lean ====
section
/-! DEFINITION. The commands that read the device: `INFO`, `TIME_QUERY`, `CERTS_GET` (R658, R262), and those
of the Stair's keys: `STATEMENT`, `PROVE`, `LEDGER_READ` and `WITNESS` (R263 to R267, R273 to R276). -/

namespace Sys2Proof.Machine

/-! ### Queries -/

/-- `ID_PART`, `ID_STEP`, `ID_STRAP` and `ID_STATE` (01). -/
def idPart : Nat := 0x57450800
def idStep : Nat := 0xA0
def idState (s : State) : Nat := serviceCode s.fc.service * 256 + lifeShown s

/-- The identity and version window. -/
def idRead (s : State) (off : Nat) : Option Word :=
  if off = 0x000 then some (w32 idPart)
  else if off = 0x004 then some (w32 idStep)
  else if off = 0x008 then some (w32 s.twin.side)
  else if off = 0x00C then some (w32 (idState s))
  else none

/-- The record of `INFO` (R658). -/
def infoRecord (s : State) (k : Work) : Bytes :=
  be 4 idPart ++ be 4 idStep ++ be 4 (idState s) ++ be 2 k.alcove ++ be 2 (domainOf s k.alcove)
    ++ be 1 (roleCode k.role) ++ be 1 k.session ++ be 1 s.twin.side ++ be 1 (s.gallery.member.getD 0xFF) ++ be 1 k.gen
    ++ zeros 3

/-- `INFO`. -/
def execInfo (w : Nat) (s : State) : Out := .next (onWork s w 0x0101 (fun k => okWork s w (infoRecord s k)))

/-- `TIME_QUERY`. -/
def execTimeQuery (w : Nat) (s : State) : Out :=
  .next (onWork s w 0x0103 (fun _ =>
    okWork s w (be 8 s.time ++ be 8 s.tally.time ++ be 1 (b2n s.net.ptpHere + 2 * b2n s.tally.suspect) ++ zeros 7)))

/-- A chain as `CERTS_GET` returns it. -/
def chainBytes (l : List Bytes) : Bytes := be 1 l.length ++ zeros 3 ++ l.flatMap (fun c => be 2 c.length ++ c)

/-- `CERTS_GET` (R262). -/
def execCertsGet (w : Nat) (s : State) : Out :=
  .next (onWork s w 0x0901 (fun k =>
    let set := fld k.payload 0 1
    let chain := replyChain s k.alcove
    let x := domD s (domainOf s k.alcove)
    if set = 0 then okWork s w (chainBytes chain)
    else if set = 1 then okWork s w (chainBytes [s.stair.ledCert, s.stair.idCert])
    else if x.root.isNone then failWork s w stDeniedAttr
    else okWork s w (chainBytes (x.witCert :: chain.drop 1))))

/-! ### Statements (R263) -/

/-- `ROOT_CHECK` of a root (R229). -/
def rootCheck (root : Bytes) : Bytes := (Config.hmac512 root (ascii "WROOT chk")).take 8

/-- An item of a statement. -/
def stItem (tag : Nat) (v : Bytes) : Bytes := be 2 tag ++ be 2 v.length ++ v

/-- The item of a landing. -/
def landItem (s : State) (n : Nat) : Bytes :=
  match tget s.stair.lands n with
  | some l => be 1 l.svn ++ zeros 3 ++ Config.fixLen 64 l.meas ++ Config.fixLen 64 l.signer
  | none => zeros 132

/-- A statement without its signature. -/
def statementBody (s : State) (d : Nat) (nonce : Bytes) : Bytes :=
  let x := domD s d
  let items := stItem 0x01 nonce ++ stItem 0x02 (deviceKeyId s) ++ stItem 0x03 s.stair.idPub
    ++ stItem 0x04 (be 8 s.time ++ be 4 (tallySec s) ++ zeros 4)
    ++ stItem 0x05 (be 1 (lifeCode s.life.life) ++ be 1 (serviceCode s.fc.service))
    ++ stItem 0x06 (be 1 s.twin.side ++ be 1 (s.gallery.member.getD 0xFF) ++ zeros 2) ++ stItem 0x07 (be 2 (evidence s))
    ++ ([1, 2, 3, 4] : List Nat).flatMap (fun n => stItem (0x10 + n) (landItem s n))
    ++ stItem 0x20 (configDigest s) ++ stItem 0x21 (retiredBytes s) ++ stItem 0x22 (be 8 s.ledger.newest ++ headHash s)
    ++ stItem 0x23 (s.tally.fwDigest ++ be 4 s.tally.fwVersion)
    ++ stItem 0x24 (be 2 d ++ be 4 x.epoch ++ (match x.root with
      | some r => rootCheck r
      | none => zeros 8))
  be 4 0x5753544D ++ [1, 0] ++ be 2 (items.length + 68) ++ items

/-- A signed statement for a domain. -/
def statementFor (s : State) (d : Nat) (nonce : Bytes) : Bytes :=
  let b := statementBody s d nonce
  b ++ stItem 0xFF (Config.edSign (statementKey s) (ascii "WSTM1" ++ b))

/-- `STATEMENT`: its signature is a job with a Stair key (R253). -/
def execStatement (w : Nat) (s : State) : Out :=
  .next (onWork s w 0x0903 (fun k =>
    issueJob s w k 0x01 1 false true []
      (plainResult stOk (statementFor s (domainOf s k.alcove) k.payload) [pkMeter 0x01 0])))

/-! ### Proofs (R265 to R267) -/

/-- What an answer to a challenge is a MAC over. -/
def proofText (k : Work) (side counter : Nat) : Bytes :=
  ascii "WPRV1" ++ slice k.payload 8 32 ++ be 2 k.alcove ++ be 1 side ++ be 8 counter

/-- `PROVE` with `FUNCTION` 0. The counter persists by marks: a draw at its mark waits for the next. -/
def execProveChallenge (w : Nat) (s : State) : Out :=
  .next (onWork s w 0x0902 (fun k =>
    if fld k.payload 0 1 ≠ 0 then s
    else
      match (alc s k.alcove).bind (fun x => x.proof) with
      | none => failWork s w stDeniedAttr
      | some secret =>
        match markedDraw s 0 s.keys.proofNext s.keys.proofMark with
        | .ok =>
          let n := s.keys.proofNext
          let s := { s with keys := { s.keys with proofNext := n + 1 } }
          okWork s w (be 1 s.twin.side ++ zeros 7 ++ be 8 n ++ Config.hmac512 secret (proofText k s.twin.side n))
        | .waits => s
        | _ => failWork s w stCounterExh))

/-- `PROVE` with `FUNCTION` 1: the proof secret of the caller's alcove as a mutation. -/
def execProveSetSecret (w : Nat) (s : State) : Out :=
  .next (onWork s w 0x0902 (fun k =>
    if fld k.payload 0 1 ≠ 1 then s
    else if rootMissing s (domainOf s k.alcove) then failWork s w stDeniedAttr
    else mutateWork s w k (.proofSecret k.alcove (slice k.payload 8 32)) none []))

/-! ### The ledger and the witness -/

/-- `LEDGER_READ` (R273). -/
def execLedgerRead (w : Nat) (s : State) : Out :=
  .next (onWork s w 0x0904 (fun k =>
    let first := fld k.payload 0 8
    let newest := s.ledger.newest
    if first = 0 ∨ newest < first ∨ first + 65536 ≤ newest then failWork s w stInput
    else
      let n := min (fld k.payload 8 2) (newest + 1 - first)
      let items := (List.range n).map (fun i => ((ledgerEntry s (first + i)).map entryBytes).getD (zeros 4096))
      okWork s w (be 8 newest ++ be 2 n ++ zeros 6 ++ items.flatten)))

/-- A countersignature without its signature (R275). -/
def witnessBody (s : State) (k : Work) (d seq : Nat) : Bytes :=
  let p := k.payload
  be 4 0x57574954 ++ [1, 0] ++ be 2 d ++ be 2 k.alcove ++ be 1 s.twin.side ++ [0] ++ be 4 (tallySec s) ++ be 8 seq
    ++ be 8 s.time ++ deviceKeyId s ++ slice p 0 32 ++ Config.sha512 (p.drop 40) ++ be 8 s.ledger.newest

/-- `WITNESS` (R274 to R276). -/
def execWitness (w : Nat) (s : State) : Out :=
  .next (onWork s w 0x0905 (fun k =>
    let d := domainOf s k.alcove
    let x := domD s d
    if x.root.isNone then failWork s w stDeniedAttr
    else
      match markedDraw s d x.witSeq x.witMark with
      | .ok =>
        let b := witnessBody s k d x.witSeq
        let r := b ++ Config.edSign x.witKey (ascii "WWIT1" ++ b)
        issueJob (setDom s d (fun y => { y with witSeq := y.witSeq + 1 })) w k 0x01 1 false true []
          (plainResult stOk r [pkMeter 0x01 0])
      | .waits => s
      | _ => failWork s w stCounterExh))

end Sys2Proof.Machine
end

