-- ==== Sys2Proof/Machine/CustodyCmd.lean ====
section
/-! DEFINITION. Custodians: tickets, domain roots, their shares, quotas and custodian sets
(`QUORUM_PREPARE`, `ROOT_CREATE`, `ROOT_RESTORE`, `SHARES_EXPORT`, `QUOTA_SET`, `CUSTODIANS_SET`; R215 to
R233), and the hybrid envelopes in which shares and gallery keys travel (R230). -/

namespace Sys2Proof.Machine

/-! ### GF(2^8) (R228) -/

/-- Multiplication by x modulo x^8 + x^4 + x^3 + x + 1. -/
def gfX (a : Byte) : Byte := if a.getLsbD 7 then (a <<< 1) ^^^ 0x1B#8 else a <<< 1

/-- Product of two field elements, over the low `n` bits of the second. -/
def gfMulBits : Nat → Byte → Byte → Byte
  | 0, _, _ => 0
  | n + 1, a, b => (if b.getLsbD 0 then a else 0#8) ^^^ gfMulBits n (gfX a) (b >>> 1)

def gfMul (a b : Byte) : Byte := gfMulBits 8 a b

/-- A power of a field element. -/
def gfPow (a : Byte) : Nat → Byte
  | 0 => 1
  | n + 1 => gfMul a (gfPow a n)

/-- The inverse: a to the 254th. -/
def gfInv (a : Byte) : Byte := gfPow a 254

/-- The share at x of the polynomials whose coefficients, 32 bytes each, stand lowest degree first. -/
def shareAt (coefs : List Bytes) (x : Byte) : Bytes :=
  coefs.foldr (fun c acc => Config.xorBytes c (acc.map (gfMul x))) (zeros 32)

/-- The weight at x = 0 of the share at `x` among the shares at `xs`. -/
def lagrange (xs : List Byte) (x : Byte) : Byte :=
  (xs.filter (fun y => y != x)).foldl (fun a y => gfMul a (gfMul y (gfInv (y ^^^ x)))) 1

/-- The value at x = 0 of the polynomials through some points (R233). -/
def interpolate (pts : List (Byte × Bytes)) : Bytes :=
  pts.foldl (fun acc p => Config.xorBytes acc (p.2.map (gfMul (lagrange (pts.map (·.1)) p.1)))) (zeros 32)

/-! ### Envelopes (R230) -/

/-- Key and nonce of an envelope: salt, shared values, index, ephemeral value and ciphertext. -/
def envelopeKey (salt : String) (xs ks : Bytes) (index : Byte) (eph ct : Bytes) : Bytes × Bytes :=
  let okm := Config.hkdfExpand (Config.hkdfExtract (ascii salt) (xs ++ ks)) (index :: eph ++ ct) 44
  (okm.take 32, okm.drop 32)

/-- An envelope to a recipient's X25519 value and ML-KEM-768 key; `rnd` holds an X25519 scalar and the random
of the encapsulation. -/
def sealEnvelope (salt : String) (index : Byte) (xPubKey ek plain rnd : Bytes) : Bytes :=
  let eph := Config.xPub (rnd.take 32)
  let kem := Config.kemEnc false ek (slice rnd 32 32)
  let k := envelopeKey salt (Config.x25519 (rnd.take 32) xPubKey) kem.2 index eph kem.1
  let head := index :: zeros 7
  let ct := Config.gcmCrypt k.1 k.2 plain
  head ++ eph ++ kem.1 ++ ct ++ Config.gcmTag k.1 k.2 head ct

/-- Open an envelope with an X25519 scalar and an ML-KEM seed: none when its tag fails. -/
def openHybrid (salt : String) (scalar seed e : Bytes) : Option Bytes :=
  let eph := slice e 8 32
  let kct := slice e 40 1088
  let ct := (e.drop 1128).take (e.length - 1144)
  let k := envelopeKey salt (Config.x25519 scalar eph) (Config.kemDec false seed kct) (e.headD 0) eph kct
  if e.drop (e.length - 16) = Config.gcmTag k.1 k.2 (e.take 8) ct then some (Config.gcmCrypt k.1 k.2 ct) else none

/-- The plaintext of a share (R229). -/
def sharePlain (d : Nat) (x : Domain) (root : Bytes) (c : Custodian) (value : Bytes) : Bytes :=
  be 2 d ++ be 1 c.index ++ be 1 x.threshold ++ be 1 x.set.length ++ zeros 3 ++ rootCheck root ++ value

/-- Random bytes of an export: M - 1 coefficients, and 64 bytes for each envelope. -/
def exportRandom (x : Domain) : Nat := 32 * (x.threshold - 1) + 64 * x.set.length

/-- Custodians in ascending order of index. -/
def custSorted (x : Domain) : List Custodian := (List.range 17).filterMap (fun i => x.set.find? (fun c => c.index == i))

/-- The response of `ROOT_CREATE` and `SHARES_EXPORT` (R231). -/
def exportShares (d : Nat) (x : Domain) (root rnd : Bytes) : Bytes :=
  let m := x.threshold - 1
  let coefs := root :: (List.range m).map (fun j => slice rnd (32 * j) 32)
  let one := fun (i : Nat) (c : Custodian) =>
    sealEnvelope "WSHR1" (BitVec.ofNat 8 c.index) c.x25519 c.ek
      (sharePlain d x root c (shareAt coefs (BitVec.ofNat 8 c.index))) (slice rnd (32 * m + 64 * i) 64)
  rootCheck root ++ be 1 x.set.length ++ zeros 7
    ++ ((List.range x.set.length).zip (custSorted x)).flatMap (fun e => one e.1 e.2)

/-! ### The quorum service's draws -/

/-- An internal instance: the command waits for it, or goes on and, under `FATAL`, ends with `ENTROPY_FAULT`
where it would draw (R387, R389). -/
def whenInst (s : State) (w i : Nat) (f : Bool → State) : State :=
  match drawState s i with
  | .ok => f true
  | .dead => f false
  | _ => modWork s w (fun k => { k with stage := .waitRng, waited := true })

/-! ### Tickets (R220 to R223) -/

/-- Window of a ticket: the domain's, or 3,600 s in `TRANSIT` (R471). -/
def ticketWindow (s : State) (x : Domain) : Nat := if s.life.life = .transit then 3600 else x.window

/-- A ticket as `QUORUM_PREPARE` returns it (R221). -/
def ticketBytes (s : State) (d : Nat) (t : Ticket) : Bytes :=
  t.id ++ deviceKeyId s ++ be 2 d ++ be 2 t.opcode ++ be 4 t.epoch ++ be 4 t.opened ++ be 4 t.expires ++ t.opDig
    ++ (match t.xport with
      | some (x, k) => Config.xPub x ++ Config.kemPub false k
      | none => [])

/-- A new ticket from random bytes. -/
def newTicket (s : State) (d op : Nat) (digest rnd : Bytes) : Ticket :=
  let x := domD s d
  let id := rnd.take 16
  let epoch := if s.life.life = .transit then 0 else x.epoch
  let ends := tallySec s + ticketWindow s x
  { id := id, opcode := op, epoch := epoch, opened := tallySec s, expires := ends, digest := digest
    opDig := opDigest s d id op epoch ends digest, fails := 0
    xport := if op = 0x0803 then some (slice rnd 16 32, slice rnd 48 64) else none }

/-- `QUORUM_PREPARE`. -/
def execQuorumPrepare (w : Nat) (s : State) : Out :=
  .next (onWork s w 0x0801 (fun k =>
    let d := domainOf s k.alcove
    if (domD s d).set.isEmpty ∧ s.life.life ≠ .transit then failWork s w stDeniedQuorum
    else whenInst s w 2 (fun live =>
      if live = false then failWork s w stEntropy
      else
        let r := drawFrom s 2 112
        let t := newTicket r.2 d (fld k.payload 0 2) (slice k.payload 8 64) r.1
        okWork (setDom r.2 d (fun x => { x with tickets := x.tickets ++ [t] })) w (ticketBytes r.2 d t))))

/-! ### Domain roots -/

/-- The mutation that commits a root, with the set under which the root stands (R216). -/
def rootBody (s : State) (d : Nat) (root : Bytes) : MutBody :=
  let x := domD s d
  .root root x.set x.threshold x.window x.epoch

/-- `ROOT_CREATE` (R227): root, shares and the mutation that commits the root. -/
def execRootCreate (w : Nat) (s : State) : Out :=
  .next (onWork s w 0x0802 (fun k =>
    let d := domainOf s k.alcove
    if (domD s d).root.isSome then failWork s w stDeniedAttr
    else whenInst s w 2 (fun live =>
      withQuorum s w d 0x0802 (k.payload.take 8) (approvalAt k.payload 8) true (fun s ap =>
        if live = false then failWork s w stEntropy
        else
          let x := domD s d
          let r := drawFrom s 2 (32 + exportRandom x)
          let root := r.1.take 32
          mutateWork r.2 w k (rootBody r.2 d root) (some ap.ticket) (exportShares d x root (r.1.drop 32))))))

/-- Where the approval block of a `ROOT_RESTORE` begins. -/
def restoreEnd (p : Bytes) : Nat := 8 + 1192 * fld p 0 1

/-- The shares of a restore, or the status that refuses it (R233). -/
def restoreRoot (d : Nat) (xport : Bytes × Bytes) (l : List Bytes) : Except Nat Bytes :=
  let idx := l.map (fun e => fld e 0 1)
  let open_ := l.map (fun e => (fld e 0 1, openHybrid "WSHR1" xport.1 xport.2 e))
  if noDup idx = false ∨ open_.any (fun e => e.2.any (fun p => fld p 2 1 != e.1)) then .error stFormat
  else if open_.any (fun e => e.2.isNone || e.2.any (fun p => fld p 0 2 != d)) then .error stVerifyFailed
  else
    let plain := open_.filterMap (·.2)
    let root := interpolate (plain.map (fun p => (BitVec.ofNat 8 (fld p 2 1), slice p 16 32)))
    if plain.all (fun p => slice p 8 8 == rootCheck root) then .ok root else .error stVerifyFailed

/-- `ROOT_RESTORE` (R232, R233). -/
def execRootRestore (w : Nat) (s : State) : Out :=
  .next (onWork s w 0x0803 (fun k =>
    let d := domainOf s k.alcove
    let e := restoreEnd k.payload
    if (domD s d).root.isSome then failWork s w stDeniedAttr
    else
      withQuorum s w d 0x0803 (k.payload.take e) (approvalAt k.payload e) true (fun s ap =>
        match (ticketOf (domD s d) ap.ticket).bind (fun t => t.xport) with
        | none => failWork s w stVerifyFailed
        | some xp =>
          match restoreRoot d xp (restoreParts k.payload) with
          | .error st => failWork s w st
          | .ok root => mutateWork s w k (rootBody s d root) (some ap.ticket) (rootCheck root))))

/-- `SHARES_EXPORT` (R231). -/
def execSharesExport (w : Nat) (s : State) : Out :=
  .next (onWork s w 0x0804 (fun k =>
    let d := domainOf s k.alcove
    match (domD s d).root with
    | none => failWork s w stDeniedAttr
    | some root =>
      whenInst s w 2 (fun live =>
        withQuorum s w d 0x0804 (k.payload.take 8) (approvalAt k.payload 8) false (fun s _ =>
          if live = false then failWork s w stEntropy
          else
            let x := domD s d
            let r := drawFrom s 2 (exportRandom x)
            okWork r.2 w (exportShares d x root r.1)))))

/-! ### Quotas and custodian sets -/

/-- `QUOTA_SET` (R184, R186): the slot quota, fixed in domain 0, and the rates of R164. -/
def execQuotaSet (w : Nat) (s : State) : Out :=
  .next (onWork s w 0x0805 (fun k =>
    let d := domainOf s k.alcove
    withQuorum s w d 0x0805 (k.payload.take 64) (approvalAt k.payload 64) true (fun s ap =>
      mutateWork s w k (.quota (if d = 0 then 65536 else fld k.payload 0 4) (quotaRates k.payload)) (some ap.ticket) [])))

/-- `CUSTODIANS_SET` (R215, R217). -/
def execCustodiansSet (w : Nat) (s : State) : Out :=
  .next (onWork s w 0x0806 (fun k =>
    let d := domainOf s k.alcove
    let p := k.payload
    withQuorum s w d 0x0806 (p.take (custEnd p)) (approvalAt p (custEnd p)) true (fun s ap =>
      if (custPart p).all custKeysOk = false then failWork s w stInput
      else mutateWork s w k (.custodians ((custPart p).map custOf) (fld p 1 1) (fld p 4 4)
        ((domD s d).epoch + 1)) (some ap.ticket) [])))

end Sys2Proof.Machine
end

