-- ==== Sys2Proof/Machine/StewardCmd.lean ====
section
/-! DEFINITION. The stewards' commands: slices, queue pairs, dirty logs, the event session, alcove resets,
counters and client keys (`SLICE_CREATE`, `SLICE_MODIFY`, `SLICE_REMOVE`, `QP_CONNECT`, `QP_RESET`,
`DIRTY_ENABLE`, `DIRTY_READ_CLEAR`, `EVENT_SESSION_SET`, `ALCOVE_RESET`, `COUNTERS_READ`, `CLIENT_KEY_SET`;
R80 to R98, R128, R621, R659, R660). -/

namespace Sys2Proof.Machine

/-- The alcove's record goes to the twin when its settings, slices, regions, queue pairs or generation
change (R553). -/
def alcoveRec (s : State) (a : Nat) (x : Alcove) : AlcoveRecord :=
  let mine := s.net.slices.filter (fun e => e.1 / 2 ^ 20 == a)
  { set := x.set, gen := x.gen
    slices := mine.map (fun e =>
      { pid := e.1 % 2 ^ 20, handle := e.2.handle, mech := e.2.mech, frameRate := e.2.frameRate
        byteRate := e.2.byteRate, qp := e.2.qp, region := e.2.region, immediate := e.2.immediate
        logging := e.2.logging, suspended := e.2.suspended, words := e.2.words })
    qps := (s.net.qps.filter (fun e => e.2.alcove == a)).map (·.1) }

/-- Send it. -/
def mirrorAlcove (s : State) (a : Nat) : State :=
  match alc s a with
  | some x => if twinned s ∧ a ≠ 0 then emit s (.alcoveMirror (alcoveRec s a x)) else s
  | none => s

/-! ### Slices (R80) -/

/-- The opcode of a stream's operations, by the use class of its face. -/
def streamOp (f : Face) : Option Nat :=
  match f.cls with
  | .encrypt => some 0x0201
  | .decrypt => some 0x0202
  | .macGenerate => some 0x0203
  | .macVerify => some 0x0204
  | _ => none

/-- Whether a family needs no face: the digests of the lanes (R367). -/
def famPlain (f : Fam) : Bool :=
  match f with
  | .hash _ => true
  | .shake _ => true
  | _ => false

/-- Whether a face serves a stream mode. -/
def streamServes (f : Fam) (sec : Secret) (face : Face) : Bool :=
  match streamOp face with
  | some op => (famOps f).contains op && famServes f op 0 sec face
  | none => false

/-- What refuses the binding of a slice, if anything: the face, then the queue pair (DESIGN CHOICE, log 72). -/
def sliceRefused (s : State) (a : Nat) (r : SliceReq) : Option Nat :=
  match famOf r.mech with
  | none => some stFormat
  | some f =>
    let face := if famPlain f then (if r.handle = 0 then none else some stInput)
      else
        match resolve s a r.handle with
        | none => some stKeyUnknown
        | some (_, _, sec, g) => if streamServes f sec g ∧ g.payment = false then none else some stDeniedAttr
    match face, r.qp with
    | some st, _ => some st
    | none, none => none
    | none, some q => if ((tget s.net.qps q).map (fun x => x.alcove)) = some a then none else some stInput

/-- The slice that a request makes. A dirty log stays with its region, and a suspension with its queue pair until that
is reset (R86). -/
def sliceOf (s : State) (r : SliceReq) (old : Option Slice) : Slice :=
  let same := old.bind (fun x => if x.region = r.region then some x else none)
  let words := match r.region with
    | some g => if r.log then dirtyWords g.2.1 else 0
    | none => 0
  { handle := r.handle, mech := r.mech
    frameRate := r.frames, byteRate := r.bytes, frameTok := r.frames * 10 ^ 6
    byteTok := r.bytes * 10 ^ 6, tokAt := s.time, qp := r.qp, region := r.region, immediate := r.imm, logging := r.log
    suspended := old.any (fun x => x.suspended && x.qp == r.qp), words := words
    dirty := ((same.bind (fun x => if x.logging ∧ r.log then some x.dirty else none))).getD [] }

/-- Put a slice that has a place (R1) and whose log fits the dirty-page area (R89). -/
def putSlice (s : State) (w a : Nat) (r : SliceReq) : State :=
  let key := sliceKey a r.pid
  let old := tget s.net.slices key
  let x := sliceOf s r old
  if (old.isNone ∧ sliceRoom s a = false) ∨ dirtyFits s ((old.map (fun y => y.words)).getD 0) x.words = false then
    failWork s w stBusyQuota
  else okWork (mirrorAlcove { s with net := { s.net with slices := tput s.net.slices key x } } a) w []

/-- `SLICE_CREATE` and `SLICE_MODIFY`: the slice is not yet there, or is. -/
def runSlice (s : State) (w : Nat) (modify : Bool) (k : Work) : State :=
  match sliceReq k.payload with
  | none => failWork s w stFormat
  | some r =>
    match sliceRefused s k.alcove r with
    | some st => failWork s w st
    | none =>
      if thas s.net.slices (sliceKey k.alcove r.pid) = modify then putSlice s w k.alcove r else failWork s w stInput

/-- `SLICE_CREATE`. -/
def execSliceCreate (w : Nat) (s : State) : Out := .next (onWork s w 0x0701 (runSlice s w false))

/-- `SLICE_MODIFY`. -/
def execSliceModify (w : Nat) (s : State) : Out := .next (onWork s w 0x0702 (runSlice s w true))

/-- `SLICE_REMOVE`. -/
def execSliceRemove (w : Nat) (s : State) : Out :=
  .next (onWork s w 0x0703 (fun k =>
    let key := sliceKey k.alcove (fld k.payload 0 4)
    if thas s.net.slices key then
      okWork (mirrorAlcove { s with net := { s.net with slices := tdel s.net.slices key } } k.alcove) w []
    else failWork s w stInput))

/-! ### Queue pairs (R85 to R88) -/

/-- Rate of a sub-link under its port's breakout (R33). -/
def subRate (s : State) (l : Nat) : Nat := 400 * 10 ^ 9 / 2 ^ (portOf s (portNo l)).breakout

/-- A queue pair in its reset state. -/
def qpFresh (a : Nat) : Qp :=
  { alcove := a, state := .reset, timeout := 0, retries := 0, rnr := 0, left := 0, rnrLeft := 0, mtu := 1024
    peer := 0, psn := 0, rate := 0, linkRate := 0, lastCut := 0, lastStep := 0, cnpSince := false, link := 0, pending := []
    sentAt := 0, frozen := false }

/-- Whether an earlier `QP_CONNECT` or `QP_RESET` on a queue pair is in flight: accepted, and its completion not handed
over (R133). -/
def qpBusy (s : State) (w q : Nat) : Bool :=
  s.net.work.any (fun e => decide (e.1 < w) && (e.2.opcode == 0x0704 || e.2.opcode == 0x0705) && e.2.stream.isNone
    && fld e.2.payload 0 2 == q)

/-- The queue pair that a `QP_CONNECT` makes; it starts at the rate of its sub-link. -/
def qpConnected (s : State) (k : Work) (psn : Nat) : Qp :=
  let p := k.payload
  let rate := subRate s k.sublink
  { qpFresh k.alcove with
    state := .connected, timeout := fld p 4 1, retries := fld p 5 1, rnr := fld p 6 1, left := fld p 5 1
    rnrLeft := fld p 6 1, mtu := fld p 2 2, peer := fld p 8 4 * 2 ^ 128 + fld p 16 16, psn := psn, rate := rate
    linkRate := rate, lastStep := s.time, link := k.sublink }

/-- `QP_CONNECT`: the starting sequence number comes from internal instance 5 (R379). -/
def execQpConnect (w : Nat) (s : State) : Out :=
  .next (onWork s w 0x0704 (fun k =>
    let q := fld k.payload 0 2
    if qpBusy s w q then failWork s w stConflict
    else if (tget s.net.qps q).any (fun x => x.alcove != k.alcove || x.state != .reset) then failWork s w stInput
    else whenInst s w 5 (fun live =>
      if live = false then failWork s w stEntropy
      else
        let r := drawFrom s 5 3
        let x := qpConnected r.2 k (beNat r.1)
        okWork (mirrorAlcove { r.2 with net := { r.2.net with qps := tput r.2.net.qps q x } } k.alcove) w
          (be 4 x.psn ++ zeros 4))))

/-- Lift the suspension of the slices of a queue pair. -/
def liftSlices (s : State) (q : Nat) : State :=
  { s with net := { s.net with slices := tmap s.net.slices (fun _ x =>
      if x.qp = some q then { x with suspended := false } else x) } }

/-- `QP_RESET` (R86). -/
def execQpReset (w : Nat) (s : State) : Out :=
  .next (onWork s w 0x0705 (fun k =>
    let q := fld k.payload 0 2
    if qpBusy s w q then failWork s w stConflict
    else if ((tget s.net.qps q).map (fun x => x.alcove)) = some k.alcove then
      let s := { s with net := { s.net with qps := tput s.net.qps q (qpFresh k.alcove) } }
      okWork (mirrorAlcove (liftSlices s q) k.alcove) w []
    else failWork s w stInput))

/-! ### Dirty logs (R89 to R92, R128) -/

/-- A slice whose region `g` is logged from now on; one that is logged already keeps its bits (R92). -/
def logOn (x : Slice) (g : Nat × Nat × Nat) : Slice :=
  { x with logging := true, words := dirtyWords g.2.1, dirty := if x.logging then x.dirty else [] }

/-- `DIRTY_ENABLE` (R89). -/
def execDirtyEnable (w : Nat) (s : State) : Out :=
  .next (onWork s w 0x0706 (fun k =>
    let key := sliceKey k.alcove (fld k.payload 0 4)
    match tget s.net.slices key with
    | none => failWork s w stInput
    | some x =>
      match x.region with
      | none => failWork s w stInput
      | some g =>
        if dirtyFits s x.words (dirtyWords g.2.1) then
          okWork { s with net := { s.net with slices := tput s.net.slices key (logOn x g) } } w []
        else failWork s w stBusyQuota))

/-- `DIRTY_READ_CLEAR`. -/
def execDirtyReadClear (w : Nat) (s : State) : Out :=
  .next (onWork s w 0x0707 (fun k =>
    let key := sliceKey k.alcove (fld k.payload 0 4)
    let first := fld k.payload 4 4
    let n := fld k.payload 8 2
    match tget s.net.slices key with
    | none => failWork s w stInput
    | some x =>
      if x.words < first + n then failWork s w stInput
      else
        let out := (List.range n).flatMap (fun i => be 8 (tgetD x.dirty (first + i) 0#64).toNat)
        okWork { s with net := { s.net with slices := tmod s.net.slices key (fun y =>
          { y with dirty := tfilter y.dirty (fun i _ => decide (i < first ∨ first + n ≤ i)) }) } } w out))

/-! ### Sessions, resets, counters, keys -/

/-- `EVENT_SESSION_SET` (R79, R659): the records that wait go to the new event session at once. -/
def execEventSessionSet (w : Nat) (s : State) : Out :=
  .next (onWork s w 0x0708 (fun k =>
    let i := fld k.payload 0 1
    if i = 0xFF then okWork (modAlc s k.alcove (fun x => { x with evSession := none })) w []
    else if ((sess s k.alcove i).map (fun x => x.open_)).getD false then
      okWork (flushAll (modAlc s k.alcove (fun x => { x with evSession := some i })) k.alcove) w []
    else failWork s w stInput))

/-- `ALCOVE_RESET` (R93, R659): the reset point is the commit of a mutation. -/
def execAlcoveReset (w : Nat) (s : State) : Out :=
  .next (onWork s w 0x0709 (fun k => mutateWork s w k (.alcoveReset k.alcove) none []))

/-- The snapshots that an alcove reads, oldest first, with their numbers (R621). -/
def snapsOf (s : State) (a : Nat) : List (Nat × Bytes) :=
  if a = 0 then s.perf.snaps.reverse
  else (((alc s a).map (fun x => x.snaps)).getD []).reverse.map (fun b => (fld b 8 8, b))

/-- `COUNTERS_READ`. -/
def execCountersRead (w : Nat) (s : State) : Out :=
  .next (onWork s w 0x070A (fun k =>
    let l := snapsOf s k.alcove
    let n := fld k.payload 16 2
    let first := fld k.payload 8 8
    let out := fun (m : List (Nat × Bytes)) => be 2 m.length ++ zeros 6 ++ m.flatMap (·.2)
    if fld k.payload 0 1 = 0 then okWork s w (out (l.drop (l.length - n)))
    else if l.any (fun e => e.1 == first) then okWork s w (out ((l.filter (fun e => decide (first ≤ e.1))).take n))
    else failWork s w stInput))

/-- Whether a `CLIENT_KEY_SET` passes check 8 (R660, item 4). -/
def keySetInput (s : State) (a : Nat) (p : Bytes) : Bool :=
  let known := fun (key : Bytes) => ((alc s a).bind (fun x => roleOfKey x key)).isSome
  let l := keyEntries p
  l.all (fun e => Config.edPointOk e.2.2 && known e.2.2 != e.1) && noDup (l.map (fun e => e.2.2))

/-- `CLIENT_KEY_SET`. -/
def execClientKeySet (w : Nat) (s : State) : Out :=
  .next (onWork s w 0x070B (fun k =>
    let l := keyEntries k.payload
    let pick := fun (add : Bool) => (l.filter (fun e => e.1 == add)).map (fun e => e.2.2)
    if keySetInput s k.alcove k.payload = false then failWork s w stInput
    else mutateWork s w k (.clientKeys k.alcove (pick true) (pick false)) none []))

end Sys2Proof.Machine
end

