-- ==== Sys2Proof/Machine/Alcoves.lean ====
section
/-! DEFINITION. Alcoves as a whole: opening (R93, R259, R661), reset and its end (R93 to R98), removal
(R99), registered keys that change (R234, R235). -/

namespace Sys2Proof.Machine

/-! ### Opening -/

def putAlc (s : State) (a : Nat) (x : Alcove) : State :=
  { s with net := { s.net with alcoves := tput s.net.alcoves a x } }

/-- The context epoch counter of an alcove resumes at the larger of its committed mark and its floor; its next mark is due
(R304, R665). -/
def resumeEpoch (s : State) (a : Nat) : State :=
  let n := resumeAt (((alc s a).map (fun x => x.epochMark)).getD 0) (tgetD (floors s.keys).epoch a 0)
  modAlc s a (fun x => { x with epoch := n, epochMark := n / 2 ^ 20 })

/-- An alcove opens: its Landing 5 keys and certificate (R259, R261), and its DRBG instance where the start
has not made one (R380, R382). -/
def openAlcove (s : State) (a : Nat) : State :=
  let s := admitTasks (deriveAlcove (resumeEpoch (modAlc s a (fun x => { x with isOpen := true })) a) a)
  if thas s.rng.inst (alcInst a) then s else seedAlcove s a

/-! ### Registered keys -/

/-- Sessions opened with keys of a list close with `DENIED_AUTHORITY` once the commands that they had
accepted are complete (R235). -/
def closeKeys (s : State) (a : Nat) (gone : List Bytes) : State :=
  (sessionsOf s a).foldl (fun s i =>
    match sess s a i with
    | some x =>
      if x.open_ ∧ gone.contains x.key then
        finishClosing (modSess s a i (fun y => { y with closing := some stDeniedAuth })) a i
      else s
    | none => s) s

/-- The registered keys of an alcove become a list: sessions whose key went, or changed its role, close. -/
def putKeys (s : State) (a : Nat) (l : List (Bytes × Role)) : State :=
  match alc s a with
  | none => s
  | some x =>
    let gone := (x.keys.filter (fun k => !l.contains k)).map (·.1)
    closeKeys (modAlc s a (fun y => { y with keys := l })) a gone

/-- The steward keys of an alcove are replaced; its other keys stay (R661). One of them that was registered for a client is
a steward's from then on and no client's (DESIGN CHOICE, log 104). -/
def putStewards (s : State) (a : Nat) (l : List Bytes) : State :=
  match alc s a with
  | none => s
  | some x => putKeys s a (x.keys.filter (fun k => k.2 != .steward && !l.contains k.1) ++ l.map (fun k => (k, Role.steward)))

/-! ### Reset (R93 to R98) -/

/-- Whether work of an alcove still runs on a unit at its reset point, and drains (R96). -/
def drains (k : Work) : Bool := k.stage == .issued

/-- Work of an alcove that holds no unit ends with its reset point: its slots are wasted (R93, R614), its
mutation is abandoned (R94). -/
def dropIdleWork (s : State) (a : Nat) (except : Option Nat) : State :=
  (tkeys s.net.work).foldl (fun s w =>
    match wrk s w with
    | some k =>
      if k.alcove = a ∧ some w ≠ except ∧ drains k = false ∧ k.stage ≠ .completed then
        delWork (countSlots s a false k.slots) w
      else s
    | none => s) s

/-- Pending mutations of an alcove's commands are abandoned (R94). -/
def dropAlcMutations (s : State) (a : Nat) (except : Option Nat) : State :=
  { s with keys := { s.keys with domains := tmap s.keys.domains (fun _ d =>
      { d with pending := d.pending.filter (fun m =>
        m.alcove != a || m.work.isNone || m.work == except || m.placed.isSome) }) } }

/-- Queue pairs of an alcove issue nothing more (R97). -/
def freezeQps (s : State) (a : Nat) : State :=
  { s with net := { s.net with qps := tmap s.net.qps (fun _ q => if q.alcove = a then { q with frozen := true } else q) } }


/-- The alcove's own part of a reset point: the generation, no session, no record, and numbering from 1. -/
def resetAlc (x : Alcove) (w : Option Nat) (se : Option Session) : Alcove :=
  { x with gen := (x.gen + 1) % 256, resetting := true, resetWork := w, resetSess := se <|> x.resetSess, events := [], eventNum := 1
           frameNum := 1, modStart := none, lost := 0, evSession := none }

/-- The session of a reset command, under which its completion will be sent (R98). -/
def ownSession (s : State) (w : Option Nat) (a : Nat) : Option Session :=
  (w.bind (wrk s)).bind (fun k => if k.alcove = a then sess s a k.session else none)

/-- The reset point of an alcove (R93 to R97). `w` is the alcove's own reset command, if that resets it
(DEDUCED, log 46). -/
def resetPoint (s : State) (a : Nat) (w : Option Nat) : State :=
  let se := ownSession s w a
  let s := dropIdleWork (dropAlcMutations s a w) a w
  let s := releaseAll (freezeQps s a) a
  let s := { s with net := { s.net with
    sessions := tfilter s.net.sessions (fun k _ => k / 256 != a)
    waitHellos := s.net.waitHellos.filter (fun h => h.alcove != a) } }
  let s := abortAlcove (modAlc s a (fun x => resetAlc x w se)) a
  let s := match w with
    | some n => modWork s n (fun k => { k with stage := .waitAlcove a })
    | none => s
  mirrorAlcove s a

/-- A reset of an alcove: at once, or after the one that is not done (R98). -/
def resetAlcove (s : State) (a : Nat) (w : Option Nat) : State :=
  match alc s a with
  | none => s
  | some x =>
    if x.resetting then modAlc s a (fun y => { y with resetMore := y.resetMore + 1 }) else resetPoint s a w

/-- Whether work of an older generation of an alcove remains (R98). -/
def oldWork (s : State) (a : Nat) (x : Alcove) : Bool :=
  s.net.work.any (fun e => e.2.alcove == a && some e.1 != x.resetWork && e.2.stage != .completed
      && (match e.2.stage with
        | .waitAlcove b => b != a
        | _ => true))
    || s.cipher.ops.any (fun e => e.2.alcove == a) || s.pk.jobs.any (fun e => e.2.alcove == a)

/-- Whether every issued write of an alcove is acknowledged or its queue pair in error (R98). -/
def qpsQuiet (s : State) (a : Nat) : Bool :=
  s.net.qps.all (fun e => e.2.alcove != a || e.2.pending.isEmpty || e.2.state == .error)

/-- The completions of an older generation are discarded (R95). -/
def dropOldComps (s : State) (a : Nat) : State :=
  (tkeys s.net.comps).foldl (fun s n =>
    match tget s.net.comps n with
    | some c => if c.alcove = a ∧ tagCurrent s c = false then dropComp (slotsOf s c false) n c else s
    | none => s) s

/-- Errored queue pairs restart in their reset state; the others go on (R98). As after a steward's `QP_RESET`, the slices
of a restarted one are suspended no longer (R86; DESIGN CHOICE, log 105). -/
def thawQps (s : State) (a : Nat) : State :=
  let bad := (s.net.qps.filter (fun e => e.2.alcove == a && e.2.state == .error)).map (·.1)
  let s := bad.foldl liftSlices s
  { s with net := { s.net with qps := tmap s.net.qps (fun _ q =>
      if q.alcove = a then (if q.state = .error then qpFresh a else { q with frozen := false }) else q) } }

/-- Commands that waited for an alcove's reset or removal complete (R532, R661, R662). -/
def wakeAlcove (s : State) (a : Nat) : State :=
  (tkeys s.net.work).foldl (fun s w =>
    match wrk s w with
    | some k => if k.stage = .waitAlcove a then okWork s w [] else s
    | none => s) s

/-- The completion of the reset command: it carries no tag and travels under the session kept for it. -/
def endReset (s : State) (w : Option Nat) : State :=
  match w.bind (wrk s), w with
  | some k, some n =>
    if k.stage = .completed then s
    else
      let s := modWork s n (fun k => { k with stage := .completed, costs := [] })
      addComp s { compOf n k stOk [] [] with tagged := false }
  | _, _ => s

/-- The end of an alcove's removal (R99): its addresses, slices, queue pairs, regions, dirty-page words and
DRBG instance go. -/
def removeAlcove (s : State) (a : Nat) : State :=
  let s := { s with
    net := { s.net with
      alcoves := tdel s.net.alcoves a, slices := tfilter s.net.slices (fun k _ => k / 2 ^ 20 != a)
      qps := tfilter s.net.qps (fun _ q => q.alcove != a), comps := tfilter s.net.comps (fun _ c => c.alcove != a)
      work := tfilter s.net.work (fun _ k => k.alcove != a) }
    rng := { s.rng with inst := tdel s.rng.inst (alcInst a) } }
  wakeAlcove s a

/-- An alcove is removed: it is reset in full first (R99). -/
def beginRemove (s : State) (a : Nat) : State := resetAlcove (modAlc s a (fun x => { x with removing := true })) a none

/-- `ALCOVE_RESET_DONE` (R98, R99). -/
def execAlcoveResetDone (alcove : Nat) (s : State) : Out :=
  .next (match alc s alcove with
    | none => s
    | some x =>
      if x.resetting = false ∨ oldWork s alcove x ∨ qpsQuiet s alcove = false then s
      else
        let s := modAlc (dropOldComps s alcove) alcove (fun y => { y with resetting := false, resetWork := none })
        let s := endReset (postEvent s alcove 5 0 0xFF 0xFF 0 x.gen) x.resetWork
        let s := thawQps s alcove
        if x.resetMore ≠ 0 then resetPoint (modAlc s alcove (fun y => { y with resetMore := y.resetMore - 1 })) alcove none
        else if x.removing then removeAlcove s alcove
        else wakeAlcove s alcove)

end Sys2Proof.Machine
end

