-- ==== Sys2Proof/Machine/CipherCmd.lean ====
section
/-! DEFINITION. The single-shot symmetric commands: `ENCRYPT`, `DECRYPT`, `MAC_GENERATE`, `MAC_VERIFY`,
`DIGEST` and `RANDOM` (R102, R108 to R116, R383). -/

namespace Sys2Proof.Machine

/-- `ENCRYPT`. -/
def execEncrypt (w : Nat) (s : State) : Out := .next (onWork s w 0x0201 (runSym s w 0x0201))

/-- `DECRYPT`. -/
def execDecrypt (w : Nat) (s : State) : Out := .next (onWork s w 0x0202 (runSym s w 0x0202))

/-- `MAC_GENERATE`. -/
def execMacGenerate (w : Nat) (s : State) : Out := .next (onWork s w 0x0203 (runSym s w 0x0203))

/-- `MAC_VERIFY`. -/
def execMacVerify (w : Nat) (s : State) : Out := .next (onWork s w 0x0204 (runSym s w 0x0204))

/-- `DIGEST` names no face. -/
def execDigest (w : Nat) (s : State) : Out :=
  .next (onWork s w 0x0205 (fun k =>
    match keyedOf 0x0205 k.payload with
    | none => failWork s w stFormat
    | some x =>
      let r := symDo x.fam 0x0205 x.prm [] [] x.req.data
      if mayIssue s .hash w [] = false then s
      else
      issueOp s w k .hash [] none 0 (plainResult r.1 (commonResp r.2.1 r.2.2) (symMeters .hash x.req.data.length))))

/-- What becomes of a command that draws `n` bytes from an alcove's instance: it goes on with them, waits
for the instance, or ends (R383, R387, R389). -/
def withDraw (s : State) (w : Nat) (k : Work) (n : Nat) (f : State → Bytes → State) : State :=
  match drawState s (alcInst k.alcove) with
  | .ok => let r := drawFrom s (alcInst k.alcove) n; f r.2 r.1
  | .waits => modWork s w (fun k => { k with stage := .waitRng, waited := true })
  | .absent => failWork s w stNotReady
  | .dead => failWork s w stEntropy

/-- `RANDOM` (R148, R383): the bytes come from the alcove's instance, on a DRBG core. -/
def execRandom (w : Nat) (s : State) : Out :=
  .next (onWork s w 0x0401 (fun k =>
    let n := fld k.payload 0 4
    withDraw s w k n (fun s out =>
      issueOp s w k .random [] none 0 (plainResult stOk out [(0x0701, n)]))))

end Sys2Proof.Machine
end

