-- ==== Sys2Proof/Machine/KeyCmd.lean ====
section
/-! DEFINITION. The commands that make, change and read keys: `KEY_GENERATE`, `PAIR_GENERATE`,
`KEY_DERIVE`, `KEY_WRAP`, `KEY_UNWRAP`, `FACE_DESTROY`, `KEY_DESTROY`, `FACE_RESTRICT`, `FACE_SHARE`,
`FACE_QUERY` and `PUBLIC_EXPORT` (R117 to R122, R177 to R179, R190 to R194, R212, R213, R657). -/

namespace Sys2Proof.Machine

/-! ### Creating secrets -/

/-- Whether a new secret of some faces is refused at check 7: owners, classes, payment flags, root
(R171, R175, R219, R664). -/
def birthDenied (s : State) (a algo bits : Nat) (f0 f1 : Option Face) : Bool :=
  !(f0.toList ++ f1.toList).all (fun f => ownersExist s a f.owners) || rootMissing s (domainOf s a)
    || !facesOk algo bits f0 f1

/-- Whether material is an XTS key pair with two equal halves (R289). -/
def xtsEqual (algo : Nat) (m : Bytes) : Bool := algo == 2 && m.take (m.length / 2) == m.drop (m.length / 2)

/-- The result of an operation that creates a secret; `n` handles join the response. -/
def birthResult (s : State) (a algo bits : Nat) (m : Bytes) (f0 f1 : Option Face) (n : Nat) (ticket : Option Bytes)
    (meters : List (Nat × Nat)) : Result :=
  if xtsEqual algo m then plainResult stInput [] meters
  else
    { plainResult stOk [] meters with
      body := some (.create (newSecret (domainOf s a) algo bits m f0 f1) n), quorum := ticket }

/-- The faces of a generation request. -/
def genFaces (a : Nat) (r : GenReq) : Option Face × Option Face := (some (faceOf a r.t0), r.t1.map (faceOf a))

/-- Check 7 of a generation: the status that refuses, if any. -/
def genRefused (s : State) (a : Nat) (r : GenReq) : Option Nat :=
  let f := genFaces a r
  if birthDenied s a r.algo r.bits f.1 f.2 then some stDeniedAttr
  else if instServes s r.algo (f.1.toList ++ f.2.toList) = false then some stCounterExh
  else none

/-- `KEY_GENERATE`: the material comes from internal instance 3, for which it waits (R379, R387). -/
def execKeyGenerate (w : Nat) (s : State) : Out :=
  .next (onWork s w 0x0501 (fun k =>
    match genReq false k.payload with
    | none => failWork s w stFormat
    | some r =>
      match genRefused s k.alcove r with
      | some st => failWork s w st
      | none =>
        match drawState s 3 with
        | .ok =>
          let x := drawFrom s 3 ((materialLen r.algo r.bits).getD 0)
          let f := genFaces k.alcove r
          deliver x.2 w (birthResult s k.alcove r.algo r.bits x.1 f.1 f.2 2 none [])
        | .dead => failWork s w stEntropy
        | .waits => modWork s w (fun k => { k with stage := .waitRng, waited := true })
        | .absent => modWork s w (fun k => { k with stage := .waitRng, waited := true })))

/-- Material of a new pair from random bytes, laid out as R170: private value, then public value. -/
def pairMaterial (algo bits : Nat) (rnd : Bytes) : Bytes :=
  if algo = 0x10 then rnd.take 32 ++ Config.edPub (rnd.take 32)
  else if algo = 0x11 then rnd.take 32 ++ Config.xPub (rnd.take 32)
  else if algo = 0x20 then Config.rsaKey bits rnd
  else if algo = 0x30 ∨ algo = 0x31 then rnd.take 64 ++ Config.kemPub (algo == 0x31) (rnd.take 64)
  else if algo = 0x32 ∨ algo = 0x33 then rnd.take 32 ++ Config.dsaPub (algo == 0x33) (rnd.take 32)
  else
    let c := algo - 0x12
    let d := be (Config.curveLen c) (1 + beNat rnd % (curveOrder c - 1))
    d ++ Config.ecPub c d

/-- `PAIR_GENERATE`. -/
def execPairGenerate (w : Nat) (s : State) : Out :=
  .next (onWork s w 0x0502 (fun k =>
    match genReq true k.payload with
    | none => failWork s w stFormat
    | some r =>
      match genRefused s k.alcove r with
      | some st => failWork s w st
      | none =>
        let prog := genProg r.algo
        let f := genFaces k.alcove r
        let m := pairMaterial r.algo r.bits (drawn s pkFree)
        issueJob (useFree s pkFree) w k prog (pkStep prog r.bits).width (progLong prog r.bits) false []
          (birthResult s k.alcove r.algo r.bits m f.1 f.2 2 none [pkMeter prog r.bits])))

/-! ### Derivation -/

/-- The blocks k(1), k(2), ... of the counter mode of SP 800-108, from block `i` on (R657). -/
def kdfBlocks (key d : Bytes) (bits : Nat) : Nat → Nat → Bytes
  | 0, _ => []
  | n + 1, i => Config.hmac512 key (be 4 i ++ d ++ be 4 bits) ++ kdfBlocks key d bits n (i + 1)

/-- Derived material of `m` bytes (R112, R657). -/
def derived (f : Fam) (q : Prm) (key d : Bytes) (m : Nat) : Bytes :=
  match f with
  | .hkdf => Config.hkdfExpand (Config.hkdfExtract q.label key) d m
  | _ => (kdfBlocks key d (8 * m) (ceilDiv m 64) 1).take m

/-- `KEY_DERIVE` (R178, R657). -/
def execKeyDerive (w : Nat) (s : State) : Out :=
  .next (onWork s w 0x0503 (fun k =>
    match keyedOf 0x0503 k.payload with
    | none => failWork s w stFormat
    | some x =>
      withFace s w k x.req.handle false (famServes x.fam 0x0503 0) (fun slot n sec face =>
        let t := x.prm.tmpl
        let child := childFace k.alcove t face (mapHandle s k.alcove x.req.handle)
        let m := (t.key.bind (fun e => materialLen e.1 e.2)).getD 0
        if childOk s k.alcove t child face = false then failWork s w stDeniedAttr
        else if usesLeft s slot n face = false then failWork s w stUsageExh
        else if instServes s ((t.key.getD (0, 0)).1) [child] = false then failWork s w stCounterExh
        else if marksAllow face false = false ∨ mayIssue s .hash w [cacheKey slot n] = false then s
        else
          let r := childResult s k.alcove t child (derived x.fam x.prm sec.material x.req.data m) []
            (symMeters .hash x.req.data.length)
          issueOp (issueFace s k.alcove slot n face) w k .hash [cacheKey slot n] none 0 r)))

/-! ### Envelopes (R190 to R194) -/

/-- Key identifier of a wrapping secret (R192). -/
def wrapKid (material : Bytes) : Bytes := (Config.hmac512 material (ascii "WENV kid")).take 8

/-- A face descriptor. -/
def faceDesc (n : Nat) (f : Face) : Bytes :=
  be 1 n ++ be 1 (useCode f.cls) ++ be 1 (b2n f.quorum + 2 * b2n (f.owners == .all)) ++ [0] ++ be 4 f.notBefore
    ++ be 4 f.notAfter ++ be 8 f.limit ++ zeros 4

/-- The faces of a secret whose export policy is *wrapped only*, with their numbers. -/
def exportable (sec : Secret) : List (Nat × Face) :=
  ([0, 1] : List Nat).filterMap (fun n => (faceAt sec n).bind (fun f => if f.wrapped then some (n, f) else none))

/-- Bytes 0 to 39 + 24F of an envelope. -/
def envelopeHead (sec : Secret) (kid nonce : Bytes) : Bytes :=
  let fs := exportable sec
  be 4 0x57454E56 ++ [1] ++ be 1 fs.length ++ be 2 sec.algo ++ be 2 sec.bits
    ++ be 1 (b2n (fs.any (fun e => e.2.payment)) + 2 * b2n (isAsym sec.algo)) ++ [0] ++ be 4 sec.material.length
    ++ kid ++ nonce ++ zeros 4 ++ fs.flatMap (fun e => faceDesc e.1 e.2)

/-- An envelope of a secret under wrapping material (R191). -/
def envelope (key : Bytes) (sec : Secret) (nonce : Bytes) : Bytes :=
  let h := envelopeHead sec (wrapKid key) nonce
  let ct := Config.gcmCrypt key nonce sec.material
  h ++ ct ++ Config.gcmTag key nonce h ct

/-- Where the ciphertext of an envelope begins. -/
def envBody (b : Bytes) : Nat := 40 + 24 * fld b 5 1

/-- The material of an envelope under some wrapping material, or none on another key identifier or a tag
that fails (R120, R193). -/
def openEnvelope (key b : Bytes) : Option Bytes :=
  let o := envBody b
  let n := fld b 12 4
  let nonce := slice b 24 12
  if slice b 16 8 = wrapKid key ∧ slice b (o + n) 16 = Config.gcmTag key nonce (b.take o) (slice b o n) then
    some (Config.gcmCrypt key nonce (slice b o n))
  else none

/-- A face from a descriptor of an envelope, for a caller's alcove (R194). -/
def descFace (a : Nat) (pay : Bool) (d : Bytes) : Face :=
  { cls := (useOf (fld d 1 1)).getD .encrypt, payment := pay, wrapped := true, quorum := bitOf (fld d 2 1) 0
    owners := if bitOf (fld d 2 1) 1 then .all else .list [a], notBefore := fld d 4 4, notAfter := fld d 8 4
    limit := fld d 12 8, instance_ := 0, uses := 0, useMark := 0, nextInv := 0, invMark := 0, lineage := 0 }

/-- Face `n` of an envelope, if it carries one. -/
def envFace (a : Nat) (b : Bytes) (n : Nat) : Option Face :=
  let ds := (List.range (fld b 5 1)).map (fun i => slice b (40 + 24 * i) 24)
  (ds.find? (fun d => fld d 0 1 == n)).map (descFace a (bitOf (fld b 10 1) 0))

/-! ### Wrapping -/

/-- Whether a mechanism wraps material of `m` bytes (R290). -/
def wrapTakes (mech m : Nat) : Bool := mech != 0x30 || (decide (16 ≤ m) && m % 8 == 0)

/-- Whether a face serves a wrapping mechanism: AES, and AES-256 for an envelope (R112, R190). -/
def wrapServes (mech : Nat) (cls : UseClass) (sec : Secret) (face : Face) : Bool :=
  sec.algo == 1 && face.cls == cls && (mech != 0x50 || sec.bits == 256)

/-- Faces that an operation pins, each once. -/
def bothPins (a b : Nat) : List Nat := if a = b then [a] else [a, b]

/-- Pin a face that an operation names besides the one that it uses (R19). -/
def pinTarget (s : State) (used slot n : Nat) : State := if used = cacheKey slot n then s else pinFace s slot n

/-- `KEY_WRAP` (R19, R120, R190, R290, R308). -/
def execKeyWrap (w : Nat) (s : State) : Out :=
  .next (onWork s w 0x0504 (fun k =>
    let p := k.payload
    let mech := fld p 16 2
    match resolve s k.alcove (fld p 0 8), resolve s k.alcove (fld p 8 8) with
    | some _, some (ts, tn, tgt, tf) =>
      withFace s w k (fld p 0 8) false (fun sec f => wrapServes mech .wrap sec f && tf.wrapped && !tf.payment)
        (fun slot n sec face =>
          let draws : Bool := mech == 0x50
          let pins := bothPins (cacheKey slot n) (cacheKey ts tn)
          if usesLeft s slot n face = false then failWork s w stUsageExh
          else if draws ∧ 2 ^ 64 ≤ face.nextInv then failWork s w stCounterExh
          else if wrapTakes mech tgt.material.length = false then failWork s w stInput
          else if marksAllow face draws = false ∨ mayIssue s .cipher w pins = false then s
          else
            let blob := if draws then envelope sec.material tgt (nonceOf s face)
              else Config.kw (mech == 0x31) sec.material tgt.material
            let s := if draws then drawInv s slot n else s
            issueOp (pinTarget (issueFace s k.alcove slot n face) (cacheKey slot n) ts tn) w k .cipher pins none 0
              (plainResult stOk (be 4 blob.length ++ blob) (symMeters .cipher tgt.material.length)))
    | _, _ => failWork s w stKeyUnknown))

/-- The faces that an unwrap makes. -/
def unwrapFaces (a : Nat) (r : UnwrapReq) : Option Face × Option Face :=
  if r.mech = 0x50 then (envFace a r.blob 0, envFace a r.blob 1) else (some (faceOf a r.tmpl), none)

/-- The material that an unwrap recovers: none where its integrity check fails. -/
def unwrapped (key : Bytes) (r : UnwrapReq) : Option Bytes :=
  if r.mech = 0x50 then openEnvelope key r.blob else Config.kwOpen (r.mech == 0x31) key r.blob

/-- The result of an unwrap whose integrity check has passed: recovered material of another length than
the key type's, or the creation. Asymmetric material goes on to program 0x40 on a core, which refuses a pair that fails its
check (R334). -/
def unwrapResult (s : State) (a algo bits : Nat) (m : Bytes) (f0 f1 : Option Face) (ticket : Option Bytes)
    (meters : List (Nat × Nat)) : Result :=
  if materialLen algo bits ≠ some m.length then plainResult stInput [] meters
  else if isAsym algo then
    let meters := meters ++ [pkMeter 0x40 0]
    { (if pairOk algo bits m then birthResult s a algo bits m f0 f1 (f0.toList ++ f1.toList).length ticket meters
      else plainResult stInput [] meters) with again := .nextWing }
  else birthResult s a algo bits m f0 f1 (f0.toList ++ f1.toList).length ticket meters

/-- The quorum check of a face with the flag: whether it passes, the ticket it used, and the state (R177). -/
def flagQuorum (s : State) (k : Work) (r : UnwrapReq) (flagged : Bool) : Bool × Option Bytes × State :=
  if flagged = false then (true, none, s)
  else
    match r.appr with
    | none => (false, none, s)
    | some ap =>
      let q := quorumPass s (domainOf s k.alcove) 0x0505 r.body ap true
      (q.1, some ap.ticket, q.2)

/-- `KEY_UNWRAP` (R120, R177, R179, R193, R194, R290). The approval of an envelope's faces is checked once
its tag has passed, that of a template before the issue; asymmetric material then runs through program 0x40 (R334). -/
def execKeyUnwrap (w : Nat) (s : State) : Out :=
  .next (onWork s w 0x0505 (fun k =>
    match unwrapReq k.payload, k.carry with
    | none, _ => failWork s w stFormat
    | some _, some r => issueJob s w k 0x40 1 (progLong 0x40 0) false [] r
    | some r, none =>
      withFace s w k r.handle false (wrapServes r.mech .unwrap) (fun slot n sec face =>
        let key := (unwrapKey r).getD (0, 0)
        let f := unwrapFaces k.alcove r
        let fs := f.1.toList ++ f.2.toList
        let flagged := fs.any (fun x => x.quorum)
        let meters := symMeters .cipher r.blob.length
        let early := r.mech != 0x50
        if birthDenied s k.alcove key.1 key.2 f.1 f.2 then failWork s w stDeniedAttr
        else
          let q := if early then flagQuorum s k r flagged else (true, none, s)
          if q.1 = false then failWork q.2.2 w stDeniedQuorum
          else if usesLeft s slot n face = false then failWork s w stUsageExh
          else if instServes s key.1 fs = false then failWork s w stCounterExh
          else if marksAllow face false = false ∨ mayIssue s .cipher w [cacheKey slot n] = false then s
          else
            let x : Result × State :=
              match unwrapped sec.material r with
              | none => (plainResult stVerifyFailed [] meters, q.2.2)
              | some m =>
                let q := if early then q else flagQuorum s k r flagged
                if q.1 = false then (plainResult stDeniedQuorum [] meters, q.2.2)
                else (unwrapResult q.2.2 k.alcove key.1 key.2 m f.1 f.2 q.2.1 meters, q.2.2)
            issueOp (issueFace x.2 k.alcove slot n face) w k .cipher [cacheKey slot n] none 0 x.1)))

/-! ### Faces -/

/-- Check 7 of a command that reads or changes a face without an operation on it: the status that refuses,
or the face (R106, R175). -/
def namedFace (s : State) (a h : Nat) : Except Nat (Nat × Nat × Secret × Face) :=
  match resolve s a h with
  | none => .error stKeyUnknown
  | some x => if x.2.2.2.payment then .error stDeniedAttr else .ok x

/-- Whether owners may replace others under `FACE_RESTRICT` (R122, R664). -/
def ownersNarrow (s : State) (a : Nat) (new old : Owners) : Bool := ownersExist s a new && ownersWithin new old

/-- The status that refuses a `FACE_RESTRICT`, if any (R122). -/
def restrictRefused (s : State) (a : Nat) (f : Face) (t : Template) : Option Nat :=
  let ok := t.owners.all (fun o => ownersNarrow s a o f.owners) && t.wrapped.all (fun b => !b || f.wrapped)
    && t.nb.all (fun n => decide (f.notBefore ≤ n)) && t.na.all (fun n => decide (n ≤ f.notAfter))
    && t.limit.all (fun n => decide (n ≤ f.limit))
  if ok then none else some stDeniedAttr

/-- The status that refuses a `FACE_SHARE`, if any (R122, R213, R664). -/
def shareRefused (s : State) (a : Nat) (f : Face) (o : Owners) : Option Nat :=
  if ownersExist s a o = false then some stDeniedAttr
  else
    match ownersJoin f.owners o with
    | .all => none
    | .list l => if 4 < l.length then some stBusyQuota else none

/-- What a command that changes a face commits, or the status that refuses it: decided at check 7 and again
at the commit point (R119, R196). -/
def faceChange (s : State) (a op : Nat) (p : Bytes) : Except Nat MutBody :=
  match namedFace s a (fld p 0 8) with
  | .error st => .error st
  | .ok (slot, n, _, f) =>
    if op = 0x0506 then .ok (.destroyFace slot n)
    else if op = 0x0507 then .ok (.destroySecret slot)
    else
      match changeReq p (op == 0x0509) with
      | none => .error stFormat
      | some (_, t) =>
        if op = 0x0508 then
          (match restrictRefused s a f t with
            | some st => .error st
            | none => .ok (.restrict slot n t.wrapped t.owners t.nb t.na t.limit))
        else
          match shareRefused s a f (t.owners.getD .all) with
          | some st => .error st
          | none => .ok (.share slot n (t.owners.getD .all))

/-- Queue the change of a face. -/
def changeFace (s : State) (w op : Nat) (k : Work) : State :=
  match faceChange s k.alcove op k.payload with
  | .error st => failWork s w st
  | .ok b => mutateWork s w k b none []

/-- `FACE_DESTROY`. -/
def execFaceDestroy (w : Nat) (s : State) : Out := .next (onWork s w 0x0506 (changeFace s w 0x0506))

/-- `KEY_DESTROY`. -/
def execKeyDestroy (w : Nat) (s : State) : Out := .next (onWork s w 0x0507 (changeFace s w 0x0507))

/-- `FACE_RESTRICT`. -/
def execFaceRestrict (w : Nat) (s : State) : Out := .next (onWork s w 0x0508 (changeFace s w 0x0508))

/-- `FACE_SHARE`. -/
def execFaceShare (w : Nat) (s : State) : Out := .next (onWork s w 0x0509 (changeFace s w 0x0509))

/-- The attribute record (R212). -/
def faceRecord (s : State) (slot n : Nat) (sec : Secret) (f : Face) : Bytes :=
  let other := faceAt sec (1 - n)
  let owners := match f.owners with
    | .all => []
    | .list l => l
  be 8 (handleOf s slot n) ++ be 2 sec.algo ++ be 2 sec.bits ++ be 1 (useCode f.cls)
    ++ be 1 (b2n f.wrapped + 2 * b2n f.quorum + 4 * b2n f.payment + 8 * b2n (isAsym sec.algo) + 16 * b2n other.isSome)
    ++ be 1 owners.length ++ be 1 ((other.map (fun g => useCode g.cls)).getD 0)
    ++ (List.range 4).flatMap (fun i => be 2 (owners.getD i 0xFFFF)) ++ be 4 f.instance_ ++ be 4 f.notBefore
    ++ be 4 f.notAfter ++ zeros 4 ++ be 8 f.limit ++ be 8 f.uses
    ++ be 8 (if needsInst sec.algo f.cls then f.nextInv else 0) ++ be 8 f.lineage

/-- `FACE_QUERY`. -/
def execFaceQuery (w : Nat) (s : State) : Out :=
  .next (onWork s w 0x0102 (fun k =>
    match namedFace s k.alcove (fld k.payload 0 8) with
    | .error st => failWork s w st
    | .ok (slot, n, sec, f) => okWork s w (faceRecord s slot n sec f)))

/-- The public key of a secret as its standard encodes it: an RSA key as RFC 8017's `RSAPublicKey`, a curve
point uncompressed, every other as it is held (R120). -/
def publicKey (sec : Secret) : Bytes :=
  if sec.algo = 0x20 then
    derSeq [derInt (rsaModulus sec), derInt (slice sec.material (sec.bits / 8) 4)]
  else if sec.algo = 0x12 ∨ sec.algo = 0x13 ∨ sec.algo = 0x14 then 4#8 :: pubPart sec
  else pubPart sec

/-- `PUBLIC_EXPORT`, of a public face that verifies, encapsulates or agrees (R102). -/
def execPublicExport (w : Nat) (s : State) : Out :=
  .next (onWork s w 0x050A (fun k =>
    match namedFace s k.alcove (fld k.payload 0 8) with
    | .error st => failWork s w st
    | .ok (_, n, sec, f) =>
      if isAsym sec.algo ∧ n = 1 ∧ (f.cls = .verify ∨ f.cls = .encapsulate ∨ f.cls = .agree) then okWork s w (publicKey sec) else failWork s w stDeniedAttr))

end Sys2Proof.Machine
end

