-- ==== Sys2Proof/Machine/Wcp.lean ====
section
/-! DEFINITION. Frames of the client that the port engines deliver: the alcove they reach (R44, R49), the
authentication of a protected frame (R64 to R67), segments and their assembly (R50 to R56), the sequence
window (R69 to R72), `ACK` and `CLOSE`, the timers of sessions and the handing over of completions and
events. A frame of another type than the command names is no such command and changes nothing. -/

namespace Sys2Proof.Machine

/-! ### Delivery -/

/-- Whether an alcove's identity matches a datagram (R44). -/
def matchAddr (x : AlcoveSettings) (a : NetAddr) : Bool :=
  x.vlan == a.vlan && x.mac == a.mac && x.udp == a.udp && (ipsOf x).contains (a.v6, a.ip)

/-- The open alcove that a datagram reaches. -/
def reaches (s : State) (a : NetAddr) : Option Nat :=
  (s.net.alcoves.find? (fun e => e.2.isOpen && matchAddr e.2.set a)).map (·.1)

/-- A received frame that is dropped and counted under rule `why`. -/
def dropFrame (s : State) (sublink why : Nat) : State := perfAdd (countDrop s why) (14 + portNo sublink) 0x32 1

/-- A segment that is dropped and counted under rule `why`. -/
def dropSeg (s : State) (why : Nat) : State := perfAdd (countDrop s why) 16 0x41 1

/-- Bytes of the Ethernet frame that carries a datagram, FCS included. -/
def frameLen (d : Datagram) : Nat :=
  18 + 4 * d.shape.tags.length + (if d.addr.v6 then 40 else 20) + 8 + 32 + d.data.length + d.tag.length

/-- Whether a frame keeps to the features of R35: its size, at most one tag of TPID 0x8100, no options, extension headers
or fragments, and a right checksum, which only IPv4 may leave zero. -/
def frameOk (d : Datagram) : Bool :=
  decide (frameLen d ≤ 9216) && (d.shape.tags == [] || d.shape.tags == [0x8100]) && !d.shape.options
    && !d.shape.fragment && (match d.shape.sumOk with
      | some ok => ok
      | none => !d.addr.v6)

/-- Whether only port A serves: in `TRANSIT` (R457) and in `RECOVERY` (R528). -/
def onlyPortA (s : State) : Bool := s.life.life == .transit || s.boot.recovery

/-- What delivery makes of a datagram: the state where it is dropped, or the alcove it is for. -/
def deliverTo (s : State) (d : Datagram) : Except State (Nat × Alcove) :=
  if frameOk d = false then .error (dropFrame s d.sublink 35) else
  match (reaches s d.addr).bind (fun a => (alc s a).map (fun x => (a, x))) with
  | none => .error (dropFrame s d.sublink 44)
  | some (a, x) =>
    if onlyPortA s ∧ 4 ≤ d.sublink then .error (dropFrame s d.sublink 44)
    else if x.resetting then .error (dropFrame s d.sublink 98)
    else if x.stopped then .error (dropFrame s d.sublink 569)
    else if d.hdr.version ≠ 1 ∨ flReserved d.hdr.flags ∨ d.hdr.alcove ≠ a then .error (dropFrame s d.sublink 49)
    else .ok (a, x)

/-! ### Authentication -/

/-- Whether a packet number has been seen or is too old (R66). -/
def pktSeen (x : Session) (n : Nat) : Bool :=
  decide (n ≤ x.highest)
    && (n == x.highest || decide (x.highest - n ≥ 1024) || x.bitmap.getLsbD (x.highest - n - 1))

/-- The bitmap and the highest number after an authenticated frame (R66). -/
def pktTake (x : Session) (n : Nat) : Session :=
  if n ≤ x.highest then { x with bitmap := setBit x.bitmap (x.highest - n - 1) }
  else
    let k := n - x.highest
    let old := if 1024 ≤ k then 0 else x.bitmap <<< k
    { x with highest := n, bitmap := if 1024 < k then 0 else setBit old (k - 1) }

/-- The completions that an `ACK` value covers release their payloads (R73, R74). -/
def takeAck (x : Session) (v : Nat) : Session :=
  if v ≤ x.ackVal then x
  else { x with ackVal := v, entries := tmap x.entries (fun n e => if n ≤ v then releaseEntry e else e) }

/-- The client packet mark rises with the highest number, rounded down to a multiple of 1,024 (R553). -/
def mirrorCli (s : State) (a i : Nat) : State :=
  match sess s a i with
  | none => s
  | some x =>
    let m := x.highest / 1024 * 1024
    if twinned s ∧ a ≠ 0 ∧ x.cliMark < m then
      emit (modSess s a i (fun y => { y with cliMark := m })) (.markMirror a i (.client m))
    else s

/-- A protected frame of an open session: the state where it is dropped or closes its session, or the alcove
and the session after it (R49, R66, R67, R74). -/
def authFrame (s : State) (d : Datagram) : Except State (Nat × Session × State) :=
  let s := perfAdd s (14 + portNo d.sublink) 0x30 1
  match deliverTo s d with
  | .error s => .error s
  | .ok (a, _) =>
    let i := d.hdr.session
    match sess s a i with
    | none => .error (dropFrame s d.sublink 49)
    | some x =>
      if x.open_ = false ∨ x.closing.isSome then .error (dropFrame s d.sublink 49)
      else if frameTag x.c2dKey x.c2dSalt d.hdr d.data ≠ d.tag then
        .error (alcCount (dropFrame s d.sublink 66) a 14 1)
      else if 2 ^ 48 ≤ d.hdr.pktNum then .error (closeSession s a i stCounterExh)
      else if pktSeen x d.hdr.pktNum then .error (alcCount (dropFrame s d.sublink 66) a 14 1)
      else
        let y := takeAck { pktTake x d.hdr.pktNum with lastAuth := s.time, link := d.sublink } d.hdr.ack
        .ok (a, y, mirrorCli (putSess s a i y) a i)

/-! ### Assembly -/

/-- Whether a window entry is a command in assembly. -/
def isAssembling : Entry → Bool
  | .assembling _ => true
  | _ => false

/-- A command that has just begun to arrive. -/
def newAssembly (now : Nat) (h : WcpHeader) : Assembly :=
  { opcode := h.opStatus, queue := h.queue, declLen := h.declLen, segs := [], lastEnd := none, start := now
    event := false }

/-- Whether a segment repeats one that is held (R52, item 1). -/
def segDup (m : Assembly) (off len : Nat) : Bool := m.segs.any (fun g => g.1 == off && g.2.length == len)

/-- Whether a segment overlaps one that is held. -/
def segMeets (m : Assembly) (off len : Nat) : Bool :=
  m.segs.any (fun g => g.1 == off || (decide (off < g.1 + g.2.length) && decide (g.1 < off + len)))

/-- Whether a segment breaks R50 or disagrees with what is held (R52, item 2). -/
def segBad (m : Assembly) (h : WcpHeader) (len : Nat) : Bool :=
  let stop := h.segOff + len
  let last := flLast h.flags
  decide (8192 < len) || (!last && len % 64 != 0) || (flFirst h.flags != (h.segOff == 0))
    || (!last && stop == h.declLen) || m.opcode != h.opStatus || m.queue != h.queue || m.declLen != h.declLen
    || decide (7 < h.queue) || segMeets m h.segOff len
    || (last && m.lastEnd.any (fun e => e != stop))

/-- The status that refuses a segment's command, if any (R52) (DEDUCED, log 43). -/
def segRefused (m : Assembly) (h : WcpHeader) (len : Nat) : Option Nat :=
  if segBad m h len then some stFormat
  else if 1048576 < h.declLen ∨ h.declLen < h.segOff + len then some stLengthLong
  else if flLast h.flags ∧ h.segOff + len < h.declLen then some stLengthShort
  else none

/-- A segment is held. -/
def segAdd (m : Assembly) (h : WcpHeader) (data : Bytes) : Assembly :=
  { m with segs := tput m.segs h.segOff data, event := m.event || flEvent h.flags
           lastEnd := if flLast h.flags then some (h.segOff + data.length) else m.lastEnd }

/-- Bytes that a command holds. -/
def segBytes (m : Assembly) : Nat := sumNat (m.segs.map (fun g => g.2.length))

/-- What a command brings to admission, as its last segment leaves it. -/
def offerOf (a : Nat) (d : Datagram) (m : Assembly) : Offer :=
  { alcove := a, session := d.hdr.session, seq := d.hdr.seq, queue := m.queue, opcode := m.opcode, event := m.event
    sublink := d.sublink, prio := d.prio, pktNum := d.hdr.pktNum, payload := (m.segs.map (·.2)).flatten }

/-- Raise the mirrored sequence mark of a session before a command at it is accepted (R553). -/
def mirrorSeq (s : State) (a i seq : Nat) : State :=
  match sess s a i with
  | none => s
  | some x =>
    let k := ((seq + 512) / 1024 + 1) * 1024
    if twinned s ∧ a ≠ 0 ∧ x.seqMark ≤ seq + 512 then
      emit (modSess s a i (fun y => { y with seqMark := k })) (.markMirror a i (.seq k))
    else s

/-- Every byte is held: the command goes to admission (R16). -/
def assembled (s : State) (a : Nat) (x : Session) (o : Offer) : State :=
  admitCmd (perfAdd (mirrorSeq s a o.session o.seq) 16 0x40 1) x o

/-- A segment of a command that is new or in assembly (R52 to R56). A first segment that is dropped for want of room opens
no entry and starts no timer (DESIGN CHOICE, log 103). -/
def segArrives (s : State) (a : Nat) (x : Session) (d : Datagram) (held : Option Assembly) : State :=
  let h := d.hdr
  let len := d.data.length
  let m := held.getD (newAssembly s.time h)
  let open_ := tcount x.entries (fun _ e => isAssembling e)
  if segDup m h.segOff len then dropSeg s 52
  else if 0 < len ∧ shareHolds s a len = false then alcCount (dropSeg s 56) a 14 1
  else if held.isNone ∧ 64 ≤ open_ then refuseCmd s x (offerOf a d m) stBusyQuota
  else
    match segRefused m h len with
    | some st => refuseCmd s x (offerOf a d m) st
    | none =>
      let m := segAdd m h d.data
      if segBytes m = m.declLen ∧ m.lastEnd.isSome then assembled s a x (offerOf a d m)
      else modSess s a h.session (fun y => { y with entries := tput y.entries h.seq (.assembling m) })

/-! ### The window (R70 to R72) -/

/-- The window slides to a sequence number; entries below its base leave it. -/
def slideTo (x : Session) (seq : Nat) : Session :=
  if x.base + 4095 < seq then
    { x with base := seq - 4095, entries := tfilter x.entries (fun n _ => decide (seq - 4095 ≤ n)) }
  else x

/-- A completion of a sequence number that is not new: a stored one again, or `UNIT_LOST` (R72, R565) (DEDUCED,
log 44). -/
def oldComp (s : State) (a : Nat) (x : Session) (d : Datagram) (status : Nat) (declLen : Nat) (p : Option Bytes)
    (queue : Nat) (replay : Bool) : State :=
  addComp s
    { sid := x.sid, alcove := a, session := d.hdr.session, seq := d.hdr.seq, queue := queue, opcode := d.hdr.opStatus
      status := status, payload := p.getD [], gen := ((alc s a).map (fun y => y.gen)).getD 0, sublink := d.sublink
      prio := d.prio, event := false, replay := replay, truncated := p.isNone && declLen != 0, declLen := declLen
      work := none, meters := [], stream := none, pktNum := d.hdr.pktNum, tagged := true }

/-- A `COMMAND` segment against its window entry. -/
def segment (s : State) (a : Nat) (x : Session) (d : Datagram) : State :=
  let i := d.hdr.session
  let seq := d.hdr.seq
  if seq < x.base then dropSeg s 71
  else
    let x := slideTo x seq
    let s := putSess s a i x
    match tget x.entries seq with
    | some (.accepted _) => dropSeg s 72
    | some (.done st l p q _) =>
      if flFirst d.hdr.flags then perfAdd (oldComp s a x d st l p q true) 16 0x42 1 else dropSeg s 72
    | some .lost =>
      if flFirst d.hdr.flags then oldComp s a x d stUnitLost 0 (some []) d.hdr.queue false else dropSeg s 565
    | some (.assembling m) => segArrives s a x d (some m)
    | none => segArrives s a x d none

/-- Bytes that one priority's part of a port's receive region holds: an eighth of it, 1 MiB by default (R165)
(DEDUCED, log 74). -/
def regionShare (p : Port) : Nat := p.region * 131072

/-- A port starts or ends its pause for a priority. -/
def sendPause (s : State) (port prio : Nat) (on : Bool) : State :=
  let s := modPort s port (fun p => { p with pauseSent := if on then prio :: p.pauseSent else p.pauseSent.erase prio })
  let s := emit s (.pfcPause port prio on)
  if on then perfAdd s (14 + port) 0x33 1 else s

/-- A frame has come in and its priority's region is as full as the frame says: below 160 KiB of free space the
port sends pause, and above 288 KiB it ends the pause (R36, R166). -/
def regionFills (s : State) (d : Datagram) : State :=
  let port := portNo d.sublink
  let s := if tgetD (portOf s port).recvUsed d.prio 0 = d.held then s
    else modPort s port (fun p =>
      { p with recvUsed := if d.held = 0 then tdel p.recvUsed d.prio else tput p.recvUsed d.prio d.held })
  let p := portOf s port
  let free := regionShare p - d.held
  if free < 163840 ∧ p.pauseSent.contains d.prio = false then sendPause s port d.prio true
  else if 294912 < free ∧ p.pauseSent.contains d.prio = true then sendPause s port d.prio false
  else s

/-- `COMMAND_SEGMENT` (R52). -/
def execCommandSegment (d : Datagram) (s : State) : Out :=
  .next (if d.hdr.type ≠ 1 then s
    else
      match authFrame (regionFills s d) d with
      | .error s => s
      | .ok (a, x, s) => segment s a ((sess s a d.hdr.session).getD x) d)

/-- `ASSEMBLY_TIMER_EXPIRY` (R53). No segment completed the command, so the completion has priority 0 and leaves on the
session's last sub-link (DESIGN CHOICE, log 100). -/
def execAssemblyTimerExpiry (alcove session seq : Nat) (s : State) : Out :=
  .next (match sess s alcove session, alc s alcove with
    | some x, some y =>
      (match tget x.entries seq with
        | some (.assembling m) =>
          if m.start + y.set.assemblyUs * 1000 ≤ s.time then
            refuseCmd s x
              { alcove := alcove, session := session, seq := seq, queue := m.queue, opcode := m.opcode, event := m.event
                sublink := x.link, prio := 0, pktNum := x.highest, payload := [] } stLengthShort
          else s
        | _ => s)
    | _, _ => s)

/-! ### Sessions -/

/-- `ACK` (R74): authentication takes its value. -/
def execAck (d : Datagram) (s : State) : Out :=
  .next (if d.hdr.type ≠ 6 then s
    else
      match authFrame s d with
      | .error s => s
      | .ok (_, _, s) => s)

/-- A session that its client closes discards what is in assembly and closes after its accepted commands (R68). -/
def beginClose (x : Session) : Session :=
  { x with closing := some stOk, entries := tfilter x.entries (fun _ e => ! isAssembling e) }

/-- `CLOSE` of a client (R68). -/
def execClose (d : Datagram) (s : State) : Out :=
  .next (if d.hdr.type ≠ 0x15 then s
    else
      match authFrame s d with
      | .error s => s
      | .ok (a, _, s) =>
        let i := d.hdr.session
        finishClosing (modSess s a i beginClose) a i)

/-- `SESSION_IDLE_TIMEOUT` (R68). -/
def execSessionIdleTimeout (alcove session : Nat) (s : State) : Out :=
  .next (match sess s alcove session, alc s alcove with
    | some x, some y =>
      if x.open_ ∧ x.lastAuth + y.set.idleS * 10 ^ 9 ≤ s.time then closeSession s alcove session stOk else s
    | _, _ => s)

/-! ### Completions and events -/

/-- `COMPLETION_HANDOVER` (R95). Results of streams leave in the order of their slice. -/
def execCompletionHandover (c : Nat) (s : State) : Out := .next (handover s c)

/-- `EVENT_MODERATION_EXPIRY` (R78). -/
def execEventModerationExpiry (alcove : Nat) (s : State) : Out :=
  .next (match alc s alcove with
    | some x =>
      (match x.modStart with
        | some t => if t + x.set.modUs * 1000 ≤ s.time then flushAll s alcove else s
        | none => s)
    | none => s)

/-- The operations of a command end, and its jobs; the command ends with a status. -/
def failIssued (s : State) (w status : Nat) : State :=
  let s := (tfilter s.cipher.ops (fun _ o => o.work == w)).foldl (fun s e => opFail s e.1 e.2 status) s
  pkSchedule (abortFellows (failWork s w status) w)

/-- Whether a record of a command's mutation is sent (R196). -/
def isPlaced (s : State) (w : Nat) : Bool :=
  s.keys.domains.any (fun d => d.2.pending.any (fun m => m.work == some w && m.placed.isSome))

/-- The mutations of a command whose record is not sent are abandoned. -/
def dropWork (s : State) (w : Nat) : State :=
  { s with keys := { s.keys with domains := tmap s.keys.domains (fun _ d =>
      { d with pending := d.pending.filter (fun m => m.work != some w) }) } }

/-- A command whose result does not come in time ends with the failure status that applies to what it waits for: an instance,
a unit, or its mutation, a snapshot or the Tally. One whose effect has begun ends with it, since each failure status says
that the state is unchanged (R132, R136; DESIGN CHOICE, log 109). -/
def failLate (s : State) (w : Nat) (k : Work) : State :=
  match k.stage with
  | .waitRng => failWork s w stEntropy
  | .ready => failWork s w stUnitLost
  | .issued => failIssued s w stUnitLost
  | .mutating => if isPlaced s w then s else failWork (dropWork s w) w stBusyClass
  | .waitTally => failWork (modTally s (fun t => { t with cut := t.cut.erase w })) w stBusyClass
  | .waitEpoch c _ _ => if c = 7 then failWork s w stBusyClass else s
  | .waitAlcove _ => s
  | .completed => s

/-- `PROMISE_DEADLINE` (R136, R383, R388): the last moment of a command's promise. -/
def execPromiseDeadline (w : Nat) (s : State) : Out :=
  .next (match wrk s w with
    | some k => if k.deadline ≤ s.time + 1 then failLate s w k else s
    | none => s)

end Sys2Proof.Machine
end

