-- ==== Sys2Proof/Machine/Hello.lean ====
section
/-! DEFINITION. The handshake: `HELLO` and `FINISH` (R57 to R63, R570). A probe, a `HELLO` whose key identifier
is all zero, opens nothing and takes no slot. -/

namespace Sys2Proof.Machine

/-! ### Admission and random values -/

/-- The public-key work of a handshake, one operation of width 1: two X25519 operations, an encapsulation and
a signature (R61; DEDUCED: the spec gives the handshake no cost of its own). -/
def helloStep : Step4 := { wing := .pk, width := 1, span := 2 * 26048 + 12848 + 17048, slots := 0, serial := false }

/-- Whether admission takes handshake work in class D2 (R61). -/
def helloFits (s : State) (a : Nat) : Bool :=
  controlFits s a { plainPlan .d2 0 with steps := [helloStep] } && wingsAdmit s .d2 (costsOf s [helloStep] false)

/-- The core whose instance gives the ephemerals (R379): the lowest idle one whose instance can draw, or else the lowest
that can draw, that is idle, or that serves. -/
def helloCore (s : State) : Nat :=
  let up := (List.range 48).filter (fun i =>
    (coreAt s i).state == .inService && ownerOf s (4 + i / 8) == .outer)
  let draws := up.filter (fun i => drawState s (coreInst i) == .ok)
  ((draws.find? (fun i => !(coreAt s i).busy)).orElse (fun _ => draws.head?.orElse (fun _ =>
    (up.find? (fun i => !(coreAt s i).busy)).orElse (fun _ => up.head?)))).getD 0

/-- The status that refuses a handshake for want of random values at once, if any (R61, R387, R389). -/
def helloNoRandom (s : State) (a : Nat) : Option Nat :=
  match drawState s (alcInst a) with
  | .absent => if s.rng.source = .fatal then some stEntropy else some stNotReady
  | .dead => some stEntropy
  | _ => none

/-- Whether both instances of a handshake can give its values now, and the alcove has its certificate (R58, R61; log 113). -/
def helloDraws (s : State) (a : Nat) : Bool :=
  drawState s (alcInst a) == .ok && drawState s (coreInst (helloCore s)) == .ok
    && !(((alc s a).map (fun x => x.cert)).getD []).isEmpty

/-! ### `HELLO` -/

/-- Whether a `HELLO` is a probe (R570). -/
def isProbe (p : Bytes) : Bool := zeroAt p 4 16

/-- Whether a `HELLO` is well formed (R57, R61). -/
def helloOk (d : Datagram) : Bool :=
  d.data.length == 1252 && fld d.data 0 2 == 1 && zeroAt d.data 2 2 && d.hdr.session == 0xFF && d.hdr.pktNum == 0

/-- Half-open sessions of an alcove. -/
def halfOpen (s : State) (a : Nat) : Nat :=
  ((sessionsOf s a).filter (fun i => ((sess s a i).map (fun x => !x.open_)).getD false)).length

/-- Whether an alcove has a slot for one more handshake (R61). -/
def slotFree (s : State) (a : Nat) : Bool := decide ((sessionsOf s a).length < 16) && decide (halfOpen s a < 4)

/-- The status with which a `HELLO` is rejected, if any (R61). -/
def helloRefused (s : State) (a : Nat) (d : Datagram) : Option Nat :=
  if s.fc.service = .safe then some stDeviceSafe
  else if s.fc.service = .tampered then some stTampered
  else if helloOk d = false then some stFormat
  else if Config.kemEkOk false (slice d.data 68 1184) = false then some stInput
  else if isProbe d.data = false ∧ slotFree s a = false then some stBusyQuota
  else if helloFits s a = false then some stBusyClass
  else helloNoRandom s a

/-- A `REJECT` for the sender of a frame; that of a `HELLO` carries `SESSION` 0xFF whatever the frame's own was (DEDUCED,
log 42). -/
def reject (s : State) (d : Datagram) (a i st : Nat) : State :=
  sendPlain s ((sendLink s d.sublink).getD d.sublink) d.prio
    { outHdr 0x14 a i with flags := 3, opStatus := st } []

/-- What the device answers: the `REPLY` payload, the ephemeral scalar and the ML-KEM shared secret. -/
def replyTo (s : State) (a i : Nat) (hello nonce rnd : Bytes) : Bytes × Bytes × Bytes :=
  let scalar := rnd.take 32
  let kem := Config.kemEnc false (slice hello 68 1184) (rnd.drop 32)
  let chain := (replyChain s a).flatten
  let body := be 2 1 ++ be 1 i ++ [0] ++ nonce ++ Config.xPub scalar ++ kem.1 ++ be 2 chain.length ++ chain
  let th1 := Config.sha512 (hello ++ body)
  let key := ((alc s a).map (fun x => x.alcoveKey)).getD []
  (body ++ Config.edSign key (ascii "WCP1 device" ++ th1), scalar, kem.2)

/-- The half-open session of a handshake; its `REPLY` follows its signature. -/
def halfSession (s : State) (d : Datagram) (scalar kem : Bytes) : Session :=
  { sid := s.net.nextSid, open_ := false, key := [], keyId := slice d.data 4 16, role := .client, c2dKey := []
    d2cKey := [], c2dSalt := [], d2cSalt := [], hello := d.data, reply := [], ephemeral := scalar
    kemShared := kem, highest := 0, bitmap := 0, nextPkt := 1, replyAt := s.time, lastAuth := s.time, ackVal := 0
    base := 1, entries := [], closing := none, link := d.sublink, seqMark := 0, devMark := 0, cliMark := 0 }

/-- The slot that a `HELLO` takes: none, 0xFF, for a probe. -/
def helloSlot (s : State) (a : Nat) (d : Datagram) : Nat :=
  if isProbe d.data then 0xFF else ((List.range 16).find? (fun i => (sess s a i).isNone)).getD 0xFF

/-- Put a half-open session into a slot. -/
def putHalf (s : State) (a i : Nat) (x : Session) : State :=
  let s := putSess s a i x
  { s with net := { s.net with nextSid := s.net.nextSid + 1 } }

/-- A `HELLO` whose values can be drawn: its slot, but for a probe's, and the signature of its `REPLY` as work of class D2 until
the promise ends (R61, R253). -/
def helloReply (s : State) (a i till : Nat) (d : Datagram) : State :=
  let n := drawFrom s (alcInst a) 32
  let r := drawFrom n.2 (coreInst (helloCore s)) 64
  let s := r.2
  let q := replyTo s a i d.data n.1 r.1
  let sid := s.net.nextSid
  let s := if i = 0xFF then { s with net := { s.net with nextSid := sid + 1 } } else putHalf s a i (halfSession s d q.2.1 q.2.2)
  startSign s sid a .d2 till d.sublink d.prio (costsOf s [helloStep] false) (.reply i q.1)

/-- A `HELLO` whose values cannot be drawn yet waits with its slot taken (R61). -/
def helloWaits (s : State) (a i : Nat) (d : Datagram) : State :=
  let s := if i = 0xFF then s else putHalf s a i (halfSession s d [] [])
  { s with net := { s.net with waitHellos :=
      s.net.waitHellos ++ [{ alcove := a, slot := i, frame := d, till := s.time + promiseNs .d2 }] } }

/-- A `HELLO` that is not rejected. -/
def helloGoes (s : State) (a : Nat) (d : Datagram) : State :=
  let i := helloSlot s a d
  if helloDraws s a then helloReply s a i (s.time + promiseNs .d2) d else helloWaits s a i d

/-- End the wait of a `HELLO`, with its slot. -/
def endWait (s : State) (h : HelloWait) : State :=
  let s := { s with net := { s.net with waitHellos := s.net.waitHellos.filter (fun x => x != h) } }
  if h.slot = 0xFF then s else delSess s h.alcove h.slot

/-- A waiting `HELLO` whose values can be drawn is answered. -/
def wakeHello (s : State) (h : HelloWait) : State :=
  if s.net.waitHellos.contains h = false then s
  else if s.fc.service = .safe then reject (endWait s h) h.frame h.alcove 0xFF stDeviceSafe
  else if s.fc.service = .tampered then reject (endWait s h) h.frame h.alcove 0xFF stTampered
  else if helloDraws s h.alcove then helloReply (endWait s h) h.alcove h.slot h.till h.frame
  else s

/-- `SPORE_DELIVERY` (R376, R380, R383), after which waiting handshakes may go on. -/
def execSporeDelivery (s : State) : Out :=
  .next (s.net.waitHellos.foldl wakeHello (deliverSpore s))

/-- A waiting `HELLO` whose promise has ended (R61). -/
def waitOver (s : State) (a i : Nat) : Option HelloWait :=
  s.net.waitHellos.find? (fun h => h.alcove == a && h.slot == i && decide (h.till ≤ s.time))

/-- `HALF_OPEN_TIMEOUT` (R63): a session whose `FINISH` has not come is released without a frame. One whose `REPLY` could
not be made within the D2 promise ends with `ENTROPY_FAULT` (R61). -/
def execHalfOpenTimeout (alcove session : Nat) (s : State) : Out :=
  .next (match waitOver s alcove session with
    | some h => reject (endWait s h) h.frame alcove 0xFF stEntropy
    | none =>
      match sess s alcove session with
      | some x =>
        if x.open_ = false ∧ x.reply.isEmpty = false ∧ x.replyAt + 10 ^ 8 ≤ s.time then delSess s alcove session else s
      | none => s)

/-- `HELLO` (R61). -/
def execHello (d : Datagram) (s : State) : Out :=
  .next (if d.hdr.type ≠ 0x10 then s
    else
      let s := perfAdd s (14 + portNo d.sublink) 0x30 1
      match deliverTo s d with
      | .error s => s
      | .ok (a, _) =>
        match helloRefused s a d with
        | some st => reject s d a 0xFF st
        | none => helloGoes s a d)

/-! ### `FINISH` -/

/-- The registered key of an alcove with an identifier (R57). -/
def keyOfId (x : Alcove) (id : Bytes) : Option (Bytes × Role) :=
  x.keys.find? (fun k => (Config.sha512 k.1).take 16 == id)

/-- The status with which a `FINISH` for a half-open session is rejected, if any, or the key it names (R62). -/
def finishCheck (s : State) (y : Alcove) (x : Session) (p : Bytes) : Except Nat (Bytes × Role) :=
  if s.fc.service = .safe then .error stDeviceSafe
  else if s.fc.service = .tampered then .error stTampered
  else if p.length ≠ 68 ∨ zeroAt p 1 3 = false then .error stFormat
  else
    match keyOfId y x.keyId with
    | none => .error stDeniedAuth
    | some k =>
      if Config.edVerify k.1 (ascii "WCP1 client" ++ Config.sha512 (x.hello ++ x.reply)) (p.drop 4) = false then
        .error stDeniedAuth
      else if allZero (Config.x25519 x.ephemeral (slice x.hello 36 32)) then .error stInput
      else .ok k

/-- The session that a `FINISH` opens, with the keys of R60. R57 places `CLIENT_X25519` at 36, so 16 of the
`CLIENT_NONCE` field's bytes stand before it (DEDUCED: the offsets are followed). -/
def openSession (now : Nat) (x : Session) (p : Bytes) (k : Bytes × Role) (link : Nat) : Session :=
  let th3 := Config.sha512 (x.hello ++ x.reply ++ p)
  let ikm := Config.x25519 x.ephemeral (slice x.hello 36 32) ++ x.kemShared
  let prk := Config.hkdfExtract (slice x.hello 20 16 ++ slice x.reply 4 32) ikm
  let okm := Config.hkdfExpand prk (ascii "WCP1 keys" ++ th3) 72
  { x with
    open_ := true, key := k.1, role := k.2, c2dKey := okm.take 32, d2cKey := slice okm 32 32, c2dSalt := slice okm 64 4
    d2cSalt := slice okm 68 4, hello := [], reply := [], ephemeral := [], kemShared := [], lastAuth := now, link := link }

/-- The session record goes to the twin before `READY` (R553). -/
def mirrorSession (s : State) (a i : Nat) (x : Session) : State :=
  if twinned s ∧ a ≠ 0 then
    emit s (.sessionMirror
      { alcove := a, session := i, key := x.key, c2dKey := x.c2dKey, d2cKey := x.d2cKey, c2dSalt := x.c2dSalt
        d2cSalt := x.d2cSalt })
  else s

/-- The session opens and `READY` goes out (R62, R63). -/
def sendReady (s : State) (a i : Nat) (x : Session) (d : Datagram) : State :=
  let s := mirrorSession (putSess s a i x) a i x
  let p := be 2 stOk ++ zeros 2 ++ be 4 1 ++ be 8 s.time
  sendProt s a i x ((sendLink s d.sublink).getD d.sublink) d.prio
    { outHdr 0x13 a i with flags := 3, declLen := p.length } p

/-- A `FINISH` for index 0xFF (R62, R570). -/
def finishProbe (s : State) (a : Nat) (d : Datagram) : State :=
  reject s d a 0xFF (match s.fc.service with
    | .safe => stDeviceSafe
    | .tampered => stTampered
    | _ => stFormat)

/-- `FINISH` (R62). -/
def execFinish (d : Datagram) (s : State) : Out :=
  .next (if d.hdr.type ≠ 0x12 then s
    else
      let s := perfAdd s (14 + portNo d.sublink) 0x30 1
      match deliverTo s d with
      | .error s => s
      | .ok (a, y) =>
        let i := fld d.data 0 1
        if d.data.isEmpty then dropFrame s d.sublink 49
        else if i = 0xFF then finishProbe s a d
        else
          match sess s a i with
          | none => dropFrame s d.sublink 49
          | some x =>
            if x.open_ ∨ x.reply.isEmpty then dropFrame s d.sublink 49
            else
              match finishCheck s y x d.data with
              | .error st => delSess (reject s d a i st) a i
              | .ok k => sendReady s a i (openSession s.time x d.data k d.sublink) d)

end Sys2Proof.Machine
end

