-- ==== Sys2Proof/Machine/Rdma.lean ====
section
/-! DEFINITION. Queue pairs: acknowledgements, retransmission and errors (R85, R86, R97), and their rate (R88). -/

namespace Sys2Proof.Machine

/-! ### Errors (R86, R97) -/

/-- The slices of a queue pair are suspended, and each is reported. -/
def suspendSlices (s : State) (q : Nat) : State :=
  (s.net.slices.filter (fun e => e.2.qp == some q)).foldl (fun s e =>
    let pid := e.1 % 2 ^ 20
    let s := { s with net := { s.net with slices := tmod s.net.slices e.1 (fun x => { x with suspended := true }) } }
    postEvent s (e.1 / 2 ^ 20) 4 0 0xFF 0xFF pid pid) s

/-- A queue pair moves to error. During a reset of its alcove only `QP_ERROR` is posted (R97). -/
def qpError (s : State) (q : Nat) (x : Qp) : State :=
  let s := modQp s q (fun y => { y with state := .error, pending := [] })
  let s := postEvent (perfAdd s 17 0x4B 1) x.alcove 3 0 0xFF 0xFF 0 q
  if x.frozen then s else suspendSlices s q

/-- Send every write that is not acknowledged again. -/
def resendAll (s : State) (q : Nat) (x : Qp) : State :=
  let s := modQp s q (fun y => { y with sentAt := s.time })
  perfAdd (x.pending.foldl (fun s p => sendPacket s q x.link x.alcove p) s) 17 0x49 x.pending.length

/-- The entries that follow the one with a sequence number; none when no entry has it. -/
def afterPsn (psn : Nat) : List RdmaPacket → Option (List RdmaPacket)
  | [] => none
  | p :: r => if p.psn = psn then some r else afterPsn psn r

/-! ### The commands -/

/-- `ROCE_ACK` (R85): every write up to the sequence number is acknowledged. -/
def execRoceAck (qp psn : Nat) (s : State) : Out :=
  .next (match (qpAt s qp).bind (fun x => afterPsn psn x.pending) with
    | some r => modQp s qp (fun y =>
        { y with pending := r, left := y.retries, rnrLeft := y.rnr, sentAt := s.time })
    | none => s)

/-- `ROCE_NAK` (R86). A frozen queue pair retransmits nothing (R97). -/
def execRoceNak (qp : Nat) (k : NakKind) (s : State) : Out :=
  .next (match qpAt s qp with
    | none => s
    | some x =>
      if x.state ≠ .connected ∨ x.pending.isEmpty ∨ x.frozen then s
      else
        match k with
        | .nak =>
          if x.left = 0 then qpError s qp x else resendAll (modQp s qp (fun y => { y with left := y.left - 1 })) qp x
        | .rnr =>
          if x.rnrLeft = 0 then qpError s qp x
          else resendAll (modQp s qp (fun y => { y with rnrLeft := y.rnrLeft - 1 })) qp x)

/-- `QP_ACK_TIMEOUT` (R86, R97). -/
def execQpAckTimeout (qp : Nat) (s : State) : Out :=
  .next (match qpAt s qp with
    | none => s
    | some x =>
      if x.state ≠ .connected ∨ x.pending.isEmpty ∨ s.time < x.sentAt + 4096 * 2 ^ x.timeout then s
      else if x.frozen ∨ x.left = 0 then qpError s qp x
      else resendAll (modQp s qp (fun y => { y with left := y.left - 1 })) qp x)

/-- `CNP_RECEIVED` (R88). -/
def execCnpReceived (qp : Nat) (s : State) : Out :=
  .next (if (qpAt s qp).isNone then s
    else
      perfAdd (modQp s qp (fun x =>
        if x.lastCut + 50000 ≤ s.time then
          { x with rate := max (x.rate * 7 / 8) (10 ^ 9), lastCut := s.time, cnpSince := true }
        else { x with cnpSince := true })) 17 0x4A 1)

/-- `RATE_INCREASE_TICK` (R88). -/
def execRateIncreaseTick (qp : Nat) (s : State) : Out :=
  .next (modQp s qp (fun x =>
    if x.lastStep + 55000 ≤ s.time then
      { x with lastStep := s.time, cnpSince := false
               rate := if x.cnpSince then x.rate else min (x.rate + 4 * 10 ^ 9) x.linkRate }
    else x))

/-- `ROCE_REQUEST_DROPPED` (R85). -/
def execRoceRequestDropped (qp : Nat) (s : State) : Out := .next (if qp < 4096 then countDrop s 85 else s)

end Sys2Proof.Machine
end

