-- ==== Sys2Proof/Machine/StreamFace.lean ====
section
/-! DEFINITION. Stream frames: the checks of a `STREAM` frame (R80 to R84) and its operation. The per-mode data of a stream, which the spec
does not lay out, are the mode's `PARAM`, without AAD, followed by the data (log 20). -/

namespace Sys2Proof.Machine

/-! ### The frame -/

/-- The longest payload of a frame: 9,216 bytes less the overhead (R81). -/
def streamMax (a : NetAddr) : Nat := 9216 - (18 + (if a.vlan = 0 then 0 else 4) + (if a.v6 then 40 else 20) + 8 + 32 + 16)

/-- Whether a frame follows R81. -/
def streamOk (d : Datagram) : Bool :=
  flFirst d.hdr.flags && flLast d.hdr.flags && d.hdr.segOff == 0 && d.hdr.declLen == d.data.length
    && d.hdr.opStatus == 0 && decide (d.hdr.seq < 2 ^ 20) && decide (d.data.length ≤ streamMax d.addr)

/-- Length of the parameters at the front of a stream's data. -/
def streamHead (f : Fam) (op : Nat) (p : Bytes) : Nat :=
  match f with
  | .cbc => 16
  | .ctr => 20
  | .xts => 20
  | .gcm => 32
  | .ccm => 32
  | .gmac => 32
  | .cmac => 20
  | .ff1 => 4 + fld p 2 2
  | .hmac _ => if op = 0x0204 then 64 else 0
  | .shake _ => 4
  | _ => 0

/-- The `PARAM` that the front of a stream's data stands for: a MAC of the lanes is of full length (R367). -/
def streamParam (f : Fam) (op : Nat) (p : Bytes) : Bytes :=
  let h := p.take (streamHead f op p)
  match f with
  | .hmac n => be 1 (Config.hashLen n) ++ zeros 3 ++ (if op = 0x0204 then h else zeros 64)
  | _ => h

/-- A stream frame as its slice reads it: placement offset, request, family and parameters. -/
structure StreamReq where
  offset : Nat
  op     : Nat
  keyed  : Keyed
  deriving DecidableEq, Repr

/-- The opcode of a slice's operations: that of its face, or of a digest. -/
def sliceOp (s : State) (a : Nat) (x : Slice) (f : Fam) : Option Nat :=
  if famPlain f then some 0x0205 else (resolve s a x.handle).bind (fun r => streamOp r.2.2.2)

/-- Parse the payload of a frame. -/
def streamReq (s : State) (a : Nat) (x : Slice) (p : Bytes) : Option StreamReq :=
  match famOf x.mech with
  | none => none
  | some f =>
    let body := if x.region.isSome then p.drop 8 else p
    let op := (sliceOp s a x f).getD 0x0201
    let n := streamHead f op body
    if (x.region.isSome ∧ (p.length < 8 ∨ 2 ^ 40 ≤ fld p 0 8)) ∨ body.length < n then none
    else
      (prmOf f op 0 (streamParam f op body)).map (fun q =>
        { offset := if x.region.isSome then fld p 0 8 else 0, op := op
          keyed := { req := { handle := x.handle, mech := x.mech, pre := false, keyBits := 0
                              param := streamParam f op body, data := body.drop n }
                     fam := f, prm := q, cls := .d0 } })

/-- Length of the result that a mode produces (R84). -/
def streamLen (r : StreamReq) : Nat :=
  let n := r.keyed.req.data.length
  let t := r.keyed.prm.tagLen
  match r.keyed.fam with
  | .gcm => if r.op = 0x0201 then n + 12 + t else n
  | .ccm => if r.op = 0x0201 then n + 12 + t else n
  | .gmac => if r.op = 0x0203 then t + 12 else 0
  | .cmac => if r.op = 0x0203 then t else 0
  | .hmac _ => if r.op = 0x0203 then t else 0
  | .hash h => Config.hashLen h
  | .shake _ => r.keyed.prm.outLen
  | _ => n

/-! ### Admission (R80, R81, R164) -/

/-- A slice's bucket of depth 1 ms; a rate of 0 is no quota (log 20). -/
def sliceBucket (now rate tok at_ : Nat) : Nat := (bucketNow now 1 { rate := rate, tokens := tok, at_ := at_ }).tokens

/-- Whether a slice's quotas hold a frame of `n` bytes. -/
def sliceTokens (now : Nat) (x : Slice) (n : Nat) : Bool :=
  (x.frameRate == 0 || decide (10 ^ 9 ≤ sliceBucket now x.frameRate x.frameTok x.tokAt))
    && (x.byteRate == 0 || decide (n * 10 ^ 9 ≤ sliceBucket now x.byteRate x.byteTok x.tokAt))

/-- Take them. -/
def takeSlice (now : Nat) (x : Slice) (n : Nat) : Slice :=
  { x with frameTok := sliceBucket now x.frameRate x.frameTok x.tokAt - 10 ^ 9
           byteTok := sliceBucket now x.byteRate x.byteTok x.tokAt - n * 10 ^ 9, tokAt := now }

/-- What admission needs of a stream; the use of a face that journals each is a mutation (R143, R209). -/
def streamPlan (s : State) (a : Nat) (r : StreamReq) : Plan :=
  usePlan s a [r.keyed.req.handle] { plainPlan .d0 (streamLen r) with steps := keyedSteps r.op r.keyed }

/-- The status that refuses a frame of a slice, if any (DEDUCED, log 45). -/
def streamRefused (s : State) (a n : Nat) (x : Slice) (r : StreamReq) : Option Nat :=
  let d := domainOf s a
  let pl := streamPlan s a r
  let costs := costsOf s pl.steps pl.record.isSome
  if (x.region.map (fun g => decide (g.2.1 < r.offset + streamLen r))).getD false then some stInput
  else if sliceTokens s.time x n = false ∨ tokensHeld s d 0 1 = false ∨ tokensHeld s d 6 n = false
      ∨ roomFits s a pl.out = false ∨ costs.all (shareFits s a .d0) = false then some stBusyQuota
  else if controlFits s a pl = false ∨ wingsAdmit s .d0 costs = false then some stBusyClass
  else none

/-- A refused frame: its `STREAM_RESULT` carries the status. -/
def refuseStream (s : State) (a : Nat) (x : Session) (d : Datagram) (st : Nat) : State :=
  addComp (countRefusal s a st)
    { sid := x.sid, alcove := a, session := d.hdr.session, seq := 0, queue := 0, opcode := 0, status := st, payload := []
      gen := ((alc s a).map (fun y => y.gen)).getD 0, sublink := d.sublink, prio := d.prio, event := false
      replay := false, truncated := false, declLen := 0, work := none, meters := []
      stream := some (d.hdr.seq % 2 ^ 20), pktNum := d.hdr.pktNum, tagged := true }

/-- The work of an accepted frame. -/
def streamWork (s : State) (a : Nat) (x : Session) (d : Datagram) (r : StreamReq) : Work :=
  let pl := streamPlan s a r
  { sid := x.sid, alcove := a, session := d.hdr.session, seq := 0, queue := 0, opcode := r.op, payload := d.data
    gen := ((alc s a).map (fun y => y.gen)).getD 0, cls := .d0, accepted := s.time, deadline := s.time + promiseNs .d0
    role := x.role, key := x.key, event := false, sublink := d.sublink, prio := d.prio, stream := some d.hdr.seq
    pktNum := d.hdr.pktNum, room := pl.out, costs := costsOf s pl.steps pl.record.isSome, longJobs := 0, wingWork := true
    waited := false, part := 0, carry := none, slots := [], task := none, stage := .ready }

/-! ### Execution -/

/-- `OUT` and `AUX` of a stream result, one after the other. -/
def streamOut (out aux : Bytes) : Bytes := out ++ aux

/-- An accepted frame executes at once: check 7 on its face, and its operation. One whose face must first
commit a mark waits for it (R207). -/
def runStream (s : State) (w : Nat) : State :=
  match wrk s w with
  | none => s
  | some k =>
    if k.stage ≠ .ready then s
    else
      match k.stream.bind (fun pid => tget s.net.slices (sliceKey k.alcove pid)) with
      | none => if k.stream.isSome then failWork s w stFormat else s
      | some x =>
        match streamReq s k.alcove x k.payload with
        | none => failWork s w stFormat
        | some r =>
          if famPlain r.keyed.fam then
            let o := symDo r.keyed.fam 0x0205 r.keyed.prm [] [] r.keyed.req.data
            if mayIssue s .hash w [] = false then s
            else
            issueOp s w k .hash [] none r.offset
              (plainResult o.1 (streamOut o.2.1 o.2.2) (symMeters .hash r.keyed.req.data.length))
          else
            withFace s w k x.handle false (streamServes r.keyed.fam) (fun slot n sec face =>
              issueSym s w k r.op r.keyed.fam r.keyed.prm r.keyed.req.data slot n sec face r.offset streamOut)

/-- Frames that wait for a mark run again. -/
def rerunStreams (s : State) : State :=
  (tkeys s.net.work).foldl (fun s w =>
    if ((wrk s w).map (fun k => k.stream.isSome)).getD false then runStream s w else s) s

/-- Accept a frame. -/
def acceptStream (s : State) (a : Nat) (x : Session) (d : Datagram) (r : StreamReq) : State :=
  let n := d.data.length
  let dm := domainOf s a
  let k := streamWork s a x d r
  let w := s.net.nextWork
  let s := takeTokens (takeTokens s dm 0 1) dm 6 n
  let s := { s with net := { s.net with
    slices := tmod s.net.slices (sliceKey a d.hdr.seq) (fun y => takeSlice s.time y n)
    work := tput s.net.work w k, nextWork := w + 1 } }
  runStream (perfAdd (alcCount (alcCount s a 6 1) a 7 n) 18 0x50 1) w

/-- A `STREAM` frame of an open session. -/
def streamFrame (s : State) (a : Nat) (x : Session) (d : Datagram) : State :=
  if streamOk d = false then refuseStream s a x d stFormat
  else
    match tget s.net.slices (sliceKey a d.hdr.seq) with
    | none => refuseStream s a x d stFormat
    | some y =>
      if y.suspended then refuseStream s a x d stDeniedAttr
      else
        match streamReq s a y d.data with
        | none => refuseStream s a x d stFormat
        | some r =>
          match streamRefused s a d.data.length y r with
          | some st => refuseStream s a x d st
          | none => acceptStream s a x d r

/-- `STREAM` (R81). -/
def execStream (d : Datagram) (s : State) : Out :=
  .next (if d.hdr.type ≠ 3 then s
    else
      match authFrame (regionFills s d) d with
      | .error s => s
      | .ok (a, x, s) => streamFrame s a ((sess s a d.hdr.session).getD x) d)

/-! ### Results -/

/-- `STREAM_RESULT_READY` (R83, R87, R95), for the completion numbered `op`. -/
def execStreamResultReady (op : Nat) (s : State) : Out := .next (streamReady s op)

end Sys2Proof.Machine
end

