-- ==== Sys2Proof/Machine/ConfigApply.lean ====
section
/-! DEFINITION. What the sections of a configuration image set: at a start, and when a live load applies
them (R532, R238, R550, R616), with the values that wait for the next admission epoch. -/

namespace Sys2Proof.Machine

/-! ### The running set -/

/-- The home side of an alcove (R549). -/
def homeOf (s : State) (a : Nat) : Nat := tgetD s.twin.homes a 0

/-- Whether this side serves an alcove: every one when unpaired or alone, else its own homes; alcove 0 always
(R551, R558, R562). -/
def servesHere (s : State) (a : Nat) : Bool :=
  a == 0 || (match s.twin.state with
    | .unpaired => true
    | .survivor => true
    | .joined => homeOf s a == s.twin.side
    | .joining => false
    | .held => false
    | .yielded => false)

/-- The settings of section 2 for a side (R551). -/
def setsIn (c : Config8) (side : Nat) : List AlcoveSettings :=
  (alcovesIn (secItems c 2)).map (fun x => if x.alcove = 0 then (alcoveZero c side).getD x else x)

/-- Whether an alcove's identity changes, so that it is reset (R532, R661). -/
def identChanged (x y : AlcoveSettings) : Bool :=
  x.mac != y.mac || x.vlan != y.vlan || x.udp != y.udp || x.ipv4 != y.ipv4 || x.ipv6a != y.ipv6a || x.ipv6b != y.ipv6b

/-- Settings whose identity is new and whose other fields are still the old ones. -/
def withIdent (old new : AlcoveSettings) : AlcoveSettings :=
  { old with mac := new.mac, vlan := new.vlan, udp := new.udp, ipv4 := new.ipv4, ipv6a := new.ipv6a, ipv6b := new.ipv6b }

/-- Keys of an alcove that a section or `ALCOVE_CONFIGURE` leaves: clients and the gallery manager. -/
def keptKeys (x : Alcove) : List (Bytes × Role) := x.keys.filter (fun k => k.2 == .client || k.2 == .galleryManager)

/-- An alcove joins the running set and opens at generation 0 (R661). -/
def createAlcove (s : State) (set : AlcoveSettings) (keys : List (Bytes × Role)) (cmd : Bool) : State :=
  if servesHere s set.alcove then
    mirrorAlcove (openAlcove (putAlc s set.alcove { alcoveFresh set with keys := keys, fromCmd := cmd }) set.alcove) set.alcove
  else
    let r : AlcoveRecord := { set := set, gen := 0, slices := [], qps := [] }
    { s with twin := { s.twin with
      alcoves := tput s.twin.alcoves set.alcove r, mirrorKeys := tput s.twin.mirrorKeys set.alcove keys } }

/-- An alcove takes new settings: a changed identity at once with a reset, the other fields at the next epoch
(R532, R661). The flag says whether it resets. -/
def changeAlcove (s : State) (a : Nat) (x : Alcove) (set : AlcoveSettings) (cmd : Bool) : State × Bool :=
  let s := modAlc s a (fun y => { y with setNext := some set, fromCmd := cmd })
  if identChanged x.set set then
    (resetAlcove (modAlc s a (fun y => { y with set := withIdent y.set set })) a none, true)
  else (s, false)

/-! ### Live application (R532) -/

/-- What a load has begun and waits for: alcoves in reset or removal. -/
abbrev Applied := State × List Nat

/-- Breakouts of a load: the first port that changes is drained, its completions leave by the other port, and
it takes the new breakout with its links down; a second one waits until the first has a link up (R33, R137,
R532). -/
def applyBreakout (s : State) (l : List (Nat × Bytes)) : State :=
  let a := breakoutOf l 0
  let b := breakoutOf l 1
  let take := fun (s : State) (p n : Nat) =>
    modPort s p (fun x => { x with breakout := n, breakNext := none, up := [false, false, false, false] })
  let chA : Bool := s.net.portA.breakout != a
  let chB : Bool := s.net.portB.breakout != b
  if chA then
    let s := take s 0 a
    if chB then modPort s 1 (fun x => { x with breakNext := some b }) else s
  else if chB then take s 1 b
  else s

/-- The other items of section 1. -/
def takePorts (s : State) (l : List (Nat × Bytes)) : State :=
  let v := firstOf l 0x0102 (zeros 4)
  { s with net := { s.net with
      ptpDomain := fld v 0 1, ptpPort := fld v 1 1, ptpSource := fld v 2 1
      icmp := fld (firstOf l 0x0103 [0]) 0 1 == 1, mgmtVlan := fld (firstOf l 0x0104 [0, 0]) 0 2 } }

/-- One alcove of a load of section 2. -/
def loadAlcove (c : Config8) (r : Applied) (set : AlcoveSettings) : Applied :=
  let a := set.alcove
  let keys := keysIn (secItems c 2) a
  match alc r.1 a with
  | none => (createAlcove r.1 set keys false, r.2)
  | some x =>
    let y := changeAlcove r.1 a x set false
    (putKeys y.1 a (keptKeys x ++ keys), if y.2 then r.2 ++ [a] else r.2)

/-- Section 2: the running set becomes the section's (R532). -/
def applyAlcoves (s : State) (c : Config8) : Applied :=
  let sets := setsIn c s.twin.side
  let gone := (tkeys s.net.alcoves).filter (fun a => !sets.any (fun x => x.alcove == a))
  let s := recordAlone s 0 (.alcovesLoad (sets.map (fun x => x.alcove)))
  let stays := fun (a : Nat) => sets.any (fun x => x.alcove == a)
  let s := { s with
    twin := { s.twin with alcoves := tfilter s.twin.alcoves (fun a _ => stays a)
                          mirrorKeys := tfilter s.twin.mirrorKeys (fun a _ => stays a)
                          mirrorProof := tfilter s.twin.mirrorProof (fun a _ => stays a) } }
  let s := gone.foldl beginRemove s
  let s := { s with twin := { s.twin with alcoves := tmap s.twin.alcoves (fun a e =>
    { e with set := (sets.find? (fun x => x.alcove == a)).getD e.set }) } }
  (sets.filter (fun x => !thas s.twin.alcoves x.alcove)).foldl (loadAlcove c) (s, gone)

/-- Whether an item gives a domain the set, threshold and window that it has. -/
def sameSet (x : Domain) (v : Bytes) : Bool :=
  let y := takeDomain x v
  y.set == x.set && y.threshold == x.threshold && y.window == x.window

/-- The set of a domain without a root becomes the section's, with a new epoch (R216). -/
def takeSet (s : State) (v : Bytes) : State :=
  let d := fld v 0 2
  if (domD s d).root.isNone ∧ sameSet (domD s d) v = false then
    setDom s d (fun x => { takeDomain x v with epoch := x.epoch + 1 })
  else s

/-- One item of section 3: the set, and the quota as a mutation of the domain (R238). -/
def applyDomain (s : State) (v : Bytes) : State :=
  let d := fld v 0 2
  let s := takeSet s v
  if d = 0 then s else mutateAlone s d 0 (.quota (quotaOf v) [])

/-- The values of section 4 that the next epoch takes (R141, R159). -/
def costsNext (b : Boot) (l : List (Nat × Bytes)) : Boot :=
  let r := firstOf l 0x0402 [1, 1]
  { b with marginNext := fld (firstOf l 0x0401 (be 2 100)) 0 2, resNext := (fld r 0 1, fld r 1 1) }

/-- The frame-pool partition (R165). -/
def takePool (s : State) (l : List (Nat × Bytes)) : State :=
  let v := firstOf l 0x0403 [8, 8]
  modPort (modPort s 0 (fun p => { p with region := fld v 0 1 })) 1 (fun p => { p with region := fld v 1 1 })

/-- The setting of a soft monitor in section 5, or its default (R433, R435). -/
def monIn (l : List (Nat × Bytes)) (n : Nat) : Word :=
  match (tagged l 0x0501).find? (fun v => fld v 0 1 == n) with
  | some v => monWord v
  | none => ((tget tamperReset.mons n).map (fun m => m.set)).getD 0

/-- Section 5: the settings, committed together, the test interval and the restart time (R435, R440, R502). -/
def takeTamper (s : State) (l : List (Nat × Bytes)) : State :=
  { s with
    tamper := { s.tamper with
      mons := tmap s.tamper.mons (fun n m => { m with set := monIn l n, shadow := monIn l n })
      interval := fld (firstOf l 0x0502 (be 4 60)) 0 4 }
    fc := { s.fc with restart := fld (firstOf l 0x0503 [0, 0]) 0 2 } }

/-- Home sides that section 6 names. -/
def homesIn (l : List (Nat × Bytes)) : Tab Nat :=
  (tagged l 0x0603).foldl (fun t v => if fld v 2 1 = 0 then t else tput t (fld v 0 2) (fld v 2 1)) []

/-- The sequencing side that section 6 gives a domain. -/
def seqSideIn (l : List (Nat × Bytes)) (d : Nat) : Nat :=
  (((tagged l 0x0604).find? (fun v => fld v 0 2 == d)).map (fun v => fld v 2 1)).getD 0

/-- The items of section 6 that apply at once: authority, homes, fail-back time, manager address and, while
unpaired, the partner (R237, R550). A sequencer that changes waits for its domain (R550). -/
def takeTwin (s : State) (l : List (Nat × Bytes)) : State :=
  { s with
    boot := { s.boot with authority := authorityIn l }
    twin := { s.twin with homes := homesIn l, failback := fld (firstOf l 0x0606 (be 2 10)) 0 2
                          partnerId := (tagged l 0x0602).head? }
    gallery := { s.gallery with mgrAddr := firstOf l 0x0608 [] }
    keys := { s.keys with domains := tmap s.keys.domains (fun d x =>
      { x with nextSide := if seqSideIn l d = x.sequencer then none else some (seqSideIn l d) }) } }

/-- The selects of section 7: a counter without an item selects 0x00 (R622). -/
def selectsIn (l : List (Nat × Bytes)) : Tab Word :=
  (tagged l 0x0702).foldl (fun t v => tput t (selIndex v) (selWord v)) []

/-- Section 7: interval and selects for the next strobe (R616, R622). -/
def countersNext (p : Perf) (l : List (Nat × Bytes)) : Perf :=
  let new := selectsIn l
  { p with intNext := fld (firstOf l 0x0701 (be 4 100000)) 0 4
           selNext := (p.sel.map (·.1)).foldl (fun t k => if thas new k then t else tput t k 0) new }

/-- One named section of a load, in its turn. -/
def applySection (c : Config8) (r : Applied) (n : Nat) : Applied :=
  let s := r.1
  let l := secItems c n
  let wait := fun (s : State) => { s with boot := { s.boot with secNext := s.boot.secNext ++ [n] } }
  if n = 1 then (wait (applyBreakout s l), r.2)
  else if n = 2 then
    (let x := applyAlcoves s c
     (wait x.1, r.2 ++ x.2))
  else if n = 3 then ((tagged l 0x0301).foldl applyDomain s, r.2)
  else if n = 4 then (wait (takePool { s with boot := costsNext s.boot l } l), r.2)
  else if n = 5 then (takeTamper s l, r.2)
  else if n = 6 then
    (let s := takeTwin s l
     match (setsIn c s.twin.side).find? (fun x => x.alcove == 0), alc s 0 with
     | some set, some x =>
       (let y := if s.twin.side = 1 ∧ identChanged x.set set then changeAlcove s 0 x set x.fromCmd else (s, false)
        (y.1, if y.2 then r.2 ++ [0] else r.2))
     | _, _ => (s, r.2))
  else if n = 7 then (modPerf s (fun p => countersNext p l), r.2)
  else r

/-- Apply the named sections in ascending order. -/
def applySections (s : State) (named : List Nat) : Applied := named.foldl (applySection (cfgSlot s)) (s, [])

/-- The next epoch takes the items of section 1 that waited (R532). -/
def takeWaiting (s : State) : State :=
  let s := if s.boot.secNext.contains 1 then takePorts s (secItems (cfgSlot s) 1) else s
  { s with boot := { s.boot with secNext := [] } }

/-! ### The end of a load -/

/-- Whether an alcove is still in the reset or removal that a load began. -/
def alcoveBusy (s : State) (a : Nat) : Bool := ((alc s a).map (fun x => x.resetting || x.removing)).getD false

/-- Whether everything that a load began has applied (R532). -/
def loadApplied (s : State) (l : List Nat) : Bool :=
  s.boot.secNext.isEmpty && s.net.portA.breakNext.isNone && s.net.portB.breakNext.isNone
    && l.all (fun a => !alcoveBusy s a) && s.perf.selNext.isEmpty && s.perf.intNext == s.perf.interval
    && !s.keys.domains.any (fun e => e.2.pending.any (fun m => m.work.isNone && mutKind m.body == .quota))

/-- Response of a `SECTION_LOAD` (R530). -/
def loadResponse (s : State) : Bytes := be 4 (headSerial (cfgSlot s).head) ++ zeros 4 ++ configDigest s

/-- Loads complete once the last of their sections has applied; in `RECOVERY` the device then restarts
(R529, R532) (DEDUCED, log 67). -/
def settleLoads (s : State) : State :=
  (tkeys s.net.work).foldl (fun s w =>
    match wrk s w with
    | some k =>
      (match k.stage with
        | .waitEpoch 0 _ l =>
          if k.opcode = 0x0A04 ∧ loadApplied s l then
            let s := okWork s w (loadResponse s)
            if s.fc.service = .recovery then
              { s with boot := { s.boot with
                resetAt := some (s.time + 10 ^ 7), attempt := { s.boot.attempt with fails := 0, hard := 0 } } }
            else s
          else s
        | _ => s)
    | none => s) s

end Sys2Proof.Machine
end

