-- ==== Sys2Proof/Machine/Digest.lean ====
section
/-! DEFINITION. The digest unit (R349 to R364). -/

namespace Sys2Proof.Machine

def modDu (s : State) (f : Digest → Digest) : State := { s with digest := f s.digest }

/-- An operation is open while `STATE` is 1 or 2 (R351). -/
def duIsOpen (d : Digest) : Bool := d.state == .open_ || d.state == .final

/-- Codes of `DU_STATUS.STATE`. -/
def duCode : DuState → Nat
  | .idle => 0
  | .open_ => 1
  | .final => 2
  | .done => 3
  | .lenMismatch => 4
  | .fault => 5

/-- Sixteen result words of a digest, zero beyond its size. -/
def resultWords (h : Bytes) : List Word :=
  (List.range 16).map (fun i => w32 (beNat (slice (h ++ zeros 64) (4 * i) 4)))

/-- The flags of the two comparators in each state (R361). -/
def duFlags (d : Digest) : Digest :=
  match d.state with
  | .idle => { d with match_ := 0, matchN := 0 }
  | .open_ => { d with match_ := 0, matchN := 0 }
  | .final => { d with match_ := 0, matchN := 0 }
  | .done =>
    let n := Config.hashLen d.opAlgo / 4
    if d.result.take n = d.expect.take n then { d with match_ := 0xA5, matchN := 0x5A }
    else { d with match_ := 0x5A, matchN := 0xA5 }
  | .lenMismatch => { d with match_ := 0x5A, matchN := 0xA5 }
  | .fault => { d with match_ := 0x5A, matchN := 0xA5 }

/-- Zeroisation of R359: buffer, hash state, key registers and results. -/
def duZero (d : Digest) : Digest :=
  { d with msg := [], words := 0, opKey := [], keys := List.replicate 34 0
           result := List.replicate 16 0, busy := false }

/-- End the open operation in a state, zeroised. -/
def duEnd (d : Digest) (st : DuState) : Digest := duFlags { duZero d with state := st }

/-- The reset of the unit in a hand-over (R350). -/
def duHandReset (d : Digest) : Digest :=
  duFlags { duZero d with state := .idle, expect := List.replicate 16 0 }

/-- The latched HMAC key; a key longer than the block size, which FIPS 198-1 and the spec have hashed
first, leaves the key a free value. -/
def duKey (s : State) : Bytes :=
  let d := s.digest
  if Config.hashBlock d.algo < d.keyLen then drawn s 64
  else (d.keys.flatMap (fun w => be 4 w.toNat)).take d.keyLen

/-- The four bytes of a data word, lowest message offset in [31:24] (R351). -/
def wordBytes (v : Word) : Bytes := be 4 v.toNat

/-! ### Writes -/

/-- An operation opens with a declared length (R352, R353). -/
def duOpen_ (s : State) (hi v : Word) : State :=
  let d := s.digest
  let len := hi.toNat % 256 * 2 ^ 32 + v.toNat
  let key := if d.hmac then duKey s else []
  let s := if d.hmac ∧ Config.hashBlock d.algo < d.keyLen then useFree s 64 else s
  wrOk { s with digest := duFlags { d with
    lenLo := v, lenHi := BitVec.ofNat 8 hi.toNat, opAlgo := d.algo, opHmac := d.hmac, opKey := key, opLen := len
    words := 0, msg := [], state := if len = 0 then .final else .open_, busy := d.hmac || len == 0 } }

/-- `DU_LEN_LO` (R352, R353, R358). The write ends the hold of `DU_LEN_HI` whatever becomes of it (R6, R351); one that
is answered with an error leaves the registers as they stand (DEDUCED, log 53). -/
def duLenLo (s : State) (m : Nat) (v : Word) : State :=
  commitPair s m 0x4000C s.digest.lenHi.toNat (fun s hi =>
    if duIsOpen s.digest then busErr (modDu s (fun d => duEnd d .lenMismatch))
    else if 5 ≤ s.digest.algo then busErr s
    else duOpen_ s (w32 hi) v)

/-- `DU_DATA` (R354 to R356, R358). -/
def duData (s : State) (v : Word) : State :=
  let d := s.digest
  if duIsOpen d = false then busErr (modDu s (fun d => { d with err := setBit d.err 1 }))
  else if d.busy then busErr (modDu s (fun d => { d with err := setBit d.err 0 }))
  else if d.opLen ≤ 4 * (d.words + 1) then wrOk (modDu s (fun d => duEnd d .lenMismatch))
  else
    wrOk (modDu s (fun d =>
      { d with msg := d.msg ++ wordBytes v, words := d.words + 1
               busy := 4 * (d.words + 1) % Config.hashBlock d.opAlgo == 0 }))

/-- `DU_LAST` (R355 to R358). -/
def duLast (s : State) (v : Word) : State :=
  let d := s.digest
  if duIsOpen d = false then busErr (modDu s (fun d => { d with err := setBit d.err 1 }))
  else if d.busy then busErr (modDu s (fun d => { d with err := setBit d.err 0 }))
  else if d.lastB = 0 ∨ 4 < d.lastB ∨ 4 * d.words + d.lastB ≠ d.opLen then
    wrOk (modDu s (fun d => duEnd d .lenMismatch))
  else
    wrOk (modDu s (fun d =>
      { d with msg := d.msg ++ (wordBytes v).take d.lastB, state := .final, busy := true }))

/-- `ABORT` written as 1 (R358): it ends an open operation and does nothing otherwise. -/
def duAbort (s : State) : State :=
  if duIsOpen s.digest then modDu s (fun d => duEnd d .lenMismatch) else s

/-- `DU_CTRL`: the static fields while no operation is open, and `ABORT`. A write that carries the static
fields as they stand is no write of them (DEDUCED, log 53). -/
def duCtrl (s : State) (m : Nat) (v : Word) : State :=
  let algo := bitsOf v.toNat 2 0
  let hm := bitOf v.toNat 4
  let changes := algo != s.digest.algo || hm != s.digest.hmac
  let wasOpen := duIsOpen s.digest
  let s := if bitOf v.toNat 8 then duAbort s else s
  if wasOpen then (if changes then staticErr s 8 0x40000 m else wrOk s)
  else wrOk (modDu s (fun d => { d with algo := algo, hmac := hm }))

/-- A static register: written while no operation is open (R9). -/
def duStatic (s : State) (m addr : Nat) (f : Digest → Digest) : State :=
  if duIsOpen s.digest then staticErr s 8 addr m else wrOk (modDu s f)


/-- `PARITY` fires (R364). -/
def duParity (s : State) : State :=
  let s := modDu s (fun d =>
    let d := { d with err := setBit d.err 3 }
    if duIsOpen d then duEnd d .fault else duFlags (duZero d))
  pulse s 8 .degrade

/-- `CMP` (R363): the flags keep the pair that the comparators produced. -/
def duCmp (s : State) : State := pulse (modDu s (fun d => { d with err := setBit d.err 2 })) 8 .degrade

/-- Whether the table of R361 has a pair of flags for `DONE`. -/
def duPairOk (p : Nat × Nat) : Bool := p == (0xA5, 0x5A) || p == (0x5A, 0xA5)

/-- What the comparators form in `DONE`: the pair of R361, or one that a disturbed comparator gives, which the flags
keep while `CMP` fires (R363). -/
def duCompare (s : State) (pair : Option (Nat × Nat)) : State :=
  if s.digest.state = .done then
    match pair.filter (fun p => !duPairOk p) with
    | some p => duCmp (modDu s (fun d => { d with match_ := BitVec.ofNat 8 p.1, matchN := BitVec.ofNat 8 p.2 }))
    | none => modDu s duFlags
  else s

/-- `DU_EXPECT_n` (R361): while `DONE`, the comparators follow. -/
def duExpect (s : State) (n : Nat) (v : Word) (pair : Option (Nat × Nat)) : State :=
  wrOk (duCompare (modDu s (fun d => { d with expect := d.expect.set n v })) pair)

/-- `DU_ERR_FORCE`: each source once, with its full response. -/
def duForce (s : State) (v : Word) : State :=
  let s := if bitOf v.toNat 0 then modDu s (fun d => { d with err := setBit d.err 0 }) else s
  let s := if bitOf v.toNat 1 then modDu s (fun d => { d with err := setBit d.err 1 }) else s
  let s := if bitOf v.toNat 2 then duCmp s else s
  wrOk (if bitOf v.toNat 3 then duParity s else s)

/-- `DU_STATUS`. -/
def duStatus (s : State) : Word :=
  pack [(duCode s.digest.state, 0), (b2n s.digest.busy, 3), (b2n (ownerOf s 11 == .outer), 8)]

/-- Reads of the window (R351). -/
def duRead (s : State) (off : Nat) : Option Word :=
  let d := s.digest
  if off = 0x000 then some (pack [(d.algo, 0), (b2n d.hmac, 4)])
  else if off = 0x004 then some (duStatus s)
  else if off = 0x008 then some d.lenLo
  else if off = 0x00C then some (w32 d.lenHi.toNat)
  else if off = 0x010 ∨ off = 0x018 then some 0
  else if off = 0x014 then some (w32 d.lastB)
  else if off = 0x01C then some (w32 d.keyLen)
  else if off % 4 ≠ 0 then none
  else if 0x040 ≤ off ∧ off ≤ 0x07C then some (d.result.getD ((off - 0x040) / 4) 0)
  else if 0x080 ≤ off ∧ off ≤ 0x0BC then some (d.expect.getD ((off - 0x080) / 4) 0)
  else if off = 0x0C0 then some (w32 d.match_.toNat)
  else if off = 0x0C4 then some (w32 d.matchN.toNat)
  else if off = 0x0E0 then some (w32 d.err.toNat)
  else if off = 0x0E4 then some 0
  else if 0x100 ≤ off ∧ off ≤ 0x184 then some 0
  else none

/-- Writes of the window (R351); none where no register lies. `DU_LEN_HI` is held (R6). -/
def duWrite (s : State) (m off : Nat) (v : Word) : Option State :=
  let n := v.toNat
  if off = 0x000 then some (duCtrl s m v)
  else if off = 0x008 then some (duLenLo s m v)
  else if off = 0x00C then
    some (wrOk (holdHi s m 0x4000C (w32 (n % 256))))
  else if off = 0x010 then some (duData s v)
  else if off = 0x014 then some (wrOk (modDu s (fun d => { d with lastB := bitsOf n 2 0 })))
  else if off = 0x018 then some (duLast s v)
  else if off = 0x01C then some (duStatic s m 0x4001C (fun d => { d with keyLen := n % 256 }))
  else if off % 4 ≠ 0 then none
  else if off = 0x004 ∨ (0x040 ≤ off ∧ off ≤ 0x07C) ∨ off = 0x0C0 ∨ off = 0x0C4 then some (wrOk s)
  else if 0x080 ≤ off ∧ off ≤ 0x0BC then some (duExpect s ((off - 0x080) / 4) v none)
  else if off = 0x0E0 then some (wrOk (modDu s (fun d => { d with err := w1c d.err n })))
  else if off = 0x0E4 then some (duForce s v)
  else if 0x100 ≤ off ∧ off ≤ 0x184 then
    some (duStatic s m (0x40000 + off) (fun d => { d with keys := d.keys.set ((off - 0x100) / 4) v }))
  else none

/-! ### The commands -/

/-- `DU_LEN_LO_WRITE` (R352). -/
def execDuLenLoWrite (master : Nat) (value : Word) (s : State) : Out :=
  .next (writeAs s master 0x40008 (fun s => duLenLo s master value))

/-- `DU_DATA_WRITE` (R354). -/
def execDuDataWrite (master : Nat) (value : Word) (s : State) : Out :=
  .next (writeAs s master 0x40010 (fun s => duData s value))

/-- `DU_LAST_WRITE` (R357). -/
def execDuLastWrite (master : Nat) (value : Word) (s : State) : Out :=
  .next (writeAs s master 0x40018 (fun s => duLast s value))

/-- `DU_ABORT` (R358): `ABORT` written as 1, the other fields of `DU_CTRL` as they stand. A word that reaches the unit
in the same cycle is dropped: it neither counts nor sets `IDLE_WRITE` (R360). -/
def execDuAbort (master : Nat) (s : State) (_word : Option Word := none) : Out :=
  .next (writeAs s master 0x40000 (fun s => wrOk (duAbort s)))

/-- `DU_BLOCK_COMPRESSED` (R354): the block under compression ends, and `BUSY` clears. The compressions of
`FINAL` end with the result (R357). -/
def execDuBlockCompressed (s : State) : Out :=
  .next (if s.digest.state = .open_ then modDu s (fun d => { d with busy := false }) else s)

/-- `DU_FINAL_DONE` (R357, R361, R363): the result is in `DU_RESULT_n` and the keys are zeroised. -/
def execDuFinalDone (s : State) (pair : Option (Nat × Nat) := none) : Out :=
  .next (if s.digest.state = .final then
    duCompare (modDu s (fun d =>
      let h := if d.opHmac then Config.hmac d.opAlgo d.opKey d.msg else Config.hash d.opAlgo d.msg
      { d with state := .done, busy := false, result := resultWords h, msg := []
               opKey := [], keys := List.replicate 34 0 })) pair
    else s)

/-- `DU_EXPECT_WRITE` (R361, R363). -/
def execDuExpectWrite (master n : Nat) (value : Word) (s : State) (pair : Option (Nat × Nat) := none) : Out :=
  .next (writeAs s master (0x40080 + 4 * (n % 16)) (fun s => duExpect s (n % 16) value pair))

/-- `DU_ERR_FORCE` (R364). -/
def execDuErrForce (master : Nat) (value : Word) (s : State) : Out :=
  .next (writeAs s master 0x400E4 (fun s => duForce s value))

/-- `DU_PARITY_FIRE` (R364). -/
def execDuParityFire (s : State) : Out := .next (duParity s)

end Sys2Proof.Machine
end

