-- ==== Sys2Proof/Machine/Power.lean ====
section
/-! DEFINITION. Power, resets and clocks (R629 to R655), gating requests (R420, R421), and what a device
reset keeps. -/

namespace Sys2Proof.Machine

def modPower (s : State) (f : Power → Power) : State := { s with power := f s.power }

/-- The combining buffers drain into the totals (R591). -/
def drainAll (s : State) : State := modTally s (fun t => tallyDrain t.buffers.length t)

/-! ### The life-cycle word -/

/-- Groups of R458, by state code: the lowest bit and the highest. -/
def lifeGroup (c : Nat) : Nat × Nat :=
  if c = 1 then (0, 3)
  else if c = 2 then (4, 7)
  else if c = 3 then (8, 11)
  else if c = 4 then (12, 15)
  else if c = 5 then (16, 23)
  else (24, 31)

/-- Bits of a state's own group. -/
def groupBits (c : Nat) : List Nat :=
  if c = 0 then [] else (List.range 32).filter (fun i => decide ((lifeGroup c).1 ≤ i ∧ i ≤ (lifeGroup c).2))

/-- The pattern of a state (R458). -/
def lifePattern (c : Nat) : Word :=
  w32 (sumNat ((List.range 7).map (fun k => if k ≤ c then sumNat ((groupBits k).map (fun i => 2 ^ i)) else 0)))

/-- Whether a group of a copy is complete, and whether it has a bit set. -/
def groupFull (w : Word) (c : Nat) : Bool := (groupBits c).all (fun i => w.getLsbD i)
def groupAny (w : Word) (c : Nat) : Bool := (groupBits c).any (fun i => w.getLsbD i)

/-- The state code to which a copy decodes, or 7 when it is invalid (R459, R481). -/
def decodeCopy (w : Word) : Nat :=
  let c := (([6, 5, 4, 3, 2, 1] : List Nat).find? (groupFull w)).getD 0
  if 2 ≤ (([1, 2, 3, 4, 5, 6] : List Nat).filter (fun g => decide (c < g) && groupAny w g)).length then 7 else c

/-- The life-cycle state of a code. -/
def lifeOf (c : Nat) : Life :=
  if c = 0 then .blank
  else if c = 1 then .vendor
  else if c = 2 then .transit
  else if c = 3 then .commissioned
  else if c = 4 then .inService
  else if c = 5 then .return
  else .scrapped

/-- The vote of the copies (R460): none when it fails. -/
def voteOf (copies : List Word) : Option Nat :=
  (List.range 7).find? (fun c => decide (2 ≤ ((copies.map decodeCopy).filter (fun x => x == c)).length))

/-- The life-cycle controller after a reset: the voted state, and the enables that `BLANK` sets (R461,
R475). -/
def lifeStart (otp : Otp) (old : LifeCycle) : LifeCycle :=
  let v := voteOf otp.copies
  { lifeReset with
    life := match v with | some c => lifeOf c | none => .scrapped
    voteFail := v.isNone, dbg := if v = some 0 then 0xF else 0, comKey := old.comKey
    tapInstr := old.tapInstr, boundary := old.boundary }

/-! ### Device resets (R586, R636) -/

/-- Outcome of an attempt word (R524). -/
def outcomeOf (w : Word) : Nat := bitsOf w.toNat 27 24

/-- The attempt record when a reset ends a start (R502, R513, R524): a start that served and ended in `SAFE` has
outcome 5, one that ended in `TAMPERED` outcome 7. -/
def endAttempt (s : State) : Attempt :=
  let a := s.boot.attempt
  let o := outcomeOf (a.words.getD a.newest 0)
  let set := fun (o : Nat) =>
    { a with words := a.words.modify a.newest (fun w => (w &&& 0xF0FFFFFF) ||| w32 (o * 2 ^ 24)), seq := a.seq + 1 }
  match s.fc.service with
  | .safe => if o = 2 ∨ o = 6 then { set 5 with fails := min (a.fails + 1) 255 } else a
  | .tampered => if o = 1 ∨ o = 2 ∨ o = 6 then set 7 else a
  | _ => a

/-- The state after a reset: every block but the always-on domain and the Tally island at its reset value;
what OTP, the Archive and the battery-backed bits hold stays. -/
def afterReset (s : State) (aonKept : Bool) : State :=
  { State.reset with
    keys := { keysReset with
      snap0 := s.keys.snap0, snap1 := s.keys.snap1, current := s.keys.current, archJournal := s.keys.archJournal
      oldJournal := s.keys.oldJournal, cont0 := s.keys.cont0, cont1 := s.keys.cont1, blocks := s.keys.blocks
      refreshed := s.keys.refreshed }
    stair := { stairReset with idPub := s.stair.idPub, ledPub := s.stair.ledPub, idCert := s.stair.idCert
                               ledCert := s.stair.ledCert }
    ledger := s.ledger
    rng := { rngReset with
      aon := if aonKept then { s.rng.aon with spores := 0 } else smallReset
      tally := s.rng.tally }
    tamper := { tamperReset with cellLow := s.tamper.cellLow, cellExt := s.tamper.cellExt
                                 erased := s.tamper.erased && aonKept }
    bb := s.bb, otp := s.otp, life := lifeStart s.otp s.life
    halls := { hallsReset with archMem := s.halls.archMem }
    boot := { bootReset with
      attempt := endAttempt s, fwA := s.boot.fwA, fwB := s.boot.fwB, ucA := s.boot.ucA, ucB := s.boot.ucB
      cfgA := s.boot.cfgA, cfgB := s.boot.cfgB, stopped := s.boot.stopped }
    gallery := { galleryReset with member := s.gallery.member, number := s.gallery.number }
    twin := { twinReset with side := s.twin.strap, strap := s.twin.strap, pair := s.twin.pair }
    tally := s.tally
    power := { powerReset with cellMv := s.power.cellMv, extMv := s.power.extMv }
    fresh := s.fresh, outbox := s.outbox, pending := s.pending }

/-- Admission stops. -/
def stopAdmit (s : State) : State := { s with boot := { s.boot with admitStop := true } }

/-- An erasure in progress ends (R636 step 5): the flag is committed. -/
def finishErase (s : State) : State :=
  if s.tamper.phase = 2 then
    let s := match s.tamper.flag with
      | some i => commitFlag s i 0
      | none => s
    { s with bb := bbRewrite s.bb, tamper := { s.tamper with phase := 3, flag := none } }
  else s

/-- The steps of a device reset (R636). -/
def resetSteps (s : State) : State :=
  let s := handoverEvery (failAllWork (stopAdmit s) stDeviceSafe)
  afterReset (finishErase (persist (drainAll s))) false

/-! ### PLLs -/

/-- Bit of a PLL in `PC_STATUS`. -/
def pllBit : Pll → Nat
  | .cclk => 0
  | .kclk => 1
  | .hclk => 2
  | .mclk => 3
  | .pclkA => 4
  | .pclkB => 5
  | .lclk => 6

def pllIsCore : Pll → Bool
  | .cclk => true
  | .kclk => true
  | .hclk => true
  | .mclk => true
  | .pclkA => false
  | .pclkB => false
  | .lclk => false

def pcErr (s : State) (i : Nat) : State := modPower s (fun p => { p with err := setBit p.err i })

/-- A port goes down with all its sub-links. -/
def portDown (p : Port) : Port := { p with up := [false, false, false, false], pllOk := false }

/-- A source of `PC_ERR` fires or is forced (R630, R641, R642, R655). -/
def pcFire (s : State) (i : Nat) : State :=
  let s := pcErr s i
  if i = 0 then pulse s 3 .note
  else if i = 1 then pulse s 3 .safe
  else if i = 2 then pulse s 3 .safe
  else if i = 3 then pulse s 4 .recover
  else pulse (modPower s (fun p => { p with slow := true })) 4 .safe

/-! ### Gating (R420, R421) -/

/-- Whether a movable block is out of service or retired, as the release condition and the gating ask
(R415, R420); a block without units counts as neither. -/
def unitIdle (st : UState) : Bool := st == .out || st == .retired

def blockIdle (s : State) (n : Nat) : Bool :=
  if n ≤ 3 then s.cipher.pipes.all (fun e => e.1 / 2 != n || unitIdle e.2.state)
  else if n ≤ 9 then s.pk.cores.all (fun e => e.1 / 8 != n - 4 || unitIdle e.2.state)
  else if n = 10 then unitIdle s.cipher.legacy.state
  else false

def modBlock (s : State) (n : Nat) (f : HallBlock → HallBlock) : State :=
  { s with halls := { s.halls with blocks := tmod s.halls.blocks n f } }

/-- Zeroisation and reset of a block: at the `RESET` of its hand-over (R350, R417, R612) and after gated
power (R421). -/
def clearBlock (s : State) (n : Nat) : State :=
  if n ≤ 3 then { s with cipher := { s.cipher with bays := tput s.cipher.bays n bayReset } }
  else if n ≤ 9 then
    { s with pk := { s.pk with cores := tmap s.pk.cores (fun i c =>
      if i / 8 = n - 4 then
        { pkCoreReset with state := c.state, lost := c.lost, lostOnce := c.lostOnce, leaving := c.leaving }
      else c) } }
  else if n = 10 then { s with cipher := { s.cipher with legReg := bayReset } }
  else if n = 11 then { s with digest := { duHandReset s.digest with
    algo := 2, hmac := false, lastB := 4, keyLen := 0, lenLo := 0, lenHi := 0, err := 0 } }
  else if n ≤ 19 then { s with halls := { s.halls with timers := tput s.halls.timers (n - 12) (false, 0) } }
  else if n = 20 then { s with perf := perfHandReset s.perf }
  else s

/-- `PC_GATE_REQ` (R420). -/
def gateReq (s : State) (m action n : Nat) : State :=
  let res := fun (s : State) (st : Nat) => modPower s (fun p => { p with gate := pack [(n, 0), (m, 8), (st, 16)] })
  if action = 0 ∨ 4 ≤ action then wrOk s
  else if masterHall s m = some .outer ∧ n ≤ 21 ∧ ownerOf s n = .inner then
    wrOk (pulses (res s stDeniedHall) [{ line := 3, cls := .note, type := 2, addr := 0xA0100, master := m }])
  else if 22 ≤ n ∨ (blockIdle s n = false ∧ handState s n ≠ .free) then wrOk (res s stConflict)
  else
    let off := ((tget s.halls.blocks n).map (fun b => b.pwrOff)).getD false
    let s := res s stOk
    if action = 1 then wrOk (modBlock s n (fun b => { b with clkOff := true }))
    else if action = 2 then wrOk (modBlock s n (fun b => { b with pwrOff := true }))
    else
      let s := modBlock s n (fun b => { b with clkOff := false, pwrOff := false })
      wrOk (if off then clearBlock s n else s)

/-! ### Registers (R655) -/

def pcRead (s : State) (off : Nat) : Option Word :=
  let p := s.power
  if off = 0x000 then some (w32 (p.mv % 65536))
  else if off = 0x004 then some (pack [(p.pll.toNat, 0), (b2n p.holdup, 8)])
  else if off = 0x008 then some (pack [(p.hottest.toNat, 0), (p.coolest.toNat, 16)])
  else if off = 0x020 then some (w32 p.err.toNat)
  else if off = 0x024 ∨ off = 0x100 then some 0
  else if off = 0x104 then some p.gate
  else none

def pcForce (s : State) (v : Word) : State := wrOk ((setBits 5 v.toNat).foldl pcFire s)

def pcWrite (s : State) (m off : Nat) (v : Word) : Option State :=
  let n := v.toNat
  if off = 0x000 ∨ off = 0x004 ∨ off = 0x008 ∨ off = 0x104 then some (wrOk s)
  else if off = 0x020 then some (wrOk (modPower s (fun p => { p with err := w1c p.err n })))
  else if off = 0x024 then some (pcForce s v)
  else if off = 0x100 then some (gateReq s m (bitsOf n 9 8) (bitsOf n 4 0))
  else none

/-! ### The commands -/

/-- `PLL_PORT_UNLOCK` (R641): the port or the twin link goes down. -/
def execPllPortUnlock (p : Pll) (s : State) : Out :=
  .next (if pllIsCore p then s
    else
      let s := modPower s (fun q => { q with pll := clrBit q.pll (pllBit p) })
      let s := match p with
        | .pclkA => modPort s 0 portDown
        | .pclkB => modPort s 1 portDown
        | _ => { s with twin := { s.twin with lanes := 0 } }
      pcFire s 3)

/-- `PLL_RELOCK` (R641): the PLL is locked again, and the port or link trains. -/
def execPllRelock (p : Pll) (s : State) : Out :=
  .next (if pllIsCore p then s
    else
      let s := modPower s (fun q => { q with pll := setBit q.pll (pllBit p) })
      match p with
      | .pclkA => modPort s 0 (fun q => { q with pllOk := true })
      | .pclkB => modPort s 1 (fun q => { q with pllOk := true })
      | _ => s)

/-- `PLL_CORE_UNLOCK` (R642). -/
def execPllCoreUnlock (p : Pll) (s : State) : Out :=
  .next (if pllIsCore p then pcFire (modPower s (fun q => { q with pll := clrBit q.pll (pllBit p) })) 4 else s)

/-- `RAIL_FALL` (R633, R634, R201, R597, R501): the steps to the end of the hold-up. Promises end without
completions. -/
def execRailFall (s : State) : Out :=
  .next (if s.power.powered = false then s
    else
      let s := dropMutations (stopAdmit { s with net := { s.net with work := [], comps := [] } })
      let s := persist (drainAll s)
      let s := modTally s (fun t => { t with checkTot := t.totals, checkTime := t.time, seed := none, core := 3 })
      let s := afterReset s false
      { s with power := { s.power with powered := false, pll := 0, holdup := false }
               fc := { s.fc with faultN := none } })

/-- `RAIL_RISE` (R632, R635): the logic die leaves reset; the Tally island starts. -/
def execRailRise (mv : Nat) (s : State) : Out :=
  .next (if s.power.powered ∨ mv ≤ 11200 then s
    else
      let s := modTally (afterReset s true) (fun t => { t with seed := none, core := 0 })
      { s with power := { s.power with powered := true, holdup := true }
               boot := { s.boot with stopped := false } })

/-- `VIN_LOW` (R630): the rail stands at `mv` mV; `VIN_LOW` is set on the entry to the range. -/
def execVinLow (mv : Nat) (s : State) : Out :=
  .next (if s.power.powered = false ∨ mv < 10800 then s
    else
      let was := decide (10800 ≤ s.power.mv ∧ s.power.mv < 11400)
      let s := modPower s (fun p => { p with mv := mv })
      if mv < 11400 ∧ was = false then pcFire s 0 else s)

/-- `RESET_N_LOW` (R636, R637): a low pulse of `ns` ns. -/
def execResetNLow (ns : Nat) (s : State) : Out :=
  .next (if ns < 1000 ∨ s.power.powered = false then s
    else
      let s := resetSteps s
      { s with boot := { s.boot with stopped := false } })

/-- `SAFE_RESTART_EXPIRY` (R502). -/
def execSafeRestartExpiry (s : State) : Out :=
  .next (if s.fc.service = .safe ∧ s.fc.restart ≠ 0 ∧ s.fc.safeAt + s.fc.restart * 10 ^ 9 ≤ s.time then
    resetSteps s
  else s)

/-- `PC_GATE_CLOCK` (R420). -/
def execPcGateClock (master block : Nat) (s : State) : Out :=
  .next (writeAs s master 0xA0100 (fun s => gateReq s master 1 (block % 32)))

/-- `PC_GATE_POWER` (R420). -/
def execPcGatePower (master block : Nat) (s : State) : Out :=
  .next (writeAs s master 0xA0100 (fun s => gateReq s master 2 (block % 32)))

/-- `PC_RESTORE` (R420, R421). -/
def execPcRestore (master block : Nat) (s : State) : Out :=
  .next (writeAs s master 0xA0100 (fun s => gateReq s master 3 (block % 32)))

/-- `PC_ERR_FORCE` (R655). -/
def execPcErrForce (master : Nat) (value : Word) (s : State) : Out :=
  .next (writeAs s master 0xA0024 (fun s => pcForce s value))

end Sys2Proof.Machine
end

