-- ==== Sys2Proof/Machine/Life.lean ====
section
/-! DEFINITION. The life-cycle controller: debug enables (R473 to R476, R482), the wipes and transitions
(R463 to R472), vendor authorisation (R477 to R480), the test access port (R649) and the registers
(R481). -/

namespace Sys2Proof.Machine

def modLife (s : State) (f : LifeCycle → LifeCycle) : State := { s with life := f s.life }

/-! ### Debug enables -/

/-- The enables that the voted state allows (R473): bit 3 Inner invasive to bit 0 Outer non-invasive. -/
def lcAllowed (l : LifeCycle) : BitVec 4 :=
  if l.voteFail then 0
  else
    match l.life with
    | .blank => 0xF
    | .vendor => 0xF
    | .transit => 0
    | .commissioned => 1
    | .inService => 1
    | .return => 0xF
    | .scrapped => 0

/-- Set the enables, masked in hardware, and their expiry (R473, R476, R480). -/
def setDebug (s : State) (mask : BitVec 4) (expiry : Nat) : State :=
  modLife s (fun l => { l with dbg := mask &&& lcAllowed l, expiry := expiry })

/-! ### Errors (R481) -/

/-- A source of `LC_ERR` fires or is forced, with its full response (R462, R466, R481, R482). -/
def lcFire (s : State) (i : Nat) : State :=
  let s := modLife s (fun l => { l with err := setBit l.err i })
  if i = 0 then pulse s 1 .degrade
  else if i = 1 then pulse s 1 .note
  else if i = 2 then pulse s 1 .note
  else pulse (modLife s (fun l => { l with dbg := 0 })) 1 .safe

/-! ### Wipes (R464) -/

/-- The key store, the key archive, both configuration slots and the commissioning record. -/
def wipeStore (s : State) : State :=
  { s with
    keys := { s.keys with
      secrets := [], checks := [], freed := [], retired := [], taken := [], cache := [], pins := [], old := []
      journal := [], archJournal := [], oldJournal := [], snapping := none, snap0 := archiveReset, snap1 := archiveReset
      archive := archiveReset
      domains := tmap s.keys.domains (fun _ d =>
        { d with root := none, pending := [], tickets := [], witKey := [], domKey := [], archKey := []
                 opened := false, grantKey := [] }) }
    boot := { s.boot with cfgA := configReset, cfgB := configReset }
    life := { s.life with comKey := none } }

/-- The user wipe. The gallery index clears with it (R575). -/
def wipeUser (s : State) : State :=
  let s := wipeStore (clearVolatile s)
  { s with gallery := { s.gallery with member := none } }

/-- The full wipe up to the OTP part: every Archive partition and the battery-backed bits. The Tally core
erases its own partition. -/
def wipeFull (s : State) : State :=
  let s := wipeUser s
  { s with
    halls := { s.halls with archMem := [] }
    boot := { s.boot with attempt := attemptReset, fwA := [], fwB := [], ucA := [], ucB := [] }
    ledger := { newest := 0, entries := [], served := false }
    stair := { s.stair with idCert := [], ledCert := [] }
    keys := { s.keys with cont0 := contReset false 0, cont1 := contReset false 0, blocks := [], instNext := 1, proofMark := 0 }
    twin := { s.twin with pair := twinReset.pair }
    tally := { s.tally with totals := [], buffers := [], records := [], newest := 0, waiting := [], log := []
                            logNewest := 0, logFull := 0, tariff := [], section8 := [], endorse := []
                            checkTot := [], nextFw := none, nextSec := none }
    bb := { batteryReset with check := 0 } }

/-- The OTP part of the full wipe: trim values, PUF helper data and unique random material to ones. -/
def wipeOtp (s : State) : State :=
  { s with otp := { s.otp with trim := List.replicate 256 0xFF, random := List.replicate 32 0xFF } }

/-- The wipe of a transition, by its target (R463). -/
def wipeFor (s : State) (target : Life) : State :=
  match target with
  | .blank => s
  | .vendor => s
  | .transit => wipeStore s
  | .commissioned => s
  | .inService => s
  | .return => wipeUser s
  | .scrapped => wipeFull s

/-! ### The burn (R465) -/

/-- Whether the bits of a copy all lie inside a pattern. -/
def inside (w pat : Word) : Bool := w &&& ~~~ pat == 0

/-- The order in which a copy's bits burn: the target's own group, the groups skipped, and then what
lower groups lack, from the lowest. The groups between the old state and the target are the skipped ones;
both runs rise by group. -/
def burnOrder (old target : Nat) : List Nat :=
  groupBits target
    ++ ((List.range 7).filter (fun g => decide (old < g ∧ g < target))).flatMap groupBits
    ++ ((List.range 7).filter (fun g => decide (g ≤ old))).flatMap groupBits

/-- Burn the bits of an order into copy `n`, up to the first that does not read back: the copy, and
whether it failed. -/
def burnBits (n : Nat) (bad : List (Nat × Nat)) : List Nat → Word → Word × Bool
  | [], w => (w, false)
  | i :: r, w =>
    if w.getLsbD i then burnBits n bad r w
    else if bad.contains (n, i) then (w, true)
    else burnBits n bad r (setBit w i)

/-- Burn one copy toward the target; a copy with a bit outside the pattern is skipped. -/
def burnCopy (bad : List (Nat × Nat)) (old target n : Nat) (w : Word) : Word × Bool :=
  if inside w (lifePattern target) then burnBits n bad (burnOrder old target) w else (w, false)

/-- Burn the three copies: their values, and whether one failed. -/
def burnAll (bad : List (Nat × Nat)) (old target : Nat) (copies : List Word) : List Word × Bool :=
  let r := (List.range 3).map (fun n => burnCopy bad old target n (copies.getD n 0))
  (r.map (·.1), r.any (·.2))

/-- Whether the transition has reached its commit point: two copies read back equal to the pattern. -/
def committed (target : Nat) (copies : List Word) : Bool :=
  decide (2 ≤ (copies.filter (fun w => w == lifePattern target)).length)

/-! ### Transitions -/

/-- Whether Golune may authorise a transition (R463). -/
def golune (f t : Life) : Bool :=
  (f == .blank && t == .vendor) || (f == .vendor && t == .transit) || (f == .transit && t == .return)
    || ((f == .blank || f == .vendor || f == .transit || f == .return) && t == .scrapped)

/-- Whether `LIFE_CYCLE_SET` may carry a transition (R463). -/
def ownerMay (f t : Life) : Bool :=
  (f == .transit && t == .commissioned) || (f == .commissioned && t == .inService)
    || ((f == .commissioned || f == .inService) && (t == .return || t == .scrapped))

/-- The end of a transition's command, if it has one. -/
def endTrans (s : State) (t : Transition) (status : Nat) : State :=
  let s := { s with life := { s.life with trans := none } }
  match t.work with
  | some w => failWork s w status
  | none => s

/-- A transition that ends without its commit: admission goes on. -/
def abandonTrans (s : State) (t : Transition) (status : Nat) : State :=
  let s := endTrans s t status
  { s with boot := { s.boot with admitStop := false } }

/-- The additions of a commissioning to step 2 (R472): the image, the owner key hash, and the
commissioning record cleared; or the status that refuses it. -/
def commission (s : State) (key image : Bytes) : Except Nat State :=
  let c := cutImage image
  if commissionOk s key c = false then .error stVerifyFailed
  else if allZero s.otp.ownerHash = false ∧ ownerOk s key = false then .error stDeniedAuth
  else
    .ok { s with
      boot := { s.boot with cfgA := c }
      otp := { s.otp with ownerHash := if allZero s.otp.ownerHash then Config.sha512 key else s.otp.ownerHash }
      life := { s.life with comKey := none } }

/-- What a move to `RETURN` adds (R527); a continuity record neither of whose copies holds is written anew (R665). -/
def onReturn (s : State) : State :=
  { s with
    boot := { s.boot with attempt := { s.boot.attempt with retired := 0, fails := 0, hard := 0 } }
    keys := contRenew s.keys }

/-- Steps 3 to 5 of R465 after the wipe. -/
def burnTrans (s : State) (t : Transition) : State :=
  let old := lifeCode s.life.life
  let new := lifeCode t.target
  let r := burnAll t.bad old new s.otp.copies
  let s := { s with otp := { s.otp with copies := r.1 } }
  let s := if r.2 ∨ committed new r.1 = false then lcFire s 0 else s
  if committed new r.1 then
    let s := modLife s (fun l => { l with life := t.target, dbg := 0 })
    let s := if t.target = .return then onReturn s else s
    let s := if t.target = .scrapped then wipeOtp s else s
    let s := endTrans s t stOk
    { s with boot := { s.boot with resetAt := some (s.time + 10 ^ 7) } }
  else abandonTrans s t stFaultDetected

/-- A transition once the accepted commands have completed: the other sessions close, the wipe runs, and
the copies burn (R465). -/
def runTrans (s : State) (t : Transition) : State :=
  let mine := (t.work.bind (wrk s)).map (fun k => sessKey k.alcove k.session)
  let s := (tkeys s.net.sessions).foldl (fun s k =>
    if some k = mine then s else closeSession s (k / 256) (k % 256) stDeviceSafe) s
  match t.target, t.image with
  | .commissioned, some (key, image) =>
    match commission s key image with
    | .error st => abandonTrans s t st
    | .ok s => burnTrans s t
  | _, _ => burnTrans (wipeFor s t.target) t

/-- Whether accepted commands or completions remain besides one command. -/
def workLeft (s : State) (w : Option Nat) : Bool :=
  s.net.work.any (fun e => some e.1 != w) || !s.net.comps.isEmpty

/-- A transition begins: admission stops, and it runs once nothing else is accepted (R465 step 1). -/
def beginTrans (s : State) (t : Transition) : State :=
  let s := stopAdmit (modLife s (fun l => { l with trans := some t }))
  if workLeft s t.work then s else runTrans s t

/-! ### Vendor authorisation (R477 to R480) -/

/-- The check that refuses a submission, or 0 (R480). `ch` is the challenge consumed. -/
def authCheck (s : State) (a : Bytes) (ch : Option Bytes) : Nat :=
  let kind := fld a 5 1
  let target := fld a 6 1
  let mask := fld a 7 1
  let dur := fld a 8 4
  let key := slice a 64 32
  let signer := slice a 128 32
  if fld a 0 4 ≠ 0x57564155 ∨ fld a 4 1 ≠ 1 ∨ zeroAt a 12 4 = false ∨ (kind ≠ 1 ∧ kind ≠ 2)
      ∨ (kind = 1 ∧ (target ≠ 0 ∨ 16 ≤ mask ∨ allZero key = false))
      ∨ (kind = 2 ∧ (mask ≠ 0 ∨ dur ≠ 0 ∨ (target ≠ 2 ∧ allZero key = false))) then 1
  else if rootKeyOk s (slice a 96 32) = false then 2
  else if Config.edVerify (slice a 96 32) (ascii "WVAU signer" ++ signer) (slice a 160 64) = false
      ∨ Config.edVerify signer (ascii "WVAU1" ++ a.take 224) (slice a 224 64) = false then 3
  else if (if s.stair.idCert.isEmpty then zeroAt a 16 16
      else slice a 16 16 == deviceKeyId s && !zeroAt a 16 16) = false then 4
  else if ch ≠ some (slice a 32 32) then 5
  else if kind = 1 then
    (if (s.life.life = .vendor ∨ s.life.life = .return) ∧ s.life.voteFail = false
        ∧ BitVec.ofNat 4 mask &&& ~~~ (lcAllowed s.life) = 0 ∧ 60 ≤ dur ∧ dur ≤ 86400 then 0 else 6)
  else if 6 < target ∨ s.life.voteFail ∨ golune s.life.life (lifeOf target) = false then 6
  else 0

/-- An accepted authorisation. -/
def authRun (s : State) (a : Bytes) (bad : List (Nat × Nat)) : State :=
  if fld a 5 1 = 1 then setDebug s (BitVec.ofNat 4 (fld a 7 1)) (s.time + fld a 8 4 * 10 ^ 9)
  else
    let target := lifeOf (fld a 6 1)
    let s := beginTrans s { target := target, work := none, bad := bad, image := none }
    if target = .transit ∧ s.life.life = .transit then modLife s (fun l => { l with comKey := some (slice a 64 32) })
    else s

/-- `AUTH_STATUS` (R480). -/
def authWord (s : State) : Word :=
  pack [(lifeCode (if s.life.voteFail then .scrapped else s.life.life), 0), (b2n s.life.scrapDone, 3),
    (s.life.dbg.toNat, 4), (s.life.refusedAt, 8), (s.life.result, 16)]


/-! ### The test access port (R477, R649) -/

/-- Whether the instructions that drive balls are accepted. -/
def tapOpen (s : State) : Bool :=
  s.life.life == .blank || s.life.life == .vendor || s.life.life == .return || s.life.life == .scrapped

/-- Select an instruction. -/
def tapSelect (s : State) (code : Nat) : State := modLife s (fun l => { l with tapInstr := code })

/-- A restricted instruction, which acts as `BYPASS` where the state does not accept it. -/
def tapDrive (s : State) (code : Nat) : State := tapSelect s (if tapOpen s then code else 0xFF)

/-! ### Registers (R481) -/

def lcRead (s : State) (off : Nat) : Option Word :=
  let l := s.life
  let copy := fun n => decodeCopy (s.otp.copies.getD n 0)
  if off = 0x000 then
    some (pack [(lifeShown s, 0), (copy 0, 4), (copy 1, 8), (copy 2, 12), (b2n l.voteFail, 16), (b2n l.scrapDone, 17)])
  else if off = 0x010 then some (s.otp.copies.getD 0 0)
  else if off = 0x014 then some (s.otp.copies.getD 1 0)
  else if off = 0x018 then some (s.otp.copies.getD 2 0)
  else if off = 0x020 then some (w32 l.dbg.toNat)
  else if off = 0x024 then some (w32 (lcAllowed l).toNat)
  else if off = 0x028 then some (loHalf l.expiry)
  else if off = 0x02C then some (hiHalf l.expiry)
  else if off = 0x030 then some (w32 l.err.toNat)
  else if off = 0x034 then some 0
  else none

/-- `LC_DEBUG`: only `IC_0` to `IC_3` may write it (R482). -/
def lcDebug (s : State) (m : Nat) (v : Word) : State :=
  if m ≤ 3 then wrOk (modLife s (fun l => { l with dbg := BitVec.ofNat 4 v.toNat &&& lcAllowed l })) else busErr s

/-- `LC_DEBUG_EXPIRY`, both halves (R6, R482). -/
def lcExpiry (s : State) (m hi : Nat) (v : Word) : State :=
  if m ≤ 3 then wrOk (modLife s (fun l => { l with expiry := hi * 2 ^ 32 + v.toNat })) else busErr s

def lcForce (s : State) (v : Word) : State := wrOk ((setBits 4 v.toNat).foldl lcFire s)

/-- A write to a register that is no pair. -/
def lcWrite (s : State) (m off : Nat) (v : Word) : Option State :=
  if off = 0x020 then some (lcDebug s m v)
  else if off = 0x030 then some (wrOk (modLife s (fun l => { l with err := w1c l.err v.toNat })))
  else if off = 0x034 then some (lcForce s v)
  else if (lcRead s off).isSome then some (wrOk s)
  else none

/-! ### The commands -/

/-- `LC_DEBUG_WRITE` (R473, R482). -/
def execLcDebugWrite (master : Nat) (value : Word) (s : State) : Out :=
  .next (writeAs s master 0x10020 (fun s => lcDebug s master value))

/-- `DEBUG_EXPIRY` (R475). -/
def execDebugExpiry (s : State) : Out :=
  .next (if s.life.expiry ≠ 0 ∧ s.life.expiry ≤ s.time then modLife s (fun l => { l with dbg := 0 }) else s)

/-- `LC_ERR_FORCE` (R481). -/
def execLcErrForce (master : Nat) (value : Word) (s : State) : Out :=
  .next (writeAs s master 0x10034 (fun s => lcForce s value))

/-- `AUTH_CHALLENGE` (R478): a fresh challenge, or zeros where the state draws none (DEDUCED, log 58). -/
def execAuthChallenge (s : State) : Out :=
  .next (
    let s := tapSelect s 0x40
    if s.life.life = .scrapped ∨ s.life.voteFail ∨ (s.life.life = .blank ∧ allZero s.otp.rootHash)
        ∨ drawState s 4 ≠ .ok then
      emit (modLife s (fun l => { l with challenge := none })) (.tdo (zeros 32))
    else
      let r := drawFrom s 4 32
      emit (modLife r.2 (fun l => { l with challenge := some r.1 })) (.tdo r.1))

/-- `AUTH_SUBMIT` (R478, R480): the challenge is consumed whatever the outcome. -/
def execAuthSubmit (auth : Bytes) (badBits : List (Nat × Nat)) (s : State) : Out :=
  .next (
    let a := Config.fixLen 288 auth
    let ch := s.life.challenge
    let s := modLife (tapSelect s 0x41) (fun l => { l with challenge := none })
    let c := authCheck s a ch
    if c = 0 then authRun (modLife s (fun l => { l with result := 2, refusedAt := 0 })) a badBits
    else modLife s (fun l => { l with result := 3, refusedAt := c }))

/-- `AUTH_STATUS` (R480). -/
def execAuthStatus (s : State) : Out := .next (emit (tapSelect s 0x42) (.tdo (be 4 (authWord s).toNat)))

/-- `DAP` (R477): selects the debug access port. -/
def execDap (s : State) : Out := .next (tapSelect s 0x50)

/-- `IDCODE` (R649). -/
def execIdcode (s : State) : Out := .next (emit (tapSelect s 0x01) (.tdo (be 4 0x00800587)))

/-- `SAMPLE_PRELOAD` (R649): loads the boundary-scan register. -/
def execSamplePreload (bits : Nat) (s : State) : Out :=
  .next (modLife (tapSelect s 0x02) (fun l => { l with boundary := bits }))

/-- `EXTEST` (R477, R649). -/
def execExtest (s : State) : Out := .next (tapDrive s 0x03)

/-- `CLAMP` (R477, R649). -/
def execClamp (s : State) : Out := .next (tapDrive s 0x04)

/-- `HIGHZ` (R477, R649). -/
def execHighz (s : State) : Out := .next (tapDrive s 0x05)

/-- `BYPASS` (R649). -/
def execBypass (s : State) : Out := .next (tapSelect s 0xFF)

/-- `TRST_N_LOW` (R649): resets the port and nothing else; `IDCODE` is selected. -/
def execTrstNLow (s : State) : Out := .next (tapSelect s 0x01)

end Sys2Proof.Machine
end

