-- ==== Sys2Proof/Machine/ManageCmd.lean ====
section
/-! DEFINITION. The manager's commands: alcoves, section loads, life cycle, debug, units, firmware,
snapshots, the Tally and the watch gap (R455, R463 to R476, R530 to R536, R598 to R601, R661, R662). -/

namespace Sys2Proof.Machine

/-! ### Alcoves (R661, R662) -/

/-- What refuses `ALCOVE_CREATE` and `ALCOVE_CONFIGURE` when they execute: the address that a command committed since
admission has taken (R43), and check 8. An alcove that a migration has reserved exists (DEDUCED, log 70). -/
def alcoveRefused (s : State) (new : Bool) (p : Bytes) : Option Nat :=
  let x := alcoveOf (p.take 72)
  let old := pairAlcove s x.alcove
  if alcoveApart s x = false then some stFormat
  else if x.alcove = 0 ∨ (stewardKeys p).any (fun k => !Config.edPointOk k) then some stInput
  else if new then (if old.isSome ∨ thas s.gallery.reserved x.alcove then some stConflict else none)
  else if old.map (fun y => y.domain) = some x.domain then none
  else some stInput

/-- `ALCOVE_CREATE` and `ALCOVE_CONFIGURE`: a mutation of domain 0. -/
def runAlcove (s : State) (w : Nat) (new : Bool) (k : Work) : State :=
  match alcoveRefused s new k.payload with
  | some st => failWork s w st
  | none => mutateWork s w k (.alcoveSet (alcoveOf (k.payload.take 72)) (stewardKeys k.payload) new) none []

/-- `ALCOVE_CREATE`. -/
def execAlcoveCreate (w : Nat) (s : State) : Out := .next (onWork s w 0x0A01 (runAlcove s w true))

/-- `ALCOVE_CONFIGURE`. -/
def execAlcoveConfigure (w : Nat) (s : State) : Out := .next (onWork s w 0x0A02 (runAlcove s w false))

/-- `ALCOVE_REMOVE`. -/
def execAlcoveRemove (w : Nat) (s : State) : Out :=
  .next (onWork s w 0x0A03 (fun k =>
    let a := fld k.payload 0 2
    if a = 0 ∨ (pairAlcove s a).isNone then failWork s w stInput
    else mutateWork s w k (.alcoveRemove a) none []))

/-! ### Section loads (R531, R532) -/

/-- Whether the slot in use holds a valid image. -/
def imageInForce (s : State) : Bool := imageValid s (cfgSlot s)

/-- Whether every unnamed section's digest is the one in force, and section 8's the Tally's. -/
def unnamedOk (s : State) (head : Bytes) (named : List Nat) : Bool :=
  (slotSections.all (fun n => named.contains n || !imageInForce s || dirDigest head n == dirDigest (cfgSlot s).head n))
    && (named.contains 8 || dirDigest head 8 == s.tally.secDigest)

/-- Whether a head's serial is above the one in force. -/
def serialRises (s : State) (head : Bytes) : Bool := !imageInForce s || decide (headSerial (cfgSlot s).head < headSerial head)

/-- Checks 3 to 5 of R531 on a head and the bodies of the sections that it brings. -/
def headRefused (s : State) (head : Bytes) (bodies : List (Nat × Bytes)) : Option Nat :=
  if ownerOk s (headOwner head) = false then some stDeniedAuth
  else if headSigned head (headOwner head) = false ∨ bodies.any (fun e => !bodyMatches head e.1 e.2) then some stVerifyFailed
  else if headHere s head = false ∨ serialRises s head = false ∨ unnamedOk s head (bodies.map (·.1)) = false then some stInput
  else none

/-- Whether a named section 6 names another partner than the pair record (R550). -/
def partnerDiffers (s : State) (e : Nat × Bytes) : Bool :=
  e.1 == 6 && s.twin.pair.paired && tagged ((itemsOf e.2).getD []) 0x0602 != [s.twin.pair.partner]

/-- Whether a named section 3 changes the custodian set of a domain that has a root (R216). -/
def rootedSet (s : State) (e : Nat × Bytes) : Bool :=
  e.1 == 3 && (tagged ((itemsOf e.2).getD []) 0x0301).any (fun v =>
    (domD s (fld v 0 2)).root.isSome && !sameSet (domD s (fld v 0 2)) v)

/-- What refuses a load when it executes: an address or a quota that a mutation committed since admission has taken (R43,
R184), and check 8. -/
def loadRefused (s : State) (head : Bytes) (bodies : List (Nat × Bytes)) : Option Nat :=
  match headRefused s head bodies with
  | some st => some st
  | none =>
    if loadApart s bodies = false then some stFormat
    else if loadQuotas s bodies = false then some stBusyQuota
    else if bodies.any (partnerDiffers s) then some stInput
    else if bodies.any (rootedSet s) then some stDeniedAuth
    else none

/-- Write a head and bodies, with copies of the other bodies, into the other configuration slot. -/
def stageConfig (s : State) (head : Bytes) (bodies : List (Nat × Bytes)) : State :=
  let c := mergeConfig (cfgSlot s) head bodies
  if s.boot.attempt.prefer.getLsbD 2 then { s with boot := { s.boot with cfgA := c } }
  else { s with boot := { s.boot with cfgB := c } }

/-- Flip a bit of `PREFER` (R523). -/
def flipPrefer (s : State) (i : Nat) : State :=
  { s with boot := { s.boot with attempt := { s.boot.attempt with prefer := s.boot.attempt.prefer ^^^ BitVec.ofNat 4 (2 ^ i) } } }

/-- The commit point of a load (R532), on this side and the partner's (R556), and its application. In
`RECOVERY` the new image serves the start that follows (R529). -/
def commitLoad (s : State) (w : Nat) (head : Bytes) (bodies : List (Nat × Bytes)) : State :=
  let named := bodies.map (·.1)
  let s := stageConfig s head bodies
  let s := if s.twin.state = .joined ∧ named.any (fun n => n == 2 || n == 3 || n == 6) then
      emit s (.sectionForward head bodies) else s
  let s := flipPrefer s 2
  let r := if s.fc.service = .recovery then (s, []) else applySections s named
  settleLoads (modWork r.1 w (fun k => { k with stage := .waitEpoch 0 0 r.2 }))

/-- `SECTION_LOAD`. The authority in force at the quorum check decides who may load (R236, R237). -/
def execSectionLoad (w : Nat) (s : State) : Out :=
  .next (onWork s w 0x0A04 (fun k =>
    let p := k.payload
    let n := 784 + fld p 4 4
    let run := fun (s : State) =>
      match loadRefused s (secHead p) (secLoad p) with
      | some st => failWork s w st
      | none => commitLoad s w (secHead p) (secLoad p)
    if loadDenied s k.role k.key then failWork s w stDeniedAuth
    else if loadNeedsQuorum s p then withQuorum s w 0 0x0A04 (p.take n) (approvalAt p n) false (fun s _ => run s) else run s))

/-! ### Life cycle and debug -/

/-- A state whose domain 0 has the set of an image's domains section at epoch 0 (R471); none when the image
has no such set. -/
def imageCustodians (s : State) (image : Bytes) : Option State :=
  let c := cutImage image
  if sectionOk 3 (bodyOf c 3) = false then none
  else (domainIn (secItems c 3) 0).map (fun v => setDom s 0 (fun x => { takeDomain x v with epoch := 0 }))

/-- The quorum check of `LIFE_CYCLE_SET` (R225, R471). -/
def lifeQuorum (s : State) (body image : Bytes) (a : Approval) : Bool :=
  if s.life.life = .transit then ((imageCustodians s image).map (fun t => approvalOk t 0 0x0A05 body a)).getD false
  else approvalOk s 0 0x0A05 body a

/-- `LIFE_CYCLE_SET` (R463, R465, R470 to R472): the command waits while the commands accepted before it end. -/
def execLifeCycleSet (w : Nat) (badBits : List (Nat × Nat)) (s : State) : Out :=
  .next (onWork s w 0x0A05 (fun k =>
    let p := k.payload
    let n := 48 + fld p 40 4
    let image := slice p 48 (fld p 40 4)
    match approvalAt p n with
    | none => failWork s w stDeniedQuorum
    | some ap =>
      if lifeQuorum s (p.take n) image ap = false then failWork (failTicket s 0 ap.ticket) w stDeniedQuorum
      else
        let s := endTicket s 0 ap.ticket
        let t := lifeOf (fld p 0 1)
        if s.life.voteFail ∨ ownerMay s.life.life t = false then failWork s w stInput
        else
          let s := modWork s w (fun k => { k with stage := .waitEpoch 9 0 [] })
          beginTrans s { target := t, work := some w, bad := badBits
                         image := if t = .commissioned then some (slice p 8 32, image) else none }))

/-- `DEBUG_ENABLE` (R476) (DEDUCED, log 69). -/
def execDebugEnable (w : Nat) (s : State) : Out :=
  .next (onWork s w 0x0A06 (fun k =>
    let p := k.payload
    let mask := BitVec.ofNat 4 (fld p 0 1)
    let dur := fld p 4 4
    withQuorum s w 0 0x0A06 (p.take 8) (approvalAt p 8) false (fun s _ =>
      if mask &&& ~~~ (lcAllowed s.life) ≠ 0 then failWork s w stInput
      else
        let ends := s.time + dur * 10 ^ 9
        okWork (setDebug s (if dur = 0 then 0 else mask) ends) w (be 8 (if dur = 0 then 0 else ends)))))

/-! ### Units (R535, R536) -/

/-- Whether a unit is in service. -/
def inServe (u : UState) : Bool := u == .inService || u == .moving

/-- `UNIT_OUT`: the units in service leave at the next epoch (R158). -/
def execUnitOut (w : Nat) (s : State) : Out :=
  .next (onWork s w 0x0A07 (fun k =>
    let i := fld k.payload 1 1
    match unitKindOf (fld k.payload 0 1) with
    | none => failWork s w stFormat
    | some (u, _) =>
      let l := (unitNos u i).filter (fun n => inServe (unitAt s u n).1)
      if unitInner s u i ∨ unitHanding s u i ∨ l.isEmpty then failWork s w stConflict
      else
        let s := l.foldl (fun s n => putUnit s u n (unitAt s u n).1 true) s
        modWork s w (fun k => { k with stage := .waitEpoch (unitCode u) i [] })))

/-- Whether `UNIT_RETURN` acts on a unit: one out of service, and of the lost ones a cipher pipe or the legacy
unit. -/
def returnActs (u : UnitKind) (x : UState × Bool) : Bool :=
  x.1 == .out && (!x.2 || u == .cipherBay || u == .legacy)

/-- `UNIT_RETURN`: the units are zeroised and tested. -/
def execUnitReturn (w : Nat) (s : State) : Out :=
  .next (onWork s w 0x0A08 (fun k =>
    let i := fld k.payload 1 1
    match unitKindOf (fld k.payload 0 1) with
    | none => failWork s w stFormat
    | some (u, _) =>
      let l := (unitNos u i).filter (fun n => returnActs u (unitAt s u n))
      if unitHanding s u i ∨ l.isEmpty then failWork s w stConflict
      else
        let s := l.foldl (fun s n => unitBegin s u n) s
        modWork s w (fun k => { k with stage := .waitEpoch (unitCode u) i l })))

/-! ### Firmware (R533, R534) -/

/-- The active firmware slot and microcode slot, and the others. -/
def fwSlot (s : State) : Tab Bytes := if s.boot.attempt.prefer.getLsbD 0 then s.boot.fwB else s.boot.fwA
def fwOther (s : State) : Tab Bytes := if s.boot.attempt.prefer.getLsbD 0 then s.boot.fwA else s.boot.fwB
def ucSlot (s : State) : Bytes := if s.boot.attempt.prefer.getLsbD 1 then s.boot.ucB else s.boot.ucA
def ucOther (s : State) : Bytes := if s.boot.attempt.prefer.getLsbD 1 then s.boot.ucA else s.boot.ucB

def setFwOther (s : State) (t : Tab Bytes) : State :=
  if s.boot.attempt.prefer.getLsbD 0 then { s with boot := { s.boot with fwA := t } } else { s with boot := { s.boot with fwB := t } }
def setUcOther (s : State) (b : Bytes) : State :=
  if s.boot.attempt.prefer.getLsbD 1 then { s with boot := { s.boot with ucA := b } } else { s with boot := { s.boot with ucB := b } }

/-- Root key of the boot loader image in use (R516). -/
def loaderRoot (s : State) : Bytes := slice ((tget (fwSlot s) 1).getD []) 32 32

/-- What refuses an image (R516, R343, R534) (DEDUCED, log 68). -/
def imageRefused (s : State) (c : Nat) (img : Bytes) : Option Nat :=
  if c = 4 then (if ucSigned (loaderRoot s) (img.take 64) (img.drop 64) then none else some stVerifyFailed)
  else if rootKeyOk s (slice img 32 32) = false then some stFormat
  else if fwSigned s img then none
  else some stVerifyFailed

/-- Write an accepted image into its place. The first firmware image of a start copies the active slot. -/
def stageImage (s : State) (c : Nat) (img : Bytes) : State :=
  if c = 4 then let s := setUcOther s img; { s with boot := { s.boot with stagedUc := true } }
  else
    let base := if s.boot.copied then fwOther s else fwSlot s
    let s := setFwOther s (tput base c img)
    { s with boot := { s.boot with copied := true } }

/-- The vector of SVNs that the staged slots would run (R247). -/
def stagedVector (s : State) : List Nat :=
  let fw := if s.boot.copied then fwOther s else fwSlot s
  let uc := if s.boot.stagedUc then ucOther s else ucSlot s
  let at_ := fun (n : Nat) => fwSvn ((tget fw n).getD [])
  [at_ 1, at_ 2, ucSvn (uc.drop 64), at_ 3]

/-- Whether a start on the staged slots would close the archive (R256, R533). -/
def rollsBack (s : State) : Bool :=
  let a := currentSnap s.keys
  a.valid && (List.zip (stagedVector s) a.vector).any (fun e => decide (e.1 < e.2))

/-- Response of `FIRMWARE_UPDATE`: the slot now staged, and whether it rolls back. -/
def updateResponse (s : State) (c : Nat) : Bytes :=
  be 1 (1 - b2n (s.boot.attempt.prefer.getLsbD (if c = 4 then 1 else 0))) ++ be 1 (b2n (rollsBack s)) ++ zeros 6

/-- `ACTIVATE`: `PREFER` names the staged slots. -/
def activate (s : State) : State :=
  let s := if s.boot.copied then flipPrefer s 0 else s
  let s := if s.boot.stagedUc then flipPrefer s 1 else s
  { s with boot := { s.boot with activated := true } }

/-- The restart of an update (R534): once the accepted commands have completed, the other sessions close, the
command completes and the reset is scheduled. -/
def runRestart (s : State) (w : Nat) (resp : Bytes) : State :=
  let mine := (wrk s w).map (fun k => sessKey k.alcove k.session)
  let s := (tkeys s.net.sessions).foldl (fun s k =>
    if some k = mine then s else closeSession s (k / 256) (k % 256) stDeviceSafe) s
  let s := okWork s w resp
  { s with boot := { s.boot with resetAt := some (s.time + 10 ^ 7) } }

/-- Updates that wait for the accepted commands run their restart once none remains. -/
def settleRestart (s : State) : State :=
  (tkeys s.net.work).foldl (fun s w =>
    match wrk s w with
    | some k =>
      (match k.stage with
        | .waitEpoch 8 _ _ =>
          if workLeft s (some w) then s
          else runRestart s w (match k.carry with
            | some r => r.payload
            | none => [])
        | _ => s)
    | none => s) s

/-- The end of an update that has been accepted: activation, restart and response. In `RECOVERY` the counts of
failed attempts clear and the device restarts (R529). -/
def endUpdate (s : State) (w c flags : Nat) : State :=
  let resp := updateResponse s c
  let s := if bitOf flags 0 then activate s else s
  if bitOf flags 1 then
    settleRestart (modWork (stopAdmit s) w (fun k => { k with stage := .waitEpoch 8 0 [], carry := some (plainResult stOk resp []) }))
  else
    let s := okWork s w resp
    if s.fc.service = .recovery then
      { s with boot := { s.boot with
        resetAt := some (s.time + 10 ^ 7), attempt := { s.boot.attempt with fails := 0, hard := 0 } } }
    else s

/-- `FIRMWARE_UPDATE`. -/
def execFirmwareUpdate (w : Nat) (s : State) : Out :=
  .next (onWork s w 0x0A09 (fun k =>
    let p := k.payload
    let c := fld p 0 1
    let n := fld p 4 4
    let img := slice p 16 n
    withQuorum s w 0 0x0A09 (p.take (16 + n)) (approvalAt p (16 + n)) false (fun s _ =>
      if s.boot.activated then failWork s w stConflict
      else if c = 0 then endUpdate s w c (fld p 1 1)
      else
        match imageRefused s c img with
        | some st => failWork s w st
        | none => endUpdate (stageImage s c img) w c (fld p 1 1))))

/-- `ARCHIVE_SNAPSHOT` (R203): the command completes with the write. -/
def execArchiveSnapshot (w : Nat) (s : State) : Out :=
  .next (onWork s w 0x0A0A (fun _ =>
    modWork (beginSnap s) w (fun k => { k with stage := .waitEpoch 7 0 [] })))

/-! ### The Tally (R598 to R601) -/

/-- `TALLY_RECORD` with one of its functions. -/
def onRecord (s : State) (w f : Nat) (g : Work → State) : State :=
  onWork s w 0x0A0B (fun k => if fld k.payload 0 1 = f then g k else s)

/-- `TALLY_RECORD` with `FUNCTION` 0. -/
def execTallyRecordRead (w : Nat) (s : State) : Out :=
  .next (onRecord s w 0 (fun k =>
    let first := fld k.payload 8 8
    let t := s.tally
    if t.newest < first ∨ first + 1536 ≤ t.newest then failWork s w stInput
    else
      let l := (List.range (fld k.payload 16 2)).filterMap (fun i => tget t.records (first + i))
      okWork s w (listPayload t.newest (l.map (fun r => r.bytes)))))

/-- `TALLY_RECORD` with `FUNCTION` 1. -/
def execTallyCut (w : Nat) (s : State) : Out :=
  .next (onRecord s w 1 (fun _ =>
    let recent : Bool := match tget s.tally.records s.tally.newest with
      | some r => decide (s.tally.time < r.time + 10 ^ 9)
      | none => false
    if recent then okWork s w (recordPayload s.tally s.tally.newest)
    else modWork (modTally s (fun t => { t with cut := t.cut ++ [w] })) w (fun k => { k with stage := .waitTally })))

/-- `TALLY_RECORD` with `FUNCTION` 2. -/
def execTallyLogRead (w : Nat) (s : State) : Out :=
  .next (onRecord s w 2 (fun k =>
    let l := (List.range (fld k.payload 16 2)).filterMap (fun i => tget s.tally.log (fld k.payload 8 8 + i))
    okWork s w (listPayload s.tally.logNewest (l.map (logBytes s.tally)))))

/-- `TALLY_RECORD` with `FUNCTION` 3. -/
def execTallyIdentity (w : Nat) (s : State) : Out :=
  .next (onRecord s w 3 (fun _ =>
    let t := s.tally
    okWork s w (t.fwDigest ++ be 4 t.fwVersion ++ be 1 (sealCount s) ++ zeros 3 ++ t.secDigest
      ++ Config.edPub (t.seed.getD s.stair.tally) ++ t.endorse ++ be 8 t.time)))

/-- What refuses a Tally firmware image (R516, R600). -/
def tallyImageRefused (img : Bytes) : Option Nat :=
  if Config.sha512 (slice img 32 32) ≠ Config.tallyRootHash then some stFormat
  else if Config.edVerify (slice img 32 32) (ascii "WFWS signer" ++ slice img 64 32) (slice img 96 64)
      ∧ Config.edVerify (slice img 64 32) (ascii "WFWI1" ++ img.take 224) (slice img 224 64)
      ∧ Config.sha512 (img.drop 288) = slice img 160 64 then none
  else some stVerifyFailed

/-- What refuses a reseal at check 8 (R600, R604). -/
def resealRefused (s : State) (p : Bytes) : Option Nat :=
  let f := fld p 0 1
  let head := if bitOf f 0 then headRefused s (secHead p) [(8, resealBody p)] else none
  let img := if bitOf f 1 then tallyImageRefused (resealImage p) else none
  match head, img with
  | some st, _ => some st
  | none, some st => some st
  | none, none => if sealCount s = 64 ∨ 16384 ≤ s.tally.logNewest then some stCounterExh else none

/-- The event log entry of a reseal (R601, R604). What it carries of both digests in a reseal of both, and its
detail, the spec does not state: free values (DESIGN CHOICE, log 65). -/
def resealLog (s : State) (f : Nat) (newSec newFw : Bytes) : State :=
  let r := drawn s 136
  let s := useFree s 136
  let d := if f = 1 then (s.tally.secDigest, newSec) else if f = 2 then (s.tally.fwDigest, newFw)
    else (slice r 0 64, slice r 64 64)
  addLog s f (sealCount s + 1) d.1 d.2 (fld r 128 8)

/-- Burn the lowest clear seal bit, of which `bad` do not read back: none after three failures (R451, R601). -/
def burnSeal (b : BitVec 64) (bad : Nat) : Option (BitVec 64) :=
  if 3 ≤ bad then none else (((List.range 64).filter (fun i => !b.getLsbD i))[bad]?).map (fun i => setBit b i)

/-- The steps of a reseal (R601). -/
def runReseal (s : State) (w : Nat) (p : Bytes) (bad : Nat) : State :=
  let f := fld p 0 1
  let img := resealImage p
  let s := if bitOf f 0 then stageConfig s (secHead p) [] else s
  let s := modTally s (fun t =>
    { t with nextSec := if bitOf f 0 then some (resealBody p) else none
             nextFw := if bitOf f 1 then some (fld img 16 4, Config.sha512 img) else none })
  let s := resealLog s f (Config.sha512 (resealBody p)) (Config.sha512 img)
  match burnSeal s.otp.sealBits bad with
  | none =>
    failWork (pulse (modTally s (fun t => { t with err := setBit t.err 3 })) 38 .degrade) w stFaultDetected
  | some b =>
    let s := modTally { s with otp := { s.otp with sealBits := b } } finishReseal
    okWork (if bitOf f 0 then flipPrefer s 2 else s) w []

/-- `TALLY_RESEAL`. -/
def execTallyReseal (w badBits : Nat) (s : State) : Out :=
  .next (onWork s w 0x0A0C (fun k =>
    let p := k.payload
    let n := 784 + fld p 4 4 + fld p 8 4
    withQuorum s w 0 0x0A0C (p.take n) (approvalAt p n) false (fun s _ =>
      match resealRefused s p with
      | some st => failWork s w st
      | none => runReseal s w p badBits)))

/-! ### The watch gap -/

/-- `GAP_ACK` (R455). -/
def execGapAck (w : Nat) (s : State) : Out :=
  .next (onWork s w 0x0A0D (fun k =>
    let gap := fld k.payload 0 1
    withQuorum s w 0 0x0A0D (k.payload.take 8) (approvalAt k.payload 8) true (fun s ap =>
      if gap = 0 ∨ gap ≠ s.bb.gap.toNat then failWork s w stInput
      else mutateWork s w k (.gapAck gap) (some ap.ticket) [])))

end Sys2Proof.Machine
end

