-- ==== Sys2Proof/Machine/Link.lean ====
section
/-! DEFINITION. The Ibvelet link as its error sources and registers see it: the loss of the link (R543), the
sources of `IB_ERR` (R585) and the window (R584). -/

namespace Sys2Proof.Machine

def modTwin (s : State) (f : Twin → Twin) : State := { s with twin := f s.twin }

/-- The presence check begins when a joined side loses the link (R560). -/
def beginPresence (s : State) : State :=
  if s.twin.state = .joined ∧ s.twin.lostAt = none then
    modTwin s (fun t => { t with lostAt := some s.time, queries := 0, answered := false })
  else s

/-- The link is lost: it trains again at once, unless it stays down (R543, R585). -/
def linkLost (s : State) : State :=
  beginPresence (modTwin s (fun t => { t with
    link := if t.down then 0 else 1, txKey := [], rxKey := [], txSalt := [], rxSalt := [] }))

/-- Class of a source of `IB_ERR`: 0 `RETRY`, 1 `TAG`, 2 `LANE`, 3 `TIMEOUT`, 4 `PARITY`, 5 `AUTH` (R584). -/
def ibClass (i : Nat) : FClass := if i = 0 then .note else if i ≤ 3 then .recover else .degrade

/-- The response of a source (R585). A `TAG`, `LANE` or `TIMEOUT` loses the link; `PARITY` keeps it down until
the next reset; `AUTH` until the next handshake passes. -/
def ibRespond (s : State) (i : Nat) : State :=
  if i = 0 then s
  else if i ≤ 3 then linkLost s
  else if i = 4 then linkLost (modTwin s (fun t => { t with down := true }))
  else modTwin (linkLost s) (fun t => { t with link := 0 })

/-- A source of `IB_ERR` fires. -/
def ibFire (s : State) (i : Nat) : State :=
  ibRespond (pulse (modTwin s (fun t => { t with err := setBit t.err i })) 30 (ibClass i)) i

def ibForce (s : State) (v : Word) : State := wrOk ((setBits 6 v.toNat).foldl ibFire s)

/-- Code of `IB_STATUS.PAIR` (R584). -/
def pairCode : PairState → Nat
  | .unpaired => 0
  | .joined => 1
  | .joining => 2
  | .held => 3
  | .survivor => 4
  | .yielded => 5

def ibRead (s : State) (off : Nat) : Option Word :=
  let t := s.twin
  if off = 0x000 then
    some (pack [(t.link, 0), (t.lanes.toNat, 4), (t.side, 9), (pairCode t.state, 10), (t.service, 16)])
  else if off = 0x004 then some (w32 t.pair.epoch)
  else if off = 0x020 then some (w32 t.err.toNat)
  else if off = 0x024 then some 0
  else none

def ibWrite (s : State) (off : Nat) (v : Word) : Option State :=
  if off = 0x000 ∨ off = 0x004 then some (wrOk s)
  else if off = 0x020 then some (wrOk (modTwin s (fun t => { t with err := w1c t.err v.toNat })))
  else if off = 0x024 then some (ibForce s v)
  else none

/-- `IB_ERR_FORCE` (R585). -/
def execIbErrForce (master : Nat) (value : Word) (s : State) : Out :=
  .next (writeAs s master 0x380024 (fun s => ibForce s value))

end Sys2Proof.Machine
end

