-- ==== Sys2Proof/Machine/Restore.lean ====
section
/-! DEFINITION. What a start, a takeover and `GAP_ACK` take from the key archive and the configuration image:
the snapshot and journal (R204, R208, R256, R257, R454, R514), the counters of the continuity record (R665), the
domains and the alcoves that open. -/

namespace Sys2Proof.Machine

/-! ### The key archive -/

/-- A face after a restart: its counters resume at their committed marks, from which it serves once the next ones are
committed (R207 to R209). -/
def resumeFace (algo : Nat) (f : Face) : Face :=
  let f := if needsInst algo f.cls then { f with nextInv := f.invMark * 2 ^ 20 } else f
  if 2 ^ 20 < f.limit then { f with uses := f.useMark * 2 ^ 20 } else f

def resumeSecret (x : Secret) : Secret :=
  { x with face0 := x.face0.map (resumeFace x.algo), face1 := x.face1.map (resumeFace x.algo) }

/-- The witness sequence of a domain with a root resumes, from 1 at the first; its next mark is due (R276, R665). -/
def resumeWitness (s : State) (d : Nat) : State :=
  let x := domD s d
  if x.root.isNone then s
  else
    let n := resumeAt x.witMark (tgetD (floors s.keys).wit d 0)
    setDom s d (fun y => { y with witSeq := max 1 n, witMark := n / 2 ^ 20 })

/-- The proof counter resumes, from 1 at the first; its next mark is due (R267, R665). -/
def resumeProof (s : State) : State :=
  let n := resumeAt s.keys.proofMark (floors s.keys).proof
  { s with keys := { s.keys with proofNext := max 1 n, proofMark := n / 2 ^ 20 } }

/-- One domain of an archive that opens, with its secrets and its Landing 5 keys. -/
def loadDomain (s : State) (d : Nat) : State :=
  let a := s.keys.archive
  match tget a.domains d with
  | none => setDom s d (fun x => { x with opened := true })
  | some x =>
    let mine := a.secrets.filter (fun e => e.2.domain == d)
    let s := setDom s d (fun _ => { x with opened := true, archKey := archiveKey s d (journalVector s) })
    let s := { s with keys := { s.keys with
      secrets := mine.foldl (fun t e => tput t e.1 (resumeSecret e.2)) s.keys.secrets } }
    deriveDomain (resumeWitness s d) d

/-- The store-wide part of the image: check values, the order in which free slots are taken, the allocator and the
partner's counts (R182, R183, R205, R555). -/
def loadSlots (s : State) : State :=
  let a := s.keys.archive
  { s with
    keys := { s.keys with
      checks := a.checks, freed := a.freed, retired := a.retired, instNext := max a.instNext 1, proofMark := a.proofMark }
    twin := { s.twin with uses := a.uses, invs := a.invs } }

/-- An archive that does not open: an empty store, whose allocator goes on from its floor. The records of the old journal
are set apart until the first snapshot of the new store becomes current, and that snapshot begins at once (R514, R665;
DESIGN CHOICE, log 37). -/
def emptyStore (s : State) : State :=
  beginSnap (modKeys s (fun k => { k with
    archive := { archiveReset with instNext := max 1 (floors k).inst }, instNext := max 1 (floors k).inst
    oldJournal := k.oldJournal ++ k.archJournal, archJournal := [], snapping := none }))

/-- Whether the running vector exceeds the snapshot's at some landing (R257). -/
def vectorRises (s : State) : Bool :=
  (currentSnap s.keys).valid
    && (List.zip (runVector s) (currentSnap s.keys).vector).any (fun p => decide (p.2 < p.1))

/-- The load of the archive at step 9 (R204, R256, R257): domain 0 alone in a sealed or `RECOVERY` start. `readable` says
whether the Archive gives the current snapshot. A vector that the Stair refuses raises its `NOTE` fault (R250, R254). -/
def loadArchive (s : State) (readable : Bool) (torn : List (Nat × Nat)) (only0 : Bool) : State :=
  let s := if vectorServes s then s else stairRefuse s 0x6C
  if readable && archiveOpens s then
    let a := readArchive s torn
    let s := modKeys s (fun k => { k with
      archive := a, archJournal := if k.oldJournal.isEmpty then k.archJournal else k.oldJournal, oldJournal := [] })
    let s := loadDomain (loadSlots s) 0
    let s := if only0 then s
      else ((tkeys s.keys.archive.domains).filter (fun d => d != 0)).foldl loadDomain s
    let s := resumeProof s
    if vectorRises s then beginSnap s else s
  else resumeProof (emptyStore s)

/-- The domains of section 3: the set of each from 1 to 256 without a root, that of domain 0 when no archive gave it
one, and the quota of each that no mutation has committed (R216, R238, R454, R514). -/
def takeDomains (s : State) (c : Config8) (only0 : Bool) : State :=
  ((tagged (secItems c 3) 0x0301).filter (fun v => !only0 || fld v 0 2 == 0)).foldl (fun s v =>
    let d := fld v 0 2
    let s := if d = 0 ∧ (domD s 0).set.isEmpty = false then s else takeSet s v
    if d = 0 ∨ thas s.keys.archive.quotas d then s else setDom s d (fun x => { x with quota := quotaOf v })) s

/-! ### The alcoves that run -/

/-- An alcove with what the journal has committed of it, at generation 0 with nothing in progress (R42). -/
def fromKept (x : KeptAlcove) (set : AlcoveSettings) (keys : List (Bytes × Role)) : Alcove :=
  { alcoveFresh set with
    keys := keys, proof := x.proof, epochMark := x.epochMark, handleMap := x.handleMap, fromCmd := x.set.isSome }

/-- What the running set holds of an alcove (R532): the journal's settings where a command set them last, else the
section's settings and keys with the client keys that the journal holds (DEDUCED, log 71). -/
def bootAlcove (s : State) (a : Nat) : Option Alcove :=
  let c := cfgSlot s
  let kept := tget s.keys.archive.alcoves a
  let here := (setsIn c s.twin.side).find? (fun x => x.alcove == a)
  if s.keys.archive.removed.contains a then none
  else
    match kept.bind (fun x => x.set), here with
    | some set, _ => kept.map (fun x => fromKept x set x.keys)
    | none, some set =>
      let x := keptAt s.keys.archive a set.domain
      some (fromKept x set (keysIn (secItems c 2) a ++ x.keys.filter (fun k => k.2 == .client)))
    | none, none => none

/-- The alcoves of the image and the archive. -/
def bootNumbers (s : State) : List Nat :=
  let l := (setsIn (cfgSlot s) s.twin.side).map (fun x => x.alcove)
  l ++ (tkeys s.keys.archive.alcoves).filter (fun a => !l.contains a)

/-- An alcove joins the running set: it opens here, or it is the partner's (R551). -/
def joinAlcove (s : State) (a : Nat) (x : Alcove) : State :=
  if servesHere s a then openAlcove (putAlc s a x) a
  else
    { s with twin := { s.twin with
      alcoves := tput s.twin.alcoves a { set := x.set, gen := x.gen, slices := [], qps := [] }
      mirrorKeys := tput s.twin.mirrorKeys a x.keys
      mirrorProof := match x.proof with
        | some p => tput s.twin.mirrorProof a p
        | none => s.twin.mirrorProof } }

/-- Open every alcove of the running set that `which` chooses, that is not open yet and that the partner does not
serve. -/
def openSet (s : State) (which : Nat → Bool) : State :=
  ((bootNumbers s).filter (fun a => which a && !thas s.net.alcoves a && !thas s.twin.alcoves a)).foldl (fun s a =>
    match bootAlcove s a with
    | some x => joinAlcove s a x
    | none => s) s

/-- The end of a sealed start (R455): the other domains are loaded, the other alcoves open and the cause clears. -/
def endSeal (s : State) : State :=
  let c := cfgSlot s
  let s := { s with boot := { s.boot with sealed_ := false } }
  let s := ((tkeys s.keys.archive.domains).filter (unopened s)).foldl loadDomain s
  clrCause (openSet (takeDomains s c false) (fun a => a != 0)) 4

end Sys2Proof.Machine
end

