-- ==== Sys2Proof/Machine/Commit.lean ====
section
/-! DEFINITION. The commit sequencers (R195 to R198, R226, R552): what a mutation is checked against at its
commit point, what it changes, its journal record, and the marks of counters (R207, R209, R665). With the pending
journal, its writes to the Archive and snapshots (R200, R203), Archive refreshes (R28), the expiry of granted faces
(R575), admission epochs (R155) and the move of a sequencer (R550). -/

namespace Sys2Proof.Machine

/-! ### The approval of a command, read again at its commit point (R226) -/

/-- The approving domain, the payload without its block, and the block, of a command. -/
def workApproval (s : State) (k : Work) : Nat × Bytes × Option Approval :=
  let p := k.payload
  let at_ := fun (n : Nat) => (domainOf s k.alcove, p.take n, approvalAt p n)
  if k.opcode = 0x0803 then at_ (restoreEnd p)
  else if k.opcode = 0x0805 then at_ 64
  else if k.opcode = 0x0806 then at_ (custEnd p)
  else if k.opcode = 0x0505 then
    (match unwrapReq p with
      | some r => (domainOf s k.alcove, r.body, r.appr)
      | none => (0, [], none))
  else at_ 8

/-- The quorum check at the commit point: a ticket that passes ends (R223, R226). -/
def quorumAgain (s : State) (m : Mutation) : Bool × State :=
  match m.quorum, m.work.bind (wrk s) with
  | some id, some k =>
    (let a := workApproval s k
     match a.2.2 with
     | some ap => if approvalOk s a.1 k.opcode a.2.1 ap then (true, endTicket s a.1 id) else (false, failTicket s a.1 id)
     | none => (false, s))
  | some _, none => (false, s)
  | none, _ => (true, s)

/-! ### Step 1 of R196 -/

/-- Whether the face that a mutation of no command names is still there. -/
def faceThere (s : State) (slot n : Nat) : Bool :=
  ((tget s.keys.secrets slot).bind (fun x => faceAt x n)).isSome

/-- The check of a body against the state left by every earlier mutation; none when it still applies. -/
def bodyRefused (s : State) (d : Nat) : MutBody → Option Nat
  | .create sec _ =>
    if rootMissing s d then some stDeniedAttr
    else if slotsFit s d (slotsFor sec.material.length) = false then some stBusyQuota
    else if instServes s sec.algo (sec.face0.toList ++ sec.face1.toList) = false then some stCounterExh
    else none
  | .grant slot _ _ => if slotTaken s.keys slot then some stInput else none
  | .destroyFace slot n => if faceThere s slot n then none else some stKeyUnknown
  | .destroySecret slot => if thas s.keys.secrets slot then none else some stKeyUnknown
  | .restrict slot n _ _ _ _ _ => if faceThere s slot n then none else some stKeyUnknown
  | .share slot n _ => if faceThere s slot n then none else some stKeyUnknown
  | .use slot n => if faceThere s slot n then none else some stKeyUnknown
  | .revoke slot n => if faceThere s slot n then none else some stKeyUnknown
  | .quota n _ => if quotaServes s d n then none else some stBusyQuota
  | .alcoveReset _ => none
  | .root _ _ _ _ _ => if (domD s d).root.isSome then some stDeniedAttr else none
  | .custodians _ _ _ _ => none
  | .proofSecret a _ =>
    if rootMissing s d then some stDeniedAttr
    else if ((alc s a).bind (fun x => x.proof)).isSome ∨ slotsFit s d 1 then none else some stBusyQuota
  | .clientKeys _ _ _ => none
  | .alcoveSet x _ new =>
    if alcoveApart s x = false then some stFormat
    else if new ∧ (pairAlcove s x.alcove).isSome then some stConflict
    else none
  | .alcoveRemove a => if (pairAlcove s a).isSome then none else some stInput
  | .gapAck g => if g = 0 ∨ g ≠ s.bb.gap.toNat then some stInput else none
  | .mark _ => none
  | .instNext _ => none
  | .alcovesLoad _ => none
  | .mapped _ _ _ => none

/-- The checks of the command again, for those whose payload decides them (R119, R660, R661). -/
def workRefused (s : State) (k : Work) : Option Nat :=
  if 0x0506 ≤ k.opcode ∧ k.opcode ≤ 0x0509 then
    (match faceChange s k.alcove k.opcode k.payload with
      | .error st => some st
      | .ok _ => none)
  else if k.opcode = 0x070B then (if keySetInput s k.alcove k.payload then none else some stInput)
  else if k.opcode = 0x0A01 then alcoveRefused s true k.payload
  else if k.opcode = 0x0A02 then alcoveRefused s false k.payload
  else none

/-- Step 1: the status with which a mutation no longer applies. The quota of a section has been checked with its load
(R184, R238). -/
def mutRefused (s : State) (d : Nat) (m : Mutation) : Option Nat :=
  match (m.work.bind (wrk s)).bind (workRefused s) with
  | some st => some st
  | none => if m.work.isNone ∧ mutKind m.body = .quota then none else bodyRefused s d m.body

/-! ### What a mutation changes -/

/-- The allocator gives a number: the domain-0 journal holds what it gives next (R205). A worker's blocks are the
manager's. -/
def giveInst (s : State) : State :=
  let t := takeInst s
  if s.gallery.role = 1 then t else recordAlone t 0 (.instNext t.keys.instNext)

/-- A face that is created here: the number it takes (R205), and its first marks. -/
def numberFace (s : State) (algo : Nat) : Option Face → State × Option Face
  | none => (s, none)
  | some f =>
    if needsInst algo f.cls then (giveInst s, some (bornFace f ((nextInst s).getD 0)))
    else (s, some (bornFace f 0))

/-- A secret takes its slots and its faces their numbers; none when the pool is empty. -/
def placeNew (s : State) (sec : Secret) : Option (State × Nat × Secret) :=
  match takeSlots (slotsFor sec.material.length) (slotLimit s) s.keys with
  | some (h :: r, k) =>
    (let a := numberFace (modKeys s (fun _ => k)) sec.algo sec.face0
     let b := numberFace a.1 sec.algo sec.face1
     some (b.1, h, { sec with chain := r, face0 := a.2, face1 := b.2 }))
  | _ => none

/-- A body with the slots that it takes and what its domain has now: what the journal record carries. -/
def placeBody (s : State) (d : Nat) : MutBody → State × MutBody
  | .create sec n =>
    (match placeNew s sec with
      | some (s, h, x) => (s, .grant h (nextCheck s.keys h) x)
      | none => (s, .create sec n))
  | .grant slot check sec =>
    if sec.chain.length + 1 = slotsFor sec.material.length then (s, .grant slot check sec)
    else
      (match takeSlots (slotsFor sec.material.length - 1) (slotLimit s) s.keys with
        | some (r, k) => (modKeys s (fun _ => k), .grant slot check { sec with chain := r })
        | none => (s, .grant slot check sec))
  | .root v _ _ _ _ =>
    (let x := domD s d
     (s, .root v x.set x.threshold x.window x.epoch))
  | .custodians set t w _ => (s, .custodians set t w ((domD s d).epoch + 1))
  | b => (s, b)

/-- Install a secret at its head slot under a check value. -/
def install (s : State) (slot check : Nat) (sec : Secret) : State := modKeys s (fun k => storeSecret k slot check sec)

/-- A face that a commit changes: a pinned cache entry keeps its old copy (R19, R189). One that goes takes its entry, its
entries of the handle maps and the partner's counts with it (R189, R580). -/
def dropRefs (s : State) (slot n : Nat) : State :=
  let s := modKeys (splitPins s slot n) (fun k => { k with cache := k.cache.filter (fun c => c != cacheKey slot n) })
  { s with
    net := { s.net with alcoves := tmap s.net.alcoves (fun _ x =>
      { x with handleMap := tfilter x.handleMap (fun _ h => hSlot h != slot || hFace h != n) }) }
    twin := { s.twin with uses := tdel s.twin.uses (2 * slot + n), invs := tdel s.twin.invs (2 * slot + n) } }

/-- Destroy a secret with both faces: its slots are freed (R182, R183). -/
def wipeSecret (s : State) (slot : Nat) : State :=
  if thas s.keys.secrets slot then modKeys (dropRefs (dropRefs s slot 0) slot 1) (fun k => wipeSecretKeys k slot) else s

/-- Destroy a face; the secret goes with its last one. -/
def wipeFace (s : State) (slot n : Nat) : State :=
  if thas s.keys.secrets slot then modKeys (dropRefs s slot n) (fun k => wipeFaceKeys k slot n) else s

/-- A root has committed: its witness sequence resumes, and the domain's Landing 5 keys are derived
(R258, R259, R276). -/
def takeRoot (s : State) (d : Nat) : State :=
  let s := setDom s d (fun x => { x with opened := true, archKey := archiveKey s d (journalVector s) })
  admitTasks (deriveDomain (resumeWitness s d) d)

/-- The registered keys of an alcove that the partner serves. -/
def modMirrorKeys (s : State) (a : Nat) (f : List (Bytes × Role) → List (Bytes × Role)) : State :=
  modTwin s (fun t => { t with mirrorKeys := tput t.mirrorKeys a (f (tgetD t.mirrorKeys a [])) })

/-- `CLIENT_KEY_SET` (R235, R660). -/
def setClients (s : State) (a : Nat) (adds removes : List Bytes) : State :=
  match alc s a with
  | some x => putKeys s a (clientsSet adds removes x.keys)
  | none => if thas s.twin.alcoves a then modMirrorKeys s a (clientsSet adds removes) else s

/-- The proof secret of an alcove (R265). -/
def setProof (s : State) (a : Nat) (v : Bytes) : State :=
  if thas s.net.alcoves a then modAlc s a (fun x => { x with proof := some v })
  else if thas s.twin.alcoves a then modTwin s (fun t => { t with mirrorProof := tput t.mirrorProof a v })
  else s

/-- `ALCOVE_CREATE` and `ALCOVE_CONFIGURE` (R661). The flag says whether the alcove resets here. -/
def setAlcove (s : State) (x : AlcoveSettings) (keys : List Bytes) (new : Bool) : State × Bool :=
  let a := x.alcove
  if new then (createAlcove s x (stewardsSet keys []) true, false)
  else
    match alc s a with
    | some y =>
      (let r := changeAlcove s a y x true
       (putStewards r.1 a keys, r.2))
    | none =>
      (modMirrorKeys (modTwin s (fun t => { t with alcoves := tmod t.alcoves a (fun r => { r with set := x }) })) a
        (stewardsSet keys), false)

/-- `ALCOVE_REMOVE` (R99, R662). -/
def dropAlcove (s : State) (a : Nat) : State × Bool :=
  if thas s.net.alcoves a then (beginRemove s a, true)
  else
    (modTwin s (fun t => { t with alcoves := tdel t.alcoves a, mirrorKeys := tdel t.mirrorKeys a
                                  mirrorProof := tdel t.mirrorProof a }), false)

/-- An entry of the handle map of an alcove (R580). -/
def mapHandleOf (s : State) (a old new : Nat) : State := modAlc s a (fun x => { x with handleMap := tput x.handleMap old new })

/-- Apply a mutation, whose slots are placed, to the key store and cache. The flag says whether the command goes
on waiting for an alcove. -/
def applyBody (s : State) (d : Nat) (w : Option Nat) (b : MutBody) : State × Option Nat :=
  let store := fun (s : State) => modKeys s (fun k => storeBody s.time d k b)
  match b with
  | .create _ _ => (s, none)
  | .grant _ _ _ => (store s, none)
  | .destroyFace slot n => (wipeFace s slot n, none)
  | .revoke slot n => (wipeFace s slot n, none)
  | .destroySecret slot => (wipeSecret s slot, none)
  | .restrict slot n _ _ _ _ _ => (store (splitPins s slot n), none)
  | .share slot n _ => (store (splitPins s slot n), none)
  | .use _ _ => (s, none)
  | .quota _ _ => (store s, none)
  | .alcoveReset a => (resetAlcove s a w, some a)
  | .root _ _ _ _ _ => (takeRoot (store s) d, none)
  | .custodians _ _ _ _ => (store s, none)
  | .proofSecret a v => (setProof s a v, none)
  | .clientKeys a adds removes => (setClients s a adds removes, none)
  | .alcoveSet x keys new =>
    (let r := setAlcove s x keys new
     (r.1, if r.2 then some x.alcove else none))
  | .alcoveRemove a =>
    (let r := dropAlcove s a
     (r.1, if r.2 then some a else none))
  | .gapAck _ => (endSeal { s with bb := bbRewrite { s.bb with gap := 0 } }, none)
  | .mark _ => (s, none)
  | .instNext _ => (store s, none)
  | .alcovesLoad _ => (s, none)
  | .mapped a old new => (mapHandleOf s a old new, none)

/-- How many handles the response of a mutation carries. -/
def handlesOf : MutBody → Nat
  | .create _ n => n
  | .grant _ _ _ => 1
  | _ => 0

/-- The handles of the faces of a placed secret, face 0 first. -/
def newHandles (s : State) : MutBody → Bytes
  | .grant slot _ sec =>
    (if sec.face0.isSome then be 8 (handleOf s slot 0) else []) ++ (if sec.face1.isSome then be 8 (handleOf s slot 1) else [])
  | _ => []

/-! ### The journal -/

/-- The command that a mutation belongs to, as its record names it. -/
def originOf (s : State) (m : Mutation) : Option (Nat × Nat × Nat) :=
  (m.work.bind (wrk s)).map (fun k => (k.alcove, k.session, k.seq))

/-- A root commits under number 1 (R195). -/
def restartSeq (s : State) (d : Nat) (b : MutBody) : State :=
  if isRoot b then setDom s d (fun x => { x with seqNo := 1 }) else s

/-- The command of a mutation completes, or goes on waiting for its alcove (R119, R661, R662). -/
def endMutation (s : State) (m : Mutation) (handles : Bytes) (wait : Option Nat) : State :=
  match m.work with
  | none => s
  | some w =>
    match wait with
    | some a => modWork s w (fun k => { k with stage := .waitAlcove a })
    | none =>
      let meters := ((wrk s w).bind (fun k => k.carry)).elim [] (fun r => r.meters)
      complete s w stOk (m.resp ++ Config.fixLen (8 * handlesOf m.body) handles) meters

/-- Take the head of a domain's pending mutations off. -/
def popMut (s : State) (d : Nat) : State := setDom s d (fun x => { x with pending := x.pending.drop 1 })

/-- Steps 1 and 2 of R196 on the side that sequences the domain: a mutation that no longer applies ends its command; the
record of another goes to the journal and to the twin. -/
def placeHead (s : State) (d : Nat) (m : Mutation) : State × Option JournalRec :=
  let q := quorumAgain s m
  let fail := fun (s : State) (st : Nat) => (m.work.elim (popMut s d) (fun w => failWork (popMut s d) w st), none)
  if q.1 = false then fail q.2 stDeniedQuorum
  else
    match mutRefused q.2 d m with
    | some st => fail q.2 st
    | none =>
      let p := placeBody q.2 d m.body
      let x := sequence (restartSeq p.1 d m.body) d (mutKind m.body) m.side (originOf p.1 m) p.2
      let s := setDom x.2 d (fun y => { y with pending := { m with placed := some x.1, quorum := none } :: y.pending.drop 1 })
      (s, some x.1)

/-- Steps 3 and 4 of R196: the head, whose record is held, applies at the commit point, and its command completes. -/
def applyHead (s : State) (d : Nat) (m : Mutation) (r : JournalRec) : State :=
  let x := applyBody (popMut s d) d m.work r.body
  endMutation x.1 m (newHandles x.1 r.body) x.2

/-- The head of a domain that this side sequences. Without a partner the four steps run at once; in a joined pair the first
`MUTATION_COMMIT` of a mutation sends its record, and the next one is the twin's report that it holds it (R196; DESIGN
CHOICE, log 106). -/
def commitHere (s : State) (d : Nat) (m : Mutation) : State :=
  match m.placed with
  | some r => if s.twin.state = .joined ∧ s.twin.link ≠ 3 then s else applyHead s d m r
  | none =>
    if journalTakes s m.size = false then s
    else
      match placeHead s d m with
      | (s, none) => s
      | (s, some r) => if twinned s then s else applyHead s d m r

/-- Forward the head to the sequencing side (R552): the quorum check runs here and ends the ticket. -/
def forwardHead (s : State) (d : Nat) (m : Mutation) : State :=
  let q := quorumAgain s m
  if q.1 = false then m.work.elim (popMut q.2 d) (fun w => failWork (popMut q.2 d) w stDeniedQuorum)
  else
    let r : JournalRec :=
      { seq := 0, domain := d, kind := mutKind m.body, side := s.twin.side, origin := originOf s m, body := m.body }
    emit (setDom q.2 d (fun x => { x with pending := { m with sent := true, quorum := none } :: x.pending.drop 1 }))
      (.forwardMutation r m.epoch)

/-! ### Records of the partner -/

/-- A use or a mark of the partner: its uses count against the sum of both sides, its invocation marks are kept for a copy
of the store (R206, R555). -/
def partnerUse (s : State) (r : JournalRec) : State :=
  if r.side = s.twin.side then s
  else
    let add := fun (mark : Bool) (i : Nat) => modTwin s (fun t => { t with uses := tput t.uses i (partnerAdd mark (tgetD t.uses i 0)) })
    match r.body with
    | .use slot n => add false (2 * slot + n)
    | .mark (.use slot n) => add true (2 * slot + n)
    | .mark (.invocation slot n) =>
      modTwin s (fun t => { t with invs := tput t.invs (2 * slot + n) (tgetD t.invs (2 * slot + n) 1 + 1) })
    | _ => s

/-- A mark of this side that the partner has sequenced rises here (R552). -/
def ownMark (s : State) (r : JournalRec) : State :=
  match r.body with
  | .mark m =>
    if r.side = s.twin.side ∧ s.twin.marksSent.contains m then
      liftMark (modTwin s (fun t => { t with marksSent := t.marksSent.filter (fun x => x != m) })) m
    else s
  | _ => s

/-- Whether the head of a domain is the command of a record. -/
def isOwn (s : State) (d : Nat) (r : JournalRec) : Option Mutation :=
  match (domD s d).pending with
  | m :: _ => if m.sent ∧ r.side = s.twin.side ∧ mutKind m.body = r.kind ∧ originOf s m = r.origin then some m else none
  | [] => none

/-- Whether a record is a use or a mark of a counter, which changes no key store of the other side. -/
def isMark (k : MutKind) : Bool :=
  k == .invMark || k == .useMark || k == .use || k == .witnessMark || k == .proofMark || k == .epochMark

/-- Remember that the record of a command of the partner is applied, with the handles that it made (R564). -/
def noteApplied (s : State) (r : JournalRec) (handles : Bytes) : State :=
  match r.origin with
  | some (a, i, q) =>
    if r.side = s.twin.side then s
    else modTwin s (fun t => { t with applied := t.applied ++ [(a, i, q, handles)] })
  | none => s

/-- Apply a record that this side holds; the command that it belongs to completes here (R552). -/
def applyRecord (s : State) (r : JournalRec) : State :=
  let d := r.domain
  let s := modTwin s (fun t => { t with
    held := t.held.filter (fun x => x != r)
    commits := tput t.commits d (max (tgetD t.commits d 0) r.seq) })
  let own := isOwn s d r
  let s := if own.isSome then popMut s d else s
  let s := ownMark (partnerUse s r) r
  let x := if isMark r.kind then (s, none) else applyBody s d (own.bind (fun m => m.work)) r.body
  let s := journalAdd (setDom x.1 d (fun y => { y with seqNo := r.seq + 1 })) r
  match own with
  | some m => endMutation s m (newHandles s r.body) x.2
  | none => noteApplied s r (newHandles s r.body)

/-- The oldest record of a domain that this side holds. -/
def heldFirst (s : State) (d : Nat) : Option JournalRec := s.twin.held.find? (fun r => r.domain == d)

/-- One step of a domain's sequencing: a held record of the partner's sequencer, or the head mutation. A
forwarded one that no longer applies gets the status that the equal store of the partner gives it (DEDUCED, log
35) (DEDUCED, log 35). -/
def commitStep (s : State) (d : Nat) : State :=
  match (domD s d).pending, seqHere s d with
  | [], true => s
  | m :: _, true => commitHere s d m
  | l, false =>
    match heldFirst s d with
    | some r => if journalTakes s (recordSize r.body) then applyRecord s r else s
    | none =>
      match l with
      | [] => s
      | m :: _ =>
        if journalTakes s m.size = false then s
        else if m.sent = false then forwardHead s d m
        else
          match mutRefused s d m with
          | some st => m.work.elim (popMut s d) (fun w => failWork (popMut s d) w st)
          | none => s

/-- `MUTATION_COMMIT`. -/
def execMutationCommit (domain : Nat) (s : State) : Out := .next (commitStep s domain)

/-! ### Marks (R207, R209, R267, R276, R304, R665) -/

/-- Whether the next mark of a counter is due: its next value has come half-way to the mark. -/
def markNeeded (next mark : Nat) : Bool := decide (mark * 2 ^ 20 ≤ next) || markDue next mark

/-- The domain whose journal holds a mark that is due; none when it is not. -/
def markDomain (s : State) : MarkRef → Option Nat
  | .invocation slot n =>
    (match (tget s.keys.secrets slot).bind (fun x => (faceAt x n).map (fun f => (x, f))) with
      | some (x, f) => if needsInst x.algo f.cls ∧ markNeeded f.nextInv f.invMark then some x.domain else none
      | none => none)
  | .use slot n =>
    (match (tget s.keys.secrets slot).bind (fun x => (faceAt x n).map (fun f => (x, f))) with
      | some (x, f) =>
        if 2 ^ 20 < f.limit ∧ markNeeded f.uses f.useMark ∧ f.useMark * 2 ^ 20 + partnerUses s slot n f < f.limit then some x.domain
        else none
      | none => none)
  | .proof => if markNeeded s.keys.proofNext s.keys.proofMark then some 0 else none
  | .witness d => if (domD s d).root.isSome ∧ markNeeded (domD s d).witSeq (domD s d).witMark then some d else none
  | .epoch a => (alc s a).bind (fun x => if markNeeded x.epoch x.epochMark then some x.set.domain else none)

/-- `INVOCATION_MARK_COMMIT`. On the side that does not sequence the domain the mark is forwarded, once, and rises when its
record returns (R552). -/
def execInvocationMarkCommit (r : MarkRef) (s : State) : Out :=
  .next (match markDomain s r with
    | none => s
    | some d =>
      if journalTakes s (recordSize (.mark r)) = false then s
      else if seqHere s d then rerunStreams (liftMark (recordAlone s d (.mark r)) r)
      else if s.twin.marksSent.contains r then s
      else recordAlone (modTwin s (fun t => { t with marksSent := t.marksSent ++ [r] })) d (.mark r))

/-! ### The Archive -/

/-- Commands that wait for a snapshot complete. -/
def wakeSnapshot (s : State) : State :=
  (tkeys s.net.work).foldl (fun s w =>
    match wrk s w with
    | some k => if k.stage = .waitEpoch 7 0 [] then okWork s w [] else s
    | none => s) s

/-- `SNAPSHOT_COMPLETE` (R203, R255, R257, R514): the snapshot takes the older partition under the running vector and is
marked current, and the Archive journal keeps only the records that it does not cover. The other partition is zeroised when
the running vector had risen above it or it did not open, with the old journal. -/
def execSnapshotComplete (s : State) : Out :=
  .next (match s.keys.snapping with
    | none => s
    | some a =>
      let new := sealSnap s a
      let void := vectorRises s || !s.keys.oldJournal.isEmpty || !archiveOpens s
      let put := fun (k : Keys) =>
        if k.current = 0 then { k with current := 1, snap1 := new, snap0 := if void then archiveReset else k.snap0 }
        else { k with current := 0, snap0 := new, snap1 := if void then archiveReset else k.snap1 }
      let s := modKeys s (fun k => { put k with
        snapping := none, oldJournal := []
        archJournal := k.archJournal.filter (fun r => decide (tgetD a.last r.body.domain 0 < r.body.seq))
        domains := tmap k.domains (fun d x => if x.archKey.isEmpty then x else { x with archKey := archiveKey s d new.vector }) })
      wakeSnapshot s)

/-- `ARCHIVE_JOURNAL_WRITE` (R200, R203): the oldest `records` of the pending journal are written; at 384 MiB
since the snapshot a new one begins. -/
def execArchiveJournalWrite (records : Nat) (s : State) : Out :=
  .next (let t := modKeys s (fun k => { k with journal := k.journal.drop records, archJournal := k.archJournal ++ k.journal.take records })
    if 384 * 2 ^ 20 ≤ recordsLen t.keys.archJournal then beginSnap t else t)

/-- The time between two refreshes of an Archive block: 24 hours above 125 °C junction, else 30 days (R28). -/
def refreshPeriod (s : State) : Nat :=
  if 125 * 8 < s.power.hottest.toInt then 24 * 3600 * 10 ^ 9 else 30 * 24 * 3600 * 10 ^ 9

/-- `ARCHIVE_REFRESH_DUE` (R28), with what the hottest and the coolest die sensor show (R655): a block whose period has
passed is refreshed, once no journal write waits. -/
def execArchiveRefreshDue (block : Nat) (s : State) (hottest coolest : BitVec 16 := 0) : Out :=
  .next (if s.power.powered = false then s
    else
      let s := modPower s (fun p => { p with hottest := hottest, coolest := coolest })
      if s.keys.journal.isEmpty = false ∨ s.time < tgetD s.keys.refreshed block 0 + refreshPeriod s then s
      else modKeys s (fun k => { k with refreshed := tput k.refreshed block s.time }))

/-! ### Granted faces, epochs and sequencers -/

/-- Whether a granted face has passed its not after and no mutation that destroys it waits (R575). -/
def grantOver (s : State) (x : Secret) (slot n : Nat) : Bool :=
  x.granted && ((faceAt x n).map (fun f => decide (f.notAfter < tallySec s))).getD false
    && !(domD s x.domain).pending.any (fun m => m.body == .destroyFace slot n)

/-- `GRANT_EXPIRY`. -/
def execGrantExpiry (slot : Nat) (s : State) : Out :=
  .next (match tget s.keys.secrets slot with
    | none => s
    | some x =>
      ([0, 1] : List Nat).foldl (fun s n =>
        if grantOver s x slot n then mutateAlone s x.domain 0 (.destroyFace slot n) else s) s)

/-- `ADMISSION_EPOCH` (R155): every 10 µs, with the values that wait for it (R141, R159, R532, R661). -/
def execAdmissionEpoch (s : State) : Out :=
  .next (if s.power.powered ∧ s.boot.epochAt + 10000 ≤ s.time then settleLoads (takeWaiting (epoch s)) else s)

/-- `SEQUENCER_MOVE` (R550): in a cycle in which no mutation of the domain is between steps 2 and 3. -/
def execSequencerMove (domain : Nat) (s : State) : Out :=
  .next (match dom s domain with
    | none => s
    | some x =>
      match x.nextSide with
      | none => s
      | some t =>
        if x.pending.any (fun m => m.sent || m.placed.isSome) ∨ (heldFirst s domain).isSome then s
        else setDom s domain (fun y => { y with sequencer := t, nextSide := none }))

end Sys2Proof.Machine
end

