-- ==== Sys2Proof/Machine/Adopt.lean ====
section
/-! DEFINITION. An alcove that this side begins to serve from a record: at a takeover (R562, R565), at the new home
of a planned move (R569) and at the destination of a migration (R577 to R581). The announcements of its addresses
(R562), the exact state of its sessions, and the model's own serialisation of that state for migration chunks
(log 20). -/

namespace Sys2Proof.Machine

/-! ### Announcements (R562, items 6 and 7) -/

/-- One round: a gratuitous ARP or an unsolicited neighbour advertisement for every address, with priority 0 on the lowest
sub-link whose link is up (DESIGN CHOICE, log 100). -/
def announce (s : State) (a : Nat) : State :=
  match alc s a with
  | none => s
  | some x =>
    let link := ((List.range 8).find? (linkUp s)).getD 0
    (ipsOf x.set).foldl (fun s i => sendOut s link 0 (.announce i.1 i.2 x.set.mac)) s

/-- The first round, with two more to follow 1 ms apart. -/
def announceFirst (s : State) (a : Nat) : State :=
  modTwin (announce s a) (fun t => { t with
    rounds := t.rounds.filter (fun r => r.1 != a) ++ [(a, 2)], roundAt := s.time + 10 ^ 6 })

/-- `ADDRESS_MOVED`, with this side in its detail (DEDUCED, log 88). -/
def addressMoved (s : State) (a : Nat) : State := postEvent s a 8 0 0xFF 0xFF 0 s.twin.side

/-! ### Alcoves from records -/

/-- A slice from a record. Its dirty log, which no record carries, is all ones (R562). -/
def sliceFrom (now : Nat) (r : SliceRec) : Slice :=
  { handle := r.handle, mech := r.mech, frameRate := r.frameRate, byteRate := r.byteRate
    frameTok := r.frameRate * 10 ^ 6, byteTok := r.byteRate * 10 ^ 6, tokAt := now, qp := r.qp, region := r.region
    immediate := r.immediate, logging := r.logging, suspended := r.suspended, words := r.words
    dirty := tinit r.words (fun _ => BitVec.allOnes 64) }

/-- Open an alcove from its record: its slices, its queue pairs in the reset state, and its Landing 5 keys. What the
record does not carry comes from the journal. -/
def serveRecord (s : State) (r : AlcoveRecord) (keys : List (Bytes × Role)) (proof : Option Bytes) : State :=
  let a := r.set.alcove
  let x := { fromKept (keptAt s.keys.archive a r.set.domain) r.set keys with gen := r.gen, proof := proof }
  let s := { s with net := { s.net with
    slices := r.slices.foldl (fun t y => tput t (sliceKey a y.pid) (sliceFrom s.time y)) s.net.slices
    qps := r.qps.foldl (fun t q => tput t q (qpFresh a)) s.net.qps } }
  openAlcove (putAlc s a x) a

/-- Serve an alcove of the partner from what this side holds of it. -/
def openRecord (s : State) (a : Nat) : State :=
  match tget s.twin.alcoves a with
  | none => s
  | some r =>
    let s := serveRecord s r (tgetD s.twin.mirrorKeys a []) (tget s.twin.mirrorProof a)
    modTwin s (fun t => { t with
      alcoves := tdel t.alcoves a, mirrorKeys := tdel t.mirrorKeys a, mirrorProof := tdel t.mirrorProof a })

/-- An alcove stops being served here: its record stays for the partner to serve it. -/
def handAway (s : State) (a : Nat) : State :=
  match alc s a with
  | none => s
  | some x =>
    let r := alcoveRec s a x
    { s with
      net := { s.net with
        alcoves := tdel s.net.alcoves a, sessions := tfilter s.net.sessions (fun k _ => k / 256 != a)
        slices := tfilter s.net.slices (fun k _ => k / 2 ^ 20 != a), qps := tfilter s.net.qps (fun _ q => q.alcove != a)
        comps := tfilter s.net.comps (fun _ c => c.alcove != a), work := tfilter s.net.work (fun _ k => k.alcove != a) }
      twin := { s.twin with
        alcoves := tput s.twin.alcoves a r, mirrorKeys := tput s.twin.mirrorKeys a x.keys
        mirrorProof := match x.proof with
          | some p => tput s.twin.mirrorProof a p
          | none => tdel s.twin.mirrorProof a } }

/-! ### Sessions -/

/-- The exact state of an open session (R569). -/
def movedOf (i : Nat) (x : Session) : MovedSession :=
  { session := i, role := roleCode x.role, key := x.key, c2dKey := x.c2dKey, d2cKey := x.d2cKey, c2dSalt := x.c2dSalt
    d2cSalt := x.d2cSalt, highest := x.highest, bitmap := x.bitmap, nextPkt := x.nextPkt, ackVal := x.ackVal, base := x.base
    done := x.entries.filterMap (fun e => match e.2 with
      | .done st l _ q _ => some (e.1, st, l, q)
      | _ => none) }

/-- The open sessions of an alcove. -/
def movedAll (s : State) (a : Nat) : List MovedSession :=
  (sessionsOf s a).filterMap (fun i => (sess s a i).bind (fun x => if x.open_ then some (movedOf i x) else none))

/-- A session that arrives exactly; the payloads of its window are not carried (R581). -/
def sessionFrom (now sid : Nat) (m : MovedSession) : Session :=
  { sid := sid, open_ := true, key := m.key, keyId := [], role := (roleOf m.role).getD .client, c2dKey := m.c2dKey
    d2cKey := m.d2cKey, c2dSalt := m.c2dSalt, d2cSalt := m.d2cSalt, hello := [], reply := [], ephemeral := [], kemShared := []
    highest := m.highest, bitmap := m.bitmap, nextPkt := m.nextPkt, replyAt := now, lastAuth := now, ackVal := m.ackVal
    base := m.base, entries := m.done.foldl (fun t e => tput t e.1 (.done e.2.1 e.2.2.1 none e.2.2.2 0)) [], closing := none
    link := 0, seqMark := 0, devMark := 0, cliMark := 0 }

/-- Put an adopted session. -/
def adoptSession (s : State) (a i : Nat) (f : Nat → Session) : State :=
  let s := putSess s a i (f s.net.nextSid)
  { s with net := { s.net with nextSid := s.net.nextSid + 1 } }

def adoptMoved (s : State) (a : Nat) (l : List MovedSession) : State :=
  l.foldl (fun s m => adoptSession s a m.session (fun sid => sessionFrom s.time sid m)) s

/-! ### Serialisation (log 20) -/

/-- The 72 bytes of an `ALCOVE` item (R521). -/
def alcoveItem (x : AlcoveSettings) : Bytes :=
  be 2 x.alcove ++ be 2 x.domain ++ be 6 x.mac ++ be 2 x.vlan ++ be 2 x.udp
    ++ be 1 (b2n x.ipv4.isSome + 2 * b2n x.ipv6a.isSome + 4 * b2n x.ipv6b.isSome) ++ [0]
    ++ be 4 (x.ipv4.getD 0) ++ be 16 (x.ipv6a.getD 0) ++ be 16 (x.ipv6b.getD 0) ++ be 2 x.assemblyUs ++ be 2 x.modUs
    ++ be 2 x.idleS ++ be 1 x.modCount ++ [0] ++ be 4 x.retention ++ be 2 x.share ++ zeros 2 ++ be 4 x.poolShare

/-- The 61 bytes of a slice. -/
def sliceBytes (r : SliceRec) : Bytes :=
  let g := r.region.getD (0, 0, 0)
  be 4 r.pid ++ be 8 r.handle ++ be 2 r.mech ++ be 8 r.frameRate ++ be 8 r.byteRate ++ be 1 (b2n r.qp.isSome)
    ++ be 2 (r.qp.getD 0) ++ be 1 (b2n r.region.isSome) ++ be 8 g.1 ++ be 8 g.2.1 ++ be 4 g.2.2 ++ be 1 (b2n r.immediate)
    ++ be 1 (b2n r.logging) ++ be 1 (b2n r.suspended) ++ be 4 r.words

def sliceParse (b : Bytes) : SliceRec :=
  { pid := fld b 0 4, handle := fld b 4 8, mech := fld b 12 2, frameRate := fld b 14 8, byteRate := fld b 22 8
    qp := if fld b 30 1 = 1 then some (fld b 31 2) else none
    region := if fld b 33 1 = 1 then some (fld b 34 8, fld b 42 8, fld b 50 4) else none
    immediate := fld b 54 1 == 1, logging := fld b 55 1 == 1, suspended := fld b 56 1 == 1, words := fld b 57 4 }

/-- What the state pages of an alcove hold: settings, generation, proof secret, keys and slices (DEDUCED, log
87) (DEDUCED, log 87). -/
def alcoveState (s : State) (a : Nat) (x : Alcove) : Bytes :=
  let r := alcoveRec s a x
  alcoveItem x.set ++ be 1 x.gen ++ be 1 (b2n x.proof.isSome) ++ Config.fixLen 32 (x.proof.getD []) ++ be 2 x.keys.length
    ++ x.keys.flatMap (fun k => be 1 (roleCode k.2) ++ Config.fixLen 32 k.1) ++ be 4 r.slices.length
    ++ r.slices.flatMap sliceBytes

/-- The same read back: record without queue pairs, keys and proof secret. -/
def alcoveParse (b : Bytes) : AlcoveRecord × List (Bytes × Role) × Option Bytes :=
  let n := fld b 106 2
  let o := 108 + 33 * n
  let keys := (List.range n).map (fun i => (slice b (109 + 33 * i) 32, (roleOf (fld b (108 + 33 * i) 1)).getD .client))
  let m := fld b o 4
  ({ set := alcoveOf (b.take 72), gen := fld b 72 1
     slices := (List.range m).map (fun i => sliceParse (slice b (o + 4 + 61 * i) 61)), qps := [] },
    keys, if fld b 73 1 = 1 then some (slice b 74 32) else none)

/-- A live session: 260 bytes and 11 for each done entry. -/
def movedBytes (m : MovedSession) : Bytes :=
  be 1 m.session ++ be 1 m.role ++ Config.fixLen 32 m.key ++ Config.fixLen 32 m.c2dKey ++ Config.fixLen 32 m.d2cKey
    ++ Config.fixLen 4 m.c2dSalt ++ Config.fixLen 4 m.d2cSalt ++ be 8 m.highest ++ be 128 m.bitmap.toNat ++ be 8 m.nextPkt
    ++ be 4 m.ackVal ++ be 4 m.base ++ be 2 m.done.length
    ++ m.done.flatMap (fun e => be 4 e.1 ++ be 2 e.2.1 ++ be 4 e.2.2.1 ++ be 1 e.2.2.2)

def movedParse (b : Bytes) : MovedSession :=
  { session := fld b 0 1, role := fld b 1 1, key := slice b 2 32, c2dKey := slice b 34 32, d2cKey := slice b 66 32
    c2dSalt := slice b 98 4, d2cSalt := slice b 102 4, highest := fld b 106 8, bitmap := BitVec.ofNat 1024 (fld b 114 128)
    nextPkt := fld b 242 8, ackVal := fld b 250 4, base := fld b 254 4
    done := (List.range (fld b 258 2)).map (fun i =>
      (fld b (260 + 11 * i) 4, fld b (264 + 11 * i) 2, fld b (266 + 11 * i) 4, fld b (270 + 11 * i) 1)) }

/-- The sessions at the front of a run of them, with what follows. -/
def movedList : Nat → Bytes → List MovedSession × Bytes
  | 0, b => ([], b)
  | n + 1, b =>
    let r := movedList n (b.drop (260 + 11 * fld b 258 2))
    (movedParse b :: r.1, r.2)

/-- The 48 bytes of a queue pair. -/
def qpBytes (n : Nat) (q : Qp) : Bytes :=
  be 2 n ++ be 1 (match q.state with
    | .reset => 0
    | .connected => 1
    | .error => 2) ++ be 1 q.timeout ++ be 1 q.retries ++ be 1 q.rnr ++ be 2 q.mtu ++ be 20 q.peer ++ be 4 q.psn ++ be 8 q.rate
    ++ be 8 q.linkRate

def qpParse (now a : Nat) (b : Bytes) : Nat × Qp :=
  (fld b 0 2,
    { qpFresh a with
      state := if fld b 2 1 = 0 then .reset else if fld b 2 1 = 1 then .connected else .error
      timeout := fld b 3 1, retries := fld b 4 1, rnr := fld b 5 1, left := fld b 4 1, rnrLeft := fld b 5 1
      mtu := fld b 6 2, peer := fld b 8 20, psn := fld b 28 4, rate := fld b 32 8, linkRate := fld b 40 8, lastStep := now })

/-- The live state of a final chunk: sessions, then queue pairs. -/
def liveBytes (s : State) (a : Nat) : Bytes :=
  let l := movedAll s a
  let q := s.net.qps.filter (fun e => e.2.alcove == a)
  be 1 l.length ++ l.flatMap movedBytes ++ be 2 q.length ++ q.flatMap (fun e => qpBytes e.1 e.2)

/-- The same read back. -/
def liveParse (now a : Nat) (b : Bytes) : List MovedSession × List (Nat × Qp) :=
  let r := movedList (fld b 0 1) (b.drop 1)
  (r.1, (List.range (fld r.2 0 2)).map (fun i => qpParse now a (slice r.2 (2 + 48 * i) 48)))

end Sys2Proof.Machine
end

