-- ==== Sys2Proof/Machine/GalleryCmd.lean ====
section
/-! DEFINITION. Pairing and galleries: `TWIN_PAIR` (R545 to R548, R558), `GRANT_INSTALL` (R572 to R576) and the
migration of alcoves (R577 to R581). -/

namespace Sys2Proof.Machine

/-! ### The pair record (R545 to R548) -/

/-- Write the pair record: the copy's `SEQ` rises by one (R548). -/
def writePair (s : State) (f : PairRec → PairRec) : State :=
  modTwin s (fun t => { t with pair := { f t.pair with seq := t.pair.seq + 1 } })

/-- A `TWIN_PAIR` with one of its functions, its quorum check passed. -/
def onPair (s : State) (w f : Nat) (g : State → Work → State) : State :=
  onWork s w 0x0B01 (fun k =>
    if fld k.payload 0 1 ≠ f then s
    else
      let n := pairEnd k.payload
      withQuorum s w 0 0x0B01 (k.payload.take n) (approvalAt k.payload n) false (fun s _ => g s k))

/-- Whether a statement verifies under the alias 4 certificate of a chain of five that leads to Golune's root
(R264). -/
def statementOk (st : Bytes) (chain : List Bytes) : Bool :=
  match chainKey chain with
  | some key => chain.length == 5 && Config.edVerify key (ascii "WSTM1" ++ st.take 938) (statementItem st 0xFF)
  | none => false

/-- Whether a side-1 device holds a secret of domains 1 to 256 (R546). -/
def sideOneHolds (s : State) : Bool := s.twin.side == 1 && s.keys.secrets.any (fun e => e.2.domain != 0)

/-- What refuses a pair request; the first case decides (R546). -/
def pairRefused (s : State) (p : Bytes) : Option Nat :=
  let st := slice p 8 1006
  let life := fld (statementItem st 0x05) 0 1
  if statementOk st ((pairChain p).getD []) = false then some stVerifyFailed
  else if statementItem st 0x01 ≠ (Config.sha512 (ascii "WTWN1" ++ deviceKeyId s)).take 32 then some stInput
  else if life ≠ lifeCode .commissioned ∧ life ≠ lifeCode .inService then some stInput
  else if fld (statementItem st 0x06) 0 1 = s.twin.side then some stInput
  else if s.twin.partnerId ≠ some (statementItem st 0x02) then some stInput
  else if s.twin.pair.paired ∨ sideOneHolds s then some stConflict
  else none

/-- `TWIN_PAIR` with `FUNCTION` 1. -/
def execTwinPair (w : Nat) (s : State) : Out :=
  .next (onPair s w 1 (fun s k =>
    match pairRefused s k.payload with
    | some st => failWork s w st
    | none =>
      let st := slice k.payload 8 1006
      let s := writePair s (fun r =>
        { r with paired := true, side := s.twin.side, epoch := 0, partner := statementItem st 0x02
                 identity := statementItem st 0x03 })
      okWork (modTwin s (fun t => { t with state := .joining, link := if t.down then 0 else 1 })) w []))

/-- Alcoves homed on the partner go: those served here under R99, the partner's with their mirrors (R547). -/
def dropPartnerHomes (s : State) : State :=
  let there := fun (a : Nat) => a != 0 && homeOf s a != s.twin.side
  let gone := (tkeys s.net.alcoves).filter there ++ tkeys s.twin.alcoves
  let s := ((tkeys s.net.alcoves).filter there).foldl beginRemove s
  let s := gone.foldl (fun s a => recordAlone s 0 (.alcoveRemove a)) s
  modTwin s (fun t => { t with alcoves := [], mirrorKeys := [], mirrorProof := [] })

/-- `TWIN_PAIR` with `FUNCTION` 2. -/
def execTwinUnpair (w : Nat) (s : State) : Out :=
  .next (onPair s w 2 (fun s _ =>
    let s := dropPartnerHomes (writePair s (fun r => { r with paired := false, partner := [], identity := [] }))
    okWork (modTwin s (fun t => { t with
      state := .unpaired, link := 0, held := [], mirrors := [], marks := [], accepts := [], applied := [], lostAt := none
      joinedAt := none })) w []))

/-- A side serves every alcove as survivor, on the sequencing side of every domain (R558, R562). -/
def surviveAll (s : State) : State :=
  let s := writePair s (fun r => { r with epoch := r.epoch + 1 })
  let s := modTwin s (fun t => { t with state := .survivor, lostAt := none, joinedAt := none })
  let side := s.twin.side
  modKeys s (fun k => { k with domains := tmap k.domains (fun _ x => { x with sequencer := side }) })

/-- `TWIN_PAIR` with `FUNCTION` 3: on a held side alone, or on one that has yielded and stays held (R561). -/
def execTwinSolo (w : Nat) (s : State) : Out :=
  .next (onPair s w 3 (fun s _ =>
    if s.twin.state = .held ∨ s.twin.state = .yielded then
      let s := (tkeys s.twin.alcoves).foldl openRecord (surviveAll s)
      okWork (openSet s (fun a => a == 0 || !s.boot.sealed_)) w []
    else failWork s w stConflict))

/-! ### Grants (R572 to R576) -/

/-- `GRANT_INSTALL` with one of its functions. -/
def onGrant (s : State) (w f : Nat) (g : Work → State) : State :=
  onWork s w 0x0B02 (fun k => if fld k.payload 0 1 = f then g k else s)

/-- Instance numbers left in the side's blocks, and 4 zero bytes. -/
def remaining (s : State) : Bytes := be 4 (sumNat (s.keys.blocks.map (fun b => b.1 + 4096 - b.2))) ++ zeros 4

/-- A block joins the allocator; one that it has already stays as it is. Number 0 is never allocated (R205). -/
def addBlock (s : State) (base : Nat) : State :=
  if s.keys.blocks.any (fun b => b.1 == base) then s
  else modKeys s (fun k => { k with blocks := k.blocks ++ [(base, max 1 base)] })

/-- `GRANT_INSTALL` with `FUNCTION` 0. -/
def execReceiveKey (w : Nat) (s : State) : Out :=
  .next (onGrant s w 0 (fun _ =>
    okWork s w (remaining s ++ Config.xPub s.gallery.recvX ++ Config.kemPub false s.gallery.recvK)))

/-- `GRANT_INSTALL` with `FUNCTION` 1. -/
def execJoin (w : Nat) (s : State) : Out :=
  .next (onGrant s w 1 (fun k =>
    let i := fld k.payload 8 1
    if s.gallery.member.isSome ∧ s.gallery.member ≠ some i then failWork s w stConflict
    else
      let s := addBlock { s with gallery := { s.gallery with member := some i, number := fld k.payload 9 1 } } (fld k.payload 12 4)
      okWork s w (remaining s)))

/-- `GRANT_INSTALL` with `FUNCTION` 2. -/
def execInstanceBlock (w : Nat) (s : State) : Out :=
  .next (onGrant s w 2 (fun k =>
    let s := addBlock s (fld k.payload 8 4)
    okWork s w (remaining s)))

/-- The 32-byte key that an envelope of R230 carries in the place of a share (R229, R573, R577). -/
def keyIn (s : State) (salt : String) (e : Bytes) : Option Bytes :=
  (openHybrid salt s.gallery.recvX s.gallery.recvK e).map (fun p => slice p 16 32)

/-- `GRANT_INSTALL` with `FUNCTION` 3. -/
def execGrantKey (w : Nat) (s : State) : Out :=
  .next (onGrant s w 3 (fun k =>
    match keyIn s "WGRK1" (k.payload.drop 16) with
    | none => failWork s w stVerifyFailed
    | some key => okWork (setDom s (fld k.payload 8 2) (fun x => { x with grantKey := key })) w (remaining s)))

/-- The domain whose grant key an envelope names (DEDUCED, log 86). -/
def grantDomain (s : State) (env : Bytes) : Option Nat :=
  (s.keys.domains.find? (fun e => !e.2.grantKey.isEmpty && wrapKid e.2.grantKey == slice env 16 8)).map (·.1)

/-- A face of a grant (R575): attributes of the envelope, the number of the grant, export *never*. -/
def grantFace (env : Bytes) (algo inst n : Nat) : Option Face :=
  (envFace 0 env n).map (fun f => { bornFace f (if needsInst algo f.cls then inst else 0) with wrapped := false })

/-- Whether a grant is refused with `INPUT_INVALID` (R575). -/
def grantBad (s : State) (slot check : Nat) (f0 f1 : Option Face) : Bool :=
  let late := fun (f : Face) => f.notAfter == 0xFFFFFFFF || decide (tallySec s + 2592000 < f.notAfter)
  decide (slot < 1572864 ∨ 2097151 < slot) || slotTaken s.keys slot || check == 0 || decide (0x3FFFFF < check)
    || (f0.toList ++ f1.toList).any late

/-- Queue the mutation of a command on a domain that is not its caller's. -/
def mutateOn (s : State) (w d : Nat) (k : Work) (body : MutBody) (resp : Bytes) : State :=
  let s := queueMut s d
    { body := body, work := some w, gen := k.gen, alcove := k.alcove, quorum := none, epoch := (domD s d).epoch
      size := recordSize body, side := s.twin.side, resp := resp, sent := false, placed := none }
  modWork s w (fun k => { k with stage := .mutating })

/-- `GRANT_INSTALL` with `FUNCTION` 4. -/
def execGrant (w : Nat) (s : State) : Out :=
  .next (onGrant s w 4 (fun k =>
    let p := k.payload
    let env := p.drop 24
    match grantDomain s env with
    | none => failWork s w stVerifyFailed
    | some d =>
      match openEnvelope (domD s d).grantKey env with
      | none => failWork s w stVerifyFailed
      | some m =>
        let algo := fld env 6 2
        let bits := fld env 8 2
        let f0 := grantFace env algo (fld p 16 4) 0
        let f1 := grantFace env algo (fld p 16 4) 1
        let slot := fld p 8 4
        if rootMissing s d ∨ facesOk algo bits f0 f1 = false then failWork s w stDeniedAttr
        else if grantBad s slot (fld p 12 4) f0 f1 then failWork s w stInput
        else if (domD s d).quota < domainUse s d + slotsFor m.length ∨ freeCount s < slotsFor m.length - 1 then
          failWork s w stBusyQuota
        else
          mutateOn s w d k (.grant slot (fld p 12 4) { newSecret d algo bits m f0 f1 with granted := true }) (remaining s)))

/-- The granted face that a handle names. -/
def grantedFace (s : State) (h : Nat) : Option (Nat × Nat × Secret) :=
  match tget s.keys.secrets (hSlot h) with
  | some x =>
    if x.granted ∧ x.domain = hDomain h ∧ tgetD s.keys.checks (hSlot h) 0 = hCheck h ∧ (faceAt x (hFace h)).isSome then
      some (hSlot h, hFace h, x)
    else none
  | none => none

/-- `GRANT_INSTALL` with `FUNCTION` 5. -/
def execRevoke (w : Nat) (s : State) : Out :=
  .next (onGrant s w 5 (fun k =>
    match grantedFace s (fld k.payload 8 8) with
    | none => failWork s w stKeyUnknown
    | some (slot, n, x) => mutateOn s w x.domain k (.revoke slot n) (remaining s)))

/-! ### Migration: what the source sends (R577 to R580) -/

/-- The fields of a migration command. -/
def migAlcove (p : Bytes) : Nat := fld p 2 2
def migNumber (p : Bytes) : Nat := fld p 4 4
def migPeer (p : Bytes) : Nat := fld p 8 1

/-- A migration command of one phase (DEDUCED, log 52). -/
def onMigrate (s : State) (w op ph : Nat) (g : Work → State) : State :=
  onWork s w op (fun k =>
    if fld k.payload 0 1 ≠ ph then s
    else if s.gallery.member = some (migPeer k.payload) then failWork s w stInput
    else g k)

/-- The 4 KiB state pages of an alcove, by index; the last is filled up with zeros. -/
def statePages (s : State) (a : Nat) (x : Alcove) : Tab Bytes :=
  let b := alcoveState s a x
  (List.range (ceilDiv b.length 4096)).map (fun i => (i, Config.fixLen 4096 (b.drop (4096 * i))))

/-- The secrets that go with an alcove: those not granted that have a face it owns. -/
def alcoveSecrets (s : State) (a : Nat) : Tab Secret :=
  tfilter s.keys.secrets (fun _ x => !x.granted
    && (x.face0.any (fun f => ownedBy f.owners a) || x.face1.any (fun f => ownedBy f.owners a)))

/-- Pages and secrets that differ from what was last sent. -/
def dirtyPages (s : State) (a : Nat) (x : Alcove) (m : Migration) : Tab Bytes :=
  tfilter (statePages s a x) (fun i b => tget m.pages i != some b)
def dirtySecrets (s : State) (a : Nat) (m : Migration) : Tab Secret :=
  tfilter (alcoveSecrets s a) (fun i x => tget m.secs i != some x)

/-- The entry of a secret in a chunk (R579). -/
def secretBytes (s : State) (slot : Nat) (x : Secret) : Bytes :=
  let rec_ := fun (n : Nat) => match faceAt x n with
    | some f => faceRecord s slot n x f
    | none => zeros 72
  let h := fun (n : Nat) => if (faceAt x n).isSome then be 8 (handleOf s slot n) else zeros 8
  h 0 ++ h 1 ++ rec_ 0 ++ rec_ 1 ++ x.material

/-- The leading entries whose sizes fit a budget. -/
def takeFit {α : Type} (size : α → Nat) : Nat → Tab α → Tab α
  | _, [] => []
  | b, e :: r => if size e.2 ≤ b then e :: takeFit size (b - size e.2) r else []

/-- Room of a chunk for pages and secrets: 1,048,560 bytes less header, tag and what a final chunk adds. -/
def chunkRoom (extra : Nat) : Nat := 1048560 - 40 - extra

/-- The pages and secrets of the next chunk. -/
def nextParts (s : State) (a : Nat) (x : Alcove) (m : Migration) (extra : Nat) : Tab Bytes × Tab Secret :=
  let pages := takeFit (fun _ => 4104) (min (240 * 4104) (chunkRoom extra)) (dirtyPages s a x m)
  (pages, takeFit (fun y => 160 + y.material.length) (chunkRoom extra - 4104 * pages.length) (dirtySecrets s a m))

/-- A chunk (R579). -/
def chunkBytes (s : State) (m : Migration) (pages : Tab Bytes) (secs : Tab Secret) (final : Bool) (live : Bytes) : Bytes :=
  let h := be 4 0x574D4947 ++ be 4 m.number ++ be 8 (m.chunk + 1) ++ be 2 pages.length ++ be 2 secs.length
    ++ be 2 (b2n final) ++ zeros 2
  let body := pages.flatMap (fun e => be 4 e.1 ++ zeros 4 ++ e.2) ++ secs.flatMap (fun e => secretBytes s e.1 e.2) ++ live
  let nonce := zeros 4 ++ be 8 (m.chunk + 1)
  let ct := Config.gcmCrypt m.key nonce body
  h ++ ct ++ Config.gcmTag m.key nonce h ct

/-- Send the next chunk of a migration. -/
def sendChunk (s : State) (w a : Nat) (x : Alcove) (m : Migration) (final : Bool) (live : Bytes) : State :=
  let r := nextParts s a x m live.length
  let y := { m with
    chunk := m.chunk + 1, phase := if final then 3 else 2
    pages := r.1.foldl (fun t e => tput t e.1 e.2) m.pages, secs := r.2.foldl (fun t e => tput t e.1 e.2) m.secs }
  okWork (modAlc s a (fun z => { z with migration := some y })) w (chunkBytes s m r.1 r.2 final live)

/-- `MIGRATE_OUT` phase 1. -/
def execMigrateOutBegin (w : Nat) (s : State) : Out :=
  .next (onMigrate s w 0x0B03 1 (fun k =>
    let a := migAlcove k.payload
    match alc s a with
    | none => failWork s w stInput
    | some x =>
      if a = 0 then failWork s w stInput
      else if x.migration.isSome ∨ x.removing then failWork s w stConflict
      else
        match keyIn s "WMIG1" (k.payload.drop 16) with
        | none => failWork s w stVerifyFailed
        | some key =>
          if 65536 < (alcoveSecrets s a).length then failWork s w stBusyQuota
          else
            sendChunk s w a x
              { number := migNumber k.payload, out := true, phase := 1, peer := migPeer k.payload, key := key, chunk := 0
                pages := [], secs := [], map := [] } false []))

/-- The migration out of an alcove that a command names, unless it is another or at another phase. -/
def migOut (s : State) (p : Bytes) (stopped : Bool) : Option (Alcove × Migration) :=
  (alc s (migAlcove p)).bind (fun x => x.migration.bind (fun m =>
    if m.out ∧ m.number = migNumber p ∧ (m.phase == 3) = stopped then some (x, m) else none))

/-- `MIGRATE_OUT` phase 2. -/
def execMigrateOutNext (w : Nat) (s : State) : Out :=
  .next (onMigrate s w 0x0B03 2 (fun k =>
    match migOut s k.payload false with
    | none => failWork s w stConflict
    | some (x, m) => sendChunk s w (migAlcove k.payload) x m false []))

/-- Whether an alcove has accepted work other than one command, or completions on their way (R569). -/
def alcoveWorks (s : State) (a w : Nat) : Bool :=
  s.net.work.any (fun e => e.2.alcove == a && e.1 != w) || s.net.comps.any (fun e => e.2.alcove == a)

/-- Begin the quiesce of an alcove: classes D2 to D5 are refused (R569). -/
def quiesce (s : State) (a : Nat) : State := modAlc s a (fun x => { x with quiesced := true })

/-- Whether everything that is dirty fits the final chunk (R578). -/
def stopFits (s : State) (a : Nat) (x : Alcove) (m : Migration) (live : Bytes) : Bool :=
  let r := nextParts s a x m live.length
  decide ((dirtyPages s a x m).length ≤ 240) && r.1.length == (dirtyPages s a x m).length
    && r.2.length == (dirtySecrets s a m).length

/-- `MIGRATE_OUT` phase 3. The command waits, quiesced, until the alcove's accepted work has completed. -/
def execMigrateOutStop (w : Nat) (s : State) : Out :=
  .next (onMigrate s w 0x0B03 3 (fun k =>
    let a := migAlcove k.payload
    match migOut s k.payload false with
    | none => failWork s w stConflict
    | some (x, m) =>
      if stopFits s a x m (liveBytes s a) = false then failWork (modAlc s a (fun y => { y with quiesced := false })) w stBusyClass
      else if alcoveWorks s a w then quiesce s a
      else
        let s := modAlc (quiesce s a) a (fun y => { y with stopped := true })
        sendChunk s w a x m true (liveBytes s a)))

/-- Faces that an alcove alone owns are destroyed. -/
def destroyOwn (s : State) (a : Nat) : State :=
  s.keys.secrets.foldl (fun s e =>
    ([0, 1] : List Nat).foldl (fun s n =>
      if ((faceAt e.2 n).map (fun f => f.owners)) = some (.list [a]) then mutateAlone s e.2.domain 0 (.destroyFace e.1 n)
      else s) s) s

/-- `MIGRATE_OUT` phase 4: the command completes when the removal is done. -/
def execMigrateOutDone (w : Nat) (s : State) : Out :=
  .next (onMigrate s w 0x0B03 4 (fun k =>
    let a := migAlcove k.payload
    match migOut s k.payload true with
    | none => failWork s w stConflict
    | some _ =>
      let s := recordAlone s 0 (.alcoveRemove a)
      beginRemove (modWork (destroyOwn s a) w (fun k => { k with stage := .waitAlcove a })) a))

/-! ### Migration: what the destination applies -/

/-- `MIGRATE_IN` phase 1. -/
def execMigrateInPrepare (w : Nat) (s : State) : Out :=
  .next (onMigrate s w 0x0B04 1 (fun k =>
    let a := migAlcove k.payload
    if a = 0 ∨ (pairAlcove s a).isSome ∨ thas s.gallery.reserved a then failWork s w stConflict
    else
      match keyIn s "WMIG1" (k.payload.drop 16) with
      | none => failWork s w stVerifyFailed
      | some key =>
        let m : Migration :=
          { number := migNumber k.payload, out := false, phase := 1, peer := migPeer k.payload, key := key, chunk := 0
            pages := [], secs := [], map := [] }
        okWork { s with gallery := { s.gallery with reserved := tput s.gallery.reserved a m } } w []))

/-- A chunk that this migration takes next: pages, secret count, flags and what follows the pages, or the status
that refuses it. -/
def openChunk (m : Migration) (c : Bytes) : Except Nat (Nat × Nat × Bool × Bytes) :=
  let h := c.take 24
  let ct := (c.drop 24).take (c.length - 40)
  let nonce := zeros 4 ++ slice h 8 8
  if fld h 0 4 ≠ 0x574D4947 ∨ zeroAt h 22 2 = false ∨ 2 ≤ fld h 20 2 then .error stFormat
  else if fld h 4 4 ≠ m.number ∨ fld h 8 8 ≠ m.chunk + 1 then .error stInput
  else if Config.gcmTag m.key nonce h ct ≠ c.drop (c.length - 16) then .error stVerifyFailed
  else .ok (fld h 16 2, fld h 18 2, fld h 20 2 == 1, Config.gcmCrypt m.key nonce ct)

/-- A face from an attribute record of R212, as a copy: its counts start anew (R180, R580). -/
def recordFace (b : Bytes) : Option Face :=
  (useOf (fld b 12 1)).map (fun c =>
    let fl := fld b 13 1
    let n := fld b 14 1
    { cls := c, payment := bitOf fl 2, wrapped := bitOf fl 0, quorum := bitOf fl 1
      owners := if n = 0 then .all else .list ((List.range n).map (fun i => fld b (16 + 2 * i) 2))
      notBefore := fld b 28 4, notAfter := fld b 32 4, limit := fld b 40 8, instance_ := fld b 24 4, uses := 0, useMark := 1
      nextInv := 0, invMark := 1, lineage := fld b 64 8 })

/-- The secret at the front of a chunk's secrets: its old handles, domain and length; none when it is no secret. -/
def secretParse (b : Bytes) : Option (Nat × Nat × Secret × Nat) :=
  let r := if zeroAt b 0 8 then slice b 88 72 else slice b 16 72
  (materialLen (fld r 8 2) (fld r 10 2)).map (fun n =>
    (fld b 0 8, fld b 8 8,
      newSecret (hDomain (fld r 0 8)) (fld r 8 2) (fld r 10 2) (slice b 160 n) (recordFace (slice b 16 72))
        (recordFace (slice b 88 72)), 160 + n))

/-- A face that a migration brings keeps its number; from another gallery of the estate it takes one of this device's
(R580, R583). -/
def movedFace (s : State) (algo : Nat) : Option Face → State × Option Face
  | none => (s, none)
  | some f =>
    if needsInst algo f.cls ∧ instHere s f.instance_ = false then (giveInst s, some { f with instance_ := (nextInst s).getD 0 })
    else (s, some f)

/-- Whether the allocator can give the faces of a secret the numbers that they need here. -/
def movedServes (s : State) (sec : Secret) : Bool :=
  (nextInst s).isSome
    || (sec.face0.toList ++ sec.face1.toList).all (fun f => !needsInst sec.algo f.cls || instHere s f.instance_)

/-- Install one secret in a new slot, or over the one that an earlier chunk brought: the handle map grows (R580). Refused
where the domain has no root (R219), where its quota or the pool cannot hold it, and where the allocator is spent (R205). -/
def takeSecret (s : State) (a : Nat) (m : Migration) (h0 h1 : Nat) (sec : Secret) : Except Nat (State × Migration) :=
  let record := fun (s : State) (slot check : Nat) (x : Secret) => install (recordAlone s sec.domain (.grant slot check x)) slot check x
  let num := fun (old new : Option Face) => match old, new with
    | some g, some f => some { f with instance_ := g.instance_ }
    | _, f => f
  match ((tget m.map h0).or (tget m.map h1)).bind (fun h => (tget s.keys.secrets (hSlot h)).map (fun old => (h, old))) with
  | some (h, old) =>
    let x := { sec with chain := old.chain, face0 := num old.face0 sec.face0, face1 := num old.face1 sec.face1 }
    .ok (record s (hSlot h) (hCheck h) x, m)
  | none =>
    if rootMissing s sec.domain then .error stDeniedAttr
    else if slotsFit s sec.domain (slotsFor sec.material.length) = false then .error stBusyQuota
    else if movedServes s sec = false then .error stCounterExh
    else
      match takeSlots (slotsFor sec.material.length) (slotLimit s) s.keys with
      | some (slot :: r, k) =>
        let f0 := movedFace (modKeys s (fun _ => k)) sec.algo sec.face0
        let f1 := movedFace f0.1 sec.algo sec.face1
        let check := nextCheck k slot
        let s := record f1.1 slot check { sec with chain := r, face0 := f0.2, face1 := f1.2 }
        let new := fun (n : Nat) => mkHandle sec.domain slot n check
        let pairs := [(h0, new 0), (h1, new 1)].filter (fun e => e.1 != 0)
        .ok (pairs.foldl (fun s e => recordAlone s sec.domain (.mapped a e.1 e.2)) s,
          { m with map := pairs.foldl (fun t e => tput t e.1 e.2) m.map })
      | _ => .error stBusyQuota

/-- Install the secrets of a chunk: what follows them, or the status that refuses. -/
def takeSecrets (a : Nat) : Nat → State → Migration → Bytes → Except Nat (State × Migration × Bytes)
  | 0, s, m, b => .ok (s, m, b)
  | n + 1, s, m, b =>
    match secretParse b with
    | none => .error stFormat
    | some (h0, h1, sec, len) =>
      match takeSecret s a m h0 h1 sec with
      | .error st => .error st
      | .ok (s, m) => takeSecrets a n s m (b.drop len)

/-- Apply a chunk to the reserved migration: the state, the migration after it and the live state it ends with. -/
def takeChunk (s : State) (a : Nat) (m : Migration) (c : Bytes) (final : Bool) : Except Nat (State × Migration × Bytes) :=
  match openChunk m c with
  | .error st => .error st
  | .ok (np, ns, fin, b) =>
    if fin ≠ final then .error stFormat
    else
      let pages := (List.range np).foldl (fun t i => tput t (fld b (4104 * i) 4) (slice b (4104 * i + 8) 4096)) m.pages
      takeSecrets a ns s { m with chunk := m.chunk + 1, pages := pages } (b.drop (4104 * np))

/-- The migration that a `MIGRATE_IN` names. -/
def migIn (s : State) (p : Bytes) : Option Migration :=
  (tget s.gallery.reserved (migAlcove p)).bind (fun m => if m.number = migNumber p then some m else none)

/-- `MIGRATE_IN` phase 2. -/
def execMigrateInPages (w : Nat) (s : State) : Out :=
  .next (onMigrate s w 0x0B04 2 (fun k =>
    match migIn s k.payload with
    | none => failWork s w stConflict
    | some m =>
      match takeChunk s (migAlcove k.payload) m (k.payload.drop 16) false with
      | .error st => failWork s w st
      | .ok (t, m, _) =>
        okWork { t with gallery := { t.gallery with reserved := tput t.gallery.reserved (migAlcove k.payload) m } } w []))

/-- The journal takes what a migration brings of its alcove beside the secrets: settings and steward keys, which persist as
those of `ALCOVE_CREATE` do (R532), client keys and proof secret. -/
def recordMigrated (s : State) (r : AlcoveRecord) (keys : List (Bytes × Role)) (proof : Option Bytes) : State :=
  let a := r.set.alcove
  let of_ := fun (x : Role) => (keys.filter (fun k => k.2 == x)).map (·.1)
  let s := recordAlone s 0 (.alcoveSet r.set (of_ .steward) true)
  let part := fun (i : Nat) => ((of_ .client).drop (64 * i)).take 64
  let s := (List.range (ceilDiv (of_ .client).length 64)).foldl (fun s i => recordAlone s r.set.domain (.clientKeys a (part i) [])) s
  match proof with
  | some v => recordAlone s r.set.domain (.proofSecret a v)
  | none => s

/-- Open the alcove that a migration has brought, announce it and report the move (R577). -/
def openMigrated (s : State) (m : Migration) (live : Bytes) : State :=
  let r := alcoveParse ((tvals m.pages).flatten)
  let a := r.1.set.alcove
  let l := liveParse s.time a live
  let s := serveRecord (recordMigrated s r.1 r.2.1 r.2.2) r.1 r.2.1 r.2.2
  let s := { s with
    net := { s.net with qps := l.2.foldl (fun t e => tput t e.1 e.2) s.net.qps }
    gallery := { s.gallery with reserved := tdel s.gallery.reserved a } }
  let s := modAlc s a (fun x => { x with handleMap := m.map, fromCmd := true })
  mirrorAlcove (addressMoved (announceFirst (adoptMoved s a l.1) a) a) a

/-- `MIGRATE_IN` phase 3. -/
def execMigrateInFinal (w : Nat) (s : State) : Out :=
  .next (onMigrate s w 0x0B04 3 (fun k =>
    match migIn s k.payload with
    | none => failWork s w stConflict
    | some m =>
      match takeChunk s (migAlcove k.payload) m (k.payload.drop 16) true with
      | .error st => failWork s w st
      | .ok (t, m, live) =>
        let r := (alcoveParse ((tvals m.pages).flatten)).1
        if r.set.alcove ≠ migAlcove k.payload then failWork s w stInput
        else if (liveParse s.time r.set.alcove live).2.any (fun e => thas s.net.qps e.1) then failWork s w stBusyQuota
        else okWork (openMigrated t m live) w []))

/-- `MIGRATE_OUT` and `MIGRATE_IN` phase 5: at the source the alcove serves on; at the destination the reservation
and the secrets that it brought go. -/
def execMigrateAbort (w : Nat) (s : State) : Out :=
  .next (if (wrk s w).any (fun k => k.opcode == 0x0B03) then onMigrate s w 0x0B03 5 (fun k =>
      let a := migAlcove k.payload
      match (alc s a).bind (fun x => x.migration) with
      | some m =>
        if m.number = migNumber k.payload then
          okWork (modAlc s a (fun x => { x with migration := none, quiesced := false, stopped := false })) w []
        else failWork s w stConflict
      | none => failWork s w stConflict)
    else onMigrate s w 0x0B04 5 (fun k =>
      match migIn s k.payload with
      | none => failWork s w stConflict
      | some m =>
        let slots := (m.map.map (fun e => hSlot e.2)).eraseDups
        let s := slots.foldl (fun s n =>
          mutateAlone s (((tget s.keys.secrets n).map (fun x => x.domain)).getD 0) 0 (.destroySecret n)) s
        okWork { s with gallery := { s.gallery with reserved := tdel s.gallery.reserved (migAlcove k.payload) } } w []))

end Sys2Proof.Machine
end

