-- ==== Sys2Proof/Machine/Start.lean ====
section
/-! DEFINITION. The start (R511 to R514), the boot-attempt record (R523 to R527), `RECOVERY` (R528, R529),
personalisation (R246) and scheduled resets (R465, R512, R534). One command runs every step that the silicon does
not hold up; a start waits in the pause of R246 and for the twin at step 10. -/

namespace Sys2Proof.Machine

def modBoot (s : State) (f : Boot → Boot) : State := { s with boot := f s.boot }
def modAttempt (s : State) (f : Attempt → Attempt) : State :=
  modBoot s (fun b => { b with attempt := f b.attempt })

/-! ### The boot-attempt record (R523 to R526) -/

/-- Code of a failure (R525). -/
def failCode : StartFail → Nat
  | .timeout => 0x01
  | .fwInvalid => 0x02
  | .ucInvalid => 0x03
  | .cfgInvalid => 0x04
  | .unitTest _ => 0x05
  | .memRow _ _ => 0x06
  | .twin => 0x07
  | .safe => 0x08
  | .puf => 0x10
  | .rngStart => 0x11
  | .aonFatal => 0x12
  | .noSpare => 0x13
  | .noSigner => 0x14

/-- Whether a failure is hard (R525). -/
def hardFail (f : StartFail) : Bool := decide (0x10 ≤ failCode f)

/-- An attempt word (R524). -/
def attemptWord (step outcome detail unit slots : Nat) : Word :=
  pack [(slots, 0), (unit, 8), (detail, 16), (outcome, 24), (step, 28)]

/-- Change the newest attempt word; the write raises `SEQ` (R523). -/
def modNewest (s : State) (f : Word → Word) : State :=
  modAttempt s (fun a => { a with words := a.words.modify a.newest f, seq := a.seq + 1 })

/-- `SLOTS` of an attempt. -/
def slotsWord (s : State) : Nat :=
  let p := s.boot.attempt.prefer
  8 * b2n (p.getLsbD 0) + 4 * b2n (p.getLsbD 1) + 2 * b2n (p.getLsbD 2) + b2n s.boot.solo

/-- Write a new attempt in progress (DEDUCED, log 24). -/
def newAttempt (s : State) (step : Nat) : State :=
  modAttempt s (fun a =>
    let n := (a.newest + 1) % 8
    { a with newest := n, words := a.words.set n (attemptWord step 1 0 0xFF (slotsWord s)), seq := a.seq + 1 })

/-- One more failed attempt (R526). -/
def addFail (s : State) : State := modAttempt s (fun a => { a with fails := min (a.fails + 1) 255 })

/-- An attempt that is still in progress was interrupted (R525). -/
def markInterrupted (s : State) : State :=
  let w := s.boot.attempt.words.getD s.boot.attempt.newest 0
  if outcomeOf w = 1 then addFail (modNewest s (fun w => (w &&& 0xF0FFFFFF) ||| 0x04000000)) else s

/-- What the newest attempt calls for, when it failed (R525). -/
def actOnFail (s : State) : State :=
  let w := s.boot.attempt.words.getD s.boot.attempt.newest 0
  let d := bitsOf w.toNat 23 16
  let u := bitsOf w.toNat 15 8
  if outcomeOf w ≠ 3 then s
  else if d = 1 ∨ d = 2 then flipPrefer s 0
  else if d = 3 then flipPrefer s 1
  else if d = 4 then flipPrefer s 2
  else if d = 5 ∧ u ≤ 64 then modAttempt s (fun a => { a with retired := setBit a.retired u })
  else if d = 7 then modAttempt s (fun a => { a with prefer := setBit a.prefer 3 })
  else s

/-- The boot ROM's work on the record at step 3: the older attempts, the mode, and the new attempt. -/
def beginAttempt (s : State) : State :=
  let s := actOnFail (markInterrupted s)
  let s := modBoot s (fun b => { b with
    solo := b.attempt.prefer.getLsbD 3, recovery := decide (8 ≤ b.attempt.fails)
    attempt := { b.attempt with prefer := clrBit b.attempt.prefer 3 } })
  newAttempt s 3

/-- The unit field of a failure, and the record with a failed row entered in the row map. -/
def failUnit (s : State) : StartFail → Nat × State
  | .unitTest u => (u, s)
  | .memRow mem row =>
    (s.boot.attempt.rows.length, modAttempt s (fun a => { a with rows := a.rows ++ [pack [(row % 2 ^ 28, 0), (mem, 28)]] }))
  | _ => (0xFF, s)

/-- A failed row whose memory has no spare row left is `NO_SPARE` (R525). -/
def rowSpare (s : State) : StartFail → StartFail
  | .memRow mem row =>
    if 32 ≤ (s.boot.attempt.rows.filter (fun w => bitsOf w.toNat 31 28 == mem)).length then .noSpare else .memRow mem row
  | f => f

/-- A start fails at a step (R512, R525, R526): the attempt is recorded, and the device resets itself 100 ms later
unless a third hard failure stops it in `SAFE`. -/
def startFail (s : State) (n : Nat) (f : StartFail) : State :=
  let f := rowSpare s f
  let s := if n < 3 then newAttempt s n else s
  let r := failUnit s f
  let s := modNewest r.2 (fun w => attemptWord n 3 (failCode f) r.1 (bitsOf w.toNat 3 0))
  let s := addFail s
  let s := if hardFail f then modAttempt s (fun a => { a with hard := min 3 (a.hard + 1) }) else s
  let s := modBoot s (fun b => { b with running := false, env := none, resetAt := some (s.time + 10 ^ 8) })
  let s := { s with stair := { s.stair with paused := false }, twin := { s.twin with waiting := false } }
  if hardFail f ∧ 3 ≤ s.boot.attempt.hard then
    enterSafe (modBoot s (fun b => { b with stopped := true, resetAt := none }))
  else s

/-! ### Steps 1 to 3 -/

/-- The main source after its start-up blocks and eight bursts in which every bank passes: every instance is
instantiated (R374, R380, R381) (DEDUCED, log 54). -/
def rngStarts (r : Rng) : Rng :=
  { r with
    source := .run, started := true, spores := r.spores + 256, buffer := 0, seeded := 1024
    inst := tinit 256 (fun _ => freshInst true) ++ (List.range 1024).map (fun a => (256 + a, freshInst false))
    aon := if r.aon.state = 2 then r.aon else { r.aon with state := 1 } }

/-- Step 1: the clocks and the store are up and the banks run. A fatal alarm raised on the backup cell alone is
recorded (R392). -/
def step1 (e : StartEnv) (s : State) : State :=
  let s := { s with
    power := { s.power with pll := 0x7F, holdup := true }
    rng := rngStarts s.rng
    twin := { s.twin with side := e.strap % 2, strap := e.strap % 2 }
    boot := { s.boot with running := true, began := s.time } }
  if s.rng.aon.state = 2 then aonFatal s else s

/-- Repair of one life-cycle copy (R462). -/
def repairCopy (pat : Word) (s : State) (n : Nat) : State :=
  let w := s.otp.copies.getD n 0
  if w = pat then s
  else if inside w pat then lcFire { s with otp := { s.otp with copies := s.otp.copies.set n pat } } 1
  else lcFire s 2

/-- The copies after the vote; a vote that fails repairs none (R461). -/
def repairCopies (s : State) : State :=
  if s.life.voteFail then s else ([0, 1, 2] : List Nat).foldl (repairCopy (lifePattern (lifeCode s.life.life))) s

/-- Whether the boot ROM treats the battery-backed bits as lost (R30) (DEDUCED, log 29). -/
def bitsLost (b : Battery) : Bool := !b.latch || b.check != bbCrc b

/-- Step 2: the vote and the repairs, the battery-backed bits, the pending evidence (R30, R452, R460 to R462). -/
def step2 (s : State) : State :=
  let s := repairCopies s
  if bitsLost s.bb then
    { s with
      bb := bbRewrite { batteryReset with gap := setBit 0 1, latch := true }
      boot := { s.boot with bbLost := true } }
  else
    let l := (List.range 16).filter (fun i => s.bb.pending.getLsbD i)
    let s := l.foldl (fun s i => commitFlag s i 0) s
    { s with bb := if l.isEmpty then s.bb else bbRewrite s.bb, boot := { s.boot with evCommit := !l.isEmpty } }

/-- Whether the boot ROM stops at step 3: in `BLANK`, in `SCRAPPED` and after a failed vote (R457, R461, R468)
(DEDUCED, log 23). -/
def romOnly (s : State) : Bool := s.life.voteFail || s.life.life == .blank || s.life.life == .scrapped

/-- Step 3: the attempt record. In `SCRAPPED` the full wipe is brought to its end (R468). -/
def step3 (s : State) : State :=
  if romOnly s then
    let s := modBoot s (fun b => { b with running := false })
    if s.life.life = .scrapped ∧ s.life.voteFail = false then
      modLife (wipeOtp (wipeFull s)) (fun l => { l with scrapDone := true })
    else s
  else beginAttempt s

/-! ### Step 4 -/

/-- Whether the device serves under a configuration image. -/
def configured (s : State) : Bool := s.life.life == .commissioned || s.life.life == .inService

/-- The configuration slot that is not preferred. -/
def cfgOther (s : State) : Config8 := if s.boot.attempt.prefer.getLsbD 2 then s.boot.cfgA else s.boot.cfgB

/-- The preferred image's section 8 digest is not the Tally's and the other slot's valid image has it: the other
slot is preferred (R603). -/
def matchTally (s : State) : State :=
  if dirDigest (cfgSlot s).head 8 ≠ s.tally.secDigest ∧ imageValid s (cfgOther s) then flipPrefer s 2 else s

/-- Whether the three firmware images of the slot in use pass (R516). -/
def fwAllOk (s : State) : Bool := ([1, 2, 3] : List Nat).all (fun c => fwOk s c ((tget (fwSlot s) c).getD []))

/-- Whether an attempt word shows that its firmware slot verified (DEDUCED, log 25). -/
def wordVerified (w : Word) : Bool := decide (5 ≤ bitsOf w.toNat 31 28) || bitsOf w.toNat 23 16 == 3

/-- Step 4: the images. In `RECOVERY` an invalid configuration image ends nothing, and a firmware slot that does not
verify while none has in the recorded attempts stops the start in `SAFE` (R528, R529). -/
def step4 (s : State) : Except (State × StartFail) State :=
  let s := if configured s then matchTally s else s
  if configured s ∧ s.boot.recovery = false ∧ imageValid s (cfgSlot s) = false then .error (s, .cfgInvalid)
  else if fwAllOk s = false then
    (if s.boot.recovery ∧ !s.boot.attempt.words.any wordVerified then
      .error (modBoot (enterSafe s) (fun b => { b with stopped := true }), .fwInvalid)
    else .error (s, .fwInvalid))
  else if ucOk (loaderRoot s) (ucSlot s) = false then .error (s, .ucInvalid)
  else .ok s

/-! ### Step 5 -/

/-- Whether the start needs a new erase secret (R244). -/
def needsSecret (s : State) : Bool := s.boot.bbLost || allZero s.bb.secret

/-- A new erase secret from the always-on source (R244). -/
def newEraseSecret (s : State) : State :=
  if needsSecret s then
    let v := drawn s 32
    let s := useFree s 32
    { s with bb := bbRewrite { s.bb with secret := v } }
  else s

/-- The seed reaches the Tally (R588, R589). -/
def seedTally (s : State) (seed : Bytes) : State :=
  match s.tally.seed with
  | none => signAll (modTally s (fun t => { t with seed := some seed }))
  | some k => if k = seed then s else pulse s 38 .degrade

/-- Inputs of the climb to landing 3 (R247, R511) (DEDUCED, log 27). -/
def thirdMeas (s : State) : Bytes :=
  let uc := (ucSlot s).drop 64
  let cfg := if configured s ∧ imageValid s (cfgSlot s) then configDigest s else zeros 64
  Config.sha512 (Config.sha512 uc ++ cfg)
def thirdSigner (s : State) : Bytes :=
  let uc := (ucSlot s).drop 64
  let key := if configured s ∧ imageValid s (cfgSlot s) then headOwner (cfgSlot s).head else zeros 32
  Config.sha512 (ucSigner uc ++ key)

/-- The climbs to landing 4 (R247, R249). -/
def climbAll (s : State) : State :=
  let img := fun (c : Nat) => (tget (fwSlot s) c).getD []
  let fw := fun (s : State) (n c : Nat) => climb s n (fwMeas (img c)) (fwSigner (img c)) (fwSvn (img c))
  let s := fw (fw s 1 1) 2 2
  fw (climb s 3 (thirdMeas s) (thirdSigner s) (ucSvn ((ucSlot s).drop 64))) 4 3

/-- The program set of the microcode slot in use, and the first microword of each of its programs (R342). -/
def ucSet (p : Bytes) : Bytes := slice p (ucSetOff p) (ucSetLen p)
def ucEntries (p : Bytes) : Tab Nat := (ucDir p).foldl (fun t e => tput t (fld e 0 1) (fld e 2 2)) []

/-- A core while it is loaded: the program set in its store, the digest of its Keccak unit over that, and the lock where the
loader finds the digest of the package (R344). -/
def loadCore (uc : Bytes) (c : PkCore) : PkCore :=
  let k := Config.hash 4 (ucSet uc)
  { c with store := ucSet uc, keccak := k, locked := k == slice uc 56 64 }

/-- An Inner core loads the program set into every core that is not retired; one whose digest does not match fails its self-test
(R344). -/
def loadCores (s : State) : Except (State × StartFail) State :=
  let uc := (ucSlot s).drop 64
  let s := { s with pk := { s.pk with
    entries := ucEntries uc
    cores := tmap s.pk.cores (fun i c => if s.boot.attempt.retired.getLsbD (8 + i) then c else loadCore uc c) } }
  match (List.range 48).find? (fun i => !s.boot.attempt.retired.getLsbD (8 + i) && !(coreAt s i).locked) with
  | some i => .error (s, .unitTest (8 + i))
  | none => .ok s

/-- The second part of step 5: the enclave table locks (R405), the program sets are loaded (R344) and the Stair
climbs. -/
def stepClimb (s : State) : Except (State × StartFail) State :=
  loadCores (climbAll { s with halls := { s.halls with lock := true } })

/-- Whether the start pauses for its certificates (R246). -/
def pauses (s : State) : Bool := s.life.life == .vendor && s.stair.idCert.isEmpty

/-- Step 5 (DEDUCED, log 33). A core of bay 0 passes the Ed25519 test before the first signature of the start, those of the
personalisation among them (R252). -/
def step5 (e : StartEnv) (s : State) : Except (State × StartFail) State :=
  if needsSecret s ∧ s.rng.aon.state = 2 then .error (s, .aonFatal)
  else
    let s := newEraseSecret s
    if e.pufOk = false then .error (pulse s 6 .safe, .puf)
    else
      let s := landingZero s e.puf
      let s := seedTally s s.stair.tally
      if (List.range 8).all (fun i => s.boot.attempt.retired.getLsbD (8 + i)) then .error (s, .noSigner)
      else if pauses s then .ok { s with stair := { s.stair with paused := true }, boot := { s.boot with env := some e } }
      else stepClimb s

/-! ### Steps 6 to 8 -/

/-- Whether the unit of a bit is retired (R269). -/
def isRetired (s : State) (bit : Nat) : Bool := s.boot.attempt.retired.getLsbD bit

/-- A unit after its tests. -/
def testedUnit (s : State) (bit : Nat) : EngineUnit :=
  { unitReset with state := if isRetired s bit then .retired else .inService }

def testedBay : BayRegs := { bayReset with kat := true, bist := true, bistDone := true }

/-- Step 6: every unit that is not retired is in service, and the tamper instances are tested (R440, R511). -/
def step6 (s : State) : State :=
  let s := { s with
    cipher := { s.cipher with
      pipes := tinit 8 (testedUnit s), bays := tinit 4 (fun _ => testedBay)
      lanes := tinit 8 (fun i => testedUnit s (56 + i)), legacy := testedUnit s 64, legReg := testedBay }
    pk := { s.pk with cores := tmap s.pk.cores (fun i c =>
      { c with
        state := if isRetired s (8 + i) then .retired else .inService, prog := 0x7F, kat := true, bist := true
        bistDone := true, seq := tgetD s.pk.entries 0x7F 0 }) }
    rng := { s.rng with cores := tinit 2 (fun _ => { unitReset with state := .inService }) }
    tamper := { s.tamper with testedAt := s.time } }
  if s.boot.attempt.retired = 0 then s else setCause s 1

/-- Step 8: the main source is in `RUN` and every instance is instantiated. -/
def step8 (s : State) : Except (State × StartFail) State :=
  if s.rng.source = .run ∧ s.rng.inst.length = 1280 then .ok s else .error (s, .rngStart)

/-! ### Steps 9 and 10 -/

/-- The newest valid image, if there is one (R528). -/
def newestValid (s : State) : Option Config8 :=
  let a := s.boot.cfgA
  let b := s.boot.cfgB
  if imageValid s a ∧ (imageValid s b = false ∨ headSerial b.head ≤ headSerial a.head) then some a
  else if imageValid s b then some b
  else none

/-- The sequencing side of every domain of the archive and of section 6 (R549). -/
def takeSequencers (s : State) (l : List (Nat × Bytes)) : State :=
  let s := (tagged l 0x0604).foldl (fun s v => setDom s (fld v 0 2) (fun x => x)) s
  { s with keys := { s.keys with domains := tmap s.keys.domains (fun d x =>
    { x with sequencer := seqSideIn l d, nextSide := none }) } }

/-- The items of section 6 that take effect at a start (R549, R550). -/
def takeGallery (s : State) (l : List (Nat × Bytes)) : State :=
  let v := firstOf l 0x0607 (zeros 4)
  { s with gallery := { s.gallery with
    role := fld v 0 1, number := fld v 1 1, estate := (tagged l 0x0609).head?, probeAt := s.time } }

/-- The sections of the image in force, but for ports, alcoves and domains. -/
def takeSections (s : State) (c : Config8) : State :=
  let b := costsNext s.boot (secItems c 4)
  let s := { s with boot := { b with margin := b.marginNext, resCipher := b.resNext.1, resPk := b.resNext.2 } }
  let s := takeTamper (takePool s (secItems c 4)) (secItems c 5)
  let s := takeGallery (takeTwin s (secItems c 6)) (secItems c 6)
  let p := countersNext s.perf (secItems c 7)
  { s with perf := { p with interval := p.intNext, sel := selectsIn (secItems c 7), selNext := [] } }

/-- Step 9: the key archive (R204, R256, R454, R514, R528, R665). -/
def step9 (e : StartEnv) (s : State) : State :=
  let only0 : Bool := s.boot.recovery || s.bb.gap != 0
  let s := if s.boot.recovery then s else takeSections s (cfgSlot s)
  let s := modBoot s (fun b => { b with sealed_ := s.bb.gap != 0 })
  let s := { s with keys := { s.keys with
    cont0 := { s.keys.cont0 with holds := s.keys.cont0.holds && e.checks.1 }
    cont1 := { s.keys.cont1 with holds := s.keys.cont1.holds && e.checks.2 } } }
  let s := if (contNow s.keys).isSome then s else pulse s 14 .degrade
  let s := loadArchive s e.archive e.torn only0
  if s.boot.recovery then
    (match newestValid s with
      | some c => takeDomains s c true
      | none => s)
  else takeSequencers (takeDomains s (cfgSlot s) only0) (secItems (cfgSlot s) 6)

/-- Step 10: a paired side brings the link up and waits for its partner; a solo start goes on held (R557, R558). -/
def step10 (e : StartEnv) (s : State) : State :=
  if s.twin.pair.paired = false then s
  else
    let s := modTwin s (fun t => { t with
      link := if e.linkUp then 2 else 1, lanes := if e.linkUp then 0xF else 0, state := .held })
    if s.boot.solo ∨ s.boot.recovery then s
    else { s with twin := { s.twin with state := .joining, waiting := true }, boot := { s.boot with env := some e } }

/-! ### Steps 11 and 12 -/

/-- Whether a port is brought up (R457, R528). -/
def portServes (s : State) (p : Nat) : Bool :=
  if configured s then p == 0 || !s.boot.recovery else s.life.life == .transit && p == 0

/-- A port is configured and its module reset and brought up (R33, R41, R646). -/
def bringPort (s : State) (l : List (Nat × Bytes)) (p : Nat) : State :=
  if portServes s p then
    let s := modPort s p (fun x => moduleTo { x with breakout := breakoutOf l p } x.present)
    if (portOf s p).present then emit s (.moduleReset p) else s
  else s

/-- Step 11. -/
def step11 (s : State) : State :=
  let l := if configured s ∧ s.boot.recovery = false then secItems (cfgSlot s) 1 else []
  let s := if configured s ∧ s.boot.recovery = false then takePorts s l else s
  bringPort (bringPort s l 0) l 1

/-- The settings that R42, R78 and R167 give an alcove by default. -/
def defaultSettings (x : AlcoveSettings) : AlcoveSettings :=
  { x with alcove := 0, domain := 0, assemblyUs := 100, modUs := 20, idleS := 60, modCount := 32, retention := 262144
           share := 1000, poolShare := 2097152 }

/-- Alcove 0 of `TRANSIT` (R457, R469): the commissioning key is its one manager key. The spec gives it no address:
its MAC and IPv4 address are free values (DESIGN CHOICE, log 26). -/
def transitAlcove (s : State) : Alcove :=
  let f := drawn s 10
  let set := defaultSettings { alcoveOf (zeros 72) with
    mac := fld f 0 6 / 2 ^ 41 * 2 ^ 41 + fld f 0 6 % 2 ^ 40, udp := 4471, ipv4 := some (fld f 6 4) }
  { alcoveFresh set with keys := s.life.comKey.toList.map (fun k => (k, Role.manager)) }

/-- Alcove 0 of `RECOVERY` (R523, R528). -/
def recoveryAlcove (s : State) : Alcove :=
  let r := Config.fixLen 296 s.boot.attempt.recId
  let n := min 8 (fld r 32 1)
  { alcoveFresh (defaultSettings (alcoveOf (zeros 4 ++ r.take 32 ++ zeros 36))) with
    keys := (List.range n).map (fun i => (slice r (40 + 32 * i) 32, Role.manager)) }

/-- `RECOVERY_ID` of the image in force (R523). -/
def recoveryId (s : State) : Bytes :=
  match alc s 0 with
  | none => zeros 296
  | some x =>
    let keys := (x.keys.filter (fun k => k.2 == .manager)).map (·.1)
    slice (alcoveItem { x.set with ipv6b := none }) 4 32 ++ be 1 keys.length ++ zeros 7
      ++ Config.fixLen 256 (keys.flatMap (Config.fixLen 32))

/-- The receive key pair of a start (R574) (DEDUCED, log 28). -/
def newReceiveKey (s : State) : State :=
  let r := drawFrom s 4 96
  { r.2 with gallery := { r.2.gallery with recvX := slice r.1 0 32, recvK := slice r.1 32 64 } }

/-- The twin key becomes a client key of alcove 0 in place of an earlier one. -/
def putTwinKey (s : State) : State :=
  match alc s 0 with
  | some x =>
    if s.twin.twinKey.isEmpty then s
    else putKeys s 0 (x.keys.filter (fun k => k.1 != s.twin.twinKey) ++ [(s.twin.twinKey, Role.client)])
  | none => s

def dropTwinKey (s : State) : State :=
  match alc s 0 with
  | some x => putKeys s 0 (x.keys.filter (fun k => k.1 != s.twin.twinKey))
  | none => s

/-- The alcoves that a start opens (R454, R457, R528, R551). -/
def openStart (s : State) : State :=
  if s.boot.recovery then openAlcove (putAlc s 0 (recoveryAlcove s)) 0
  else if s.life.life = .transit then
    let x := transitAlcove s
    openAlcove (putAlc (useFree s 10) 0 x) 0
  else if configured s then
    let s := openSet (newReceiveKey s) (fun a => a == 0 || !s.boot.sealed_)
    modAttempt s (fun a => { a with recId := recoveryId s })
  else s

/-- The service state at the end of a start, with the causes that stand (R497, R498). -/
def serveState (s : State) : State :=
  if s.boot.recovery then setService s .recovery
  else
    let s := if s.life.life = .transit then setCause s 3 else s
    let s := if s.boot.sealed_ then setCause s 4 else s
    setService s (if s.fc.causes = 0 then .inService else .degraded)

/-- Step 12: alcoves open, the service state is set, admission begins, with the capacity of the first epoch in its first cycle
too, and the signature of the service extension is asked for (R155, R253). -/
def step12 (s : State) : State :=
  let s := serveState (putTwinKey (openStart s))
  let s := modNewest s (fun w => (w &&& 0xF0FFFFFF) ||| (if s.boot.recovery then 0x06000000 else 0x02000000))
  let s := capAll (modBoot s (fun b => { b with
    running := false, env := none, admitStop := false, epochAt := s.time, began := s.time, cleared := false }))
  let s := modBoot s (fun b => { b with capsOld := b.caps })
  admitTasks (if s.stair.landing = 4 then askService s else s)

/-! ### The run of the steps (R511) -/

/-- Whether a start runs a step in its life-cycle state and mode (R511, R528). -/
def stepRuns (s : State) (n : Nat) : Bool :=
  if n = 9 then configured s
  else if n = 10 then configured s && !s.boot.recovery
  else true

/-- The work of a step. -/
def stepWork (n : Nat) (e : StartEnv) (s : State) : Except (State × StartFail) State :=
  if n = 1 then .ok (step1 e s)
  else if n = 2 then .ok (step2 s)
  else if n = 3 then .ok (step3 s)
  else if n = 4 then step4 s
  else if n = 5 then step5 e s
  else if n = 6 then .ok (step6 s)
  else if n = 7 then .ok s
  else if n = 8 then step8 s
  else if n = 9 then .ok (step9 e s)
  else if n = 10 then .ok (step10 e s)
  else if n = 11 then .ok (step11 s)
  else .ok (step12 s)

/-- Whether a failure can be one of a step (R525). -/
def failFits (n : Nat) : StartFail → Bool
  | .timeout => true
  | .fwInvalid => n == 4
  | .ucInvalid => n == 4
  | .cfgInvalid => n == 4
  | .unitTest u => n == 6 && decide (u ≤ 64)
  | .memRow mem _ => n == 7 && (mem == 1 || mem == 2)
  | .twin => n == 10
  | .safe => true
  | .puf => n == 5
  | .rngStart => n == 8
  | .aonFatal => n == 5
  | .noSpare => n == 7
  | .noSigner => n == 5

/-- The failure that the silicon gives a step. -/
def envFail (n : Nat) (e : StartEnv) : Option StartFail :=
  match e.fail with
  | some (m, f) => if m = n ∧ failFits n f then some f else none
  | none => none

/-- Whether the start goes on after a failure, in `RECOVERY` (R528). -/
def tolerated (s : State) (f : StartFail) : Bool :=
  s.boot.recovery && (match f with
    | .unitTest _ => true
    | .memRow _ _ => rowSpare s f == f
    | _ => false)

/-- The unit is retired or the row fenced at once. -/
def tolerate (s : State) : StartFail → State
  | .unitTest u => modAttempt s (fun a => { a with retired := setBit a.retired u })
  | .memRow mem row => (failUnit s (.memRow mem row)).2
  | _ => s

/-- What a failure of the silicon brings with it. -/
def failEntry (s : State) (f : StartFail) : State :=
  match f with
  | .puf => pulse s 6 .safe
  | .safe => enterSafe s
  | .rngStart => enterFatal s
  | .aonFatal => aonFatal s
  | .twin => ibFire s 5
  | _ => s

/-- A step has ended. -/
def noteStep (s : State) (n : Nat) : State :=
  let s := modBoot s (fun b => { b with step := n })
  if 4 ≤ n then modNewest s (fun w => (w &&& 0x0FFFFFFF) ||| w32 (n * 2 ^ 28)) else s

/-- After the work of a step: a `SAFE` response fails the start, an `ERASE` response ends it, a start that waits or
has stopped goes no further (R513). -/
def afterStep (s : State) (n : Nat) : State × Bool :=
  if s.fc.service = .tampered then
    (modBoot (modNewest s (fun w => (w &&& 0xF0FFFFFF) ||| 0x07000000)) (fun b => { b with running := false, env := none }), false)
  else if s.fc.service = .safe then (startFail s n .safe, false)
  else if s.stair.paused ∨ s.twin.waiting then (s, false)
  else if s.boot.running = false ∧ n < 12 then (modBoot s (fun b => { b with step := n }), false)
  else (noteStep s n, true)

/-- One step: the state, and whether the start goes on. -/
def oneStep (n : Nat) (e : StartEnv) (s : State) : State × Bool :=
  if stepRuns s n = false then (s, true)
  else
    let work := fun (s : State) =>
      match stepWork n e s with
      | .error r =>
        (let t := startFail r.1 n r.2
         (if r.1.boot.stopped then modBoot t (fun b => { b with resetAt := none }) else t, false))
      | .ok s => afterStep s n
    match envFail n e with
    | none => work s
    | some f => if tolerated s f then work (tolerate s f) else (startFail (failEntry s f) n f, false)

/-- `k` steps from step `n` on. -/
def runSteps : Nat → Nat → StartEnv → State → State
  | 0, _, _, s => s
  | k + 1, n, e, s =>
    match oneStep n e s with
    | (s, true) => runSteps k (n + 1) e s
    | (s, false) => s

/-- A start that waited goes on after step `n`. -/
def goOn (s : State) (n : Nat) : State :=
  match s.boot.env with
  | none => s
  | some e =>
    match afterStep (modBoot s (fun b => { b with env := none })) n with
    | (s, true) => runSteps (12 - n) (n + 1) e s
    | (s, false) => s

/-! ### The commands -/

/-- `START`: once after each reset of a device that has power and has not stopped for good (R526) (DEDUCED, log
22) (DEDUCED, log 22). -/
def execStart (e : StartEnv) (s : State) : Out :=
  .next (if s.power.powered ∧ s.boot.step = 0 ∧ s.boot.running = false ∧ s.boot.stopped = false ∧ s.boot.resetAt = none
      ∧ s.fc.service = .starting then runSteps 12 1 e s
  else s)

/-- Limits of the steps in ms (R511). -/
def stepLimit (n : Nat) : Nat :=
  ([0, 1, 10, 20, 200, 400, 1000, 1100, 1150, 2100, 2600, 2800, 3000] : List Nat).getD n 0

/-- `START_STEP_LIMIT`: of the step in progress; the limits do not run in the pause of R246. -/
def execStartStepLimit (step : Nat) (s : State) : Out :=
  .next (if s.boot.running ∧ s.stair.paused = false ∧ s.boot.step < step ∧ step ≤ 12
      ∧ (s.twin.waiting = false ∨ step = 10) ∧ s.boot.began + stepLimit step * 10 ^ 6 ≤ s.time then
    startFail s step .timeout
  else s)

/-- `SERVICE_600S` (R525). -/
def execService600s (s : State) : Out :=
  .next (if (s.fc.service = .inService ∨ s.fc.service = .degraded) ∧ s.boot.cleared = false
      ∧ s.boot.began + 600 * 10 ^ 9 ≤ s.time then
    modBoot s (fun b => { b with cleared := true, attempt := { b.attempt with fails := 0, hard := 0, seq := b.attempt.seq + 1 } })
  else s)

/-- `SELF_RESET` (R465, R512, R529, R534): a transition or an update that waits for the accepted work goes on once it
is done; a reset that is due runs, unless the device is `TAMPERED` (R446). -/
def execSelfReset (s : State) : Out :=
  .next (
    let s := match s.life.trans with
      | some t => if workLeft s t.work ∨ s.boot.resetAt.isSome then s else runTrans s t
      | none => s
    let s := settleRestart s
    match s.boot.resetAt with
    | some t => if t ≤ s.time ∧ s.fc.service ≠ .tampered then resetSteps s else s
    | none => s)

/-- `PERSO_KEYS` (R246, R477): the three public keys during the pause, zeros at any other time. -/
def execPersoKeys (s : State) : Out :=
  .next (
    let keys := s.stair.idPub ++ s.stair.ledPub ++ Config.edPub (s.tally.seed.getD [])
    emit (tapSelect s 0x43) (.tdo (if s.stair.paused then keys else zeros 96)))

/-- The root key and the two certificates of `PERSO_CERT`, each with a 2-byte length. -/
def persoItems (b : Bytes) : Bytes × Bytes × Bytes :=
  let n := fld b 32 2
  (b.take 32, slice b 34 n, slice b (36 + n) (fld b (34 + n) 2))

/-- Whether the items pass the checks of R246 (DEDUCED, log 30). -/
def persoOk (s : State) (b : Bytes) : Bool :=
  let i := persoItems b
  decide (b.length ≤ 2048) && rootKeyOk s i.1 &&
    (match readCert i.2.1, readCert i.2.2 with
    | some a, some c => certUnder i.1 a && certUnder a.key c && identityCert c s.stair.idPub a
    | _, _ => false)

/-- `PERSO_CERT` (R245, R246): the identity key signs the ledger certificate and the Tally endorsement, both
certificates are written, and the start goes on with the climb. -/
def execPersoCert (items : Bytes) (s : State) : Out :=
  .next (
    let s := tapSelect s 0x44
    if s.stair.paused = false ∨ persoOk s items = false then s
    else
      let pub := Config.edPub (s.tally.seed.getD [])
      let led := issueCert s 2 0 s.stair.identity s.stair.ledPub []
      let s := modTally s (fun t =>
        { t with endorse := Config.edSign s.stair.identity (ascii "WTKY1" ++ deviceKeyId s ++ pub) })
      let s := modStair s (fun t => { t with idCert := (persoItems items).2.2, ledCert := led, paused := false })
      match stepClimb s with
      | .error r => startFail r.1 5 r.2
      | .ok s => goOn s 5)

end Sys2Proof.Machine
end

