-- ==== Sys2Proof/Machine/Ibvelet.lean ====
section
/-! DEFINITION. The Ibvelet link (R538 to R544): frames, retransmission, heartbeats, the loss of the link and its
handshake; and the mirror records that arrive over it (R552 to R556). Messages are shown whole: a mirror message
that this side sends stands in the log of what was sent, and one that arrives is a command of its own. Frames are
built for channel 0, whose message kinds the spec does not number: their `KIND` is a free value. -/

namespace Sys2Proof.Machine

/-! ### Frames (R539 to R542) -/

/-- Bytes of a frame before its payload, and the credits and acknowledgement after it. -/
def ibHead (f : IbFrame) : Bytes :=
  be 1 f.channel ++ be 1 f.kind ++ be 2 f.len ++ zeros 4 ++ be 8 f.seq ++ be 4 f.msgNum ++ be 4 f.msgOff ++ be 4 f.msgLen
    ++ be 2 (b2n f.last) ++ zeros 2
def ibFoot (f : IbFrame) : Bytes :=
  (List.range 3).flatMap (fun c => be 2 (f.credits.getD c 0)) ++ zeros 2 ++ be 8 f.ackSeq

/-- Tag of a frame under a direction's key and salt: the AAD are bytes 0 to 31 and 1,248 to 1,263 (DEDUCED, log
78) (DEDUCED, log 78). -/
def ibTag (key salt : Bytes) (f : IbFrame) : Bytes :=
  let nonce := salt ++ be 8 f.seq
  Config.gcmTag key nonce (ibHead f ++ ibFoot f) (Config.gcmCrypt key nonce (Config.fixLen 1216 f.payload))

/-- Receive buffer of a channel in frames (R540). -/
def ibBuffer (c : Nat) : Nat := if c = 0 then 16 else if c = 1 then 512 else 1024

/-- Whether the partner's credits allow a frame on a channel. -/
def ibCredit (t : Twin) (c : Nat) : Bool :=
  decide ((t.sentCh.getD c 0 + 65536 - t.peerFreed.getD c 0) % 65536 < ibBuffer c)

/-- Number, tag, keep and send one frame; a frame number that would reach 2^48 takes the link down (R542). -/
def ibPut (s : State) (f : IbFrame) : State :=
  let t := s.twin
  if 2 ^ 48 ≤ t.txSeq then linkLost s
  else
    let f := { f with seq := t.txSeq, credits := t.credits, ackSeq := t.rxSeq }
    let f := { f with tag := ibTag t.txKey t.txSalt f }
    let s := modTwin s (fun t => { t with
      txSeq := t.txSeq + 1, kept := t.kept ++ [f], sentAt := s.time
      sentCh := t.sentCh.set f.channel ((t.sentCh.getD f.channel 0 + 1) % 65536) })
    perfAdd (emit s (.ibFrame f)) 22 0x70 1

/-- Send a message of one frame on channel 0, where credits and the 1,024 kept frames allow it (R540, R541). -/
def ibControl (s : State) (payload : Bytes) : State :=
  if s.twin.link ≠ 3 ∨ ibCredit s.twin 0 = false ∨ 1024 ≤ s.twin.kept.length then s
  else
    let f : IbFrame :=
      { channel := 0, kind := Config.freeNat s.fresh % 256, len := payload.length, seq := 0, msgNum := s.twin.msgNext
        msgOff := 0, msgLen := payload.length, last := true, payload := payload, credits := [], ackSeq := 0, tag := [] }
    ibPut (modTwin (useFree s 1) (fun t => { t with msgNext := t.msgNext + 1 })) f

/-- A retransmission request that names the next frame expected (R541). -/
def ibAsk (s : State) : State :=
  let n := s.twin.rxSeq + 1
  ibFire (emit (ibControl s (be 8 n)) (.ibRetransmit n)) 0

/-- An accepted frame: acknowledgement, credits, and the message number that it completes. -/
def ibAccept (s : State) (f : IbFrame) : State :=
  modTwin s (fun t => { t with
    rxSeq := f.seq, authAt := s.time, kept := t.kept.filter (fun k => decide (f.ackSeq < k.seq))
    peerFreed := f.credits, credits := t.credits.set f.channel ((t.credits.getD f.channel 0 + 1) % 65536)
    delivered := if f.last ∧ t.delivered.contains (f.channel, f.msgNum) = false then
        t.delivered ++ [(f.channel, f.msgNum)] else t.delivered })

/-- `IBVELET_FRAME` (R541, R542): a tag that fails takes the link down; a frame out of order is dropped with a
request. -/
def execIbveletFrame (f : IbFrame) (s : State) : Out :=
  .next (if s.twin.link ≠ 3 then s
    else if ibTag s.twin.rxKey s.twin.rxSalt f ≠ f.tag then ibFire s 1
    else if f.seq ≠ s.twin.rxSeq + 1 then ibAsk s
    else ibAccept s f)

/-- `IB_RETRANSMIT_REQUEST` (R541): every kept frame from the one named onward goes again, as first sent. -/
def execIbRetransmitRequest (seq : Nat) (s : State) : Out :=
  .next (if s.twin.link ≠ 3 then s
    else
      let l := s.twin.kept.filter (fun f => decide (seq ≤ f.seq))
      let s := emits s (l.map (fun f => Output.ibFrame f))
      ibFire (perfAdd (perfAdd (modTwin s (fun t => { t with sentAt := s.time })) 22 0x70 l.length) 22 0x71 l.length) 0)

/-- `IB_HEARTBEAT_DUE` (R543): no frame was sent for 10 µs. -/
def execIbHeartbeatDue (s : State) : Out :=
  .next (if s.twin.link = 3 ∧ s.twin.sentAt + 10000 ≤ s.time then ibControl s [] else s)

/-- `IB_LINK_LOST` (R543, R585). -/
def execIbLinkLost (l : LinkLoss) (s : State) : Out :=
  .next (match l with
    | .timeout => if s.twin.link = 3 ∧ s.twin.authAt + 100000 ≤ s.time then ibFire s 3 else s
    | .lane => if s.twin.link = 0 then s else ibFire (modTwin s (fun t => { t with lanes := 0 })) 2
    | .tag => if s.twin.link = 3 then ibFire s 1 else s)

/-! ### The handshake (R544) -/

/-- The alcove-0 certificate, which the handshake of a start needs before alcove 0 opens (R258, R261). -/
def zeroKey (s : State) : Bytes := exactKey s "WST5 alcove" (be 2 0 ++ be 2 0)
def zeroCert (s : State) : Bytes :=
  match alc s 0 with
  | some x => x.cert
  | none => issueCert s 4 0 (statementKey s) (Config.edPub (zeroKey s)) (placementItem 0 (some 0))

/-- What this side sends, the two shared secrets and the transcript hash: `rnd` is its nonce of 16 bytes, its X25519
scalar and 64 bytes for ML-KEM. -/
def ibHalf (s : State) (p : IbPeer) (rnd : Bytes) : Bytes × Bytes × Bytes × Bytes × Bytes :=
  let x := slice rnd 16 32
  let enc := Config.kemEnc false p.kem (slice rnd 48 32)
  let kem := if s.twin.side = 0 then Config.kemPub false (slice rnd 48 64) else enc.1
  let kemSecret := if s.twin.side = 0 then Config.kemDec false (slice rnd 48 64) p.kem else enc.2
  let mine := rnd.take 16 ++ Config.xPub x ++ kem ++ zeroCert s
  let theirs := p.nonce ++ p.x25519 ++ p.kem ++ p.chain.headD []
  let th := Config.sha512 (ascii "WIB1" ++ (if s.twin.side = 0 then mine ++ theirs else theirs ++ mine))
  let nonces := if s.twin.side = 0 then rnd.take 16 ++ p.nonce else p.nonce ++ rnd.take 16
  (Config.xPub x, kem, Config.x25519 x p.x25519 ++ kemSecret, nonces, th)

/-- The checks of the partner's half. -/
def ibPeerOk (s : State) (p : IbPeer) (th : Bytes) : Bool :=
  chainKey p.chain == some p.alcoveKey && statementOk p.statement (p.chain.drop 1)
    && statementItem p.statement 0x01 == th.take 32 && statementItem p.statement 0x03 == s.twin.pair.identity
    && fld (statementItem p.statement 0x06) 0 1 != s.twin.side

/-- The link is up: keys and salts by direction, frame numbers from 1, and the kept messages in new frames (R543). -/
def ibKeyed (s : State) (okm : Bytes) : State :=
  let tx := if s.twin.side = 0 then (slice okm 0 32, slice okm 64 4) else (slice okm 32 32, slice okm 68 4)
  let rx := if s.twin.side = 0 then (slice okm 32 32, slice okm 68 4) else (slice okm 0 32, slice okm 64 4)
  let kept := s.twin.kept
  let s := modTwin s (fun t => { t with
    link := 3, lanes := 0xF, txKey := tx.1, txSalt := tx.2, rxKey := rx.1, rxSalt := rx.2, txSeq := 1, rxSeq := 0
    kept := [], sentAt := s.time, authAt := s.time })
  kept.foldl ibPut s

/-- A check of the handshake fails: the link stays down, and a start that waits fails at step 10 (R544, R558). -/
def ibAuthFail (s : State) : State :=
  let s := ibFire s 5
  if s.twin.waiting then startFail s 10 .twin else s

/-- `IB_LINK_HANDSHAKE`. A handshake that passes during a presence check ends the loss (R560). -/
def execIbLinkHandshake (p : IbPeer) (s : State) : Out :=
  .next (if s.twin.pair.paired = false ∨ s.twin.down ∨ s.twin.link = 3 ∨ drawState s 6 ≠ .ok then s
    else
      let d := drawFrom s 6 112
      let s := d.2
      let h := ibHalf s p d.1
      let th := h.2.2.2.2
      let s := emit s (.ibHandshake s.twin.side (d.1.take 16) h.1 h.2.1 (zeroCert s) (statementFor s 0 (th.take 32)))
      if ibPeerOk s p th = false then ibAuthFail s
      else
        let s := dropTwinKey (ibKeyed s (Config.hkdfExpand (Config.hkdfExtract h.2.2.2.1 h.2.2.1) (ascii "WIB1 keys" ++ th) 72))
        let s := putTwinKey (modTwin s (fun t => { t with twinKey := p.alcoveKey }))
        if s.twin.state = .joined then modTwin s (fun t => { t with lostAt := none }) else s)

/-! ### Mirror records that arrive (R552 to R556) -/

/-- Whether the side holds mirror records. -/
def mirroring (s : State) : Bool := twinned s

/-- `JOURNAL_RECORD_MIRROR`. -/
def execJournalRecordMirror (r : JournalRec) (s : State) : Out :=
  .next (if mirroring s = false ∨ s.twin.held.contains r then s
    else
      emit (modTwin s (fun t => { t with held := t.held ++ [r], reported := t.reported ++ [(r.domain, r.seq)] }))
        (.journalHeld r.domain r.seq))

/-- Whether a forward comes from a quorum command, whose custodian epoch must still be in force (R218, R552). -/
def quorumBody : MutBody → Bool
  | .root _ _ _ _ _ => true
  | .custodians _ _ _ _ => true
  | .quota _ _ => true
  | .gapAck _ => true
  | .create sec _ => sec.face0.any (fun f => f.quorum) || sec.face1.any (fun f => f.quorum)
  | _ => false

/-- Whether a use or a use mark of the partner would take the sum of both sides past the limit (R555). -/
def usePasses (s : State) (r : JournalRec) : Bool :=
  let passes := fun (slot n : Nat) =>
    match (tget s.keys.secrets slot).bind (fun x => faceAt x n) with
    | some f =>
      let mine := if 2 ^ 20 < f.limit then f.useMark * 2 ^ 20 else f.uses
      f.limit != 0 && decide (f.limit ≤ mine + tgetD s.twin.uses (2 * slot + n) 0)
    | none => true
  match r.body with
  | .use slot n => passes slot n
  | .mark (.use slot n) => passes slot n
  | _ => false

/-- What refuses a forwarded mutation at step 1 (DEDUCED, log 85). -/
def forwardRefused (s : State) (r : JournalRec) (epoch : Nat) : Option Nat :=
  if quorumBody r.body ∧ epoch ≠ (domD s r.domain).epoch then some stDeniedQuorum
  else if usePasses s r then some stUsageExh
  else if isMark r.kind then none
  else bodyRefused s r.domain r.body

/-- Steps 1 to 3 of a mutation of the partner on this side. -/
def sequenceForward (s : State) (r : JournalRec) : State :=
  let d := r.domain
  let p := placeBody s d r.body
  let s := restartSeq p.1 d r.body
  let n := (domD s d).seqNo
  let s := partnerUse (sequence s d r.kind r.side r.origin p.2).2 r
  let s := if isMark r.kind then s else (applyBody s d none p.2).1
  emit (noteApplied s { r with body := p.2 } (newHandles s p.2)) (.forwardResult d n stOk)

/-- `FORWARDED_MUTATION`. -/
def execForwardedMutation (r : JournalRec) (epoch : Nat) (s : State) : Out :=
  .next (if mirroring s = false ∨ seqHere s r.domain = false ∨ journalTakes s (recordSize r.body) = false then s
    else
      match forwardRefused s r epoch with
      | some st => emit s (.forwardResult r.domain 0 st)
      | none => sequenceForward s r)

/-- `SESSION_RECORD`: a session of the slot before it goes with its marks and acceptance records. -/
def execSessionRecord (r : SessionMirror) (s : State) : Out :=
  .next (if mirroring s then
    modTwin s (fun t => { t with
      mirrors := t.mirrors.filter (fun m => m.alcove != r.alcove || m.session != r.session) ++ [r]
      marks := t.marks.filter (fun m => m.1 != r.alcove || m.2.1 != r.session)
      accepts := t.accepts.filter (fun a => a.alcove != r.alcove || a.session != r.session)
      applied := t.applied.filter (fun a => a.1 != r.alcove || a.2.1 != r.session) })
  else s)

/-- Whether two marks are of one kind. -/
def sameMark : MirrorMark → MirrorMark → Bool
  | .device _, .device _ => true
  | .client _, .client _ => true
  | .seq _, .seq _ => true
  | _, _ => false

/-- `PACKET_MARK`. -/
def execPacketMark (alcove session : Nat) (m : MirrorMark) (s : State) : Out :=
  .next (if mirroring s then
    modTwin s (fun t => { t with
      marks := t.marks.filter (fun x => x.1 != alcove || x.2.1 != session || !sameMark x.2.2 m) ++ [(alcove, session, m)] })
  else s)

/-- `ACCEPTANCE_RECORD`. -/
def execAcceptanceRecord (r : AcceptMirror) (s : State) : Out :=
  .next (if mirroring s then
    modTwin s (fun t => { t with
      accepts := t.accepts.filter (fun a => a.alcove != r.alcove || a.session != r.session || a.seq != r.seq) ++ [r] })
  else s)

/-- `ALCOVE_RECORD`. -/
def execAlcoveRecord (r : AlcoveRecord) (s : State) : Out :=
  .next (if mirroring s ∧ r.set.alcove ≠ 0 ∧ thas s.net.alcoves r.set.alcove = false then
    modTwin s (fun t => { t with alcoves := tput t.alcoves r.set.alcove r })
  else s)

/-- `SECTION_LOAD_FORWARD` (R556): the head and bodies are written into the other slot and reported, and the slot is
preferred; a side that serves applies the sections as its own load would. At a join it is the image of the side with
the higher serial (R557), from which a start that waits takes what it took from its own at step 9. -/
def execSectionLoadForward (head : Bytes) (bodies : List (Nat × Bytes)) (s : State) : Out :=
  .next (if s.twin.link ≠ 3 ∨ s.twin.state = .unpaired then s
    else
      let s := flipPrefer (emit (stageConfig s head bodies) .sectionHeld) 2
      if s.twin.waiting then
        takeSequencers (takeDomains (takeSections s (cfgSlot s)) (cfgSlot s) s.boot.sealed_) (secItems (cfgSlot s) 6)
      else settleLoads (applySections s (bodies.map (·.1))).1)

end Sys2Proof.Machine
end

