-- ==== Sys2Proof/Machine/Client.lean ====
section
/-! DEFINITION. The sessions that this device opens as a client: session 128 of the gallery table, to the partner's
alcove 0 (R560); sessions 0 to 127, from a manager to its workers (R570); and the probes of a worker, whose `HELLO`
stands at 255. A message of such a session arrives as a command that says whether it authenticates. -/

namespace Sys2Proof.Machine

def modGallery (s : State) (f : Gallery → Gallery) : State := { s with gallery := f s.gallery }

/-- The session to the partner's alcove 0, and the place of a probe. -/
def partnerSession : Nat := 128
def probeSlot : Nat := 255

/-- A `HELLO` payload of alcove 0 under a key identifier, with nonce, X25519 value and encapsulation key (R57); none
while the instance of alcove 0 cannot serve. -/
def helloOf (s : State) (id : Bytes) : Option (Bytes × State) :=
  if drawState s (alcInst 0) ≠ .ok then none
  else
    let d := drawFrom s (alcInst 0) 112
    some (be 2 1 ++ zeros 2 ++ Config.fixLen 16 id ++ d.1.take 16 ++ Config.xPub (slice d.1 16 32)
      ++ Config.kemPub false (slice d.1 48 64), d.2)

/-- The identifier of alcove 0's own key (R57). -/
def ownId (s : State) : Bytes :=
  (Config.sha512 (Config.edPub (((alc s 0).map (fun x => x.alcoveKey)).getD []))).take 16

/-- A `HELLO` goes out for a session (DEDUCED, log 80). -/
def sendHello (s : State) (i sublink : Nat) (id : Bytes) : State :=
  match helloOf s id with
  | none => s
  | some (h, s) =>
    let s := modGallery s (fun g => { g with
      hellos := tput g.hellos i h, clients := if i = probeSlot then g.clients else tput g.clients i 0 })
    emit s (.clientHello i ((sendLink s sublink).getD sublink) h)

/-- `TWIN_KEEPALIVE_DUE` (R560): an `ACK` on the open session, or another `HELLO` where none is. -/
def execTwinKeepaliveDue (s : State) : Out :=
  .next (if s.twin.state ≠ .joined ∨ s.time < s.twin.keepAt + 10 ^ 10 then s
    else
      let s := modTwin s (fun t => { t with keepAt := s.time })
      if tget s.gallery.clients partnerSession = some 1 then emit s (.clientAck partnerSession)
      else sendHello s partnerSession 0 (ownId s))

/-- `PRESENCE_QUERY_DUE` (R560): query `n` is due `n` ms after the loss, the ports in turn. -/
def execPresenceQueryDue (s : State) : Out :=
  .next (match s.twin.lostAt with
    | none => s
    | some t =>
      if s.twin.state ≠ .joined ∨ 20 ≤ s.twin.queries ∨ s.time < t + s.twin.queries * 10 ^ 6 then s
      else
        let l := 4 * (s.twin.queries % 2)
        let s := modTwin s (fun t => { t with queries := t.queries + 1 })
        if tget s.gallery.clients partnerSession = some 1 then
          emit s (.clientCommand partnerSession 0x0103 ((sendLink s l).getD l) (zeros 8))
        else s)

/-! ### The keys that a manager gives its workers (R573, R577) -/

/-- The member index that the worker of a client session has: both sides of a pair share one, and a session serves one
side (DESIGN CHOICE, log 108). -/
def memberOf (i : Nat) : Nat := i / 2

/-- The grant key of a domain for a member, on the manager (R573). -/
def managerGrantKey (s : State) (d i : Nat) : Bytes :=
  (Config.hmac512 (domD s d).domKey (ascii "WGR grant" ++ be 1 i)).take 32

/-- The migration key of a migration of a domain's alcove, on the manager (R577). -/
def managerMigrationKey (s : State) (d m : Nat) : Bytes :=
  (Config.hmac512 (domD s d).domKey (ascii "WGR migrate" ++ be 4 m)).take 32

/-- A key in the share envelope of R230 to a worker's receive key: it stands where a share stands (DEDUCED, log 108). -/
def keyEnvelope (salt : String) (d i : Nat) (x ek key rnd : Bytes) : Bytes :=
  sealEnvelope salt (BitVec.ofNat 8 i) x ek (be 2 d ++ zeros 14 ++ key) rnd

/-- A command to a worker over a client session, on the sub-link that carries its frames. -/
def askWorker (s : State) (i op : Nat) (p : Bytes) : State := emit s (.clientCommand i op ((sendLink s 0).getD 0) p)

/-- A manager asks the worker of an open session for its receive key, to send it the grant keys (R573). -/
def askReceiveKey (s : State) (i : Nat) : State :=
  if s.gallery.role = 2 ∧ i < 128 ∧ tget s.gallery.clients i = some 1 then
    askWorker (modGallery s (fun g => { g with asked := g.asked ++ [i] })) i 0x0B02 (zeros 8)
  else s

/-- `GRANT_KEY` for one domain: none while the domain has no key, or while the instance of alcove 0 cannot draw. -/
def sendGrantKey (i : Nat) (x ek : Bytes) (s : State) (d : Nat) : State :=
  if (domD s d).domKey.isEmpty ∨ drawState s (alcInst 0) ≠ .ok then s
  else
    let r := drawFrom s (alcInst 0) 64
    askWorker r.2 i 0x0B02
      (be 1 3 ++ zeros 7 ++ be 2 d ++ zeros 6 ++ keyEnvelope "WGRK1" d (memberOf i) x ek (managerGrantKey s d (memberOf i)) r.1)

/-- The receive key of a worker, the answer to `RECEIVE_KEY` (R574): the grant key of each domain goes to it. -/
def takeReceiveKey (s : State) (i : Nat) (p : Bytes) : State :=
  if s.gallery.asked.contains i ∧ p.length = 1224 then
    let s := modGallery s (fun g => { g with asked := g.asked.filter (fun n => n != i) })
    (tkeys s.keys.domains).foldl (sendGrantKey i (slice p 8 32) (slice p 40 1184)) s
  else s

/-- `COMPLETION_RECEIVED`: an `OK` on the partner session answers the presence check (R560); a receive key is used. What
else a manager collects over its sessions stays with its firmware (R571). -/
def execCompletionReceived (m : ClientMsg) (s : State) : Out :=
  .next (if m.ok = false ∨ m.status ≠ stOk ∨ tget s.gallery.clients m.session ≠ some 1 then s
    else if m.session ≠ partnerSession then takeReceiveKey s m.session m.payload
    else if s.twin.lostAt.isSome then modTwin s (fun t => { t with answered := true })
    else s)

/-! ### Probes and client handshakes (R57 to R62, R570) -/

/-- `GALLERY_PROBE_DUE`: at the start's end and every 60 s after. -/
def execGalleryProbeDue (s : State) : Out :=
  .next (if s.gallery.role ≠ 1 ∨ (alc s 0).isNone ∨ s.time < s.gallery.probeAt then s
    else
      let s := modGallery s (fun g => { g with probeAt := s.time + 60 * 10 ^ 9 })
      sendHello s probeSlot 0 (zeros 16))

/-- The chain of a `REPLY`, and its signature (R59). -/
def replyCerts (p : Bytes) : Bytes := slice p 1158 (fld p 1156 2)
def replySigned (hello p key : Bytes) : Bool :=
  let n := p.length - 64
  Config.edVerify key (ascii "WCP1 device" ++ Config.sha512 (hello ++ p.take n)) (p.drop n)

/-- Whether a `REPLY` proves a key: its chain leads to it, and it signed the transcript. -/
def replyProves (hello p key : Bytes) : Bool :=
  decide (p.length = 1222 + fld p 1156 2) && chainKey (splitCerts (replyCerts p)) == some key && replySigned hello p key

/-- `PROBE_REPLY`: the manager's key replaces that of an earlier probe. -/
def execProbeReply (payload managerKey : Bytes) (s : State) : Out :=
  .next (match tget s.gallery.hellos probeSlot, alc s 0 with
    | some hello, some x =>
      if s.gallery.role = 1 ∧ s.boot.authority.isSome ∧ replyProves hello payload managerKey
          ∧ (chainIdentity (splitCerts (replyCerts payload))).map (fun k => (Config.sha512 k).take 16) = s.boot.authority then
        let s := modGallery s (fun g => { g with mgrKey := some managerKey, mgrOf := s.boot.authority, hellos := tdel g.hellos probeSlot })
        putKeys s 0 (x.keys.filter (fun k => k.2 != .galleryManager && k.1 != managerKey)
          ++ [(managerKey, Role.galleryManager)])
      else s
    | _, _ => s)

/-- A manager's session to a worker side begins with a `HELLO` that no row of its own sends. -/
def beginClient (s : State) (i : Nat) : State :=
  if s.gallery.role = 2 ∧ i < 128 ∧ thas s.gallery.clients i = false then sendHello s i 0 (ownId s) else s

/-- The key that the device of a session must prove: the partner's, or any for a worker. -/
def clientKeyOk (s : State) (i : Nat) (p : Bytes) : Bool :=
  match tget s.gallery.hellos i, chainKey (splitCerts (replyCerts p)) with
  | some hello, some key => replyProves hello p key && (i != partnerSession || key == s.twin.twinKey)
  | _, _ => false

/-- `REPLY_RECEIVED` (R57, R62, R570): checked, and answered with the `FINISH` (DEDUCED, log 79). -/
def execReplyReceived (m : ClientMsg) (s : State) : Out :=
  .next (
    let s := beginClient s m.session
    if tget s.gallery.clients m.session ≠ some 0 then s
    else if m.ok = false ∨ clientKeyOk s m.session m.payload = false then
      modGallery s (fun g => { g with clients := tdel g.clients m.session, hellos := tdel g.hellos m.session })
    else
      let th := Config.sha512 ((tget s.gallery.hellos m.session).getD [] ++ m.payload)
      let key := ((alc s 0).map (fun x => x.alcoveKey)).getD []
      emit s (.clientFinish m.session (slice m.payload 2 1 ++ zeros 3 ++ Config.edSign key (ascii "WCP1 client" ++ th))))

/-- `READY_RECEIVED`: `READY` opens the session, `REJECT` ends it. A manager then sends its grant keys (DESIGN CHOICE, log
108). -/
def execReadyReceived (m : ClientMsg) (s : State) : Out :=
  .next (if tget s.gallery.clients m.session ≠ some 0 then s
    else
      askReceiveKey (modGallery s (fun g => { g with
        clients := if m.ok then tput g.clients m.session 1 else tdel g.clients m.session, hellos := tdel g.hellos m.session }))
        m.session)

end Sys2Proof.Machine
end

