-- ==== Sys2Proof/Machine/Collector.lean ====
section
/-! DEFINITION. The fault collector's registers and commands (R484 to R496, R509) and the event
distributor (R503 to R508, R510). -/

namespace Sys2Proof.Machine

def modFc (s : State) (f : Collector → Collector) : State := { s with fc := f s.fc }

/-! ### The collector -/

/-- Clear status bits, each with its line's class field (R484). -/
def clearStatus (f : Collector) (v : Nat) : Collector :=
  { f with status := w1c f.status v, cls := f.cls.filter (fun e => !v.testBit e.1) }

/-- Release the capture (R491). -/
def releaseCapture (f : Collector) : Collector := { f with valid := false, more := 0 }

/-- Forced pulses on lines, of one cycle (R493, R494). -/
def fcForce (s : State) (v : Nat) : State :=
  let cls := match s.fc.forceCls with
    | 1 => FClass.note
    | 2 => FClass.recover
    | 3 => FClass.degrade
    | _ => FClass.safe
  let l := setBits 64 v
  if l.isEmpty then wrOk s
  else
    wrOk (pulses (modFc s (fun f => { f with forced := true }))
      (l.map (fun n => { line := n, cls := cls, type := 0, addr := 0, master := 0xFF })))

/-- `FC_CTRL`: refused whole when a field is out of range (R509). -/
def fcCtrl (s : State) (v : Word) : State :=
  let restart := bitsOf v.toNat 31 20
  let handle := bitsOf v.toNat 19 10
  let minc := bitsOf v.toNat 7 5
  if 3600 < restart ∨ handle = 0 ∨ 1000 < handle ∨ minc = 0 ∨ 5 < minc then busErr s
  else wrOk (modFc s (fun f => { f with restart := restart, handle := handle, capMin := minc }))

/-- The class fields of eight lines. -/
def classWord (f : Collector) (n : Nat) : Word :=
  pack ((List.range 8).map (fun k => (tgetD f.cls (8 * n + k) 0, 4 * k)))

def fcRead (s : State) (off : Nat) : Option Word :=
  let f := s.fc
  if off = 0x000 then some (loHalf f.status.toNat)
  else if off = 0x004 then some (hiHalf f.status.toNat)
  else if off = 0x008 then some (pack [(f.capMin, 5), (f.handle, 10), (f.restart, 20)])
  else if off = 0x00C then some (pack [(f.causes.toNat, 0), (serviceCode f.service, 8), (b2n f.forced, 16)])
  else if off = 0x010 then some (loHalf f.fAddr)
  else if off = 0x014 then some (hiHalf f.fAddr)
  else if off = 0x018 then some (w32 f.fMaster)
  else if off = 0x01C then some (pack [(f.fType, 0), (f.fClass, 8), (f.fLine, 16), (b2n f.valid, 31)])
  else if off = 0x020 then some (loHalf f.fTime)
  else if off = 0x024 then some (hiHalf f.fTime)
  else if off = 0x028 then some (w32 f.more)
  else if off = 0x02C then some (w32 f.self.toNat)
  else if off = 0x030 ∨ off = 0x034 then some 0
  else if off = 0x038 then some (w32 f.forceCls)
  else if off % 4 = 0 ∧ 0x040 ≤ off ∧ off ≤ 0x05C then some (classWord f ((off - 0x040) / 4))
  else none

/-- A write to a register that is no pair. -/
def fcWrite (s : State) (off : Nat) (v : Word) : Option State :=
  if off = 0x008 then some (fcCtrl s v)
  else if off = 0x01C then some (wrOk (if bitOf v.toNat 31 then modFc s releaseCapture else s))
  else if off = 0x038 then
    (let c := bitsOf v.toNat 2 0
     some (if 1 ≤ c ∧ c ≤ 4 then wrOk (modFc s (fun f => { f with forceCls := c })) else busErr s))
  else if (fcRead s off).isSome then some (wrOk s)
  else none

/-- Write of `FC_STATUS_LO`, which commits both halves (R6, R484). -/
def fcStatusLo (s : State) (m : Nat) (v : Word) : State :=
  commitPair s m 0x20004 0 (fun s hi => wrOk (modFc s (fun f => clearStatus f (hi * 2 ^ 32 + v.toNat))))

/-- Write of `FC_FORCE_LO`, which commits both halves. -/
def fcForceLo (s : State) (m : Nat) (v : Word) : State :=
  commitPair s m 0x20034 0 (fun s hi => fcForce s (hi * 2 ^ 32 + v.toNat))

/-! ### The event distributor -/

/-- Hall of a core, by its number in the MPU window. -/
def coreHall (c : Nat) : Hall := if c ≤ 3 then .inner else .outer

/-- Core to which a source is routed; a doorbell goes to its own core only (R506). -/
def routeOf (n : Nat) (e : EvSource) : Nat :=
  if 192 ≤ n ∧ n ≤ 195 then n - 192 else if 196 ≤ n ∧ n ≤ 207 then n - 180 else e.target

/-- The source offered to a core (R505). -/
def offered (s : State) (core : Nat) : Option (Nat × EvSource) :=
  let l := s.ed.srcs.filter (fun e => e.2.pending && e.2.enable && routeOf e.1 e.2 == core)
  l.find? (fun e => l.all (fun q => decide (q.2.prio < e.2.prio) || (q.2.prio == e.2.prio && decide (e.1 ≤ q.1))))

/-- `ED_SRC_n` as it reads. -/
def srcWord (s : State) (n : Nat) : Word :=
  let e := evSrc s n
  pack [(e.target, 0), (e.prio, 8), (b2n e.enable, 12), (b2n (srcHall s n == .outer), 16), (b2n e.pending, 31)]

/-- A core's write of `ED_SRC_n`: its source and target must be of the core's hall (R505, R506) (DEDUCED, log
57) (DEDUCED, log 57). -/
def edSrc (s : State) (m n : Nat) (v : Word) : State :=
  let t := bitsOf v.toNat 4 0
  match coreOf m with
  | none => busErr s
  | some c =>
    if 1280 ≤ n ∨ srcHall s n ≠ coreHall c ∨ coreHall t ≠ srcHall s n ∨ (3 < t ∧ t < 16) ∨ 27 < t then busErr s
    else
      let e := evSrc s n
      wrOk (putSrc s n
        { pending := e.pending && !bitOf v.toNat 31, enable := bitOf v.toNat 12, prio := bitsOf v.toNat 9 8, target := t })

/-- A parity error of the distributor (R508). -/
def edFire (s : State) : State := pulse { s with ed := { s.ed with err := true } } 39 .safe

def edRead (s : State) (off : Nat) : Option Word :=
  if off = 0x020 then some (w32 (b2n s.ed.err))
  else if off = 0x024 then some 0
  else if off % 4 = 0 ∧ 0x100 ≤ off ∧ off < 0x170 then
    (let c := (off - 0x100) / 4
     if c ≤ 3 ∨ 16 ≤ c then
       some (match offered s c with
         | some e => pack [(e.1, 0), (e.2.prio, 24), (1, 31)]
         | none => 0)
     else none)
  else if off % 4 = 0 ∧ 0x1000 ≤ off ∧ off < 0x2400 then some (srcWord s ((off - 0x1000) / 4))
  else none

def edWrite (s : State) (m off : Nat) (v : Word) : Option State :=
  if off = 0x020 then some (wrOk { s with ed := { s.ed with err := s.ed.err && !bitOf v.toNat 0 } })
  else if off = 0x024 then some (wrOk (if bitOf v.toNat 0 then edFire s else s))
  else if off % 4 = 0 ∧ 0x1000 ≤ off ∧ off < 0x2400 then some (edSrc s m ((off - 0x1000) / 4) v)
  else if (edRead s off).isSome then some (wrOk s)
  else none

/-! ### The commands -/

/-- Pulses of one cycle; a line carries only the classes of its row. -/
def listedPulses (s : State) (ps : List Pulse) : State :=
  pulses s (ps.filter (fun p => (lineClasses p.line).contains p.cls))

/-- `FAULT_PULSE` (R483 to R490). -/
def execFaultPulse (ps : List Pulse) (s : State) : Out := .next (listedPulses s ps)

/-- `FC_STATUS_CLEAR` (R484): a write of one half of `FC_STATUS`, and the pulses that arrive in its cycle, whose bits
end the cycle set (R8). -/
def execFcStatusClear (master : Nat) (hi : Bool) (value : Word) (s : State) (ps : List Pulse := []) : Out :=
  .next (listedPulses (if hi then writeAs s master 0x20004 (fun s => wrOk (holdHi s master 0x20004 value))
    else writeAs s master 0x20000 (fun s => fcStatusLo s master value)) ps)

/-- `FC_CAPTURE_RELEASE` (R491). -/
def execFcCaptureRelease (master : Nat) (s : State) : Out :=
  .next (writeAs s master 0x2001C (fun s => wrOk (modFc s releaseCapture)))

/-- `FC_FORCE` (R493): a write of both halves. -/
def execFcForce (master : Nat) (hi lo : Word) (s : State) : Out :=
  .next (writeAs s master 0x20030 (fun s => fcForceLo (holdHi s master 0x20034 hi) master lo))

/-- `FC_CTRL_WRITE` (R509). -/
def execFcCtrlWrite (master : Nat) (value : Word) (s : State) : Out :=
  .next (writeAs s master 0x20008 (fun s => fcCtrl s value))

/-- `HANDLE_LIMIT_EXPIRY` (R492). -/
def execHandleLimitExpiry (s : State) : Out :=
  .next (if s.fc.valid ∧ 2 ≤ s.fc.fClass ∧ s.fc.heldAt + s.fc.handle * 10 ^ 6 < s.time then pulse s 0 .safe else s)

/-- Bit of a cause in `FC_SELF`. -/
def selfBit : SelfCause → Nat
  | .parityCtrl => 0
  | .parityCapture => 1
  | .lockstep => 2

/-- `COLLECTOR_SELF_FAULT` (R495): the direct path. -/
def execCollectorSelfFault (c : SelfCause) (s : State) : Out :=
  .next (enterSafe (modFc s (fun f => { f with self := setBit f.self (selfBit c), status := setBit f.status 0 })))

/-- `ED_SRC_WRITE` (R506), through the core's own port. -/
def execEdSrcWrite (master n : Nat) (value : Word) (s : State) : Out := .next (edSrc s master n value)

/-- A core clears the pending bit of a source of its hall (R505). -/
def ackSrc (s : State) (master n : Nat) : State :=
  match coreOf master with
  | none => busErr s
  | some c =>
    if 1280 ≤ n ∨ srcHall s n ≠ coreHall c then busErr s
    else wrOk (putSrc s n { evSrc s n with pending := false })

/-- `ED_ACK` (R505); an event of the source in the same cycle leaves it pending (R8). -/
def execEdAck (master n : Nat) (s : State) (event : Bool := false) : Out :=
  .next (if event ∧ n < 1280 then raise (ackSrc s master n) n else ackSrc s master n)

/-- `DOORBELL_SET` (R506): a core sets the doorbell of core `n`, of its own hall. -/
def execDoorbellSet (master n : Nat) (s : State) : Out :=
  .next (match coreOf master with
    | none => busErr s
    | some c =>
      if (n ≤ 3 ∨ (16 ≤ n ∧ n ≤ 27)) ∧ coreHall n = coreHall c then wrOk (raise s (if n ≤ 3 then 192 + n else 180 + n))
      else busErr s)

/-- `ED_ERR_FORCE` (R508, R510). -/
def execEdErrForce (master : Nat) (value : Word) (s : State) : Out :=
  .next (writeAs s master 0x30024 (fun s => wrOk (if bitOf value.toNat 0 then edFire s else s)))

/-- `TIMER_EVENT` (R503). -/
def execTimerEvent (n : Nat) (s : State) : Out := .next (if n < 8 then raise s (76 + n) else s)

end Sys2Proof.Machine
end

