-- ==== Sys2Proof/Machine/Halls.lean ====
section
/-! DEFINITION. Halls and protection: watermarks (R398 to R401), enclaves (R402 to R406), the MPUs (R407
to R414), the hand-over of movable blocks (R415 to R418), the checks of memory transactions (R15, R395)
and the registers (R414, R427). -/

namespace Sys2Proof.Machine

def modHalls (s : State) (f : Halls → Halls) : State := { s with halls := f s.halls }

/-! ### Watermarks -/

/-- Watermarks in force, as addresses. -/
def wmLogic (s : State) : Nat := s.halls.logic.cur * 0x10000
def wmMezz (s : State) : Nat := s.halls.mezz.cur * 0x100000

/-- Whether an address lies in the changing range of a move in steps of `unit` (R400). -/
def changing (w : Watermark) (unit a : Nat) : Bool :=
  w.busy && decide (min w.cur w.target * unit ≤ a ∧ a < max w.cur w.target * unit)

/-- The ranges of an enclave that are set: code and data, each from its first address to one past its last
line. -/
def enclRanges (e : Enclave) : List (Nat × Nat) :=
  ([(e.codeStart, e.codeEnd + 64), (e.dataStart, e.dataEnd + 64)] : List (Nat × Nat)).filter
    (fun r => decide (0 < r.1 ∧ 64 < r.2))

/-- Whether a range of an enclave reaches to or above an address. -/
def enclAbove (s : State) (a : Nat) : Bool :=
  s.halls.encl.any (fun e => (enclRanges e.2).any (fun r => decide (a < r.2)))

/-- A write of `HC_WM_LOGIC` (R24, R398 to R400). -/
def wmLogicWrite (s : State) (m : Nat) (v : Word) : State :=
  let a := v.toNat
  let w := s.halls.logic
  if m ≠ 0 ∨ a < 0x1800000 ∨ 0x2000000 < a ∨ a % 0x10000 ≠ 0 ∨ w.busy ∨ enclAbove s a then busErr s
  else
    wrOk (modHalls s (fun h => { h with logic :=
      { w with target := a / 0x10000, busy := decide (a / 0x10000 ≠ w.cur) } }))

/-- A write of `HC_WM_MEZZ` (R26, R398 to R400). -/
def wmMezzWrite (s : State) (m : Nat) (v : Word) : State :=
  let a := v.toNat
  let w := s.halls.mezz
  if m ≠ 0 ∨ a < 0x12800000 ∨ 0x1A800000 < a ∨ a % 0x100000 ≠ 0 ∨ w.busy then busErr s
  else
    wrOk (modHalls s (fun h => { h with mezz :=
      { w with target := a / 0x100000, busy := decide (a / 0x100000 ≠ w.cur) } }))

/-- The commit of a move: the changing range is zeroised and the watermark takes its target (R400). -/
def wmCommit (w : Watermark) (unit : Nat) (m : List Host.Cell) : Watermark × List Host.Cell :=
  if w.busy then
    ({ w with cur := w.target, busy := false }, Mem.zero m (min w.cur w.target * unit) (max w.cur w.target * unit))
  else (w, m)

/-! ### Enclaves -/

/-- Whether an address lies from a first line to a last line, of a range that is set. -/
def inLines (a first last : Nat) : Bool := decide (0 < first ∧ first ≤ a ∧ a < last + 64)

/-- The enclave tag of an instruction at an address (R402). -/
def tagOf (s : State) (from_ : Nat) : Nat :=
  ((s.halls.encl.find? (fun e => inLines from_ e.2.codeStart e.2.codeEnd)).map (·.1)).getD 0

/-- Whether the enclaves admit a transaction to the logic memory (R403, R404). -/
def enclAdmits (s : State) (t : Txn) : Bool :=
  s.halls.encl.all (fun e =>
    (if inLines t.addr e.2.dataStart e.2.dataEnd then decide (t.master ≤ 3) && tagOf s t.from_ == e.1 else true)
    && (if inLines t.addr e.2.codeStart e.2.codeEnd then
          (match t.access with
           | .fetch => decide (t.master ≤ 3)
               && (inLines t.from_ e.2.codeStart e.2.codeEnd || t.addr == e.2.codeStart)
           | .read => !s.halls.lock
           | .write => !s.halls.lock)
        else true))

/-- A register of the enclave table after a write. -/
def enclSet (e : Enclave) (k v : Nat) : Enclave :=
  if k = 0 then { e with codeStart := v }
  else if k = 1 then { e with codeEnd := v }
  else if k = 2 then { e with dataStart := v }
  else { e with dataEnd := v }

/-- Whether two ranges meet. -/
def rangesMeet (a b : Nat × Nat) : Bool := decide (a.1 < b.2 ∧ b.1 < a.2)

/-- Whether no two of a list of ranges meet. -/
def noMeet : List (Nat × Nat) → Bool
  | [] => true
  | a :: r => r.all (fun b => !rangesMeet a b) && noMeet r

/-- Whether the table keeps R405: the set ranges run upward inside the Inner local memory, apart. -/
def enclTableOk (s : State) (t : Tab Enclave) : Bool :=
  let rs := t.flatMap (fun e => enclRanges e.2)
  rs.all (fun r => decide (0x1800000 ≤ r.1 ∧ r.1 < r.2 ∧ r.2 ≤ wmLogic s)) && noMeet rs

/-- A write of an enclave register (R405, R9). -/
def enclWrite (s : State) (m n k : Nat) (v : Word) : State :=
  let a := bitsOf v.toNat 25 6 * 64
  let t := tmod s.halls.encl n (fun e => enclSet e k a)
  if s.halls.lock then staticErr s 15 (0x70080 + 0x10 * n + 4 * k) m
  else if a < 0x1800000 ∨ wmLogic s ≤ a ∨ enclTableOk s t = false then busErr s
  else wrOk (modHalls s (fun h => { h with encl := t }))

/-! ### Faults -/

/-- A source of `HC_ERR` fires or is forced (R426). -/
def hcFire (s : State) (i : Nat) : State := pulse (hcErr s i) 15 (if 3 ≤ i then .safe else .note)

def hcForce (s : State) (v : Word) : State := wrOk ((setBits 5 v.toNat).foldl hcFire s)

/-! ### Hand-over -/

/-- Whether a block may be released (R415). -/
def releaseOk (s : State) (n : Nat) : Bool := decide (11 ≤ n) || blockIdle s n

/-- A command that R416 does not admit. -/
def handRefuse (s : State) (m n : Nat) : State := busErr (noteAt (hcErr s 2) 15 2 (0x70100 + 4 * n) m)

/-- A write of `CMD` in `HC_BLOCK_n` (R416, R417). -/
def handCmd (s : State) (m n cmd : Nat) : State :=
  match tget s.halls.blocks n, masterHall s m with
  | some b, some h =>
    if cmd = 0 then wrOk s
    else if b.state = .owned ∧ (cmd = 1 ∨ cmd = 2) ∧ h = b.owner then
      if releaseOk s n then
        wrOk (modBlock s n (fun b =>
          { b with state := .releasing, last := m, dest := if cmd = 1 then .inner else .outer }))
      else busErr s
    else if b.state = .free ∧ cmd = 3 ∧ h = b.dest then
      wrOk (modBlock s n (fun b => { b with state := .claimed, last := m }))
    else handRefuse s m n
  | _, _ => busErr s

/-- The drain of a released block ends: `RESET`, which clears its pending event (R416, R418). -/
def handDrained (s : State) (n : Nat) : State :=
  if handState s n = .releasing ∧ n < 22 then
    let s := modBlock s n (fun b => { b with state := .reset })
    putSrc s (64 + n) { evSrc s (64 + n) with pending := false }
  else s

/-- Captured and held halves of a block's registers are gone after its reset (R5). -/
def dropHalves (s : State) (n : Nat) : State :=
  let mine := fun (p : PairHalf) => match windowOf p.addr with
    | some (w, off) => winBlock w off == some n
    | none => false
  { s with captured := s.captured.filter (fun p => !mine p), heldHi := s.heldHi.filter (fun p => !mine p) }

/-- Reset and zeroisation of a block end: `FREE` (R416). -/
def handResetEnd (s : State) (n : Nat) : State :=
  if handState s n = .reset then
    modBlock (dropHalves (clearBlock s n) n) n (fun b => { b with state := .free })
  else s

/-- The end of `CLAIMED`: the commit point of the hand-over (R416, R418, R507). -/
def handClaimEnd (s : State) (n : Nat) : State :=
  match tget s.halls.blocks n with
  | none => s
  | some b =>
    if b.state = .claimed then
      let e := evSrc s (64 + n)
      let s := modBlock s n (fun b => { b with state := .owned, owner := b.dest })
      putSrc s (64 + n) { e with target := if b.dest = .inner then 0 else 16 }
    else s

/-! ### The MPUs -/

def mpuOf (s : State) (core : Nat) : Mpu := (tget s.halls.mpus core).getD mpuReset

def modMpu (s : State) (core : Nat) (f : Mpu → Mpu) : State :=
  modHalls s (fun h => { h with mpus := tmod h.mpus core f })

/-- A region of a set. -/
def regionAt (t : Tab Region) (n : Nat) : Region := (tget t n).getD { start := 0, len := 0, attr := 0 }

def setOf (p : Mpu) (b : Bool) : Tab Region := if b then p.setB else p.setA

def regionOn (r : Region) : Bool := r.attr.getLsbD 0 && r.len != 0

/-- Address range of a region. -/
def regionSpan (r : Region) : Nat × Nat := (r.start.toNat, r.start.toNat + r.len.toNat)

/-- Whether a region matches an address (R409). -/
def regionHits (r : Region) (a : Nat) : Bool :=
  regionOn r && decide ((regionSpan r).1 ≤ a ∧ a < (regionSpan r).2)
    && !bitOf r.attr.toNat (8 + (a - r.start.toNat) / (r.len.toNat / 8))

/-- Whether an access code admits an access (R414); a fetch needs to read. -/
def codeAdmits (code : Nat) (user write : Bool) : Bool :=
  match code with
  | 1 => !user
  | 2 => !user || !write
  | 3 => true
  | 4 => !user && !write
  | 5 => !write
  | _ => false

/-- Whether the default map admits a privileged transaction (R410). -/
def defaultAdmits (s : State) (core : Nat) (t : Txn) : Bool :=
  if t.access = .fetch then
    t.space == .logic
      && (if core ≤ 3 then decide (0x1800000 ≤ t.addr ∧ t.addr < wmLogic s)
          else decide (wmLogic s ≤ t.addr ∧ t.addr < 0x2000000))
  else true

/-- The MPU's answer: none when it admits the transaction, else the matched region or 0x1F (R409). -/
def mpuCheck (s : State) (core : Nat) (t : Txn) : Option Nat :=
  let p := mpuOf s core
  match (List.range 16).find? (fun n => regionHits (regionAt (setOf p p.active) n) t.addr) with
  | none => if t.user ∨ defaultAdmits s core t = false then some 0x1F else none
  | some n =>
    let a := (regionAt (setOf p p.active) n).attr.toNat
    if codeAdmits (bitsOf a 4 2) t.user (t.access == .write) = false ∨ (t.access = .fetch ∧ bitOf a 1) then some n
    else none

def accessCode : Access → Nat
  | .read => 0
  | .write => 1
  | .fetch => 2

/-- Fault line of a core. -/
def coreLine (core : Nat) : Nat := if core ≤ 3 then 34 else 35

/-- A violation (R413): the access has no effect and the core takes a fault exception. -/
def mpuFault (s : State) (core region : Nat) (t : Txn) : State :=
  let p := mpuOf s core
  let s := emit { s with lastErr := false, lastVal := 0 } (.coreException core)
  if p.valid then modMpu s core (fun p => { p with more := min (p.more + 1) 255 })
  else
    noteAt (modMpu s core (fun p =>
      { p with valid := true, faultAddr := t.addr, region := region, fset := p.active, fuser := t.user
               ftype := accessCode t.access })) (coreLine core) (accessCode t.access + 1) t.addr t.master

/-- The first overlapping pair of enabled regions (R412). -/
def overlapOf (t : Tab Region) : Option (Nat × Nat) :=
  ((List.range 16).flatMap (fun i => (List.range 16).map (fun j => (i, j)))).find? (fun p =>
    decide (p.1 < p.2) && regionOn (regionAt t p.1) && regionOn (regionAt t p.2)
      && rangesMeet (regionSpan (regionAt t p.1)) (regionSpan (regionAt t p.2)))

/-- `MPU_CTRL.SWAP` (R412). -/
def mpuSwap (s : State) (core : Nat) : State :=
  let p := mpuOf s core
  if p.pending then busErr s
  else
    match overlapOf (setOf p (!p.active)) with
    | some (a, b) =>
      wrOk (pulse (modMpu s core (fun p => { p with overlap := true, ovlA := a, ovlB := b })) (coreLine core) .recover)
    | none => wrOk (modMpu s core (fun p => { p with active := !p.active, pending := true }))

/-- `MPU_FAULT_INFO.VALID` (R413). -/
def mpuRelease (s : State) (core : Nat) : State :=
  wrOk (modMpu s core (fun p => { p with valid := false, more := 0 }))

/-- A write of a region register (R411, R414). -/
def regionWrite (s : State) (m core : Nat) (b : Bool) (n k : Nat) (v : Word) : State :=
  let p := mpuOf s core
  let r := regionAt (setOf p b) n
  if p.active = b then staticErr s (coreLine core) (0x80000 + 0x800 * core + (if b then 0x200 else 0x100) + 0x10 * n + 4 * k) m
  else if k = 2 ∧ 6 ≤ bitsOf v.toNat 4 2 then busErr s
  else
    let r := if k = 0 then { r with start := v &&& 0xFFFFFE00 }
      else if k = 1 then { r with len := v &&& 0xFFFFFE00 }
      else { r with attr := v &&& 0xFF1F }
    wrOk (modMpu s core (fun p => if b then { p with setB := tput p.setB n r } else { p with setA := tput p.setA n r }))

/-- Set, region and register of an offset in the MPU window. -/
def regionOff (off : Nat) : Option (Bool × Nat × Nat) :=
  if 0x100 ≤ off ∧ off < 0x300 ∧ off % 4 = 0 ∧ off % 16 < 12 then
    some (decide (0x200 ≤ off), off / 16 % 16, off % 16 / 4)
  else none

def mpuRead (s : State) (core off : Nat) : Option Word :=
  let p := mpuOf s core
  if off = 0x000 then some 0
  else if off = 0x004 then
    some (pack [(b2n p.shown, 0), (b2n p.pending, 1), (b2n p.overlap, 2), (p.ovlA, 8), (p.ovlB, 12)])
  else if off = 0x010 then some (w32 p.faultAddr)
  else if off = 0x014 then
    some (pack [(p.ftype, 1), (b2n p.fuser, 3), (b2n p.fset, 4), (p.region, 8), (p.more, 16), (b2n p.valid, 31)])
  else
    (regionOff off).map (fun e =>
      let r := regionAt (setOf p e.1) e.2.1
      if e.2.2 = 0 then r.start else if e.2.2 = 1 then r.len else r.attr)

def mpuWrite (s : State) (m core off : Nat) (v : Word) : Option State :=
  if off = 0x000 then some (if bitOf v.toNat 0 then mpuSwap s core else wrOk s)
  else if off = 0x004 then
    some (wrOk (modMpu s core (fun p => { p with overlap := p.overlap && !bitOf v.toNat 2 })))
  else if off = 0x010 then some (wrOk s)
  else if off = 0x014 then some (if bitOf v.toNat 31 then mpuRelease s core else wrOk s)
  else (regionOff off).map (fun e => regionWrite s m core e.1 e.2.1 e.2.2 v)

/-! ### Memory transactions -/

/-- Sizes of the memories (R23, R25, R27). -/
def spaceSize : Space → Nat
  | .logic => 0x6000000
  | .mezz => 0x20000000
  | .archive => 0x100000000
  | .regs => 0

/-- Who writes a partition of the Archive (R27). -/
inductive ArchWriter where
  | innerCores | keyStore | bootRom | tallyCore | remap
  deriving DecidableEq, Repr

/-- The partitions of the Archive: where each ends and who writes it. The table of R27 gives sizes; that the partitions
lie in its order, one after the other from address 0, is the model's (DESIGN CHOICE, log 97). -/
def archParts : List (Nat × ArchWriter) :=
  [(0x10000000, .innerCores),   -- firmware slots A and B
   (0x12000000, .innerCores),   -- microcode slots A and B
   (0x14000000, .innerCores),   -- configuration image slots A and B
   (0x3C000000, .keyStore),     -- key archive snapshots 0 and 1
   (0x5C000000, .keyStore),     -- key archive journal
   (0x6C000000, .innerCores),   -- boot ledger; the boot ROM runs on `IC_0`
   (0x70000000, .tallyCore),    -- sealed Tally partition
   (0x70010000, .bootRom),      -- boot-attempt record
   (0x100000000, .remap)]       -- spare

/-- The writer of the partition that holds an address. -/
def archWriter (a : Nat) : ArchWriter := ((archParts.find? (fun p => decide (a < p.1))).map (·.2)).getD .remap

/-- Whether a master is the writer of a partition. The boot ROM is `IC_0` in a start; debug with an Inner attribute is
held to what the Inner cores may write (DEDUCED, log 97). -/
def isWriter (s : State) (m : Nat) (w : ArchWriter) : Bool :=
  match w with
  | .innerCores => decide (m ≤ 3) || m == 0x20
  | .keyStore => m == 0x6C
  | .bootRom => m == 0 && s.boot.running
  | .tallyCore => m == 0x70
  | .remap => false

/-- Whether the Archive admits an access: the key-store controller, the Inner cores with the boot ROM, and the Tally core
for its own partition reach it, and a partition is written by its writer alone (R27, R395). -/
def archAdmits (s : State) (h : Hall) (m a : Nat) (write : Bool) : Bool :=
  if m = 0x70 then archWriter a == .tallyCore
  else h == .inner && (decide (m ≤ 3) || m == 0x6C || m == 0x20) && (!write || isWriter s m (archWriter a))

/-- Whether a memory admits a hall attribute at an address (R395). The Tally core reaches its partition of the Archive
alone (R14). -/
def memAdmits (s : State) (sp : Space) (h : Hall) (m a : Nat) (write : Bool) : Bool :=
  match sp with
  | .logic => m != 0x70 && (h == .inner) == decide (a < wmLogic s)
  | .mezz => m != 0x70 && (h == .inner) == decide (a < wmMezz s)
  | .archive => archAdmits s h m a write
  | .regs => false

/-- Whether an address is closed by a watermark move (R400). -/
def closed (s : State) (sp : Space) (a : Nat) : Bool :=
  match sp with
  | .logic => changing s.halls.logic 0x10000 a
  | .mezz => changing s.halls.mezz 0x100000 a
  | .archive => false
  | .regs => false

def memOf (s : State) : Space → List Host.Cell
  | .logic => s.halls.logicMem
  | .mezz => s.halls.mezzMem
  | .archive => s.halls.archMem
  | .regs => []

def setMem (s : State) (sp : Space) (m : List Host.Cell) : State :=
  modHalls s (fun h => match sp with
    | .logic => { h with logicMem := m }
    | .mezz => { h with mezzMem := m }
    | .archive => { h with archMem := m }
    | .regs => h)

/-- The response of a transaction to its master. -/
def answer (s : State) (m : Nat) (err : Bool) (data : Bytes) : State :=
  emit { s with lastErr := err, lastVal := w32 (beNat (data.take 4)) } (.fabric m err data)

/-- An error response: a read returns zeros. -/
def answerErr (s : State) (m len : Nat) (write : Bool) : State := answer s m true (if write then [] else zeros len)

/-! ### Contexts in the clear (R302) -/

/-- The spilled contexts, each with its alcove and identifier. -/
def spilledList (s : State) : List (Nat × Nat × Context) :=
  s.net.alcoves.flatMap (fun e =>
    (e.2.contexts.filter (fun c => c.2.present && c.2.spilled)).map (fun c => (e.1, c.1, c.2)))

/-- The spill area gives each spilled context 256 bytes, in the order of alcoves and identifiers (R25; DESIGN CHOICE, log
114). -/
def spillSlot (a : Nat) : Option Nat := if 0x12000000 ≤ a ∧ a < 0x12800000 then some ((a - 0x12000000) / 256) else none

/-- A context in the clear. -/
def clearOf (c : Context) : Bytes :=
  Config.clearContext c.mech (2 * b2n c.decrypt + b2n c.verify) c.counter c.nonce c.aad c.history

/-- What an Inner core reads at an address of the mezzanine: a byte of a spilled context, or of the memory. -/
def clearByte (s : State) (a : Nat) : Byte :=
  match (spillSlot a).bind (fun n => (spilledList s)[n]?) with
  | some e => (clearOf e.2.2).getD (a % 256) 0
  | none => Mem.get s.halls.mezzMem a

/-- A context restored from the clear: the same bytes leave it as it is; others give it another chaining state, which no saved
epoch is of (R302, R304). -/
def fromClear (c : Context) (b : Bytes) : Context :=
  if b = clearOf c then c
  else { c with counter := (Config.clearState c.mech b).1, history := (Config.clearState c.mech b).2, epoch := none }

/-- The bytes that an Inner core writes into slot `n` restore its context. -/
def clearPut (s : State) (a : Nat) (data : Bytes) (n : Nat) : State :=
  match (spilledList s)[n]? with
  | none => s
  | some e =>
    let base := 0x12000000 + 256 * n
    let b := (List.range 256).map (fun i =>
      if a ≤ base + i ∧ base + i < a + data.length then data.getD (base + i - a) 0 else (clearOf e.2.2).getD i 0)
    modAlc s e.1 (fun x => { x with contexts := tmod x.contexts e.2.1 (fun c => fromClear c b) })

/-- The contexts whose slots a write of an Inner core meets take what it writes. -/
def clearWrite (s : State) (a : Nat) (data : Bytes) : State :=
  match spillSlot a, spillSlot (a + (data.length - 1)) with
  | some lo, some hi => (List.range (hi + 1 - lo)).foldl (fun s i => clearPut s a data (lo + i)) s
  | _, _ => s

/-- Whether a transaction saves or restores contexts in the clear: an Inner core's in the mezzanine (R302). -/
def seesClear (t : Txn) : Bool := t.space == .mezz && decide (t.master ≤ 3)

/-- A transaction on a memory, done. -/
def memDo (s : State) (t : Txn) : State :=
  let s := if t.space = .mezz then perfAdd s 21 (if t.access = .write then 0x69 else 0x68) 1 else s
  if t.access = .write then
    let s := if seesClear t then clearWrite s t.addr t.data else s
    answer (setMem s t.space (Mem.write (memOf s t.space) t.addr t.data)) t.master false []
  else if seesClear t then answer s t.master false ((List.range t.len).map (fun i => clearByte s (t.addr + i)))
  else answer s t.master false (Mem.read (memOf s t.space) t.addr t.len)

/-- A transaction of a master with a hall attribute that reaches a memory (R15, R395, R400, R403 to
R406) (DEDUCED, log 56). -/
def memTxn (s : State) (t : Txn) (h : Hall) : State :=
  let w := t.access == .write
  if spaceSize t.space < t.addr + t.len then answerErr s t.master t.len w
  else if closed s t.space t.addr then answerErr s t.master t.len w
  else if memAdmits s t.space h t.master t.addr w = false then
    answerErr (noteAt (hcErr (perfAdd s 0 0x09 1) 0) 15 (accessCode t.access + 1) t.addr t.master) t.master t.len w
  else if t.space = .logic ∧ enclAdmits s t = false then
    answerErr (pulses (hcErr s 3)
      [{ line := 15, cls := .safe, type := accessCode t.access + 1, addr := t.addr, master := t.master }])
      t.master t.len w
  else memDo s t

/-! ### Hall controller registers -/

def handCode : HandState → Nat
  | .owned => 0
  | .releasing => 1
  | .reset => 2
  | .free => 3
  | .claimed => 4

def hallBit (h : Hall) : Nat := if h = .inner then 0 else 1

/-- Enclave and register of an offset. -/
def enclOff (off : Nat) : Option (Nat × Nat) :=
  if 0x090 ≤ off ∧ off < 0x0C0 ∧ off % 4 = 0 then some ((off - 0x080) / 0x10, off % 16 / 4) else none

def blockWord (b : HallBlock) : Word :=
  pack [(handCode b.state, 0), (hallBit b.owner, 4), (hallBit b.dest, 5), (b.last, 16)]

def hcRead (s : State) (off : Nat) : Option Word :=
  let h := s.halls
  if off = 0x000 then
    let busy := h.blocks.any (fun b => b.2.state == .releasing || b.2.state == .reset || b.2.state == .claimed)
    some (pack [(b2n h.logic.busy, 0), (b2n h.mezz.busy, 1), (b2n busy, 2)])
  else if off = 0x010 then some (pack [(h.logic.target, 16)])
  else if off = 0x014 then some (pack [(h.logic.cur, 16)])
  else if off = 0x018 then some (pack [(h.mezz.target, 20)])
  else if off = 0x01C then some (pack [(h.mezz.cur, 20)])
  else if off = 0x020 then some (w32 h.err.toNat)
  else if off = 0x024 then some 0
  else if off = 0x040 then some (w32 (b2n h.lock))
  else if off % 4 = 0 ∧ 0x100 ≤ off ∧ off ≤ 0x154 then (tget h.blocks ((off - 0x100) / 4)).map blockWord
  else
    (enclOff off).bind (fun e => (tget h.encl e.1).map (fun x =>
      w32 (if e.2 = 0 then x.codeStart else if e.2 = 1 then x.codeEnd else if e.2 = 2 then x.dataStart else x.dataEnd)))

def hcWrite (s : State) (m off : Nat) (v : Word) : Option State :=
  if off = 0x010 then some (wmLogicWrite s m v)
  else if off = 0x018 then some (wmMezzWrite s m v)
  else if off = 0x020 then some (wrOk (modHalls s (fun h => { h with err := w1c h.err v.toNat })))
  else if off = 0x024 then some (hcForce s v)
  else if off = 0x040 then some (wrOk (modHalls s (fun h => { h with lock := h.lock || bitOf v.toNat 0 })))
  else if off % 4 = 0 ∧ 0x100 ≤ off ∧ off ≤ 0x154 then some (handCmd s m ((off - 0x100) / 4) (bitsOf v.toNat 9 8))
  else
    match enclOff off with
    | some e => if 1 ≤ e.1 ∧ e.1 ≤ 3 then some (enclWrite s m e.1 e.2 v) else none
    | none => if (hcRead s off).isSome then some (wrOk s) else none

/-! ### The commands -/

/-- `HC_WM_LOGIC_WRITE` (R398 to R400). -/
def execHcWmLogicWrite (master : Nat) (value : Word) (s : State) : Out :=
  .next (writeAs s master 0x70010 (fun s => wmLogicWrite s master value))

/-- `HC_WM_MEZZ_WRITE` (R398 to R400). -/
def execHcWmMezzWrite (master : Nat) (value : Word) (s : State) : Out :=
  .next (writeAs s master 0x70018 (fun s => wmMezzWrite s master value))

/-- `WM_MOVE_COMMIT` (R400). -/
def execWmMoveCommit (mezz : Bool) (s : State) : Out :=
  .next (modHalls s (fun h =>
    if mezz then
      let r := wmCommit h.mezz 0x100000 h.mezzMem
      { h with mezz := r.1, mezzMem := r.2 }
    else
      let r := wmCommit h.logic 0x10000 h.logicMem
      { h with logic := r.1, logicMem := r.2 }))

/-- `DRAIN_TIMEOUT` (R397): what is outstanding ends, and the change proceeds. -/
def execDrainTimeout (r : DrainRef) (s : State) : Out :=
  .next (match r with
    | .wmLogic => if s.halls.logic.busy then hcFire s 1 else s
    | .wmMezz => if s.halls.mezz.busy then hcFire s 1 else s
    | .block n => if handState s n = .releasing then handDrained (hcFire s 1) n else s)

/-- `HANDOVER_RELEASE_INNER` (R416): `CMD` 1. -/
def execHandoverReleaseInner (master block : Nat) (s : State) : Out :=
  .next (writeAs s master (0x70100 + 4 * (block % 22)) (fun s => handCmd s master (block % 22) 1))

/-- `HANDOVER_RELEASE_OUTER` (R416): `CMD` 2. -/
def execHandoverReleaseOuter (master block : Nat) (s : State) : Out :=
  .next (writeAs s master (0x70100 + 4 * (block % 22)) (fun s => handCmd s master (block % 22) 2))

/-- `HANDOVER_CLAIM` (R416): `CMD` 3. -/
def execHandoverClaim (master block : Nat) (s : State) : Out :=
  .next (writeAs s master (0x70100 + 4 * (block % 22)) (fun s => handCmd s master (block % 22) 3))

/-- `HANDOVER_DRAIN_END` (R416). -/
def execHandoverDrainEnd (block : Nat) (s : State) : Out := .next (handDrained s block)

/-- `HANDOVER_RESET_END` (R416). -/
def execHandoverResetEnd (block : Nat) (s : State) : Out := .next (handResetEnd s block)

/-- `HANDOVER_CLAIM_COMMIT` (R416, R418, R507). -/
def execHandoverClaimCommit (block : Nat) (s : State) : Out := .next (handClaimEnd s block)

/-- `HC_ENC_LOCK` (R405). -/
def execHcEncLock (master : Nat) (value : Word) (s : State) : Out :=
  .next (writeAs s master 0x70040 (fun s =>
    wrOk (modHalls s (fun h => { h with lock := h.lock || bitOf value.toNat 0 }))))

/-- `HC_ERR_FORCE` (R426). -/
def execHcErrForce (master : Nat) (value : Word) (s : State) : Out :=
  .next (writeAs s master 0x70024 (fun s => hcForce s value))

/-- Address of an MPU register of a core. -/
def mpuAddr (core off : Nat) : Nat := 0x80000 + 0x800 * (core % 28) + off

/-- `MPU_SWAP` (R412). -/
def execMpuSwap (master core : Nat) (s : State) : Out :=
  .next (writeAs s master (mpuAddr core 0) (fun s => mpuSwap s (core % 28)))

/-- `MPU_SWAP_DRAIN_END` (R412). -/
def execMpuSwapDrainEnd (core : Nat) (s : State) : Out :=
  .next (modMpu s core (fun p => if p.pending then { p with shown := p.active, pending := false } else p))

/-- `MPU_FAULT_RELEASE` (R413). -/
def execMpuFaultRelease (master core : Nat) (s : State) : Out :=
  .next (writeAs s master (mpuAddr core 0x14) (fun s => mpuRelease s (core % 28)))

end Sys2Proof.Machine
end

