-- ==== Sys2Proof/Machine/Twin.lean ====
section
/-! DEFINITION. The twin: joining (R557, R558), the loss of the partner (R559 to R561), the takeover (R562 to R567),
return and planned moves (R568, R569). -/

namespace Sys2Proof.Machine

/-! ### The copy of the key store (R557) -/

/-- Whether a side can join: paired, the link up and keyed, and not joined. -/
def joinable (s : State) : Bool :=
  s.twin.pair.paired && s.twin.link == 3 && s.fc.service != .safe && s.fc.service != .tampered
    && (s.twin.state == .joining || s.twin.state == .held || s.twin.state == .survivor || s.twin.state == .yielded)

/-- A face of the copy with this side's own counters (R206): those that it held, or those that the partner has from its
records, from whose marks they resume (DEDUCED, log 81). `i` is the number of the face in the partner's tables. -/
def copyFace (algo : Nat) (b : BulkState) (i : Nat) (old new : Option Face) : Option Face :=
  new.map (fun f =>
    match old with
    | some g => { f with uses := g.uses, useMark := g.useMark, nextInv := g.nextInv, invMark := g.invMark }
    | none =>
      let u := tgetD b.uses i 0
      resumeFace algo { f with uses := u, useMark := max 1 (u / 2 ^ 20), nextInv := 0, invMark := tgetD b.invs i 1 })

/-- A secret of the copy against the one that this side held at the slot under the same check value. -/
def copySecret (b : BulkState) (k : Keys) (slot : Nat) (x : Secret) : Secret :=
  let same : Bool := tgetD k.checks slot 0 == tgetD b.checks slot 0
  let o := if same then tget k.secrets slot else none
  { x with face0 := copyFace x.algo b (2 * slot) (o.bind (fun y => y.face0)) x.face0
           face1 := copyFace x.algo b (2 * slot + 1) (o.bind (fun y => y.face1)) x.face1 }

/-- Uses of the partner by a copied face (R555). -/
def copyUses (t : Tab Nat) (key : Nat) (f : Option Face) : Tab Nat :=
  match f with
  | some f => tput t key (if 2 ^ 20 < f.limit then f.useMark * 2 ^ 20 else f.uses)
  | none => t

/-- Invocation marks of the partner by a copied face (R206). -/
def copyInvs (t : Tab Nat) (key : Nat) (f : Option Face) : Tab Nat :=
  match f with
  | some f => tput t key f.invMark
  | none => t

/-- A domain of the copy over what this side has of it. -/
def copyDomain (s : State) (r : DomainRec) : State :=
  let s := setDom s r.domain (fun x => { x with
    set := r.set, threshold := r.threshold, window := r.window, epoch := r.epoch, root := r.root, quota := r.quota
    seqNo := r.seqNo, opened := true, archKey := archiveKey s r.domain (journalVector s), tickets := [] })
  admitTasks (deriveDomain (resumeWitness s r.domain) r.domain)

/-- An alcove record of the copy; its keys are those that this side holds of it. -/
def copyAlcove (s : State) (r : AlcoveRecord) : State :=
  let a := r.set.alcove
  if a = 0 ∨ thas s.net.alcoves a then s
  else
    let keys := ((bootAlcove s a).map (fun x => x.keys)).getD []
    modTwin s (fun t => { t with
      alcoves := tput t.alcoves a r, mirrorKeys := tput t.mirrorKeys a (tgetD t.mirrorKeys a keys) })

/-- What the journal has committed after a copy: the copy's store and domains in the place of the old one's. -/
def copyImage (s : State) (b : BulkState) : Archive :=
  let k := s.keys
  { k.archive with
    secrets := k.secrets, checks := k.checks, freed := k.freed, retired := k.retired, instNext := k.instNext
    uses := s.twin.uses, invs := s.twin.invs, quotas := b.domains.foldl (fun t r => tput t r.domain r.quota) []
    last := b.domains.foldl (fun t r => tput t r.domain (r.seqNo - 1)) []
    domains := tmap k.domains (fun _ x =>
      { x with pending := [], tickets := [], witKey := [], witCert := [], domKey := [], archKey := [], opened := false
               grantKey := [] }) }

/-- `BULK_COPY`: the copy takes the place of this side's key store and alcove records, and a snapshot of it begins, before
whose end no record of the old store is replayed (DESIGN CHOICE, log 81). -/
def execBulkCopy (b : BulkState) (s : State) : Out :=
  .next (if joinable s = false ∨ s.twin.state = .survivor then s
    else
      let s := modKeys s (fun k => { k with
        secrets := b.secrets.map (fun e => (e.1, copySecret b k e.1 e.2)), checks := b.checks, freed := b.freed
        retired := b.retired, taken := [], cache := [], instNext := max k.instNext b.instNext
        domains := tfilter k.domains (fun d _ => b.domains.any (fun r => r.domain == d)) })
      let s := modTwin s (fun t => { t with
        held := [], marksSent := [], alcoves := tfilter t.alcoves (fun a _ => b.alcoves.any (fun r => r.set.alcove == a))
        uses := b.secrets.foldl (fun u e => copyUses (copyUses u (2 * e.1) e.2.face0) (2 * e.1 + 1) e.2.face1) []
        invs := b.secrets.foldl (fun u e => copyInvs (copyInvs u (2 * e.1) e.2.face0) (2 * e.1 + 1) e.2.face1) [] })
      let s := b.alcoves.foldl copyAlcove (b.domains.foldl copyDomain s)
      let s := modKeys s (fun k => { k with
        archive := copyImage s b, journal := [], oldJournal := k.oldJournal ++ k.archJournal, archJournal := [], snapping := none })
      beginSnap s)

/-- The copy that this side sends: its store, what it has counted of the partner's uses and marks, and the records of the
alcoves that it and the partner serve. -/
def bulkOf (s : State) : BulkState :=
  { secrets := s.keys.secrets, checks := s.keys.checks, freed := s.keys.freed, retired := s.keys.retired
    instNext := s.keys.instNext, uses := s.twin.uses, invs := s.twin.invs
    domains := s.keys.domains.map (fun e =>
      { domain := e.1, set := e.2.set, threshold := e.2.threshold, window := e.2.window, epoch := e.2.epoch
        root := e.2.root, quota := e.2.quota, seqNo := e.2.seqNo })
    alcoves := (s.net.alcoves.filter (fun e => e.1 != 0)).map (fun e => alcoveRec s e.1 e.2) ++ tvals s.twin.alcoves }

/-! ### The join (R557) -/

/-- Whether the partner is authoritative for a domain. -/
def partnerRules (s : State) (j : JoinInfo) (d : Nat) : Bool :=
  if j.epoch = s.twin.pair.epoch then (domD s d).sequencer != s.twin.side else decide (s.twin.pair.epoch < j.epoch)

/-- The partner's highest commit number of a domain. -/
def joinNumber (j : JoinInfo) (d : Nat) : Nat := ((j.commits.find? (fun c => c.1 == d)).map (·.2)).getD 0

/-- Records that are held above the authoritative side's number are dropped (UNVERIFIED, log 82). -/
def dropAbove (s : State) (j : JoinInfo) : State :=
  modTwin s (fun t => { t with
    held := t.held.filter (fun r => !partnerRules s j r.domain || decide (r.seq ≤ joinNumber j r.domain)) })

/-- The next record of a domain that this side lacks is applied. -/
def takeRecord (j : JoinInfo) (s : State) (r : JournalRec) : State :=
  if partnerRules s j r.domain ∧ r.seq = (domD s r.domain).seqNo then applyRecord s r else s

/-- The sequence mark that covers a session (R553). -/
def seqMarkFor (x : Session) : Nat := ((((tkeys x.entries).foldl max x.base) + 512) / 1024 + 1) * 1024

/-- Mirror records of an open session. -/
def mirrorMarks (s : State) (a i : Nat) : State :=
  match sess s a i with
  | none => s
  | some x =>
    if x.open_ = false then s
    else
      let m := devMarkFor x.nextPkt
      let c := x.highest / 1024 * 1024
      let k := seqMarkFor x
      let s := mirrorSession (modSess s a i (fun y => { y with devMark := m, cliMark := c, seqMark := k })) a i x
      emits s [.markMirror a i (.device m), .markMirror a i (.client c), .markMirror a i (.seq k)]

/-- Mirror records of an alcove that this side serves. -/
def mirrorServed (s : State) (a : Nat) : State :=
  if a = 0 then s else (sessionsOf s a).foldl (fun s i => mirrorMarks s a i) (mirrorAlcove s a)

/-- Alcoves of the partner's records that are homed here open. -/
def openHomes (s : State) : State :=
  ((tkeys s.twin.alcoves).filter (fun a => homeOf s a == s.twin.side)).foldl openRecord s

/-- The pair is joined. A partner with the higher epoch has become the sequencing side of every domain, and serves this
side's homes until it moves them back (R562, R568). -/
def joinPair (s : State) (j : JoinInfo) : State :=
  let behind : Bool := decide (s.twin.pair.epoch < j.epoch)
  let ahead : Bool := decide (j.epoch < s.twin.pair.epoch)
  let wait := s.twin.waiting
  let other := 1 - s.twin.side
  let s := if behind then writePair s (fun r => { r with epoch := j.epoch }) else s
  let s := if behind then modKeys s (fun k => { k with domains := tmap k.domains (fun _ x => { x with sequencer := other }) }) else s
  let s := modTwin s (fun t => { t with
    state := .joined, waiting := false, joinedAt := some s.time, service := 7, delivered := [], credits := [0, 0, 0]
    sentCh := [0, 0, 0], peerFreed := [0, 0, 0], msgNext := 1, lostAt := none, takeAt := none, keepAt := s.time })
  let s := if ahead ∨ j.opened = false then emit s (.bulkCopy (bulkOf s)) else s
  let s := (tkeys s.net.alcoves).foldl mirrorServed s
  let s := if wait then goOn s 10 else s
  let s := if behind ∨ ahead ∨ s.twin.state ≠ .joined ∨ s.fc.service = .starting then s else openHomes s
  if (alc s 0).isSome then sendHello s partnerSession 0 (ownId s) else s

/-- Digests that the images of a pair share (R549). -/
def pairDigests (s : State) : List Bytes := ([2, 3, 6] : List Nat).map (dirDigest (cfgSlot s).head)

/-- Whether the two images keep R549 (DEDUCED, log 83). -/
def imagesAgree (s : State) (j : JoinInfo) : Bool := zeroAt (cfgSlot s).head 16 16 && pairDigests s == j.digests

/-- `TWIN_JOIN`. The side with the lower serial takes the other's image first, which arrives as a
`SECTION_LOAD_FORWARD`; the side with the higher serial sends it, and its images agree from then on. -/
def execTwinJoin (j : JoinInfo) (s : State) : Out :=
  .next (if joinable s = false then s
    else
      let mine := headSerial (cfgSlot s).head
      if mine < j.serial then s
      else if zeroAt (cfgSlot s).head 16 16 = false ∨ (mine = j.serial ∧ imagesAgree s j = false) then
        (if s.twin.waiting then startFail s 10 .twin else s)
      else
        let s := if j.serial < mine then emit s (.sectionForward (cfgSlot s).head (cfgSlot s).bodies) else s
        let s := dropAbove s j
        let s := (s.twin.held ++ j.records).foldl (takeRecord j) s
        joinPair s j)

/-- `TWIN_LINK_WAIT_EXPIRY` (R558). -/
def execTwinLinkWaitExpiry (s : State) : Out :=
  .next (if s.twin.waiting = false ∨ s.twin.link = 3 ∨ s.time < s.boot.began + 200 * 10 ^ 6 then s
    else goOn (modTwin s (fun t => { t with waiting := false, state := .held })) 10)

/-! ### Losing the partner (R559 to R561) -/

/-- The operations of an alcove leave their units without results. -/
def dropOps (s : State) (a : Nat) : State :=
  let l := (tvals s.cipher.ops).filter (fun o => o.alcove == a)
  let s := unpinAll s (l.flatMap (fun o => o.pins))
  abortAlcove { s with cipher := { s.cipher with ops := tfilter s.cipher.ops (fun _ o => o.alcove != a) } } a

/-- An alcove of a side that yields: its work goes without completions, and its sessions and frames with it. -/
def yieldAlcove (s : State) (a : Nat) : State :=
  handAway (dropIdleWork (dropAlcMutations (dropOps s a) a none) a none) a

/-- Every open ticket ends: its side of the pair has failed (R223). -/
def endTickets (s : State) : State :=
  modKeys s (fun k => { k with domains := tmap k.domains (fun _ d => { d with tickets := [] }) })

/-- A side yields (R561): it stays held, with alcove 0 alone. -/
def yieldSide (s : State) : State :=
  let s := endTickets (modTwin s (fun t => { t with state := .yielded, lostAt := none, joinedAt := none, takeAt := none }))
  ((tkeys s.net.alcoves).filter (fun a => a != 0)).foldl yieldAlcove s

/-- A takeover falls due. -/
def dueTake (s : State) (t : Nat) : State := modTwin s (fun x => { x with takeAt := some t, lostAt := none })

/-- `PRESENCE_CHECK_END` (R560). -/
def execPresenceCheckEnd (s : State) : Out :=
  .next (match s.twin.lostAt with
    | none => s
    | some t =>
      if s.twin.state ≠ .joined ∨ s.time < t + 20 * 10 ^ 6 then s
      else if s.twin.link = 3 then modTwin s (fun t => { t with lostAt := none })
      else if s.twin.answered then
        (if s.twin.side = 1 then yieldSide s else dueTake s (s.time + 2 * 10 ^ 6))
      else if (firstUp s 0).isSome ∨ (firstUp s 1).isSome then dueTake s s.time
      else yieldSide s)

/-- `SERVICE_STATE_NOTICE` (R559): the codes of `SAFE` and `TAMPERED` lose the partner. -/
def execServiceStateNotice (service : Nat) (s : State) : Out :=
  .next (if s.twin.link ≠ 3 then s
    else
      let s := modTwin s (fun t => { t with service := service })
      if s.twin.state = .joined ∧ (service = serviceCode .safe ∨ service = serviceCode .tampered) then dueTake s s.time
      else s)

/-! ### The takeover (R562 to R567) -/

/-- An adopted session (R565): the counters at their marks, every lower packet number seen, and every entry below the
sequence mark lost (DEDUCED, log 84). -/
def adoptedSession (s : State) (m : SessionMirror) (role : Role) (sid : Nat) : Session :=
  let mine := s.twin.marks.filter (fun x => x.1 == m.alcove && x.2.1 == m.session)
  let dev := mine.foldl (fun n x => match x.2.2 with
    | .device v => v
    | _ => n) 0
  let cli := mine.foldl (fun n x => match x.2.2 with
    | .client v => v
    | _ => n) 0
  let k := mine.foldl (fun n x => match x.2.2 with
    | .seq v => v
    | _ => n) 0
  let base := max 1 (k - 4096)
  { sid := sid, open_ := true, key := m.key, keyId := [], role := role, c2dKey := m.c2dKey, d2cKey := m.d2cKey
    c2dSalt := m.c2dSalt, d2cSalt := m.d2cSalt, hello := [], reply := [], ephemeral := [], kemShared := []
    highest := cli + 2048, bitmap := BitVec.allOnes 1024, nextPkt := max 1 (dev * 2 ^ 20), replyAt := s.time
    lastAuth := s.time, ackVal := 0, base := base
    entries := (List.range (k - base)).map (fun i => (base + i, Entry.lost)), closing := none, link := 0
    seqMark := 0, devMark := 0, cliMark := 0 }

/-- Adopt a mirrored session whose key is still registered with an alcove that this side serves. -/
def adoptMirror (s : State) (m : SessionMirror) : State :=
  match (alc s m.alcove).bind (fun x => x.keys.find? (fun k => k.1 == m.key)) with
  | some k => adoptSession s m.alcove m.session (fun sid => adoptedSession s m k.2 sid)
  | none => s

/-- The first records of an alcove that was taken over, and its announcement. -/
def tellTaken (s : State) (a : Nat) : State :=
  let s := addressMoved s a
  let s := ((s.net.qps.filter (fun e => e.2.alcove == a)).map (·.1)).foldl
    (fun s q => postEvent (perfAdd s 17 0x4B 1) a 3 0 0xFF 0xFF 0 q) s
  announceFirst s a

/-- Whether a command of this side is mirrored (R554). -/
def isMirrored (s : State) (k : Work) : Bool :=
  k.alcove != 0 && k.stage != .completed && decide (k.payload.length ≤ 65536)
    && ((planOf s k.alcove k.opcode k.payload).bind (fun p => p.record)).isSome

/-- Promises of mirrored commands are extended by 50 ms (R563). -/
def extendPromises (s : State) : State :=
  { s with net := { s.net with work := tmap s.net.work (fun _ k =>
      if isMirrored s k then { k with deadline := k.deadline + 50 * 10 ^ 6 } else k) } }

/-- What completes a command whose record is held: its payload, and whether it held more than handles (R564). -/
def takenPayload (op : Nat) (handles : Bytes) : Bytes × Bool :=
  if op = 0x0501 ∨ op = 0x0502 then (Config.fixLen 16 handles, false)
  else if op = 0x0505 ∨ op = 0x0603 then (handles, false)
  else if op = 0x0303 ∨ op = 0x0305 ∨ op = 0x0503 then (be 4 0 ++ be 4 8 ++ handles, false)
  else if op = 0x0304 then (handles, true)
  else if op = 0x0802 ∨ op = 0x0803 then ([], true)
  else ([], false)

/-- A completion of a partner's command. -/
def tellAccept (s : State) (x : Session) (r : AcceptMirror) (status : Nat) (p : Bytes) (replay cut : Bool) : State :=
  let s := modSess s r.alcove r.session (fun y =>
    { y with entries := tput y.entries r.seq (.done status p.length (some p) r.queue s.net.nextComp) })
  addComp s
    { sid := x.sid, alcove := r.alcove, session := r.session, seq := r.seq, queue := r.queue, opcode := r.opcode
      status := status, payload := p, gen := ((alc s r.alcove).map (fun y => y.gen)).getD 0, sublink := 0, prio := 0
      event := r.event, replay := replay, truncated := cut, declLen := p.length, work := none, meters := [], stream := none
      pktNum := x.highest, tagged := true }

/-- Whether R152 admits a command with a deadline of its own. -/
def lateAdmit (s : State) (costs : List Cost) (deadline : Nat) : Bool :=
  costs.all (fun c => match loadOf s.time s.net.nextWork deadline costs c.wing with
    | some l => wingAdmits s c.wing l
    | none => true)

/-- The survivor executes a command of the partner. -/
def takenOffer (r : AcceptMirror) (x : Session) (p : Bytes) : Offer :=
  { alcove := r.alcove, session := r.session, seq := r.seq, queue := r.queue, opcode := r.opcode, event := r.event
    sublink := 0, prio := 0, pktNum := x.highest, payload := p }
def runTaken (s : State) (x : Session) (r : AcceptMirror) (p : Bytes) : State :=
  match planOf s r.alcove r.opcode p with
  | none => tellAccept s x r stUnitLost [] false false
  | some pl =>
    let due := r.accepted + promiseNs pl.cls + 50 * 10 ^ 6
    let costs := costsOf s pl.steps pl.record.isSome
    if lateAdmit s costs due = false then tellAccept s x r stUnitLost [] false false
    else
      let w := s.net.nextWork
      modWork (acceptCmd s x (takenOffer r x p) pl costs) w (fun k => { k with accepted := r.accepted, deadline := due })

/-- One acceptance record of the partner (R564). -/
def takeAccept (s : State) (r : AcceptMirror) : State :=
  match sess s r.alcove r.session with
  | none => s
  | some x =>
    if r.seq < x.base then s
    else
      match s.twin.applied.find? (fun a => a.1 == r.alcove && a.2.1 == r.session && a.2.2.1 == r.seq), r.payload with
      | some a, _ =>
        (let q := takenPayload r.opcode a.2.2.2
         tellAccept s x r stOk q.1 true q.2)
      | none, none => tellAccept s x r stUnitLost [] false false
      | none, some p => if r.quorum then tellAccept s x r stDeniedQuorum [] false false else runTaken s x r p

/-- Mirrors end with the partner. -/
def endMirrors (s : State) : State :=
  modTwin s (fun t => { t with
    held := [], reported := [], mirrors := [], marks := [], accepts := [], applied := [], lostAt := none, takeAt := none })

/-- Forwards that have no answer are sequenced here. -/
def takeBack (s : State) : State :=
  modKeys s (fun k => { k with domains := tmap k.domains (fun _ x =>
    { x with pending := x.pending.map (fun m => { m with sent := false }) }) })

/-- The takeover, in the order of R562; a partner in `SAFE` or `TAMPERED` has closed its sessions (R567). A manager sends
its workers the grant keys of its own domain keys (R573). -/
def takeOver (s : State) : State :=
  let gone : Bool := s.twin.service == serviceCode .safe || s.twin.service == serviceCode .tampered
  let s := extendPromises (surviveAll s)
  let s := takeBack (s.twin.held.foldl applyRecord s)
  let l := tkeys s.twin.alcoves
  let s := l.foldl openRecord s
  let s := if gone then s else s.twin.mirrors.foldl adoptMirror s
  let s := l.foldl tellTaken s
  let s := endMirrors (if gone then s else s.twin.accepts.foldl takeAccept s)
  (tkeys s.gallery.clients).foldl askReceiveKey s

/-- `TAKEOVER`. -/
def execTakeover (s : State) : Out :=
  .next (match s.twin.takeAt with
    | some t => if s.twin.state = .joined ∧ t ≤ s.time then takeOver s else s
    | none => s)

/-- `ANNOUNCEMENT_DUE` (R562, item 6). -/
def execAnnouncementDue (s : State) : Out :=
  .next (if s.twin.rounds.isEmpty ∨ s.time < s.twin.roundAt then s
    else
      let l := s.twin.rounds
      let s := l.foldl (fun s r => announce s r.1) s
      modTwin s (fun t => { t with
        rounds := (l.map (fun r => (r.1, r.2 - 1))).filter (fun r => r.2 != 0), roundAt := s.time + 10 ^ 6 }))

/-! ### Return and planned moves (R568, R569) -/

/-- Alcoves served here whose home is the partner. -/
def awayFromHome (s : State) : List Nat :=
  (tkeys s.net.alcoves).filter (fun a => a != 0 && homeOf s a != s.twin.side)

/-- `FAILBACK_EXPIRY`: the planned moves begin with their quiesce points. -/
def execFailbackExpiry (s : State) : Out :=
  .next (match s.twin.joinedAt with
    | some t =>
      if s.twin.state = .joined ∧ t + s.twin.failback * 10 ^ 9 ≤ s.time then
        (awayFromHome s).foldl quiesce (modTwin s (fun t => { t with joinedAt := none }))
      else s
    | none => s)

/-- The stop point at the old home, once the accepted work has completed: the exact state goes, and the alcove. -/
def moveOut (s : State) (a : Nat) : State :=
  let s := quiesce s a
  if alcoveWorks s a s.net.nextWork then s
  else handAway (emit s (.planned a (movedAll s a))) a

/-- The new home serves the alcove with the sessions as they were. -/
def moveIn (s : State) (a : Nat) (l : List MovedSession) : State :=
  let s := adoptMoved (openRecord s a) a l
  let s := modTwin s (fun t => { t with
    mirrors := t.mirrors.filter (fun m => m.alcove != a), marks := t.marks.filter (fun m => m.1 != a)
    accepts := t.accepts.filter (fun m => m.alcove != a), applied := t.applied.filter (fun m => m.1 != a) })
  mirrorServed (announceFirst (addressMoved s a) a) a

/-- `PLANNED_MOVE`: at the old home a step of the move, at the new home its end. -/
def execPlannedMove (alcove : Nat) (sessions : List MovedSession) (s : State) : Out :=
  .next (if s.twin.state ≠ .joined ∨ s.twin.link ≠ 3 ∨ alcove = 0 then s
    else if thas s.net.alcoves alcove then (if homeOf s alcove = s.twin.side then s else moveOut s alcove)
    else if thas s.twin.alcoves alcove ∧ homeOf s alcove = s.twin.side then moveIn s alcove sessions
    else s)

end Sys2Proof.Machine
end

