-- ==== Sys2Proof/Machine/Net.lean ====
section
/-! DEFINITION. The ports outside WCP: pauses (R36), neighbours and echo (R35), frames that are dropped (R35, R44,
R49), device time (R38 to R40), modules (R41, R646) and links (R33, R137). -/

namespace Sys2Proof.Machine

/-! ### Pauses -/

/-- `PFC_PAUSE_RECEIVED`: the priority is held for `time` ns; a pause of no time ends it. -/
def execPfcPauseReceived (port prio time : Nat) (s : State) : Out :=
  .next (if 2 ≤ port ∨ 8 ≤ prio then s
    else releaseHeld (modPort (perfAdd s (14 + port) 0x30 1) port (fun p => { p with
      paused := if time = 0 then tdel p.paused prio else tput p.paused prio (s.time + time) })))

/-- `PFC_PAUSE_EXPIRY`. -/
def execPfcPauseExpiry (port prio : Nat) (s : State) : Out :=
  .next (if 2 ≤ port then s
    else
      match tget (portOf s port).paused prio with
      | some t => if t ≤ s.time then releaseHeld (modPort s port (fun p => { p with paused := tdel p.paused prio })) else s
      | none => s)

/-! ### Neighbours and echo

Their answers have priority 0 (DESIGN CHOICE, log 100). -/

/-- The first open alcove with an IP address, on a port that serves (R457). -/
def ownerOfIp (s : State) (sublink : Nat) (v6 : Bool) (ip : Nat) : Option Alcove :=
  if s.life.life = .transit ∧ 4 ≤ sublink then none
  else (s.net.alcoves.find? (fun e => e.2.isOpen && (ipsOf e.2.set).contains (v6, ip))).map (·.2)

/-- `ARP_ND_REQUEST`. -/
def execArpNdRequest (sublink : Nat) (v6 : Bool) (ip : Nat) (s : State) : Out :=
  .next (if 8 ≤ sublink then s
    else
      let s := perfAdd s (14 + portNo sublink) 0x30 1
      match ownerOfIp s sublink v6 ip with
      | some x => sendOut s sublink 0 (.arpReply sublink v6 ip x.set.mac)
      | none => s)

/-- `ICMP_ECHO`. -/
def execIcmpEcho (sublink : Nat) (v6 : Bool) (ip : Nat) (s : State) : Out :=
  .next (if 8 ≤ sublink then s
    else
      let s := perfAdd s (14 + portNo sublink) 0x30 1
      if s.net.icmp ∧ (ownerOfIp s sublink v6 ip).isSome then sendOut s sublink 0 (.echoReply sublink v6 ip) else dropFrame s sublink 35)

/-- The rule under which a frame is dropped. -/
def dropRule : FrameKind → Nat
  | .unsupported => 35
  | .noAlcove => 44
  | .tcp => 35
  | .badWcp => 49

/-- `UNSUPPORTED_FRAME`. -/
def execUnsupportedFrame (sublink : Nat) (k : FrameKind) (s : State) : Out :=
  .next (if 8 ≤ sublink then s else dropFrame (perfAdd s (14 + portNo sublink) 0x30 1) sublink (dropRule k))

/-! ### Device time -/

/-- The rule of R39 on an offset, device time less reference time: a slew toward it whose rate within 100 ppm is a
free value, or a step with its `NOTE` on `line` and its event, whose code the spec does not give (a free value)
(DEDUCED, log 75). -/
def adjust (s : State) (o : Int) (line : Nat) : State :=
  if o.natAbs ≤ 100000 then
    let n : Nat := Config.freeNat s.fresh % 100 + 1
    let r : Int := n
    { useFree s 1 with net := { s.net with slew := if o = 0 then 0 else if 0 < o then -r else r } }
  else
    let now := ns64 (((s.time : Int) - o) % 2 ^ 64).toNat
    let s := { s with time := now, net := { s.net with slew := 0, ppsRose := min s.net.ppsRose now } }
    let s := noteAt s line 0 0 0xFF
    postEvent (useFree s 1) 0 (Config.freeNat s.fresh % 65536) 0 0xFF 0xFF 0 (o.natAbs % 2 ^ 64)

/-- A hardware time stamp, within one `PCLK` cycle of 1.18 ns of the first bit (R21): which of the two counts it takes is
a free value. -/
def stamp (s : State) : Nat := ns64 (s.time + Config.freeNat s.fresh % 2)

def modPtp (s : State) (f : PtpClock → PtpClock) : State := { s with net := { s.net with ptp := f s.net.ptp } }

/-- The offset that a finished exchange gives: device time less master time, with the mean path delay taken out
(IEEE 1588-2019). -/
def ptpOffset (t1 t2 t3 t4 : Nat) : Int := (((t2 : Int) - t1) - ((t4 : Int) - t3)) / 2

/-- One message of the two-step exchange (R38, R39): a `Sync` is stamped, its `Follow_Up` brings on a `Delay_Req` at once
(DESIGN CHOICE, log 75), and the `Delay_Resp` to that gives the offset. An `Announce` gives the leap seconds (R605). -/
def ptpTake (s : State) (m : PtpInfo) : State :=
  let p := s.net.ptp
  match m.kind with
  | .sync n => modPtp (useFree s 1) (fun p => { p with seq := n, t2 := some (stamp s), t1 := none, t3 := none })
  | .followUp n t1 =>
    (match p.t2, firstUp s m.port with
      | some _, some l =>
        if n = p.seq ∧ p.t1 = none then
          sendOut (modPtp (useFree s 1) (fun p => { p with t1 := some t1, req := (p.req + 1) % 65536, t3 := some (stamp s) }))
            l 0 (.delayReq l m.transport p.req)
        else s
      | _, _ => s)
  | .delayResp n t4 =>
    (match p.t1, p.t2, p.t3 with
      | some t1, some t2, some t3 =>
        if (n + 1) % 65536 = p.req then
          adjust { s with net := { s.net with ptpHere := true, ptp := { p with t1 := none, t2 := none, t3 := none } } }
            (ptpOffset t1 t2 t3 t4) (28 + m.port)
        else s
      | _, _, _ => s)
  | .announce u => { s with net := { s.net with leap := u } }

/-- `PTP_MESSAGE` (R38, R39, R605): on the PTP port, in its domain. -/
def execPtpMessage (m : PtpInfo) (s : State) : Out :=
  .next (if 2 ≤ m.port then s
    else
      let s := perfAdd s (14 + m.port) 0x30 1
      if m.port ≠ s.net.ptpPort ∨ m.domain ≠ s.net.ptpDomain then s else ptpTake s m)

/-- `PPS_IN_EDGE` (R40): the offset from the nearest whole second. -/
def execPpsInEdge (s : State) : Out :=
  .next (if s.net.ptpHere ∨ s.net.ptpSource ≠ 1 then s
    else
      let r : Nat := s.time % 10 ^ 9
      adjust s (if r < 5 * 10 ^ 8 then (r : Int) else (r : Int) - 10 ^ 9) 3)

/-- `PPS_OUT_SECOND` (R40). -/
def execPpsOutSecond (s : State) : Out :=
  .next (if s.power.powered = false ∨ s.net.ppsOut ∨ s.time / 10 ^ 9 ≤ s.net.ppsRose / 10 ^ 9 then s
    else emit { s with net := { s.net with ppsOut := true, ppsRose := s.time } } (.ppsOut true))

/-- `PPS_OUT_FALL` (R646): 100 ms later. -/
def execPpsOutFall (s : State) : Out :=
  .next (if s.net.ppsOut ∧ s.net.ppsRose + 10 ^ 8 ≤ s.time then
    emit { s with net := { s.net with ppsOut := false } } (.ppsOut false)
  else s)

/-! ### Modules -/

/-- Bit of an alarm flag. -/
def flagBit : ModuleFlag → Nat
  | .temperature => 0
  | .voltage => 1
  | .opticalPower => 2

/-- `MODULE_ALARM` (R41): the flag of a module that is present, a `NOTE`, and no change of its link. -/
def execModuleAlarm (port : Nat) (s : State) (flag : ModuleFlag := .temperature) : Out :=
  .next (if port < 2 ∧ (portOf s port).present then
    noteAt (modPort s port (fun p => { p with alarms := setBit p.alarms (flagBit flag) })) (28 + port) 0 0 0xFF else s)

/-- `MODULE_PRESENCE_CHANGE` (R646): a module that comes is reset and brought up where its port serves; one that goes
takes its links with it. -/
def execModulePresenceChange (port : Nat) (present : Bool) (s : State) : Out :=
  .next (if 2 ≤ port ∨ (portOf s port).present = present then s
    else if present then
      let serves : Bool := decide (11 ≤ s.boot.step) && portServes s port
      let s := modPort s port (fun p => moduleTo { p with present := true, alarms := 0 } serves)
      if serves then emit s (.moduleReset port) else s
    else
      modPort s port (fun p => moduleTo { p with present := false, up := [false, false, false, false] } false))

/-! ### Links -/

/-- Sub-links of a port (R33). -/
def subLinks (p : Port) : Nat := 2 ^ p.breakout

/-- `PORT_LINK_DOWN`. PTP goes with the last link of its port. -/
def execPortLinkDown (sublink : Nat) (s : State) : Out :=
  .next (if 8 ≤ sublink then s
    else
      let s := modPort s (portNo sublink) (fun p => { p with up := p.up.set (sublink % 4) false })
      if (firstUp s s.net.ptpPort).isNone then { s with net := { s.net with ptpHere := false } } else s)

/-- A breakout that waited for the other port is taken (R532). -/
def takeBreak (s : State) (p : Nat) : State :=
  match (portOf s p).breakNext with
  | some n =>
    settleLoads (modPort s p (fun x => { x with breakout := n, breakNext := none, up := [false, false, false, false] }))
  | none => s

/-- `PORT_LINK_UP`. -/
def execPortLinkUp (sublink : Nat) (s : State) : Out :=
  .next (
    let p := portOf s (portNo sublink)
    if 8 ≤ sublink ∨ p.moduleUp = false ∨ p.pllOk = false ∨ subLinks p ≤ sublink % 4 then s
    else takeBreak (modPort s (portNo sublink) (fun p => { p with up := p.up.set (sublink % 4) true })) (1 - portNo sublink))

end Sys2Proof.Machine
end

