-- ==== Sys2Proof/Machine/PayCmd.lean ====
section
/-! DEFINITION. The payment commands: `PIN_TRANSLATE`, `KEYBLOCK_EXPORT` and `KEYBLOCK_IMPORT` (R123 to
R127, R210, R211), on the PIN blocks of ISO 9564-1 and the key blocks of ANSI X9.143. -/

namespace Sys2Proof.Machine

/-! ### PIN blocks -/

/-- The 12 rightmost digits of the account number without its check digit, after four zeros (formats 0 and 3). -/
def panField (p : Bytes) : List Nat :=
  let n := fld p 18 1
  [0, 0, 0, 0] ++ (((nibbles (slice p 20 10)).take n).drop (n - 13)).take 12

/-- The account number block of format 4. -/
def panBlock (p : Bytes) : List Nat :=
  let n := fld p 18 1
  let d := [n - 12] ++ (nibbles (slice p 20 10)).take n
  d ++ List.replicate (32 - d.length) 0

/-- Exclusive or of nibbles. -/
def xorNibbles (a b : List Nat) : List Nat := List.zipWith (· ^^^ ·) a b

/-- The PIN digits of a clear PIN field under a format, or none where R125 refuses it. -/
def pinDigits (fmt : Nat) (x : List Nat) : Option (List Nat) :=
  let n := x.getD 1 0
  let d := (x.drop 2).take n
  let fill := (x.take 16).drop (2 + n)
  if x.getD 0 0 = fmt ∧ 4 ≤ n ∧ n ≤ 12 ∧ d.all (fun v => decide (v ≤ 9))
      ∧ (fmt ≠ 3 ∨ fill.all (fun v => decide (10 ≤ v))) then some d
  else none

/-- The PIN of an incoming block: material, format, request. -/
def pinIn (key : Bytes) (fmt : Nat) (p : Bytes) : Option (List Nat) :=
  let b := slice p 32 16
  if fmt = 4 then
    let a := xorNibbles (nibbles (Config.aesBlock true key b)) (panBlock p)
    pinDigits 4 (nibbles (Config.aesBlock true key (packNibbles a)))
  else
    let x := nibbles (Config.tdes true key (zeros 8) (b.take 8))
    pinDigits fmt (if fmt = 1 then x else xorNibbles x (panField p))

/-- An outgoing block: material, format, request, PIN digits and random bytes for the fill. -/
def pinOut (key : Bytes) (fmt : Nat) (p : Bytes) (d : List Nat) (rnd : Bytes) : Bytes :=
  let r := nibbles rnd
  let fill := fun (i : Nat) =>
    if fmt = 0 then 15 else if fmt = 3 then 10 + r.getD i 0 % 6 else if fmt = 4 then 10 else r.getD i 0
  let field := [fmt, d.length] ++ d ++ (List.range (14 - d.length)).map fill
  if fmt = 4 then
    let a := nibbles (Config.aesBlock false key (packNibbles (field ++ (r.drop 14).take 16)))
    Config.aesBlock false key (packNibbles (xorNibbles a (panBlock p)))
  else
    Config.tdes false key (zeros 8) (packNibbles (if fmt = 1 then field else xorNibbles field (panField p))) ++ zeros 8

/-- Whether a face serves a PIN block format (R123). -/
def pinServes (fmt : Nat) (sec : Secret) (f : Face) : Bool :=
  f.cls == .pinTranslate && sec.algo == (if fmt = 4 then 1 else 3)

/-- Meters of a translation: six TDES blocks a TDES side, one AES block a format-4 side (R147, R590). -/
def pinMeters (p : Bytes) : List (Nat × Nat) :=
  let n := b2n (fld p 16 1 != 4) + b2n (fld p 17 1 != 4)
  (if n = 0 then [] else [(0x0601, 6 * n)]) ++ (if n = 2 then [] else symMeters .cipher (16 * (2 - n)))

/-- The wing of a PIN block format. -/
def pinWing (fmt : Nat) : Wing := if fmt = 4 then .cipher else .legacy

/-- The result of a translation: incoming and outgoing material, request and random bytes (R125). -/
def pinResult (key out p rnd : Bytes) : Result :=
  match pinIn key (fld p 16 1) p with
  | some d => plainResult stOk (pinOut out (fld p 17 1) p d rnd) (pinMeters p)
  | none => plainResult stInput [] []

/-- Whether an output format takes random fill (R125). -/
def pinFills (fmt : Nat) : Bool := fmt == 1 || fmt == 3 || fmt == 4

/-- Random bytes for the fill of an output format, if it takes any. -/
def withFill (s : State) (w : Nat) (k : Work) (fmt : Nat) (f : State → Bytes → State) : State :=
  if pinFills fmt then withDraw s w k 16 f else f s (zeros 16)

/-- A translation between two wings: the incoming block is opened on the first, and only an accepted PIN goes on to the
second (R125, R153). -/
def pinFirst (s : State) (w : Nat) (k : Work) (fi fo : Nat) (pins : List Nat) (r : Result) : State :=
  issueOp s w k (pinWing fi) pins none 0
    { r with again := if pinWing fi ≠ pinWing fo ∧ r.status = stOk then .nextWing else .no }

/-- `PIN_TRANSLATE` (R123 to R125). A face named for both zones counts one use. The outgoing face of a translation between
two wings is checked again, used and pinned at the second issue (R19, R116). -/
def execPinTranslate (w : Nat) (s : State) : Out :=
  .next (onWork s w 0x0601 (fun k =>
    let p := k.payload
    let fi := fld p 16 1
    let fo := fld p 17 1
    match k.carry with
    | some r =>
      withFace s w k (fld p 8 8) true (pinServes fo) (fun so no _ g =>
        if usesLeft s so no g = false then failWork s w stUsageExh
        else if marksAllow g false = false ∨ mayIssue s (pinWing fo) w [cacheKey so no] = false then s
        else issueOp (issueFace s k.alcove so no g) w k (pinWing fo) [cacheKey so no] none 0 r)
    | none =>
      match resolve s k.alcove (fld p 0 8), resolve s k.alcove (fld p 8 8) with
      | some _, some _ =>
        withFace s w k (fld p 0 8) true (pinServes fi) (fun si ni sec f =>
          withFace s w k (fld p 8 8) true (pinServes fo) (fun so no out g =>
            let both : Bool := pinWing fi == pinWing fo
            let pins := if both then bothPins (cacheKey si ni) (cacheKey so no) else [cacheKey si ni]
            if fi = 1 ∧ fo ≠ 1 then failWork s w stDeniedAttr
            else if usesLeft s si ni f = false ∨ usesLeft s so no g = false then failWork s w stUsageExh
            else if marksAllow f false = false ∨ marksAllow g false = false ∨ mayIssue s (pinWing fi) w pins = false then s
            else
              withFill s w k fo (fun s rnd =>
                let s := issueFace s k.alcove si ni f
                let s := if both ∧ (so, no) ≠ (si, ni) then issueFace s k.alcove so no g else s
                pinFirst s w k fi fo pins (pinResult sec.material out.material p rnd))))
      | _, _ => failWork s w stKeyUnknown))

/-! ### Key blocks -/

/-- A key of the key derivation binding method: the protection key, the purpose (0 encryption, 1 MAC) and
whether it is TDES. -/
def boundKey (tdes : Bool) (key : Bytes) (purpose : Nat) : Bytes :=
  let bits := 8 * key.length
  let alg := if tdes then 1 else if bits = 128 then 2 else if bits = 192 then 3 else 4
  let one := fun (i : Nat) => Config.cmac tdes key (be 1 i ++ be 2 purpose ++ [0] ++ be 2 alg ++ be 2 bits)
  ((List.range 4).flatMap (fun i => one (i + 1))).take key.length

/-- CBC under a bound key. -/
def blockCrypt (tdes dec : Bool) (key iv d : Bytes) : Bytes :=
  if tdes then Config.tdes dec key iv d else Config.aesMode 0 dec key iv 16 d

/-- Block length of a version. -/
def blockLen (tdes : Bool) : Nat := if tdes then 8 else 16

/-- A key block: header without its length, protection key, target material, padding bytes. -/
def keyBlock (tdes : Bool) (key : Bytes) (version : Byte) (rest material rnd : Bytes) : Bytes :=
  let n := blockLen tdes
  let clear := be 2 (8 * material.length) ++ material
  let clear := clear ++ rnd.take (roundUp clear.length n - clear.length)
  let total := 16 + 2 * clear.length + 2 * n
  let head := [version] ++ decDigits 4 total ++ rest
  let mac := Config.cmac tdes (boundKey tdes key 1) (head ++ clear)
  head ++ toHex (blockCrypt tdes false (boundKey tdes key 0) mac clear) ++ toHex mac

/-- Slots or blocks of a key block, as a meter (R147, R590): `len` is its binary length. -/
def blockMeters (tdes : Bool) (len : Nat) : List (Nat × Nat) :=
  if tdes then [(0x0601, 2 * ceilDiv len 8 + 4)] else symMeters .cipher len

/-- The use classes that a usage and a mode of use name (R126): one, or both faces of a pair. -/
def usagePair (usage : Bytes) (mode : Nat) : Option (UseClass × Option UseClass) :=
  let pick := fun (a b : UseClass) (x y z : Nat) =>
    if mode = x then some (a, none) else if mode = y then some (b, none)
    else if mode = z then some (a, some b) else none
  if usage = ascii "D0" then pick .encrypt .decrypt 0x45 0x44 0x42
  else if usage = ascii "K0" then pick .wrap .unwrap 0x45 0x44 0x42
  else if usage = ascii "M6" ∨ usage = ascii "M7" then pick .macGenerate .macVerify 0x47 0x56 0x43
  else if usage = ascii "P0" ∧ (mode = 0x45 ∨ mode = 0x44 ∨ mode = 0x42) then some (.pinTranslate, none)
  else none

/-- Whether the faces of a secret, of which one is the target, match a pair (R126). -/
def pairMatches (sec : Secret) (f : Face) (x : UseClass × Option UseClass) : Bool :=
  let has := fun (c : UseClass) => ([sec.face0, sec.face1] : List (Option Face)).any (fun g => g.any (fun h => h.cls == c))
  match x.2 with
  | none => f.cls == x.1
  | some c => has x.1 && has c

/-- Whether a face protects key blocks of a version (R127): TDES for B, AES for D. -/
def kbpkServes (tdes : Bool) (cls : UseClass) (sec : Secret) (f : Face) : Bool :=
  f.cls == cls && sec.algo == (if tdes then 3 else 1)

/-- Whether a target may leave in a block of a version with an exportability byte (R126, R127). -/
def targetOk (tdes : Bool) (exp : Nat) (sec : Secret) (f : Face) : Bool :=
  (sec.algo == 3 || (sec.algo == 1 && !tdes)) && (exp == 0x4E || f.wrapped)

/-- `KEYBLOCK_EXPORT`. -/
def execKeyblockExport (w : Nat) (s : State) : Out :=
  .next (onWork s w 0x0602 (fun k =>
    let p := k.payload
    let tdes := fld p 16 1 == 0x42
    match resolve s k.alcove (fld p 0 8), resolve s k.alcove (fld p 8 8) with
    | some _, some (ts, tn, tgt, tf) =>
      withFace s w k (fld p 0 8) true (fun sec f => kbpkServes tdes .wrap sec f && targetOk tdes (fld p 22 1) tgt tf)
        (fun slot n sec face =>
          let wing := if tdes then Wing.legacy else .cipher
          let pins := bothPins (cacheKey slot n) (cacheKey ts tn)
          match usagePair (slice p 17 2) (fld p 19 1) with
          | none => failWork s w (if usesLeft s slot n face then stInput else stUsageExh)
          | some x =>
            if pairMatches tgt tf x = false then failWork s w stDeniedAttr
            else if usesLeft s slot n face = false then failWork s w stUsageExh
            else if marksAllow face false = false ∨ mayIssue s wing w pins = false then s
            else
              let alg : Byte := if tgt.algo = 3 then 0x54 else 0x41
              let rest := slice p 17 2 ++ [alg] ++ slice p 19 1 ++ slice p 20 2 ++ slice p 22 1 ++ ascii "0000"
              let b := keyBlock tdes sec.material (if tdes then 0x42 else 0x44) rest tgt.material (drawn s 16)
              let s := pinTarget (issueFace (useFree s 16) k.alcove slot n face) (cacheKey slot n) ts tn
              issueOp s w k wing pins none 0 (plainResult stOk (be 4 b.length ++ b) (blockMeters tdes (blockBinary b))))
    | _, _ => failWork s w stKeyUnknown))

/-- What the header of a key block says. -/
structure BlockHead where
  pair  : UseClass × Option UseClass
  algo  : Nat
  exp   : Bool
  pay   : Bool
  head  : Bytes
  ct    : Bytes
  mac   : Bytes
  deriving DecidableEq, Repr

/-- Read a key block: none where the header or its lengths break X9.143, or name a pair or an algorithm
that R126 and R127 do not allow. -/
def readBlock (tdes : Bool) (b : Bytes) : Option BlockHead :=
  let n := 2 * blockLen tdes
  let usage := slice b 5 2
  match usagePair usage (fld b 8 1), decOf (slice b 12 2), decOf (slice b 1 4) with
  | some pair, some cnt, some len =>
    (match optLen cnt (b.drop 16) with
      | none => none
      | some o =>
        let h := 16 + o
        let body := (b.drop h).take (b.length - h - n)
        let algo := if fld b 7 1 = 0x54 then 3 else if fld b 7 1 = 0x41 then 1 else 0
        let pay : Bool := usage == ascii "P0" || usage == ascii "K0"
        match fromHex body, fromHex (b.drop (b.length - n)) with
        | some ct, some mac =>
          if len = b.length ∧ h + n < b.length ∧ ct.length % blockLen tdes = 0 ∧ (algo = 3 ∨ (algo = 1 ∧ tdes = false))
              ∧ (algo ≠ 3 ∨ pay) ∧ (fld b 11 1 = 0x4E ∨ fld b 11 1 = 0x45 ∨ fld b 11 1 = 0x53) then
            some { pair := pair, algo := algo, exp := fld b 11 1 != 0x4E, pay := pay || algo == 3, head := b.take h
                   ct := ct, mac := mac }
          else none
        | _, _ => none)
  | _, _, _ => none

/-- The key of a block: none where its MAC fails; an empty key where its length field is out of place. -/
def openBlock (tdes : Bool) (key : Bytes) (x : BlockHead) : Option Bytes :=
  let clear := blockCrypt tdes true (boundKey tdes key 0) x.mac x.ct
  if Config.cmac tdes (boundKey tdes key 1) (x.head ++ clear) = x.mac then
    let bits := fld clear 0 2
    some (if bits % 8 = 0 ∧ bits / 8 + 2 ≤ clear.length then slice clear 2 (bits / 8) else [])
  else none

/-- The faces of an import: the header fixes class, export policy and, for payment usages, the payment flag
(R210); the template gives the rest. -/
def blockFaces (a : Nat) (t : Template) (x : BlockHead) : Option Face × Option Face :=
  let f := fun (c : UseClass) =>
    { faceOf a t with cls := c, wrapped := x.exp, payment := x.pay || t.pay.getD false }
  (some (f x.pair.1), x.pair.2.map f)

/-- Whether no key of a block's algorithm could have the faces of an import: what check 7 refuses before the block is opened
(R171, R175). -/
def facesDenied (algo : Nat) (f : Option Face × Option Face) : Bool :=
  !(([128, 192, 256] : List Nat).any (fun bits => facesOk algo bits f.1 f.2))

/-- The result of an import (R127): the MAC, the length and the faces of a key of that length decide it. -/
def importResult (s : State) (a : Nat) (tdes : Bool) (key : Bytes) (x : BlockHead) (f : Option Face × Option Face)
    (meters : List (Nat × Nat)) : Result :=
  match openBlock tdes key x with
  | none => plainResult stVerifyFailed [] meters
  | some m =>
    let bits := 8 * m.length
    if materialLen x.algo bits ≠ some m.length then plainResult stInput [] meters
    else if facesOk x.algo bits f.1 f.2 = false then plainResult stDeniedAttr [] meters
    else birthResult s a x.algo bits m f.1 f.2 (f.1.toList ++ f.2.toList).length none meters

/-- `KEYBLOCK_IMPORT` (R126, R127, R179, R210, R211). -/
def execKeyblockImport (w : Nat) (s : State) : Out :=
  .next (onWork s w 0x0603 (fun k =>
    match keyblockIn k.payload with
    | none => failWork s w stFormat
    | some (t, b) =>
      let tdes := fld b 0 1 == 0x42
      withFace s w k (fld k.payload 0 8) true (kbpkServes tdes .unwrap) (fun slot n sec face =>
        if rootMissing s (domainOf s k.alcove) ∨ !ownersExist s k.alcove (faceOf k.alcove t).owners then
          failWork s w stDeniedAttr
        else
          match readBlock tdes b with
          | none => failWork s w (if usesLeft s slot n face then stInput else stUsageExh)
          | some x =>
            let f := blockFaces k.alcove t x
            let fs := f.1.toList ++ f.2.toList
            let wing := if tdes then Wing.legacy else .cipher
            if facesDenied x.algo f then failWork s w stDeniedAttr
            else if usesLeft s slot n face = false then failWork s w stUsageExh
            else if instServes s x.algo fs = false then failWork s w stCounterExh
            else if marksAllow face false = false ∨ mayIssue s wing w [cacheKey slot n] = false then s
            else
              let r := importResult s k.alcove tdes sec.material x f (blockMeters tdes (blockBinary b))
              issueOp (issueFace s k.alcove slot n face) w k wing [cacheKey slot n] none 0 r)))

end Sys2Proof.Machine
end

