-- ==== Sys2Proof/Machine/Regs.lean ====
section
/-! DEFINITION. The register space as a whole (R5 to R9, R31, R395): one read and one write over every window,
`REG_READ` and `REG_WRITE` (R129 to R131), the fabric's transactions (R15, R407 to R413) and debug (R422,
R423, R474). -/

namespace Sys2Proof.Machine

/-! ### Windows -/

/-- What a register of a window holds in effect; none where no register lies (R31). -/
def readRaw (s : State) (w : Win) (off : Nat) : Option Word :=
  match w with
  | .id => idRead s off
  | .lc => lcRead s off
  | .fc => fcRead s off
  | .ed => edRead s off
  | .du => duRead s off
  | .rng => rngRead s off
  | .tamp => tampRead s off
  | .hc => hcRead s off
  | .mpu c => mpuRead s c off
  | .pr => prRead s off
  | .pc => pcRead s off
  | .cb b => cbRead s b off
  | .pk b n => pkRead s b n off
  | .port _ => none
  | .ib => ibRead s off
  | .tally => tallyRead s off

/-- A write to a register of a window that is no pair. -/
def writeRaw (s : State) (m : Nat) (w : Win) (off : Nat) (v : Word) : Option State :=
  match w with
  | .id => none
  | .lc => lcWrite s m off v
  | .fc => fcWrite s off v
  | .ed => edWrite s m off v
  | .du => duWrite s m off v
  | .rng => rngWrite s off v
  | .tamp => tampWrite s off v
  | .hc => hcWrite s m off v
  | .mpu c => mpuWrite s m c off v
  | .pr => prWrite s off v
  | .pc => pcWrite s m off v
  | .cb b => cbWrite s m b off v
  | .pk b n => pkWrite s m b n off v
  | .port _ => none
  | .ib => ibWrite s off v
  | .tally => none

/-- Offset of the _HI half of a pair whose _LO half is at `off`. -/
def pairHi (w : Win) (off : Nat) : Option Nat :=
  match w with
  | .fc => if off = 0x000 ∨ off = 0x010 ∨ off = 0x020 ∨ off = 0x030 then some (off + 4) else none
  | .lc => if off = 0x028 then some 0x02C else none
  | .rng => if off = 0x010 then some 0x014 else none
  | .du => if off = 0x008 then some 0x00C else none
  | .tally => if off = 0x010 ∨ off = 0x018 then some (off + 4) else none
  | _ => none

/-- Whether an offset is the _HI half of a pair. -/
def isHi (w : Win) (off : Nat) : Bool := decide (4 ≤ off) && pairHi w (off - 4) == some off

/-- The _HI half of a readable pair that a master has written and not yet committed: an RW field reads as the last
value in effect or pending (R7). -/
def pendingHi (s : State) (m addr : Nat) (w : Win) (off : Nat) : Option Word :=
  if (w = .lc ∧ off = 0x02C) ∨ (w = .du ∧ off = 0x00C) then heldOf s m addr else none

/-- What a _HI half reads as for a master: the half captured for it (R5), else the one that waits for its write of _LO
(R7), else the one in effect. -/
def readHi (s : State) (m addr : Nat) (w : Win) (off : Nat) (v : Word) : Word :=
  (capturedOf s m addr).getD ((pendingHi s m addr w off).getD v)

/-- A register of a window read by a master: a _LO half captures its _HI half (R5). -/
def readWin (s : State) (m addr : Nat) (w : Win) (off : Nat) : State :=
  match readRaw s w off with
  | none => busErr s
  | some v =>
    let s := if w = .cb 0 ∨ w = .cb 1 ∨ w = .cb 2 ∨ w = .cb 3 then useFree s 2 else s
    match pairHi w off with
    | some h => busOk (captureHi s m (addr + 4) ((readRaw s w h).getD 0)) v
    | none => busOk s (if isHi w off then readHi s m addr w off v else v)

/-- The pairs that software writes: both halves commit with the write of _LO (R6). -/
def writeRegPair (s : State) (m : Nat) (w : Win) (off : Nat) (v : Word) : Option State :=
  match w with
  | .fc =>
    if off = 0x000 then some (fcStatusLo s m v)
    else if off = 0x030 then some (fcForceLo s m v)
    else if off = 0x004 ∨ off = 0x034 then some (wrOk (holdHi s m (0x20000 + off) v))
    else none
  | .lc =>
    if off = 0x028 then
      some (commitPair s m 0x1002C (hiHalf s.life.expiry).toNat (fun s hi => lcExpiry s m hi v))
    else if off = 0x02C then some (wrOk (holdHi s m 0x1002C v))
    else none
  | _ => none

/-- A register of a window written by a master. -/
def writeWin (s : State) (m : Nat) (w : Win) (off : Nat) (v : Word) : State :=
  match writeRegPair s m w off v with
  | some t => t
  | none => (writeRaw s m w off v).getD (busErr s)

/-- A register read of a master (R15, R31). -/
def regGet (s : State) (m addr : Nat) : State :=
  match windowOf addr with
  | none => busErr s
  | some (w, off) => if admits s m w off false then readWin s m addr w off else refuse s m addr false

/-- A register write of a master (R7, R15, R31). -/
def regPut (s : State) (m addr : Nat) (v : Word) : State :=
  writeAs s m addr (fun s => match windowOf addr with
    | some (w, off) => writeWin s m w off v
    | none => busErr s)

/-! ### The commands on registers -/

/-- Offset of the register that raises the error sources of the one at `off`, each once and with its full response. -/
def forceOf (w : Win) (off : Nat) : Option Nat :=
  match w with
  | .du => if off = 0x0E0 then some 0x0E4 else none
  | .lc => if off = 0x030 then some 0x034 else none
  | .cb b => if off = 0x020 ∨ (b = 0 ∧ (off = 0x2004 ∨ off = 0x2018)) then some (off + 4) else none
  | .pk b n => if off = 0x020 ∨ (b = 0 ∧ n = 0 ∧ off = 0x1804) then some (off + 4) else none
  | .ed | .rng | .tamp | .hc | .pr | .pc | .ib => if off = 0x020 then some 0x024 else none
  | .id | .fc | .mpu _ | .port _ | .tally => none

/-- Bits of a W1C register that hardware sets, each with its full response: error sources, alarm causes and pending
events. -/
def hwSets (s : State) (m : Nat) (w : Win) (off bits : Nat) : State :=
  match forceOf w off with
  | some f => (writeRaw s m w f (w32 bits)).getD s
  | none =>
    if w = .tamp ∧ off = 0x008 then (setBits 9 bits).foldl causeAlarm s
    else if w = .ed ∧ 0x1000 ≤ off ∧ off < 0x2400 ∧ bitOf bits 31 then raise s ((off - 0x1000) / 4)
    else s

/-- `REGISTER_WRITE` (R6 to R9). Bits of `sets` are those that hardware sets in the same cycle in the register written:
they end the cycle set (R8). -/
def execRegisterWrite (master addr : Nat) (value : Word) (s : State) (sets : Nat := 0) : Out :=
  .next (let t := regPut s master addr value
    match windowOf addr with
    | some (w, off) =>
      if sets = 0 then t else { hwSets t master w off sets with lastErr := t.lastErr, lastVal := t.lastVal }
    | none => t)

/-- `REG_PAIR_LO_READ` (R5): a read of the _LO half of a pair. An address that is none changes nothing. -/
def execRegPairLoRead (master addr : Nat) (s : State) : Out :=
  .next (match windowOf addr with
    | some (w, off) => if (pairHi w off).isSome then regGet s master addr else s
    | none => s)

/-- `REG_PAIR_HI_WRITE` (R6): a write of the _HI half of a pair. An address that is none changes nothing. -/
def execRegPairHiWrite (master addr : Nat) (value : Word) (s : State) : Out :=
  .next (match windowOf addr with
    | some (w, off) => if isHi w off then regPut s master addr value else s
    | none => s)

/-! ### `REG_READ` and `REG_WRITE` (R129 to R131) -/

/-- Read a list of addresses as `OC_0`: the mask of those refused, the values and the state. -/
def readList : List Nat → Nat → Nat → Bytes → State → Nat × Bytes × State
  | [], _, mask, out, s => (mask, out, s)
  | a :: r, i, mask, out, s =>
    let s := regGet s 0x10 a
    readList r (i + 1) (if s.lastErr then mask + 2 ^ i else mask) (out ++ be 4 s.lastVal.toNat) s

/-- `REG_READ`, which an Outer core executes. -/
def execRegRead (w : Nat) (s : State) : Out :=
  .next (onWork s w 0x0A10 (fun k =>
    let l := (List.range (fld k.payload 0 2)).map (fun i => fld k.payload (4 + 4 * i) 4)
    let r := readList l 0 0 [] s
    okWork r.2.2 w (be 8 r.1 ++ r.2.1)))

/-- Entries of a `REG_WRITE`: address, mask, value. -/
def writeEntries (p : Bytes) : List (Nat × Word × Word) :=
  (List.range (fld p 0 2)).map (fun i =>
    (fld p (4 + 12 * i) 4, w32 (fld p (8 + 12 * i) 4), w32 (fld p (12 + 12 * i) 4)))

/-- Whether an address lies in a window that `REG_WRITE` may not name (R131). -/
def ownWindow (a : Nat) : Bool := a / 0x10000 == 1 || a / 0x10000 == 6 || a / 0x10000 == 0x40

/-- Apply the entries as `IC_1`: the index of the first that gets an error response, and the state. -/
def writeList : List (Nat × Word × Word) → Nat → State → Option Nat × State
  | [], _, s => (none, s)
  | e :: r, i, s =>
    let s := regGet s 1 e.1
    if s.lastErr then (some i, s)
    else
      let s := regPut s 1 e.1 ((s.lastVal &&& ~~~ e.2.1) ||| (e.2.2 &&& e.2.1))
      if s.lastErr then (some i, s) else writeList r (i + 1) s

/-- `REG_WRITE`, which `IC_1` executes (R130, R131). -/
def execRegWrite (w : Nat) (s : State) : Out :=
  .next (onWork s w 0x0A11 (fun k =>
    let p := k.payload
    let n := 4 + 12 * fld p 0 2
    if (writeEntries p).any (fun e => ownWindow e.1) then failWork s w stDeniedAttr
    else
      withQuorum s w 0 0x0A11 (p.take n) (approvalAt p n) false (fun s _ =>
        match writeList (writeEntries p) 0 s with
        | (none, s) => okWork s w []
        | (some i, s) => complete s w stBusError (be 2 i) [])))

/-! ### The fabric -/

/-- Whether the window at an address admits a transaction (R395). A core's MPU window admits its privileged accesses
alone (R407). -/
def regAdmits (s : State) (t : Txn) : Bool :=
  match windowOf t.addr with
  | some (.mpu c, off) => !t.user && admits s t.master (.mpu c) off (t.access == .write)
  | some (w, off) =>
    (match txnHall s t with
     | some h => t.master != 0x70 && hallAdmits s h w off (t.access == .write)
     | none => false)
  | none => true

/-- A transaction on the register space. The hall check comes first (R15); registers are 4 bytes, aligned. -/
def regTxn (s : State) (t : Txn) : State :=
  let wr := t.access == .write
  if regAdmits s t = false then
    emit (refuse s t.master t.addr wr) (.fabric t.master true (if wr then [] else zeros t.len))
  else
    match windowOf t.addr with
    | none => answerErr s t.master t.len wr
    | some (w, off) =>
      if t.access = .fetch ∨ t.len ≠ 4 ∨ t.addr % 4 ≠ 0 then answerErr s t.master t.len wr
      else
        let s := if wr then writeWin s t.master w off (w32 (beNat t.data)) else readWin s t.master t.addr w off
        emit s (.fabric t.master s.lastErr (if wr then [] else be 4 s.lastVal.toNat))

/-- Whether a transaction is one that a core issues (R408). -/
def coreTxnOk (t : Txn) : Bool := decide (1 ≤ t.len ∧ t.len ≤ 64) && decide (t.addr % 64 + t.len ≤ 64)

/-- Whether the data of a write has the length of the transaction. -/
def txnOk (t : Txn) : Bool :=
  decide (1 ≤ t.len) && (t.access != .write || t.data.length == t.len)

/-- A transaction that its master's MPU, if it has one, has admitted (R15, R395). -/
def fabricDo (s : State) (t : Txn) (h : Hall) : State :=
  let s := perfAdd s 0 0x08 1
  if t.space = .regs then regTxn s t else memTxn s t h

/-- `FABRIC_TRANSACTION` (R395, R407 to R413). A master that R14 does not name issues none. -/
def execFabricTransaction (t : Txn) (s : State) : Out :=
  .next (match txnHall s t with
    | none => s
    | some h =>
      if txnOk t = false then s
      else
        match coreOf t.master with
        | none => fabricDo s t h
        | some c =>
          if coreTxnOk t = false then s
          else
            match mpuCheck s c t with
            | some region => mpuFault s c region t
            | none => fabricDo s t h)

/-! ### Debug (R422, R423, R474) -/

/-- Whether an enable in force covers an access with a hall's attribute: bits 3 and 2 Inner invasive and
non-invasive, 1 and 0 Outer. -/
def debugHas (s : State) (h : Hall) (write : Bool) : Bool :=
  let inv := s.life.dbg.getLsbD (if h = .inner then 3 else 1)
  let non := s.life.dbg.getLsbD (if h = .inner then 2 else 0)
  inv || (!write && non)

/-- Whether the target of a debug access admits a hall's attribute. -/
def debugTarget (s : State) (sp : Space) (h : Hall) (write : Bool) (a : Nat) : Bool :=
  match sp with
  | .regs =>
    (match windowOf a with
     | some (.mpu c, _) => coreHall c == h
     | some (w, off) => hallAdmits s h w off write
     | none => false)
  | sp => memAdmits s sp h 0x20 a write

/-- Whether enclaves admit a debug access: data with Inner invasive authorisation, locked code never (R403). -/
def debugEncl (s : State) (sp : Space) (a : Nat) : Bool :=
  sp != .logic || s.halls.encl.all (fun e =>
    (!inLines a e.2.dataStart e.2.dataEnd || s.life.dbg.getLsbD 3)
      && !(inLines a e.2.codeStart e.2.codeEnd && s.halls.lock))

/-- Whether a debug access addresses something: a register, or 4 bytes of a memory that no move closes. -/
def debugThere (s : State) (sp : Space) (a : Nat) : Bool :=
  match sp with
  | .regs => (windowOf a).isSome && a % 4 == 0
  | sp => decide (a + 4 ≤ spaceSize sp) && !closed s sp a

/-- A debug access that is admitted (DEDUCED, log 55). -/
def debugDo (s : State) (sp : Space) (write : Bool) (a v : Nat) : State :=
  match sp with
  | .regs =>
    (match windowOf a with
     | some (w, off) =>
       let s := if write then writeWin s 0x20 w off (w32 v) else readWin s 0x20 a w off
       emit s (.fabric 0x20 s.lastErr (if write then [] else be 4 s.lastVal.toNat))
     | none => answerErr s 0x20 4 write)
  | sp =>
    memDo s { master := 0x20, space := sp, access := if write then .write else .read, addr := a, len := 4
              data := be 4 v, user := false, mirrored := false, from_ := 0 }

/-- Master of a core's number. -/
def isCore (c : Nat) : Bool := decide (c ≤ 3) || decide (16 ≤ c ∧ c ≤ 27)

/-- `DEBUG_ACCESS` (R422, R423): a refusal is an error response, or an ignored halt, and a `NOTE` on line 36. -/
def execDebugAccess (r : DebugReq) (s : State) : Out :=
  .next (match r with
    | .halt c =>
      if isCore c = false then s
      else if debugHas s (coreHall c) true then emit s (.coreHalt c)
      else noteAt s 36 0 0 0x20
    | .access sp write a v =>
      if debugThere s sp a = false then answerErr s 0x20 4 write
      else
        let ok := fun (h : Hall) => debugHas s h write && debugTarget s sp h write a
        if (ok .inner || ok .outer) && debugEncl s sp a then debugDo s sp write a v
        else answerErr (noteAt s 36 (if write then 2 else 1) a 0x20) 0x20 4 write)

end Sys2Proof.Machine
end

