-- ==== Sys2Proof/Machine/Dispatch.lean ====
section
/-! DEFINITION. The dispatch: one arm per command, each a direct call of its meaning. -/

namespace Sys2Proof.Machine

def exec (i : Instr) (s : State) : Host.Outcome State Fault Refusal :=
  match i with
  | .commandSegment d => Sys2Proof.Machine.execCommandSegment d s
  | .assemblyTimerExpiry alcove session seq => Sys2Proof.Machine.execAssemblyTimerExpiry alcove session seq s
  | .stream d => Sys2Proof.Machine.execStream d s
  | .ack d => Sys2Proof.Machine.execAck d s
  | .hello d => Sys2Proof.Machine.execHello d s
  | .finish d => Sys2Proof.Machine.execFinish d s
  | .halfOpenTimeout alcove session => Sys2Proof.Machine.execHalfOpenTimeout alcove session s
  | .close d => Sys2Proof.Machine.execClose d s
  | .sessionIdleTimeout alcove session => Sys2Proof.Machine.execSessionIdleTimeout alcove session s
  | .completionHandover c => Sys2Proof.Machine.execCompletionHandover c s
  | .eventModerationExpiry alcove => Sys2Proof.Machine.execEventModerationExpiry alcove s
  | .pfcPauseReceived port prio time => Sys2Proof.Machine.execPfcPauseReceived port prio time s
  | .arpNdRequest sublink v6 ip => Sys2Proof.Machine.execArpNdRequest sublink v6 ip s
  | .icmpEcho sublink v6 ip => Sys2Proof.Machine.execIcmpEcho sublink v6 ip s
  | .unsupportedFrame sublink k => Sys2Proof.Machine.execUnsupportedFrame sublink k s
  | .ptpMessage m => Sys2Proof.Machine.execPtpMessage m s
  | .ppsInEdge => Sys2Proof.Machine.execPpsInEdge s
  | .ppsOutSecond => Sys2Proof.Machine.execPpsOutSecond s
  | .moduleAlarm port flag => Sys2Proof.Machine.execModuleAlarm port s flag
  | .modulePresenceChange port present => Sys2Proof.Machine.execModulePresenceChange port present s
  | .roceAck qp psn => Sys2Proof.Machine.execRoceAck qp psn s
  | .roceNak qp k => Sys2Proof.Machine.execRoceNak qp k s
  | .cnpReceived qp => Sys2Proof.Machine.execCnpReceived qp s
  | .rateIncreaseTick qp => Sys2Proof.Machine.execRateIncreaseTick qp s
  | .qpAckTimeout qp => Sys2Proof.Machine.execQpAckTimeout qp s
  | .roceRequestDropped qp => Sys2Proof.Machine.execRoceRequestDropped qp s
  | .streamResultReady op => Sys2Proof.Machine.execStreamResultReady op s
  | .alcoveResetDone alcove => Sys2Proof.Machine.execAlcoveResetDone alcove s
  | .info w => Sys2Proof.Machine.execInfo w s
  | .faceQuery w => Sys2Proof.Machine.execFaceQuery w s
  | .timeQuery w => Sys2Proof.Machine.execTimeQuery w s
  | .encrypt w => Sys2Proof.Machine.execEncrypt w s
  | .decrypt w => Sys2Proof.Machine.execDecrypt w s
  | .macGenerate w => Sys2Proof.Machine.execMacGenerate w s
  | .macVerify w => Sys2Proof.Machine.execMacVerify w s
  | .digest w => Sys2Proof.Machine.execDigest w s
  | .contextOpen w => Sys2Proof.Machine.execContextOpen w s
  | .contextUpdate w => Sys2Proof.Machine.execContextUpdate w s
  | .contextFinal w => Sys2Proof.Machine.execContextFinal w s
  | .contextSave w => Sys2Proof.Machine.execContextSave w s
  | .contextRestore w => Sys2Proof.Machine.execContextRestore w s
  | .contextClose w => Sys2Proof.Machine.execContextClose w s
  | .sign w => Sys2Proof.Machine.execSign w s
  | .verify w => Sys2Proof.Machine.execVerify w s
  | .agree w => Sys2Proof.Machine.execAgree w s
  | .encapsulate w => Sys2Proof.Machine.execEncapsulate w s
  | .decapsulate w => Sys2Proof.Machine.execDecapsulate w s
  | .pkEncrypt w => Sys2Proof.Machine.execPkEncrypt w s
  | .pkDecrypt w => Sys2Proof.Machine.execPkDecrypt w s
  | .random w => Sys2Proof.Machine.execRandom w s
  | .keyGenerate w => Sys2Proof.Machine.execKeyGenerate w s
  | .pairGenerate w => Sys2Proof.Machine.execPairGenerate w s
  | .keyDerive w => Sys2Proof.Machine.execKeyDerive w s
  | .keyWrap w => Sys2Proof.Machine.execKeyWrap w s
  | .keyUnwrap w => Sys2Proof.Machine.execKeyUnwrap w s
  | .faceDestroy w => Sys2Proof.Machine.execFaceDestroy w s
  | .keyDestroy w => Sys2Proof.Machine.execKeyDestroy w s
  | .faceRestrict w => Sys2Proof.Machine.execFaceRestrict w s
  | .faceShare w => Sys2Proof.Machine.execFaceShare w s
  | .publicExport w => Sys2Proof.Machine.execPublicExport w s
  | .pinTranslate w => Sys2Proof.Machine.execPinTranslate w s
  | .keyblockExport w => Sys2Proof.Machine.execKeyblockExport w s
  | .keyblockImport w => Sys2Proof.Machine.execKeyblockImport w s
  | .sliceCreate w => Sys2Proof.Machine.execSliceCreate w s
  | .sliceModify w => Sys2Proof.Machine.execSliceModify w s
  | .sliceRemove w => Sys2Proof.Machine.execSliceRemove w s
  | .qpConnect w => Sys2Proof.Machine.execQpConnect w s
  | .qpReset w => Sys2Proof.Machine.execQpReset w s
  | .dirtyEnable w => Sys2Proof.Machine.execDirtyEnable w s
  | .dirtyReadClear w => Sys2Proof.Machine.execDirtyReadClear w s
  | .eventSessionSet w => Sys2Proof.Machine.execEventSessionSet w s
  | .alcoveReset w => Sys2Proof.Machine.execAlcoveReset w s
  | .countersRead w => Sys2Proof.Machine.execCountersRead w s
  | .clientKeySet w => Sys2Proof.Machine.execClientKeySet w s
  | .quorumPrepare w => Sys2Proof.Machine.execQuorumPrepare w s
  | .rootCreate w => Sys2Proof.Machine.execRootCreate w s
  | .rootRestore w => Sys2Proof.Machine.execRootRestore w s
  | .sharesExport w => Sys2Proof.Machine.execSharesExport w s
  | .quotaSet w => Sys2Proof.Machine.execQuotaSet w s
  | .custodiansSet w => Sys2Proof.Machine.execCustodiansSet w s
  | .certsGet w => Sys2Proof.Machine.execCertsGet w s
  | .proveChallenge w => Sys2Proof.Machine.execProveChallenge w s
  | .proveSetSecret w => Sys2Proof.Machine.execProveSetSecret w s
  | .statement w => Sys2Proof.Machine.execStatement w s
  | .ledgerRead w => Sys2Proof.Machine.execLedgerRead w s
  | .witness w => Sys2Proof.Machine.execWitness w s
  | .alcoveCreate w => Sys2Proof.Machine.execAlcoveCreate w s
  | .alcoveConfigure w => Sys2Proof.Machine.execAlcoveConfigure w s
  | .alcoveRemove w => Sys2Proof.Machine.execAlcoveRemove w s
  | .sectionLoad w => Sys2Proof.Machine.execSectionLoad w s
  | .lifeCycleSet w badBits => Sys2Proof.Machine.execLifeCycleSet w badBits s
  | .debugEnable w => Sys2Proof.Machine.execDebugEnable w s
  | .unitOut w => Sys2Proof.Machine.execUnitOut w s
  | .unitOutDone k index => Sys2Proof.Machine.execUnitOutDone k index s
  | .unitReturn w => Sys2Proof.Machine.execUnitReturn w s
  | .firmwareUpdate w => Sys2Proof.Machine.execFirmwareUpdate w s
  | .archiveSnapshot w => Sys2Proof.Machine.execArchiveSnapshot w s
  | .tallyRecordRead w => Sys2Proof.Machine.execTallyRecordRead w s
  | .tallyCut w => Sys2Proof.Machine.execTallyCut w s
  | .tallyLogRead w => Sys2Proof.Machine.execTallyLogRead w s
  | .tallyIdentity w => Sys2Proof.Machine.execTallyIdentity w s
  | .tallyReseal w badBits => Sys2Proof.Machine.execTallyReseal w badBits s
  | .gapAck w => Sys2Proof.Machine.execGapAck w s
  | .regRead w => Sys2Proof.Machine.execRegRead w s
  | .regWrite w => Sys2Proof.Machine.execRegWrite w s
  | .twinPair w => Sys2Proof.Machine.execTwinPair w s
  | .twinUnpair w => Sys2Proof.Machine.execTwinUnpair w s
  | .twinSolo w => Sys2Proof.Machine.execTwinSolo w s
  | .receiveKey w => Sys2Proof.Machine.execReceiveKey w s
  | .join w => Sys2Proof.Machine.execJoin w s
  | .instanceBlock w => Sys2Proof.Machine.execInstanceBlock w s
  | .grantKey w => Sys2Proof.Machine.execGrantKey w s
  | .grant w => Sys2Proof.Machine.execGrant w s
  | .revoke w => Sys2Proof.Machine.execRevoke w s
  | .migrateOutBegin w => Sys2Proof.Machine.execMigrateOutBegin w s
  | .migrateOutNext w => Sys2Proof.Machine.execMigrateOutNext w s
  | .migrateOutStop w => Sys2Proof.Machine.execMigrateOutStop w s
  | .migrateOutDone w => Sys2Proof.Machine.execMigrateOutDone w s
  | .migrateInPrepare w => Sys2Proof.Machine.execMigrateInPrepare w s
  | .migrateInPages w => Sys2Proof.Machine.execMigrateInPages w s
  | .migrateInFinal w => Sys2Proof.Machine.execMigrateInFinal w s
  | .migrateAbort w => Sys2Proof.Machine.execMigrateAbort w s
  | .mutationCommit domain => Sys2Proof.Machine.execMutationCommit domain s
  | .invocationMarkCommit r => Sys2Proof.Machine.execInvocationMarkCommit r s
  | .snapshotComplete => Sys2Proof.Machine.execSnapshotComplete s
  | .archiveRefreshDue block hot cool => Sys2Proof.Machine.execArchiveRefreshDue block s hot cool
  | .grantExpiry slot => Sys2Proof.Machine.execGrantExpiry slot s
  | .admissionEpoch => Sys2Proof.Machine.execAdmissionEpoch s
  | .cipherOpDone op => Sys2Proof.Machine.execCipherOpDone op s
  | .hashOpDone op copiesAgree => Sys2Proof.Machine.execHashOpDone op copiesAgree s
  | .legacyOpDone op => Sys2Proof.Machine.execLegacyOpDone op s
  | .pkYieldPoint bay core same => Sys2Proof.Machine.execPkYieldPoint bay core same s
  | .pkParkMoveDone bay core => Sys2Proof.Machine.execPkParkMoveDone bay core s
  | .pkJobEnd bay core checkOk => Sys2Proof.Machine.execPkJobEnd bay core checkOk s
  | .pkZeroiseDone bay core clean => Sys2Proof.Machine.execPkZeroiseDone bay core clean s
  | .pkCoreSelfReturn bay core pass => Sys2Proof.Machine.execPkCoreSelfReturn bay core pass s
  | .unitBistDone k index sub bistPass katPass => Sys2Proof.Machine.execUnitBistDone k index sub bistPass katPass s
  | .stairClimb master landing meas signer svn => Sys2Proof.Machine.execStairClimb master landing meas signer svn s
  | .stairLineageRequest master v => Sys2Proof.Machine.execStairLineageRequest master v s
  | .bankBlockEnd low high condAgree => Sys2Proof.Machine.execBankBlockEnd low high condAgree s
  | .sporeDelivery => Sys2Proof.Machine.execSporeDelivery s
  | .drbgGenerate inst => Sys2Proof.Machine.execDrbgGenerate inst s
  | .smallSourceBlockEnd tally bank block => Sys2Proof.Machine.execSmallSourceBlockEnd tally bank block s
  | .duLenLoWrite master value => Sys2Proof.Machine.execDuLenLoWrite master value s
  | .duDataWrite master value => Sys2Proof.Machine.execDuDataWrite master value s
  | .duLastWrite master value => Sys2Proof.Machine.execDuLastWrite master value s
  | .duAbort master word => Sys2Proof.Machine.execDuAbort master s word
  | .duBlockCompressed => Sys2Proof.Machine.execDuBlockCompressed s
  | .duFinalDone pair => Sys2Proof.Machine.execDuFinalDone s pair
  | .duExpectWrite master n value pair => Sys2Proof.Machine.execDuExpectWrite master n value s pair
  | .cbBistStart master bay => Sys2Proof.Machine.execCbBistStart master bay s
  | .cbErrForce master bay value => Sys2Proof.Machine.execCbErrForce master bay value s
  | .cbErrFire bay source => Sys2Proof.Machine.execCbErrFire bay source s
  | .cwCtxForce master value => Sys2Proof.Machine.execCwCtxForce master value s
  | .cwCtxErrFire source ctx => Sys2Proof.Machine.execCwCtxErrFire source ctx s
  | .cwLegacyBistStart master => Sys2Proof.Machine.execCwLegacyBistStart master s
  | .cwLegacyForce master value => Sys2Proof.Machine.execCwLegacyForce master value s
  | .cwLegacyErrFire source => Sys2Proof.Machine.execCwLegacyErrFire source s
  | .pkBistStart master bay core => Sys2Proof.Machine.execPkBistStart master bay core s
  | .pkErrForce master bay core value => Sys2Proof.Machine.execPkErrForce master bay core value s
  | .pkErrFire bay core source => Sys2Proof.Machine.execPkErrFire bay core source s
  | .pkOmAddrWrite master bay core value => Sys2Proof.Machine.execPkOmAddrWrite master bay core value s
  | .pkOmData3Write master bay core value => Sys2Proof.Machine.execPkOmData3Write master bay core value s
  | .pwParkForce master value => Sys2Proof.Machine.execPwParkForce master value s
  | .pwParkErrFire source slot => Sys2Proof.Machine.execPwParkErrFire source slot s
  | .duErrForce master value => Sys2Proof.Machine.execDuErrForce master value s
  | .duParityFire => Sys2Proof.Machine.execDuParityFire s
  | .rngErrForce master value => Sys2Proof.Machine.execRngErrForce master value s
  | .rngErrFire source inst => Sys2Proof.Machine.execRngErrFire source inst s
  | .hcWmLogicWrite master value => Sys2Proof.Machine.execHcWmLogicWrite master value s
  | .hcWmMezzWrite master value => Sys2Proof.Machine.execHcWmMezzWrite master value s
  | .wmMoveCommit mezz => Sys2Proof.Machine.execWmMoveCommit mezz s
  | .drainTimeout r => Sys2Proof.Machine.execDrainTimeout r s
  | .handoverReleaseInner master block => Sys2Proof.Machine.execHandoverReleaseInner master block s
  | .handoverReleaseOuter master block => Sys2Proof.Machine.execHandoverReleaseOuter master block s
  | .handoverClaim master block => Sys2Proof.Machine.execHandoverClaim master block s
  | .handoverDrainEnd block => Sys2Proof.Machine.execHandoverDrainEnd block s
  | .handoverResetEnd block => Sys2Proof.Machine.execHandoverResetEnd block s
  | .handoverClaimCommit block => Sys2Proof.Machine.execHandoverClaimCommit block s
  | .hcEncLock master value => Sys2Proof.Machine.execHcEncLock master value s
  | .hcErrForce master value => Sys2Proof.Machine.execHcErrForce master value s
  | .mpuSwap master core => Sys2Proof.Machine.execMpuSwap master core s
  | .mpuSwapDrainEnd core => Sys2Proof.Machine.execMpuSwapDrainEnd core s
  | .mpuFaultRelease master core => Sys2Proof.Machine.execMpuFaultRelease master core s
  | .fabricTransaction t => Sys2Proof.Machine.execFabricTransaction t s
  | .pcGateClock master block => Sys2Proof.Machine.execPcGateClock master block s
  | .pcGatePower master block => Sys2Proof.Machine.execPcGatePower master block s
  | .pcRestore master block => Sys2Proof.Machine.execPcRestore master block s
  | .pcErrForce master value => Sys2Proof.Machine.execPcErrForce master value s
  | .debugAccess r => Sys2Proof.Machine.execDebugAccess r s
  | .lichenTraceFail layer => Sys2Proof.Machine.execLichenTraceFail layer s
  | .lightAlarm => Sys2Proof.Machine.execLightAlarm s
  | .softMonitorEvent monitor inst => Sys2Proof.Machine.execSoftMonitorEvent monitor inst s
  | .cellTempSample outOfRange => Sys2Proof.Machine.execCellTempSample outOfRange s
  | .eraseComplete badBits => Sys2Proof.Machine.execEraseComplete badBits s
  | .bbCheckRewriteDone => Sys2Proof.Machine.execBbCheckRewriteDone s
  | .tampApply master => Sys2Proof.Machine.execTampApply master s
  | .tampBistStart master value => Sys2Proof.Machine.execTampBistStart master value s
  | .tampBistEnd reported => Sys2Proof.Machine.execTampBistEnd reported s
  | .tampTestInterval => Sys2Proof.Machine.execTampTestInterval s
  | .tampErrForce master value => Sys2Proof.Machine.execTampErrForce master value s
  | .tampAlarmForce master value => Sys2Proof.Machine.execTampAlarmForce master value s
  | .cellLow mv => Sys2Proof.Machine.execCellLow mv s
  | .lcDebugWrite master value => Sys2Proof.Machine.execLcDebugWrite master value s
  | .debugExpiry => Sys2Proof.Machine.execDebugExpiry s
  | .lcErrForce master value => Sys2Proof.Machine.execLcErrForce master value s
  | .authChallenge => Sys2Proof.Machine.execAuthChallenge s
  | .authSubmit auth badBits => Sys2Proof.Machine.execAuthSubmit auth badBits s
  | .authStatus => Sys2Proof.Machine.execAuthStatus s
  | .persoKeys => Sys2Proof.Machine.execPersoKeys s
  | .persoCert items => Sys2Proof.Machine.execPersoCert items s
  | .dap => Sys2Proof.Machine.execDap s
  | .idcode => Sys2Proof.Machine.execIdcode s
  | .samplePreload bits => Sys2Proof.Machine.execSamplePreload bits s
  | .extest => Sys2Proof.Machine.execExtest s
  | .clamp => Sys2Proof.Machine.execClamp s
  | .highz => Sys2Proof.Machine.execHighz s
  | .bypass => Sys2Proof.Machine.execBypass s
  | .trstNLow => Sys2Proof.Machine.execTrstNLow s
  | .faultPulse ps => Sys2Proof.Machine.execFaultPulse ps s
  | .fcStatusClear master hi value ps => Sys2Proof.Machine.execFcStatusClear master hi value s ps
  | .fcCaptureRelease master => Sys2Proof.Machine.execFcCaptureRelease master s
  | .fcForce master hi lo => Sys2Proof.Machine.execFcForce master hi lo s
  | .fcCtrlWrite master value => Sys2Proof.Machine.execFcCtrlWrite master value s
  | .handleLimitExpiry => Sys2Proof.Machine.execHandleLimitExpiry s
  | .collectorSelfFault c => Sys2Proof.Machine.execCollectorSelfFault c s
  | .safeRestartExpiry => Sys2Proof.Machine.execSafeRestartExpiry s
  | .edSrcWrite master n value => Sys2Proof.Machine.execEdSrcWrite master n value s
  | .edAck master n event => Sys2Proof.Machine.execEdAck master n s event
  | .doorbellSet master n => Sys2Proof.Machine.execDoorbellSet master n s
  | .edErrForce master value => Sys2Proof.Machine.execEdErrForce master value s
  | .pllPortUnlock p => Sys2Proof.Machine.execPllPortUnlock p s
  | .pllRelock p => Sys2Proof.Machine.execPllRelock p s
  | .pllCoreUnlock p => Sys2Proof.Machine.execPllCoreUnlock p s
  | .railFall => Sys2Proof.Machine.execRailFall s
  | .railRise mv => Sys2Proof.Machine.execRailRise mv s
  | .vinLow mv => Sys2Proof.Machine.execVinLow mv s
  | .resetNLow ns => Sys2Proof.Machine.execResetNLow ns s
  | .selfReset => Sys2Proof.Machine.execSelfReset s
  | .start e => Sys2Proof.Machine.execStart e s
  | .startStepLimit step => Sys2Proof.Machine.execStartStepLimit step s
  | .service600s => Sys2Proof.Machine.execService600s s
  | .ibveletFrame f => Sys2Proof.Machine.execIbveletFrame f s
  | .ibRetransmitRequest seq => Sys2Proof.Machine.execIbRetransmitRequest seq s
  | .ibHeartbeatDue => Sys2Proof.Machine.execIbHeartbeatDue s
  | .ibLinkLost l => Sys2Proof.Machine.execIbLinkLost l s
  | .ibLinkHandshake p => Sys2Proof.Machine.execIbLinkHandshake p s
  | .ibErrForce master value => Sys2Proof.Machine.execIbErrForce master value s
  | .journalRecordMirror r => Sys2Proof.Machine.execJournalRecordMirror r s
  | .forwardedMutation r epoch => Sys2Proof.Machine.execForwardedMutation r epoch s
  | .sessionRecord r => Sys2Proof.Machine.execSessionRecord r s
  | .packetMark alcove session m => Sys2Proof.Machine.execPacketMark alcove session m s
  | .acceptanceRecord r => Sys2Proof.Machine.execAcceptanceRecord r s
  | .alcoveRecord r => Sys2Proof.Machine.execAlcoveRecord r s
  | .sectionLoadForward head bodies => Sys2Proof.Machine.execSectionLoadForward head bodies s
  | .serviceStateNotice service => Sys2Proof.Machine.execServiceStateNotice service s
  | .bulkCopy b => Sys2Proof.Machine.execBulkCopy b s
  | .twinJoin j => Sys2Proof.Machine.execTwinJoin j s
  | .twinLinkWaitExpiry => Sys2Proof.Machine.execTwinLinkWaitExpiry s
  | .twinKeepaliveDue => Sys2Proof.Machine.execTwinKeepaliveDue s
  | .presenceQueryDue => Sys2Proof.Machine.execPresenceQueryDue s
  | .presenceCheckEnd => Sys2Proof.Machine.execPresenceCheckEnd s
  | .takeover => Sys2Proof.Machine.execTakeover s
  | .announcementDue => Sys2Proof.Machine.execAnnouncementDue s
  | .failbackExpiry => Sys2Proof.Machine.execFailbackExpiry s
  | .plannedMove alcove sessions => Sys2Proof.Machine.execPlannedMove alcove sessions s
  | .sequencerMove domain => Sys2Proof.Machine.execSequencerMove domain s
  | .galleryProbeDue => Sys2Proof.Machine.execGalleryProbeDue s
  | .probeReply payload managerKey => Sys2Proof.Machine.execProbeReply payload managerKey s
  | .tallySeedDelivery seed => Sys2Proof.Machine.execTallySeedDelivery seed s
  | .tallyAccumulate => Sys2Proof.Machine.execTallyAccumulate s
  | .tallyRecordDue => Sys2Proof.Machine.execTallyRecordDue s
  | .tallyTimePath disciplined => Sys2Proof.Machine.execTallyTimePath disciplined s
  | .tallyPowerUp clockLost elapsed => Sys2Proof.Machine.execTallyPowerUp clockLost elapsed s
  | .tallyFault e => Sys2Proof.Machine.execTallyFault e s
  | .snapshotStrobe => Sys2Proof.Machine.execSnapshotStrobe s
  | .prErrForce master value => Sys2Proof.Machine.execPrErrForce master value s
  | .regPairLoRead master addr => Sys2Proof.Machine.execRegPairLoRead master addr s
  | .regPairHiWrite master addr value => Sys2Proof.Machine.execRegPairHiWrite master addr value s
  | .registerWrite master addr value sets => Sys2Proof.Machine.execRegisterWrite master addr value s sets
  | .portLinkDown sublink => Sys2Proof.Machine.execPortLinkDown sublink s
  | .portLinkUp sublink => Sys2Proof.Machine.execPortLinkUp sublink s
  | .pfcPauseExpiry port prio => Sys2Proof.Machine.execPfcPauseExpiry port prio s
  | .ticketExpiry domain ticket => Sys2Proof.Machine.execTicketExpiry domain ticket s
  | .promiseDeadline w => Sys2Proof.Machine.execPromiseDeadline w s
  | .timerEvent n => Sys2Proof.Machine.execTimerEvent n s
  | .retentionLatchClear => Sys2Proof.Machine.execRetentionLatchClear s
  | .cellLowClear => Sys2Proof.Machine.execCellLowClear s
  | .archiveJournalWrite records => Sys2Proof.Machine.execArchiveJournalWrite records s
  | .replyReceived m => Sys2Proof.Machine.execReplyReceived m s
  | .readyReceived m => Sys2Proof.Machine.execReadyReceived m s
  | .completionReceived m => Sys2Proof.Machine.execCompletionReceived m s
  | .ppsOutFall => Sys2Proof.Machine.execPpsOutFall s

end Sys2Proof.Machine
end

