-- ==== Sys2Proof/Machine/Idle.lean ====
section
/-! DEFINITION. What one cycle of `HCLK` does when no command waits (DESIGN CHOICE, log 1): device time and
Tally time advance at their rates and the counters of cycles and occupancies count. -/

namespace Sys2Proof.Machine

/-- A count of ns after `d` ns at a rate of `ppm`: the whole ns that the rate has gathered go in (R39,
R606). The count has 64 bits (R4). -/
def advance (time d : Nat) (frac ppm : Int) : Nat × Int :=
  let f := frac + ppm * d
  if 1000000 ≤ f then (ns64 (time + d + 1), f - 1000000)
  else if f ≤ -1000000 then (ns64 (time + d - 1), f + 1000000)
  else (ns64 (time + d), f)

/-- One cycle of `HCLK`: 1 ns, or 10 ns of device time on the 100 MHz reference (R4, R642). -/
def idleCycle (s : State) : State :=
  let s := if s.power.powered then perfTick s else s
  let d := if s.power.slow then 10 else 1
  let t := advance s.time d s.net.frac s.net.slew
  let y := advance s.tally.time d s.tally.frac s.tally.rate
  { s with time := t.1, net := { s.net with frac := t.2 }
           tally := { s.tally with time := y.1, frac := y.2 } }

/-- The step on an empty queue. -/
def idle (s : State) : Out := .next (idleCycle s)

end Sys2Proof.Machine
end

