-- ==== Sys2Proof/Safety.lean ====
section
/-! DEFINITION. What counts as a safe state and as a command that can run, in the terms that statements use: the
canonical forms of tables and memories, the frames and commands that pass every check, and what no step changes. -/

namespace Sys2Proof.Machine

/-! ### Canonical forms -/

/-- The keys of a table rise from a bound on. -/
def tabWfFrom {α : Type} : Nat → Tab α → Bool
  | _, [] => true
  | lo, (i, _) :: r => decide (lo ≤ i) && tabWfFrom (i + 1) r

/-- A table is in its canonical form. -/
def tabWf {α : Type} (t : Tab α) : Bool := tabWfFrom 0 t

/-- The three memories are in their canonical form. -/
def hallsWf (h : Halls) : Bool := Mem.wf h.logicMem && Mem.wf h.mezzMem && Mem.wf h.archMem
def memWf (s : State) : Bool := hallsWf s.halls

/-! ### One-time programmable memory -/

/-- The lists of the one-time programmable memory have their lengths (01, OTP contents). -/
def otpShape (o : Otp) : Bool :=
  decide (o.copies.length = 3) && decide (o.trim.length = 256) && decide (o.random.length = 32)

/-- Every bit that is set in one word is set in another. -/
def bitsKept {n : Nat} (a b : BitVec n) : Prop := a &&& b = a

/-- Every bit that is set in a list of words is set in another list. -/
def wordsKept {n : Nat} (a b : List (BitVec n)) : Prop := ∀ i, bitsKept (a.getD i 0) (b.getD i 0)

/-- No bit of the one-time programmable memory has gone from 1 to 0 (01, OTP contents). -/
structure OtpKept (a b : Otp) : Prop where
  copies : wordsKept a.copies b.copies
  evidence : bitsKept a.evidence b.evidence
  sealBits : bitsKept a.sealBits b.sealBits
  random : wordsKept a.random b.random
  trim : wordsKept a.trim b.trim
  rootHash : wordsKept a.rootHash b.rootHash
  ownerHash : wordsKept a.ownerHash b.ownerHash

/-- `FAULT_N` of a device with power is low in `SAFE` and `TAMPERED` and high in every other service state (R501). -/
def faultFollows (s : State) : Bool := !s.power.powered || s.fc.faultN == some (faultLevel s.fc.service)

/-! ### Commands that can run -/

/-- An accepted command that carries an opcode and is ready to execute. -/
def isReady (s : State) (w op : Nat) (k : Work) : Prop :=
  wrk s w = some k ∧ k.opcode = op ∧ k.stage = .ready ∧ k.stream = none

/-- A frame that reaches an alcove which takes frames (R35, R44, R49). -/
def reachesAlcove (s : State) (d : Datagram) (a : Nat) (y : Alcove) : Prop :=
  reaches s d.addr = some a ∧ alc s a = some y ∧ (onlyPortA s = false ∨ d.sublink < 4) ∧ y.resetting = false
    ∧ y.stopped = false ∧ d.hdr.version = 1 ∧ flReserved d.hdr.flags = false ∧ d.hdr.alcove = a
    ∧ frameOk d = true

/-- A protected frame of a type that an open session accepts: the tag verifies and its number is new (R49, R64, R66). -/
def frameAccepted (s : State) (d : Datagram) (type a : Nat) (y : Alcove) (x : Session) : Prop :=
  d.hdr.type = type ∧ reachesAlcove s d a y ∧ sess s a d.hdr.session = some x ∧ x.open_ = true ∧ x.closing = none
    ∧ frameTag x.c2dKey x.c2dSalt d.hdr d.data = d.tag ∧ d.hdr.pktNum < 2 ^ 48 ∧ pktSeen x d.hdr.pktNum = false

/-- A master whose write of a register address is admitted (R395, R407). -/
def mayWrite (s : State) (m addr : Nat) : Prop :=
  ∃ w off, windowOf addr = some (w, off) ∧ admits s m w off true = true

/-- The state once a frame is counted as received. -/
def received (s : State) (d : Datagram) : State := perfAdd s (14 + portNo d.sublink) 0x30 1

/-- The session after an accepted frame (R66, R74). -/
def sessionTook (s : State) (d : Datagram) (x : Session) : Session :=
  takeAck { pktTake x d.hdr.pktNum with lastAuth := s.time, link := d.sublink } d.hdr.ack

/-- The state after an accepted frame, before what its type does. -/
def frameTaken (s : State) (d : Datagram) (a : Nat) (x : Session) : State :=
  mirrorCli (putSess (received s d) a d.hdr.session (sessionTook s d x)) a d.hdr.session

/-! ### Which commands reach what -/

/-- Commands that may change a byte of the memories: transactions, moves of a watermark, alarms that erase, life-cycle
transitions, starts and resets. -/
def mayChangeMemory : Instr → Bool
  | .fabricTransaction _ | .debugAccess _ | .wmMoveCommit _ => true
  | .registerWrite _ _ _ _ | .regPairHiWrite _ _ _ | .regWrite _ | .tampAlarmForce _ _ => true
  | .lichenTraceFail _ | .lightAlarm | .softMonitorEvent _ _ | .cellTempSample _ => true
  | .lifeCycleSet _ _ | .authSubmit _ _ | .selfReset => true
  | .start _ | .persoCert _ | .twinJoin _ | .twinLinkWaitExpiry => true
  | .resetNLow _ | .safeRestartExpiry | .railFall | .railRise _ => true
  | _ => false

/-- Commands that may burn a bit: transitions, a commissioning, reseals, evidence, and starts, which repair copies. -/
def mayBurn : Instr → Bool
  | .lifeCycleSet _ _ | .authSubmit _ _ | .selfReset | .tallyReseal _ _ | .eraseComplete _ => true
  | .start _ | .persoCert _ | .twinJoin _ | .twinLinkWaitExpiry | .resetNLow _ | .safeRestartExpiry => true
  | _ => false

/-- Commands after which the life-cycle state may differ: transitions, and resets, which vote it anew. -/
def mayChangeLife : Instr → Bool
  | .lifeCycleSet _ _ | .authSubmit _ _ | .selfReset => true
  | .resetNLow _ | .safeRestartExpiry | .railFall | .railRise _ => true
  | _ => false

/-- The register windows of R31: base, size and window. -/
def windowTable : List (Nat × Nat × Win) :=
  [(0x000000, 0x10000, .id), (0x010000, 0x10000, .lc), (0x020000, 0x10000, .fc), (0x030000, 0x10000, .ed),
    (0x040000, 0x10000, .du), (0x050000, 0x10000, .rng), (0x060000, 0x10000, .tamp), (0x070000, 0x10000, .hc)]
  ++ (List.range 4).map (fun c => (0x080000 + c * 0x800, 0x800, .mpu c))
  ++ (List.range 12).map (fun c => (0x080000 + (16 + c) * 0x800, 0x800, .mpu (16 + c)))
  ++ [(0x090000, 0x10000, .pr), (0x0A0000, 0x10000, .pc)]
  ++ (List.range 4).map (fun b => (0x100000 + b * 0x4000, 0x4000, .cb b))
  ++ (List.range 48).map (fun n => (0x200000 + n / 8 * 0x10000 + n % 8 * 0x2000, 0x2000, .pk (n / 8) (n % 8)))
  ++ [(0x300000, 0x10000, .port 0), (0x310000, 0x10000, .port 1), (0x380000, 0x10000, .ib), (0x400000, 0x10000, .tally)]

/-- The highest state whose own group is complete in a copy (R459). -/
def highestGroup (w : Word) (c : Nat) : Prop :=
  c ≤ 6 ∧ (c = 0 ∨ groupFull w c = true) ∧ ∀ g, c < g → g ≤ 6 → groupFull w g = false

end Sys2Proof.Machine
end

