-- ==== Sys2Proof/Certificates/Slice0/Obligations.lean ====
section
/-! DEFINITION. The statements for the provers. A statement about one command says in which states it completes, what
it leaves and, by naming the whole next state, that it leaves the rest. -/

open Sys2Proof Sys2Proof.Machine

/-! ### The machine as a whole -/

/-- A step takes the command at the front of the queue and runs it with the queue's rest. -/
def Obligations.StepRunsFrontCommand : Prop :=
  ∀ (c : Instr) (r : List Instr) (s : State), s.pending = c :: r → step s = exec c { s with pending := r }

/-- The model's choice (log 1): on an empty queue a step is one cycle of `HCLK`, in which device time and Tally time,
when no rate steers them, advance by 1 ns, or by 10 ns on the reference clock, modulo 2^64, and nothing changes but the
times, the counters and the index of the free values. -/
def Obligations.IdleStepsCountTime : Prop :=
  ∀ (s : State), s.pending = [] → ∃ t, step s = .next t ∧ t.pending = []
    ∧ (s.net.slew = 0 → s.net.frac = 0 → t.time = (s.time + if s.power.slow then 10 else 1) % 2 ^ 64)
    ∧ (s.tally.rate = 0 → s.tally.frac = 0 → t.tally.time = (s.tally.time + if s.power.slow then 10 else 1) % 2 ^ 64)
    ∧ t.perf.sel = s.perf.sel ∧ { t with time := s.time, net := s.net, tally := s.tally, perf := s.perf, fresh := s.fresh } = s
    ∧ { t.net with frac := s.net.frac } = s.net ∧ { t.tally with time := s.tally.time, frac := s.tally.frac } = s.tally

/-- Whatever a command does, the commands that wait behind it stay as they are, in their order: a step removes the
front of the queue and nothing else. -/
def Obligations.StepsTakeTheQueueInOrder : Prop :=
  ∀ (s t : State), step s = .next t → t.pending = s.pending.tail

/-- Every step keeps the three memories in their canonical form. -/
def Obligations.MemoriesStayCanonical : Prop :=
  ∀ (s t : State), memWf s = true → step s = .next t → memWf t = true

/-- 01, OTP contents: each bit of one-time programmable memory can go from 0 to 1 and never back, in every step of
every state whose lists have their lengths; the lengths stay. -/
def Obligations.NoStepClearsAnOtpBit : Prop :=
  ∀ (s t : State), otpShape s.otp = true → step s = .next t → otpShape t.otp = true ∧ OtpKept s.otp t.otp

/-- R501: `FAULT_N` is low while the service state is `SAFE` or `TAMPERED`, and high in every other state: every step
of a device with power keeps it so, and the reset state has it. -/
def Obligations.FaultPinFollowsTheServiceState : Prop :=
  (∀ (s t : State), faultFollows s = true → step s = .next t → faultFollows t = true)
  ∧ faultFollows State.reset = true
  ∧ (∀ v, faultLevel v = false ↔ v = .safe ∨ v = .tampered)

/-- R463, R465, R477: no command but a transition and a reset changes the life-cycle state. -/
def Obligations.OnlyTransitionsChangeTheLifeCycleState : Prop :=
  ∀ (c : Instr) (s t : State), mayChangeLife c = false → exec c s = .next t → t.life.life = s.life.life

/-- 01, OTP contents: one-time programmable memory is written along the paths of the life cycle, of evidence and of
the Tally's seal, and by the repair of copies at a start, and by no other command. -/
def Obligations.OnlyTheBurningCommandsWriteOtp : Prop :=
  ∀ (c : Instr) (s t : State), mayBurn c = false → exec c s = .next t → t.otp = s.otp

/-- No byte of the three memories changes in a command that is no transaction, no move of a watermark, no alarm, no
life-cycle transition, no start and no reset. -/
def Obligations.OnlyStoresAndErasuresChangeMemory : Prop :=
  ∀ (c : Instr) (s t : State), mayChangeMemory c = false → exec c s = .next t →
    ∀ (sp : Space) (a : Nat), Mem.get (memOf t sp) a = Mem.get (memOf s sp) a

/-- What the spec gives the machine at reset, and the forms that the statements above keep. -/
def Obligations.ResetIsWellFormed : Prop :=
  memWf State.reset = true ∧ otpShape State.reset.otp = true ∧ faultFollows State.reset = true
  ∧ State.reset.pending = [] ∧ State.reset.outbox = [] ∧ State.reset.fc.service = .starting
  ∧ State.reset.fc.capMin = 2 ∧ State.reset.fc.handle = 10 ∧ State.reset.fc.restart = 0 ∧ State.reset.fc.status = 0
  ∧ State.reset.fc.valid = false ∧ State.reset.rng.source = .off ∧ State.reset.tamper.interval = 60
  ∧ State.reset.halls.lock = false ∧ State.reset.perf.interval = 100000 ∧ State.reset.life.dbg = 0
  ∧ State.reset.net.sessions = [] ∧ State.reset.cipher.ops = [] ∧ State.reset.pk.jobs = []
  ∧ (∀ n, n ≤ 63 → (evSrc State.reset n).enable = true ∧ (evSrc State.reset n).prio = 3)
  ∧ (∀ n, 64 ≤ n → (evSrc State.reset n).enable = false ∧ (evSrc State.reset n).prio = 0)

/-- The model answers every command with a next state: none faults and none is refused. -/
def Obligations.EveryCommandAnswers : Prop :=
  ∀ (c : Instr) (s : State), ∃ t, exec c s = .next t

/-! ### Registers and copies -/

/-- R31: the register windows lie where the table says and do not overlap; an access outside every window, or to an
address in a window that names no register, gets an error response, and a read returns zero. The identity window reads
as its registers say to every master of either hall but the Tally core, whose identifier no window of the table admits, and
admits no write. -/
def Obligations.WindowsLieWhereTheTableSays : Prop :=
  (∀ a, windowOf a = (windowTable.find? (fun e => decide (e.1 ≤ a ∧ a < e.1 + e.2.1))).map (fun e => (e.2.2, a - e.1)))
  ∧ windowTable.Pairwise (fun e f => e.1 + e.2.1 ≤ f.1)
  ∧ (∀ (s : State) (m a : Nat) (v : Word), windowOf a = none → (regGet s m a).lastErr = true ∧ (regGet s m a).lastVal = 0
    ∧ (regPut s m a v).lastErr = true)
  ∧ (∀ (s : State) (m a off : Nat) (w : Win) (v : Word), windowOf a = some (w, off) →
    (readRaw s w off = none → (regGet s m a).lastErr = true ∧ (regGet s m a).lastVal = 0)
    ∧ (writeRegPair s m w off v = none → writeRaw s m w off v = none → (regPut s m a v).lastErr = true))
  ∧ (∀ (s : State) (a : Nat), a < 0x10000 → regGet s 0x70 a = refuse s 0x70 a false)
  ∧ (∀ (s : State) (m : Nat) (h : Hall), masterHall s m = some h → m ≠ 0x70 →
    regGet s m 0x0 = busOk s 0x57450800 ∧ regGet s m 0x4 = busOk s 0xA0 ∧ regGet s m 0x8 = busOk s (w32 s.twin.side)
    ∧ regGet s m 0xC = busOk s (w32 (serviceCode s.fc.service * 256 + lifeShown s))
    ∧ ∀ a v, a < 0x10000 → regPut s m a v = refuse s m a true)

/-- R458 to R460: the patterns of the life-cycle states; a copy decodes to the highest state whose own group is
complete and is invalid when two groups above it have a bit set; the voted state is the one to which two valid copies
decode. -/
def Obligations.CopiesDecodeAndVote : Prop :=
  (∀ c, lifePattern c = (if c = 0 then 0 else if c = 1 then 0xF else if c = 2 then 0xFF else if c = 3 then 0xFFF
      else if c = 4 then 0xFFFF else if c = 5 then 0xFFFFFF else 0xFFFFFFFF))
  ∧ (∀ (w : Word) (c : Nat), highestGroup w c →
    ((∃ g h, c < g ∧ g < h ∧ h ≤ 6 ∧ groupAny w g = true ∧ groupAny w h = true) → decodeCopy w = 7)
    ∧ (¬ (∃ g h, c < g ∧ g < h ∧ h ≤ 6 ∧ groupAny w g = true ∧ groupAny w h = true) → decodeCopy w = c))
  ∧ (∀ (w : Word), ∃ c, highestGroup w c)
  ∧ (∀ (x y z : Word) (c : Nat), voteOf [x, y, z] = some c ↔ c ≤ 6 ∧ (decodeCopy x = c ∧ decodeCopy y = c
    ∨ decodeCopy x = c ∧ decodeCopy z = c ∨ decodeCopy y = c ∧ decodeCopy z = c))

/-- R5, R7: a read of the low half captures the high half for its master; a later read of the high half by that master
returns the capture, whatever has changed, and, where the master holds none, the half that waits for its write of the low
half, or else the live half; no other master's capture
changes. -/
def Obligations.PairReadsReturnTheCapture : Prop :=
  (∀ (s t u : State) (m a off h : Nat) (w : Win) (v : Word), windowOf a = some (w, off) →
    admits s m w off false = true → pairHi w off = some h → readRaw s w off = some v → t = regGet s m a →
    t.lastVal = v ∧ capturedOf t m (a + 4) = some ((readRaw s w h).getD 0)
    ∧ (∀ n, n ≠ m → capturedOf t n (a + 4) = capturedOf s n (a + 4))
    ∧ (capturedOf u m (a + 4) = capturedOf t m (a + 4) → admits u m w h false = true → (readRaw u w h).isSome = true →
      (regGet u m (a + 4)).lastVal = (readRaw s w h).getD 0))
  ∧ (∀ (s : State) (m a h : Nat) (w : Win) (v : Word), windowOf a = some (w, h) → isHi w h = true →
    admits s m w h false = true → readRaw s w h = some v → capturedOf s m a = none →
    (regGet s m a).lastVal = (pendingHi s m a w h).getD v)

/-- R15, R400, R403 to R412: a write that reaches a memory stores its bytes from its address on and changes no other
byte of that or another memory; a read changes no byte and returns what stands there. -/
def Obligations.StoresChangeOnlyTheirBytes : Prop :=
  ∀ (s : State) (t : Txn) (h : Hall), memWf s = true → txnHall s t = some h → txnOk t = true →
    (∀ c, coreOf t.master = some c → coreTxnOk t = true ∧ mpuCheck s c t = none) →
    t.space ≠ .regs → t.addr + t.len ≤ spaceSize t.space → closed s t.space t.addr = false →
    memAdmits s t.space h t.master t.addr (t.access == .write) = true → (t.space = .logic → enclAdmits s t = true) →
    ∃ u, exec (.fabricTransaction t) s = .next u ∧ u.lastErr = false
      ∧ (∀ sp a, sp ≠ t.space ∨ a < t.addr ∨ t.addr + t.len ≤ a ∨ t.access ≠ .write →
        Mem.get (memOf u sp) a = Mem.get (memOf s sp) a)
      ∧ (t.access = .write → ∀ i, i < t.len → Mem.get (memOf u t.space) (t.addr + i) = t.data.getD i 0)
      ∧ (t.access ≠ .write → u.outbox = s.outbox ++ [.fabric t.master false (if seesClear t then
          (List.range t.len).map (fun i => clearByte s (t.addr + i)) else Mem.read (memOf s t.space) t.addr t.len)])
      ∧ (∀ a, spillSlot a = none → clearByte s a = Mem.get (memOf s .mezz) a)

/-! ### Sessions -/

/-- R66, R74: an accepted `ACK` frame is authenticated, recorded in the replay state, and its value taken. R52, R53,
R68: a segment of a command is held until the last byte arrives; `CLOSE` ends the session once its accepted commands
have completed, or at once where there is none; the timers of assembly, half-open and idle sessions release what they
watch when they are due. R61, R62: the signature of the `REPLY` to a `HELLO` that no case of R61 rejects is begun, where the
values can be drawn, and what ends it sends the `REPLY`; a `FINISH` that no case of R62 rejects opens its session and sends
`READY`. -/
def Obligations.SessionsRun : Prop :=
  (∀ (s : State) (d : Datagram) (a : Nat) (y : Alcove) (x : Session),
     frameAccepted s d 6 a y x → exec (.ack d) s = .next (frameTaken s d a x))
  ∧ (∀ (s u : State) (d : Datagram) (a : Nat) (y : Alcove) (x z : Session) (m : Assembly),
    u = regionFills s d → frameAccepted u d 1 a y x → sess (frameTaken u d a x) a d.hdr.session = some z →
    z.base ≤ d.hdr.seq →
    d.hdr.seq ≤ z.base + 4095 → tget z.entries d.hdr.seq = some (.assembling m) →
    segDup m d.hdr.segOff d.data.length = false →
    shareHolds (putSess (frameTaken u d a x) a d.hdr.session z) a d.data.length = true →
    segRefused m d.hdr d.data.length = none →
    (segBytes (segAdd m d.hdr d.data) ≠ d.hdr.declLen ∨ (segAdd m d.hdr d.data).lastEnd = none) →
    exec (.commandSegment d) s = .next (modSess (putSess (frameTaken u d a x) a d.hdr.session z) a d.hdr.session
      (fun q => { q with entries := tput q.entries d.hdr.seq (.assembling (segAdd m d.hdr d.data)) })))
  ∧ (∀ (s : State) (d : Datagram) (a : Nat) (y : Alcove) (x : Session), frameAccepted s d 0x15 a y x →
    exec (.close d) s = .next (finishClosing (modSess (frameTaken s d a x) a d.hdr.session beginClose) a d.hdr.session))
  ∧ (∀ (s : State) (a i n : Nat) (x : Session) (y : Alcove) (m : Assembly), sess s a i = some x → alc s a = some y →
    tget x.entries n = some (.assembling m) → m.start + y.set.assemblyUs * 1000 ≤ s.time →
    ∃ t z, exec (.assemblyTimerExpiry a i n) s = .next t ∧ sess t a i = some z
      ∧ tget z.entries n = some (.done stLengthShort 0 (some []) m.queue s.net.nextComp)
      ∧ t.keys = s.keys ∧ t.net.work = s.net.work)
  ∧ (∀ (s : State) (a i : Nat) (x : Session), waitOver s a i = none → sess s a i = some x → x.open_ = false →
    x.reply.isEmpty = false → x.replyAt + 10 ^ 8 ≤ s.time →
    exec (.halfOpenTimeout a i) s = .next (delSess s a i))
  ∧ (∀ (s : State) (a i : Nat) (x : Session) (y : Alcove), sess s a i = some x → alc s a = some y → x.open_ = true →
    x.lastAuth + y.set.idleS * 10 ^ 9 ≤ s.time →
    exec (.sessionIdleTimeout a i) s = .next (closeSession s a i stOk))
  ∧ (∀ (s : State) (d : Datagram) (a : Nat) (y : Alcove), d.hdr.type = 0x10 → reachesAlcove s d a y →
    helloRefused (received s d) a d = none → exec (.hello d) s = .next (if helloDraws (received s d) a then
      helloReply (received s d) a (helloSlot s a d) (s.time + promiseNs .d2) d
      else helloWaits (received s d) a (helloSlot s a d) d))
  ∧ (∀ (s t : State) (k : Work) (i l : Nat) (p : Bytes) (x : Session) (y : Alcove), alc s k.alcove = some y → y.gen = k.gen →
    sess s k.alcove i = some x → x.sid = k.sid → i < 16 → sendLink s k.sublink = some l →
    t = modSess s k.alcove i (fun x => { x with reply := p, replyAt := s.time }) →
    endReply s k i p stOk = sendPlain t l k.prio { outHdr 0x11 k.alcove i with flags := 3, declLen := p.length } p)
  ∧ (∀ (s : State) (d : Datagram) (a : Nat) (y : Alcove) (x : Session) (k : Bytes × Role), d.hdr.type = 0x12 →
    reachesAlcove s d a y → d.data ≠ [] → fld d.data 0 1 ≠ 0xFF → sess s a (fld d.data 0 1) = some x → x.open_ = false →
    x.reply.isEmpty = false → finishCheck (received s d) y x d.data = .ok k →
    exec (.finish d) s = .next (sendReady (received s d) a (fld d.data 0 1) (openSession s.time x d.data k d.sublink) d))

/-! ### Streams, ports and time -/

/-- R81 to R84, R87, R95: a stream frame that passes its checks is accepted; a result whose slice has a connected,
unfrozen queue pair is placed by an RDMA WRITE, and any other leaves as a `STREAM_RESULT`. R85, R86, R88, R97:
acknowledgements, retransmissions, rate and dropped requests of a queue pair. -/
def Obligations.StreamsAndQueuePairsRun : Prop :=
  (∀ (s u : State) (d : Datagram) (a : Nat) (y : Alcove) (x z : Session) (v : Slice) (r : StreamReq),
    u = regionFills s d → frameAccepted u d 3 a y x → sess (frameTaken u d a x) a d.hdr.session = some z →
    streamOk d = true →
    tget (frameTaken u d a x).net.slices (sliceKey a d.hdr.seq) = some v → v.suspended = false →
    streamReq (frameTaken u d a x) a v d.data = some r →
    streamRefused (frameTaken u d a x) a d.data.length v r = none →
    exec (.stream d) s = .next (acceptStream (frameTaken u d a x) a z d r))
  ∧ (∀ (s : State) (n q addr : Nat) (c : Completion) (x : Slice) (y : Qp), tget s.net.comps n = some c →
    c.stream.isSome = true → streamEarlier s c = false → tagCurrent s c = true → placement s c = some (x, q, addr) →
    qpAt s q = some y → y.state = .connected → y.frozen = false →
    exec (.streamResultReady n) s = .next (endStream (issueWrite s q y c.alcove (c.stream.getD 0) addr c.prio
      (if x.immediate then some (c.status * 65536 + c.pktNum % 65536) else none) c.payload) n c))
  ∧ (∀ (s : State) (n l : Nat) (c : Completion), tget s.net.comps n = some c → c.stream.isSome = true →
    streamEarlier s c = false → tagCurrent s c = true → placement s c = none → sendLink s c.sublink = some l →
    heldPrio s l c.prio = false →
    exec (.streamResultReady n) s = .next (endStream (perfAdd (sendStreamResult s c) (14 + portNo l) 0x31 1) n c))
  ∧ (∀ (s : State) (q psn : Nat) (x : Qp) (r : List RdmaPacket), qpAt s q = some x →
    afterPsn psn x.pending = some r →
    exec (.roceAck q psn) s = .next (modQp s q (fun y =>
      { y with pending := r, left := y.retries, rnrLeft := y.rnr, sentAt := s.time })))
  ∧ (∀ (s : State) (q : Nat) (x : Qp), qpAt s q = some x → x.state = .connected → x.pending ≠ [] → x.frozen = false →
    exec (.roceNak q .nak) s = .next (if x.left = 0 then qpError s q x
      else resendAll (modQp s q (fun y => { y with left := y.left - 1 })) q x)
    ∧ exec (.roceNak q .rnr) s = .next (if x.rnrLeft = 0 then qpError s q x
      else resendAll (modQp s q (fun y => { y with rnrLeft := y.rnrLeft - 1 })) q x))
  ∧ (∀ (s : State) (q : Nat) (x : Qp), qpAt s q = some x → x.state = .connected → x.pending ≠ [] →
    x.sentAt + 4096 * 2 ^ x.timeout ≤ s.time →
    exec (.qpAckTimeout q) s = .next (if x.frozen ∨ x.left = 0 then qpError s q x
      else resendAll (modQp s q (fun y => { y with left := y.left - 1 })) q x))
  ∧ (∀ (s : State) (q : Nat) (x : Qp), qpAt s q = some x → x.lastCut + 50000 ≤ s.time → ∃ t y,
    exec (.cnpReceived q) s = .next t ∧ qpAt t q = some y ∧ y = { x with
      rate := max (x.rate * 7 / 8) (10 ^ 9), lastCut := s.time, cnpSince := true })
  ∧ (∀ (s : State) (q : Nat) (x : Qp), qpAt s q = some x → x.lastStep + 55000 ≤ s.time → ∃ t y,
    exec (.rateIncreaseTick q) s = .next t ∧ qpAt t q = some y ∧ y = { x with
      lastStep := s.time, cnpSince := false, rate := if x.cnpSince then x.rate else min (x.rate + 4 * 10 ^ 9) x.linkRate })
  ∧ (∀ (s : State) (q : Nat), q < 4096 → exec (.roceRequestDropped q) s = .next (countDrop s 85))

/-- R95, R78, R98, R99: a current completion leaves through its session with its counters and event record; moderation
that has run out sends the queued events; an alcove whose old work is gone ends its reset with the reset event. -/
def Obligations.CompletionsEventsAndResetsEnd : Prop :=
  (∀ (s : State) (n l : Nat) (c : Completion), tget s.net.comps n = some c → c.stream = none → tagCurrent s c = true →
    (compSession s c).isSome = true → sendLink s c.sublink = some l → heldPrio s l c.prio = false → ∃ t,
    t = perfAdd (sendSegs (c.payload.length / 8192 + 1) s c 0 c.payload) (14 + portNo l) 0x31 (c.payload.length / 8192 + 1)
    ∧ exec (.completionHandover n) s
      = .next (finishClosing (dropComp (afterSend (slotsOf t c true) n c) n c) c.alcove c.session))
  ∧ (∀ (s : State) (a t : Nat) (x : Alcove), alc s a = some x → x.modStart = some t → t + x.set.modUs * 1000 ≤ s.time →
    exec (.eventModerationExpiry a) s = .next (flushAll s a))
  ∧ (∀ (s : State) (a : Nat) (x : Alcove), alc s a = some x → x.resetting = true → oldWork s a x = false →
    qpsQuiet s a = true → ∃ t u, t = modAlc (dropOldComps s a) a (fun y => { y with resetting := false, resetWork := none })
    ∧ u = thawQps (endReset (postEvent t a 5 0 0xFF 0xFF 0 x.gen) x.resetWork) a
    ∧ exec (.alcoveResetDone a) s = .next (if x.resetMore ≠ 0 then
        resetPoint (modAlc u a (fun y => { y with resetMore := y.resetMore - 1 })) a none
      else if x.removing then removeAlcove u a else wakeAlcove u a))

/-- R36, R137, R33, R41, R646: pauses hold a priority of a port and end; a sub-link goes down and comes up; an alarm
of a module is a `NOTE`; a module that comes or goes. R36, R166: a port sends pause for a priority whose region has
less than 160 KiB free, and ends it above 288 KiB. R35, R44, R49, R38 to R40, R646: neighbour requests and echoes
for an open alcove are answered, other frames are dropped and counted; the two-step exchange of the PTP port and domain and
a PPS edge discipline device time, and the PPS output rises at a second and falls 100 ms later. R38 to R40 as the model
rounds them: an offset of at most 100 µs slews, by a rate that is a free value of 1 to 100 ppm; a larger one steps
device time to the reference. -/
def Obligations.PortsAndTimeRun : Prop :=
  (∀ (s t : State) (d : Datagram) (p : Nat), d.prio < 8 → d.sublink < 8 → p = portNo d.sublink → t = regionFills s d →
    tgetD (portOf t p).recvUsed d.prio 0 = d.held ∧ portOf t (1 - p) = portOf s (1 - p))
  ∧ (∀ (s t : State) (d : Datagram) (p : Nat), d.prio < 8 → d.sublink < 8 → p = portNo d.sublink → t = regionFills s d →
    regionShare (portOf s p) - d.held < 160 * 1024 → (portOf s p).pauseSent.contains d.prio = false →
    (portOf t p).pauseSent = d.prio :: (portOf s p).pauseSent ∧ t.outbox = s.outbox ++ [.pfcPause p d.prio true])
  ∧ (∀ (s t : State) (d : Datagram) (p : Nat), d.prio < 8 → d.sublink < 8 → p = portNo d.sublink → t = regionFills s d →
    288 * 1024 < regionShare (portOf s p) - d.held → (portOf s p).pauseSent.contains d.prio = true →
    (portOf t p).pauseSent = (portOf s p).pauseSent.erase d.prio ∧ t.outbox = s.outbox ++ [.pfcPause p d.prio false])
  ∧ (∀ (s t : State) (d : Datagram) (p : Nat), d.prio < 8 → d.sublink < 8 → p = portNo d.sublink → t = regionFills s d →
    160 * 1024 ≤ regionShare (portOf s p) - d.held → regionShare (portOf s p) - d.held ≤ 288 * 1024 →
    (portOf t p).pauseSent = (portOf s p).pauseSent ∧ t.outbox = s.outbox)
  ∧ (∀ (s : State) (p k n : Nat), p < 2 → k < 8 → n ≠ 0 →
    exec (.pfcPauseReceived p k n) s = .next (releaseHeld (modPort (perfAdd s (14 + p) 0x30 1) p (fun x =>
      { x with paused := tput x.paused k (s.time + n) }))))
  ∧ (∀ (s : State) (l p : Nat) (o : Output), sendOut s l p o = if heldPrio s l p
    then { s with net := { s.net with txHeld := s.net.txHeld ++ [(l, p, o)] } } else emit s o)
  ∧ (∀ (s : State) (p k n : Nat), p < 2 → tget (portOf s p).paused k = some n → n ≤ s.time →
    exec (.pfcPauseExpiry p k) s = .next (releaseHeld (modPort s p (fun x => { x with paused := tdel x.paused k }))))
  ∧ (∀ (s : State) (l : Nat), l < 8 → ∃ t, t = modPort s (portNo l) (fun p => { p with up := p.up.set (l % 4) false })
    ∧ exec (.portLinkDown l) s = .next (if (firstUp t t.net.ptpPort).isNone then
        { t with net := { t.net with ptpHere := false } } else t))
  ∧ (∀ (s : State) (l : Nat), l < 8 → (portOf s (portNo l)).moduleUp = true → (portOf s (portNo l)).pllOk = true →
    l % 4 < subLinks (portOf s (portNo l)) →
    exec (.portLinkUp l) s = .next (takeBreak (modPort s (portNo l) (fun p => { p with up := p.up.set (l % 4) true }))
      (1 - portNo l)))
  ∧ (∀ (s : State) (p : Nat) (f : ModuleFlag), p < 2 → (portOf s p).present = true → exec (.moduleAlarm p f) s
    = .next (noteAt (modPort s p (fun x => { x with alarms := setBit x.alarms (flagBit f) })) (28 + p) 0 0 0xFF))
  ∧ (∀ (s : State) (p : Nat), p < 2 → (portOf s p).present = true → exec (.modulePresenceChange p false) s
    = .next (modPort s p (fun x => { x with present := false, moduleUp := false, highPower := false, dataPath := false
                                            up := [false, false, false, false] })))
  ∧ (∀ (s : State) (p : Nat), p < 2 → (portOf s p).present = false → 11 ≤ s.boot.step → portServes s p = true →
    exec (.modulePresenceChange p true) s
    = .next (emit (modPort s p (fun x => { x with present := true, moduleUp := true, highPower := true, dataPath := true
                                                  alarms := 0 })) (.moduleReset p)))
  ∧ (∀ (s : State) (l ip : Nat) (v : Bool) (x : Alcove), l < 8 → ownerOfIp s l v ip = some x →
    exec (.arpNdRequest l v ip) s = .next (sendOut (perfAdd s (14 + portNo l) 0x30 1) l 0 (.arpReply l v ip x.set.mac)))
  ∧ (∀ (s : State) (l ip : Nat) (v : Bool), l < 8 → s.net.icmp = true → (ownerOfIp s l v ip).isSome = true →
    exec (.icmpEcho l v ip) s = .next (sendOut (perfAdd s (14 + portNo l) 0x30 1) l 0 (.echoReply l v ip)))
  ∧ (∀ (s : State) (l : Nat) (k : FrameKind), l < 8 →
    exec (.unsupportedFrame l k) s = .next (dropFrame (perfAdd s (14 + portNo l) 0x30 1) l (dropRule k)))
  ∧ (∀ (s : State) (m : PtpInfo), m.port < 2 → m.port = s.net.ptpPort → m.domain = s.net.ptpDomain →
    ∃ t, t = perfAdd s (14 + m.port) 0x30 1
    ∧ (∀ n, m.kind = .sync n → exec (.ptpMessage m) s = .next (modPtp (useFree t 1) (fun p =>
      { p with seq := n, t2 := some (stamp t), t1 := none, t3 := none })))
    ∧ (∀ n a b l, m.kind = .followUp n a → s.net.ptp.t2 = some b → s.net.ptp.t1 = none → s.net.ptp.seq = n →
      firstUp s m.port = some l → exec (.ptpMessage m) s = .next (sendOut (modPtp (useFree t 1) (fun p =>
        { p with t1 := some a, req := (p.req + 1) % 65536, t3 := some (stamp t) })) l 0
        (.delayReq l m.transport s.net.ptp.req)))
    ∧ (∀ n a b c d, m.kind = .delayResp n d → s.net.ptp.t1 = some a → s.net.ptp.t2 = some b → s.net.ptp.t3 = some c →
      (n + 1) % 65536 = s.net.ptp.req → exec (.ptpMessage m) s = .next (adjust { t with net := { t.net with
        ptpHere := true, ptp := { s.net.ptp with t1 := none, t2 := none, t3 := none } } }
        ((((b : Int) - a) - ((d : Int) - c)) / 2) (28 + m.port)))
    ∧ (∀ u, m.kind = .announce u → exec (.ptpMessage m) s = .next { t with net := { t.net with leap := u } }))
  ∧ (∀ (s : State), s.net.ptpHere = false → s.net.ptpSource = 1 → exec .ppsInEdge s = .next (adjust s
      (if s.time % 10 ^ 9 < 5 * 10 ^ 8 then ((s.time % 10 ^ 9 : Nat) : Int) else ((s.time % 10 ^ 9 : Nat) : Int) - 10 ^ 9) 3))
  ∧ (∀ (s : State), s.power.powered = true → s.net.ppsOut = false → s.net.ppsRose / 10 ^ 9 < s.time / 10 ^ 9 →
    exec .ppsOutSecond s = .next (emit { s with net := { s.net with ppsOut := true, ppsRose := s.time } } (.ppsOut true)))
  ∧ (∀ (s : State), s.net.ppsOut = true → s.net.ppsRose + 10 ^ 8 ≤ s.time →
    exec .ppsOutFall s = .next (emit { s with net := { s.net with ppsOut := false } } (.ppsOut false)))
  ∧ (∀ (s : State) (o : Int) (line : Nat),
     (o.natAbs ≤ 100000 → (adjust s o line).time = s.time ∧ (adjust s o line).net.slew.natAbs ≤ 100
       ∧ (0 < o → (adjust s o line).net.slew < 0) ∧ (o < 0 → 0 < (adjust s o line).net.slew))
     ∧ (100000 < o.natAbs → (adjust s o line).time = (((s.time : Int) - o) % 2 ^ 64).toNat
       ∧ (adjust s o line).net.slew = 0))

/-! ### Cryptographic commands -/

/-- R658, R262, R212, R120, R273, R621: the queries complete at once with `OK` and the record that the spec lays out.
-/
def Obligations.QueriesAnswer : Prop :=
  (∀ (s : State) (w : Nat) (k : Work), isReady s w 0x0101 k →
    exec (.info w) s = .next (okWork s w (be 4 0x57450800 ++ be 4 0xA0
      ++ be 4 (serviceCode s.fc.service * 256 + lifeShown s) ++ be 2 k.alcove ++ be 2 (domainOf s k.alcove)
      ++ be 1 (roleCode k.role) ++ be 1 k.session ++ be 1 s.twin.side ++ be 1 (s.gallery.member.getD 0xFF)
      ++ be 1 k.gen ++ zeros 3)))
  ∧ (∀ (s : State) (w : Nat) (k : Work), isReady s w 0x0103 k → exec (.timeQuery w) s
    = .next (okWork s w (be 8 s.time ++ be 8 s.tally.time ++ be 1 (b2n s.net.ptpHere + 2 * b2n s.tally.suspect) ++ zeros 7)))
  ∧ (∀ (s : State) (w : Nat) (k : Work) (slot n : Nat) (sec : Secret) (f : Face), isReady s w 0x0102 k →
    resolve s k.alcove (fld k.payload 0 8) = some (slot, n, sec, f) → f.payment = false →
    exec (.faceQuery w) s = .next (okWork s w (faceRecord s slot n sec f)))
  ∧ (∀ (s : State) (w : Nat) (k : Work) (slot : Nat) (sec : Secret) (f : Face), isReady s w 0x050A k →
    resolve s k.alcove (fld k.payload 0 8) = some (slot, 1, sec, f) → f.payment = false → isAsym sec.algo = true →
    (f.cls = .verify ∨ f.cls = .encapsulate ∨ f.cls = .agree) → exec (.publicExport w) s = .next (okWork s w (publicKey sec)))
  ∧ (∀ (s : State) (w : Nat) (k : Work), isReady s w 0x0901 k →
    (fld k.payload 0 1 = 0 → exec (.certsGet w) s = .next (okWork s w (chainBytes (replyChain s k.alcove))))
    ∧ (fld k.payload 0 1 = 1 → exec (.certsGet w) s = .next (okWork s w (chainBytes [s.stair.ledCert, s.stair.idCert])))
    ∧ (fld k.payload 0 1 = 2 → (domD s (domainOf s k.alcove)).root.isSome = true → exec (.certsGet w) s
      = .next (okWork s w (chainBytes ((domD s (domainOf s k.alcove)).witCert :: (replyChain s k.alcove).drop 1)))))
  ∧ (∀ (s : State) (w n : Nat) (k : Work), isReady s w 0x0904 k → 1 ≤ fld k.payload 0 8 →
    fld k.payload 0 8 ≤ s.ledger.newest → s.ledger.newest < fld k.payload 0 8 + 65536 →
    n = min (fld k.payload 8 2) (s.ledger.newest + 1 - fld k.payload 0 8) →
    exec (.ledgerRead w) s = .next (okWork s w (be 8 s.ledger.newest ++ be 2 n ++ zeros 6 ++ ((List.range n).map (fun i =>
      ((ledgerEntry s (fld k.payload 0 8 + i)).map entryBytes).getD (zeros 4096))).flatten)))
  ∧ (∀ (s : State) (w : Nat) (k : Work) (l : List (Nat × Bytes)), isReady s w 0x070A k → fld k.payload 0 1 = 0 →
    l = (snapsOf s k.alcove).drop ((snapsOf s k.alcove).length - fld k.payload 16 2) →
    exec (.countersRead w) s = .next (okWork s w (be 2 l.length ++ zeros 6 ++ l.flatMap (·.2))))

/-- R102, R107, R112, R115, R116: a symmetric command whose face passes check 7 and whose data pass check 8 issues its
operation on its wing; with the draw of a counter value where its mode draws one; `DIGEST` needs no face, and `RANDOM`
draws its bytes. R293 to R306: the commands of the context store. -/
def Obligations.SymmetricAndContextCommandsRun : Prop :=
  (∀ (c : Nat → Instr) (op : Nat),
    (c = .encrypt ∧ op = 0x0201) ∨ (c = .decrypt ∧ op = 0x0202) ∨ (c = .macGenerate ∧ op = 0x0203)
      ∨ (c = .macVerify ∧ op = 0x0204) →
    ∀ (s t : State) (w : Nat) (k : Work) (x : Keyed) (slot n : Nat) (sec : Secret) (face : Face)
      (r : Nat × Bytes × Bytes), isReady s w op k → keyedOf op k.payload = some x →
    faceCheck s k.alcove x.req.handle false (famServes x.fam op x.req.keyBits) = .ok (slot, n, sec, face) →
    (drawsNonce x.fam op = true → face.nextInv < 2 ^ 64) → symRefused x.fam op x.prm x.req.data = none →
    usesLeft s slot n face = true → marksAllow face (drawsNonce x.fam op) = true →
    mayIssue s (symWing x.fam) w [cacheKey slot n] = true →
    r = symDo x.fam op x.prm sec.material (if drawsNonce x.fam op then nonceOf s face else x.prm.iv) x.req.data →
    t = issueFace (if drawsNonce x.fam op then drawInv s slot n else s) k.alcove slot n face →
    exec (c w) s = .next (issueOp t w k (symWing x.fam) [cacheKey slot n] none 0
      (plainResult r.1 (commonResp r.2.1 r.2.2) (symMeters (symWing x.fam) x.req.data.length))))
  ∧ (∀ (s : State) (w : Nat) (k : Work) (x : Keyed) (r : Nat × Bytes × Bytes), isReady s w 0x0205 k →
    keyedOf 0x0205 k.payload = some x → mayIssue s .hash w [] = true → r = symDo x.fam 0x0205 x.prm [] [] x.req.data →
    exec (.digest w) s = .next (issueOp s w k .hash [] none 0
      (plainResult r.1 (commonResp r.2.1 r.2.2) (symMeters .hash x.req.data.length))))
  ∧ (∀ (s : State) (w n : Nat) (k : Work), isReady s w 0x0401 k → n = fld k.payload 0 4 →
    drawState s (alcInst k.alcove) = .ok → exec (.random w) s
      = .next (issueOp (drawFrom s (alcInst k.alcove) n).2 w k .random [] none 0 (plainResult stOk (drawn s n) [(0x0701, n)])))
  ∧ (∀ (s t : State) (w : Nat) (k : Work) (x : Keyed) (y : Alcove) (slot n id : Nat) (sec : Secret) (face : Face)
      (c : Context) (nonce : Bytes) (d : Bool), isReady s w 0x0210 k → openOf k.payload = some x →
    alc s k.alcove = some y → faceCheck s k.alcove x.req.handle false (openServes x.fam) = .ok (slot, n, sec, face) →
    d = openDraws x.fam face → (d = true → face.nextInv < 2 ^ 64 ∧ allZero x.prm.iv = true) →
    usesLeft s slot n face = true → marksAllow face d = true → mayIssue s .cipher w [cacheKey slot n] = true →
    ctxRoom s k.alcove = true → freshCtx y = some id →
    nonce = (if d then nonceOf s face else x.prm.iv) → c = openCtx k x face nonce →
    t = makeLive (modAlc (issueFace (if d then drawInv s slot n else s) k.alcove slot n face) k.alcove
      (fun z => { z with contexts := tput z.contexts id c })) k.alcove id →
    exec (.contextOpen w) s = .next (issueOp t w k .cipher [cacheKey slot n] (some id) 0
      { plainResult stOk (commonResp [] (be 4 id ++ (if d then nonce else []))) [(0x0101, 0), (0x0102, 1)] with
        ctx := some (id, { c with inFlight := false }) }))
  ∧ (∀ (e : Nat → Instr) (op : Nat) (final : Bool),
    (e = .contextUpdate ∧ op = 0x0211 ∧ final = false) ∨ (e = .contextFinal ∧ op = 0x0212 ∧ final = true) →
    ∀ (s : State) (w : Nat) (k : Work) (r : CtxReq) (c : Context) (f : Fam) (slot n : Nat) (sec : Secret) (face : Face),
    isReady s w op k → ctxReq k.payload = some r → ctxOf s k.alcove r.id = some c →
    ctxClaimed s w k.alcove r.id c = false → famOf c.mech = some f → faceCheck s k.alcove c.handle false (openServes f) = .ok (slot, n, sec, face) →
    usesLeft s slot n face = true → ctxSpent c f r.data = false → (final = false ∨ f = .cbc → r.data.length % 16 = 0) →
    marksAllow face false = true → mayIssue s .cipher w [cacheKey slot n] = true →
    exec (e w) s = .next (issueOp (makeLive (issueFace s k.alcove slot n face) k.alcove r.id) w k .cipher
      [cacheKey slot n] (some r.id) 0
      (ctxResult { c with spilled := false } f r.id sec.material r.tag r.data final)))
  ∧ (∀ (s t : State) (w id : Nat) (k : Work) (c : Context) (x : Alcove) (h b : Bytes), isReady s w 0x0213 k →
    id = fld k.payload 0 4 → ctxOf s k.alcove id = some c → alc s k.alcove = some x →
    (resolve s k.alcove c.handle).isSome = true → ctxClaimed s w k.alcove id c = false →
    markedDraw s x.set.domain x.epoch x.epochMark = .ok → h = blobHead c.mech k.alcove id x.epoch c.handle →
    b = Config.gcmCrypt x.ctxKey (zeros 4 ++ be 8 x.epoch) (drawn s 240) →
    t = modCtx (makeLive (modAlc (useFree s 240) k.alcove (fun y => { y with epoch := y.epoch + 1 })) k.alcove id) k.alcove id
      (fun c => { c with epoch := some x.epoch, inFlight := false, present := !bitOf (fld k.payload 4 1) 0 }) →
    exec (.contextSave w) s = .next (okWork t w (h ++ b ++ blobTag x.ctxKey h b)))
  ∧ (∀ (s : State) (w id : Nat) (k : Work) (c : Context) (x : Alcove), isReady s w 0x0214 k → id = fld k.payload 12 4 →
    ctxHolds s k.alcove id = some c → alc s k.alcove = some x → (resolve s k.alcove c.handle).isSome = true →
    fld k.payload 8 2 = k.alcove → blobTag x.ctxKey (k.payload.take 32) (slice k.payload 32 240) = slice k.payload 272 16 →
    c.epoch = some (fld k.payload 16 8) → ctxClaimed s w k.alcove id c = false → (c.present = true ∨ ctxHeld s < 65536) →
    exec (.contextRestore w) s = .next (okWork (modCtx (makeLive (modCtx s k.alcove id (fun c => { c with present := true }))
      k.alcove id) k.alcove id (fun c => { c with inFlight := false })) w (be 4 id ++ zeros 4)))
  ∧ (∀ (s : State) (w : Nat) (k : Work) (c : Context), isReady s w 0x0215 k →
    ctxHolds s k.alcove (fld k.payload 0 4) = some c → ctxClaimed s w k.alcove (fld k.payload 0 4) c = false →
    exec (.contextClose w) s = .next (okWork (releaseCtx s k.alcove (fld k.payload 0 4)) w []))

/-- R102, R116, R153, R319 to R335: a public-key command whose face passes check 7 issues its core job, after the
lane's hash of a long message, or two hashes of it where a signature takes two passes. -/
def Obligations.PublicKeyCommandsIssue : Prop :=
  ∀ (c : Nat → Instr) (op : Nat),
    (c = .sign ∧ op = 0x0301) ∨ (c = .verify ∧ op = 0x0302) ∨ (c = .agree ∧ op = 0x0303)
      ∨ (c = .encapsulate ∧ op = 0x0304) ∨ (c = .decapsulate ∧ op = 0x0305) ∨ (c = .pkEncrypt ∧ op = 0x0306)
      ∨ (c = .pkDecrypt ∧ op = 0x0307) →
    (∀ (s : State) (w slot n : Nat) (k : Work) (x : Keyed) (sec : Secret) (face : Face) (r : Result) (two : Bool),
      isReady s w op k → keyedOf op k.payload = some x → k.carry = some r →
      faceCheck s k.alcove x.req.handle false (famServes x.fam op x.req.keyBits) = .ok (slot, n, sec, face) →
      two = (twoPasses x op && k.part == 1) → mayIssue s (if two then .hash else .pk) w [cacheKey slot n] = true →
      exec (c w) s = .next (if two then issueOp (pinFace s slot n) w k .hash [cacheKey slot n] none 0 { r with again := .nextWing }
        else pkIssue (pinFace s slot n) w k op x [cacheKey slot n] r))
    ∧ ∀ (s t : State) (w : Nat) (k : Work) (x : Keyed) (slot n : Nat) (sec : Secret) (face child : Face) (r : Result),
    isReady s w op k → keyedOf op k.payload = some x → k.carry = none →
    faceCheck s k.alcove x.req.handle false (fun sec face => famServes x.fam op x.req.keyBits sec face
      && (op != 0x0303 || hFace (mapHandle s k.alcove x.req.handle) == 0)) = .ok (slot, n, sec, face) →
    child = childFace k.alcove x.prm.tmpl face (mapHandle s k.alcove x.req.handle) →
    (makesFace op = true → childOk s k.alcove x.prm.tmpl child face = true
      ∧ instServes s ((x.prm.tmpl.key.getD (0, 0)).1) [child] = true) → usesLeft s slot n face = true →
    marksAllow face false = true → mayIssue s (if (longHash x op).isSome then .hash else .pk) w [cacheKey slot n] = true →
    r = pkResult s k op x sec child (pkMeter (famProg x.fam op) x.req.keyBits
      :: (if (longHash x op).isSome then symMeters .hash x.req.data.length else [])) →
    t = issueFace (useFree s pkFree) k.alcove slot n face →
    exec (c w) s = .next (if (longHash x op).isSome then issueOp t w k .hash [cacheKey slot n] none 0
        { r with again := if twoPasses x op then .sameWing else .nextWing }
      else pkIssue t w k op x [cacheKey slot n] r)

/-- R117 to R122, R177 to R179, R190 to R194: the commands that make keys draw, derive, wrap or recover their material
and hand it to its operation. R119, R122, R213: the commands that change a face queue the change in the sequencer of
its domain; the destruction of a face and of a secret name the face and the secret of their handle. -/
def Obligations.KeysAreMadeAndChanged : Prop :=
  (∀ (s : State) (w : Nat) (k : Work) (r : GenReq) (x : Bytes × State) (f : Option Face × Option Face),
    isReady s w 0x0501 k → genReq false k.payload = some r → genRefused s k.alcove r = none → drawState s 3 = .ok →
    x = drawFrom s 3 ((materialLen r.algo r.bits).getD 0) → f = genFaces k.alcove r →
    exec (.keyGenerate w) s = .next (deliver x.2 w (birthResult s k.alcove r.algo r.bits x.1 f.1 f.2 2 none [])))
  ∧ (∀ (s : State) (w p : Nat) (k : Work) (r : GenReq) (m : Bytes) (f : Option Face × Option Face),
    isReady s w 0x0502 k → genReq true k.payload = some r → genRefused s k.alcove r = none → p = genProg r.algo →
    m = pairMaterial r.algo r.bits (drawn s pkFree) → f = genFaces k.alcove r → exec (.pairGenerate w) s
    = .next (issueJob (useFree s pkFree) w k p (pkStep p r.bits).width (progLong p r.bits) false []
      (birthResult s k.alcove r.algo r.bits m f.1 f.2 2 none [pkMeter p r.bits])))
  ∧ (∀ (s : State) (w slot n m : Nat) (k : Work) (x : Keyed) (sec : Secret) (face child : Face), isReady s w 0x0503 k →
    keyedOf 0x0503 k.payload = some x →
    faceCheck s k.alcove x.req.handle false (famServes x.fam 0x0503 0) = .ok (slot, n, sec, face) →
    child = childFace k.alcove x.prm.tmpl face (mapHandle s k.alcove x.req.handle) →
    childOk s k.alcove x.prm.tmpl child face = true → instServes s ((x.prm.tmpl.key.getD (0, 0)).1) [child] = true →
    usesLeft s slot n face = true → marksAllow face false = true → mayIssue s .hash w [cacheKey slot n] = true → m = (x.prm.tmpl.key.bind (fun e => materialLen e.1 e.2)).getD 0 →
    exec (.keyDerive w) s = .next (issueOp (issueFace s k.alcove slot n face) w k .hash [cacheKey slot n] none 0
      (childResult s k.alcove x.prm.tmpl child (derived x.fam x.prm sec.material x.req.data m) []
        (symMeters .hash x.req.data.length))))
  ∧ (∀ (s : State) (w slot n : Nat) (k : Work) (a b : Nat × Nat × Secret × Face) (sec : Secret) (face : Face)
      (blob : Bytes) (d : Bool) (pins : List Nat), isReady s w 0x0504 k → resolve s k.alcove (fld k.payload 0 8) = some a →
    resolve s k.alcove (fld k.payload 8 8) = some b →
    faceCheck s k.alcove (fld k.payload 0 8) false (fun sec f =>
      wrapServes (fld k.payload 16 2) .wrap sec f && b.2.2.2.wrapped && !b.2.2.2.payment) = .ok (slot, n, sec, face) →
    d = (fld k.payload 16 2 == 0x50) → (d = true → face.nextInv < 2 ^ 64) →
    wrapTakes (fld k.payload 16 2) b.2.2.1.material.length = true → pins = bothPins (cacheKey slot n) (cacheKey b.1 b.2.1) →
    usesLeft s slot n face = true → marksAllow face d = true → mayIssue s .cipher w pins = true →
    blob = (if d then envelope sec.material b.2.2.1 (nonceOf s face)
      else Config.kw (fld k.payload 16 2 == 0x31) sec.material b.2.2.1.material) →
    exec (.keyWrap w) s = .next (issueOp (pinTarget (issueFace (if d then drawInv s slot n else s) k.alcove slot n face)
      (cacheKey slot n) b.1 b.2.1) w k .cipher pins none 0 (plainResult stOk (be 4 blob.length ++ blob) (symMeters .cipher b.2.2.1.material.length))))
  ∧ (∀ (s : State) (w slot n : Nat) (k : Work) (r : UnwrapReq) (sec : Secret) (face : Face) (m : Bytes) (key : Nat × Nat)
      (f : Option Face × Option Face) (q : Bool × Option Bytes × State), isReady s w 0x0505 k → k.carry = none →
    unwrapReq k.payload = some r → faceCheck s k.alcove r.handle false (wrapServes r.mech .unwrap) = .ok (slot, n, sec, face) →
    key = (unwrapKey r).getD (0, 0) → f = unwrapFaces k.alcove r → birthDenied s k.alcove key.1 key.2 f.1 f.2 = false →
    q = flagQuorum s k r ((f.1.toList ++ f.2.toList).any (fun x => x.quorum)) → q.1 = true →
    instServes s key.1 (f.1.toList ++ f.2.toList) = true → usesLeft s slot n face = true → marksAllow face false = true →
    mayIssue s .cipher w [cacheKey slot n] = true → unwrapped sec.material r = some m →
    exec (.keyUnwrap w) s = .next (issueOp (issueFace q.2.2 k.alcove slot n face) w k .cipher [cacheKey slot n] none 0
      (unwrapResult q.2.2 k.alcove key.1 key.2 m f.1 f.2 q.2.1 (symMeters .cipher r.blob.length))))
  ∧ (∀ (s : State) (w : Nat) (k : Work) (u : UnwrapReq) (r : Result), isReady s w 0x0505 k → unwrapReq k.payload = some u →
    k.carry = some r → exec (.keyUnwrap w) s = .next (issueJob s w k 0x40 1 (progLong 0x40 0) false [] r))
  ∧ (∀ (c : Nat → Instr) (op : Nat), (c = .faceRestrict ∧ op = 0x0508) ∨ (c = .faceShare ∧ op = 0x0509) →
    ∀ (s : State) (w : Nat) (k : Work) (b : MutBody), isReady s w op k → faceChange s k.alcove op k.payload = .ok b →
    exec (c w) s = .next (mutateWork s w k b none []))
  ∧ (∀ (s : State) (w slot n : Nat) (k : Work) (sec : Secret) (f : Face), isReady s w 0x0506 k →
    resolve s k.alcove (fld k.payload 0 8) = some (slot, n, sec, f) → f.payment = false →
    exec (.faceDestroy w) s = .next (mutateWork s w k (.destroyFace slot n) none []))
  ∧ (∀ (s : State) (w slot n : Nat) (k : Work) (sec : Secret) (f : Face), isReady s w 0x0507 k →
    resolve s k.alcove (fld k.payload 0 8) = some (slot, n, sec, f) → f.payment = false →
    exec (.keyDestroy w) s = .next (mutateWork s w k (.destroySecret slot) none []))

/-- R123 to R127: a translation issues its operation, or the first of its two where its formats lie on two wings, and
then the second; the export and import of key blocks issue theirs on the legacy unit or a pipe. The faces that they use
are pinned from issue (R19). -/
def Obligations.PaymentCommandsRun : Prop :=
  (∀ (s t : State) (w si ni so no fi fo : Nat) (k : Work) (a b : Nat × Nat × Secret × Face) (sec out : Secret) (f g : Face)
      (both : Bool) (pins : List Nat) (rnd : Bytes), isReady s w 0x0601 k → k.carry = none →
    fi = fld k.payload 16 1 → fo = fld k.payload 17 1 → resolve s k.alcove (fld k.payload 0 8) = some a →
    resolve s k.alcove (fld k.payload 8 8) = some b →
    faceCheck s k.alcove (fld k.payload 0 8) true (pinServes fi) = .ok (si, ni, sec, f) →
    faceCheck s k.alcove (fld k.payload 8 8) true (pinServes fo) = .ok (so, no, out, g) →
    (fi = 1 → fo = 1) → both = (pinWing fi == pinWing fo) →
    pins = (if both then bothPins (cacheKey si ni) (cacheKey so no) else [cacheKey si ni]) →
    usesLeft s si ni f = true → usesLeft s so no g = true → marksAllow f false = true → marksAllow g false = true →
    mayIssue s (pinWing fi) w pins = true →
    (pinFills fo = true → drawState s (alcInst k.alcove) = .ok ∧ (rnd, t) = drawFrom s (alcInst k.alcove) 16) →
    (pinFills fo = false → rnd = zeros 16 ∧ t = s) →
    exec (.pinTranslate w) s = .next (pinFirst
      (if both = true ∧ (so, no) ≠ (si, ni) then issueFace (issueFace t k.alcove si ni f) k.alcove so no g
       else issueFace t k.alcove si ni f) w k fi fo pins (pinResult sec.material out.material k.payload rnd)))
  ∧ (∀ (s : State) (w so no fo : Nat) (k : Work) (out : Secret) (g : Face) (r : Result), isReady s w 0x0601 k →
    k.carry = some r → fo = fld k.payload 17 1 →
    faceCheck s k.alcove (fld k.payload 8 8) true (pinServes fo) = .ok (so, no, out, g) →
    usesLeft s so no g = true → marksAllow g false = true → mayIssue s (pinWing fo) w [cacheKey so no] = true →
    exec (.pinTranslate w) s = .next (issueOp (issueFace s k.alcove so no g) w k (pinWing fo) [cacheKey so no] none 0 r))
  ∧ (∀ (s : State) (w slot n : Nat) (k : Work) (a t : Nat × Nat × Secret × Face) (sec : Secret) (face : Face)
      (x : UseClass × Option UseClass) (b : Bytes) (td : Bool) (wing : Wing) (pins : List Nat), isReady s w 0x0602 k →
    td = (fld k.payload 16 1 == 0x42) → wing = (if td then .legacy else .cipher) →
    resolve s k.alcove (fld k.payload 0 8) = some a → resolve s k.alcove (fld k.payload 8 8) = some t →
    faceCheck s k.alcove (fld k.payload 0 8) true (fun sec f => kbpkServes td .wrap sec f
      && targetOk td (fld k.payload 22 1) t.2.2.1 t.2.2.2) = .ok (slot, n, sec, face) →
    usagePair (slice k.payload 17 2) (fld k.payload 19 1) = some x → pairMatches t.2.2.1 t.2.2.2 x = true →
    pins = bothPins (cacheKey slot n) (cacheKey t.1 t.2.1) → usesLeft s slot n face = true →
    marksAllow face false = true → mayIssue s wing w pins = true →
    b = keyBlock td sec.material (if td then 0x42 else 0x44) (slice k.payload 17 2
      ++ [if t.2.2.1.algo = 3 then 0x54 else 0x41] ++ slice k.payload 19 1 ++ slice k.payload 20 2 ++ slice k.payload 22 1
      ++ ascii "0000") t.2.2.1.material (drawn s 16) →
    exec (.keyblockExport w) s = .next (issueOp (pinTarget (issueFace (useFree s 16) k.alcove slot n face) (cacheKey slot n)
      t.1 t.2.1) w k wing pins none 0 (plainResult stOk (be 4 b.length ++ b) (blockMeters td (blockBinary b)))))
  ∧ (∀ (s : State) (w slot n : Nat) (k : Work) (t : Template) (b : Bytes) (td : Bool) (sec : Secret) (face : Face)
      (x : BlockHead) (f : Option Face × Option Face) (wing : Wing), isReady s w 0x0603 k →
    keyblockIn k.payload = some (t, b) → td = (fld b 0 1 == 0x42) → wing = (if td then .legacy else .cipher) →
    faceCheck s k.alcove (fld k.payload 0 8) true (kbpkServes td .unwrap) = .ok (slot, n, sec, face) →
    rootMissing s (domainOf s k.alcove) = false → ownersExist s k.alcove (faceOf k.alcove t).owners = true →
    readBlock td b = some x → f = blockFaces k.alcove t x → facesDenied x.algo f = false →
    usesLeft s slot n face = true → instServes s x.algo (f.1.toList ++ f.2.toList) = true →
    marksAllow face false = true → mayIssue s wing w [cacheKey slot n] = true →
    exec (.keyblockImport w) s = .next (issueOp (issueFace s k.alcove slot n face) w k wing
      [cacheKey slot n] none 0 (importResult s k.alcove td sec.material x f (blockMeters td (blockBinary b)))))

/-! ### Management commands -/

/-- R265 to R267, R263, R274 to R276: `PROVE` answers with its MAC and moves its counter on, or commits a new secret;
`STATEMENT` and `WITNESS` issue the signature of what they state. -/
def Obligations.ProofsStatementsAndWitnesses : Prop :=
  (∀ (s t : State) (w n : Nat) (k : Work) (y : Alcove) (z : Bytes), isReady s w 0x0902 k → fld k.payload 0 1 = 0 →
    alc s k.alcove = some y → y.proof = some z → markedDraw s 0 s.keys.proofNext s.keys.proofMark = .ok →
    n = s.keys.proofNext → t = { s with keys := { s.keys with proofNext := n + 1 } } →
    exec (.proveChallenge w) s = .next (okWork t w (be 1 s.twin.side ++ zeros 7 ++ be 8 n ++ Config.hmac512 z
      (ascii "WPRV1" ++ slice k.payload 8 32 ++ be 2 k.alcove ++ be 1 s.twin.side ++ be 8 n))))
  ∧ (∀ (s : State) (w : Nat) (k : Work), isReady s w 0x0902 k → fld k.payload 0 1 = 1 →
    rootMissing s (domainOf s k.alcove) = false → exec (.proveSetSecret w) s = .next (mutateWork s w k (.proofSecret k.alcove (slice k.payload 8 32)) none []))
  ∧ (∀ (s : State) (w : Nat) (k : Work), isReady s w 0x0903 k → exec (.statement w) s = .next (issueJob s w k 0x01 1 false true []
      (plainResult stOk (statementFor s (domainOf s k.alcove) k.payload) [pkMeter 0x01 0])))
  ∧ (∀ (s : State) (w d : Nat) (k : Work) (x : Domain) (b : Bytes), isReady s w 0x0905 k → d = domainOf s k.alcove →
    x = domD s d → x.root.isSome = true → markedDraw s d x.witSeq x.witMark = .ok → b = witnessBody s k d x.witSeq →
    exec (.witness w) s = .next (issueJob (setDom s d (fun y => { y with witSeq := y.witSeq + 1 })) w k 0x01 1 false true []
      (plainResult stOk (b ++ Config.edSign x.witKey (ascii "WWIT1" ++ b)) [pkMeter 0x01 0])))

/-- R215 to R233, R184, R186: tickets are opened; roots, quotas and custodian sets are committed under their
approvals; shares are exported. -/
def Obligations.CustodyCommandsRun : Prop :=
  (∀ (s : State) (w d : Nat) (k : Work) (r : Bytes × State) (t : Ticket), isReady s w 0x0801 k → d = domainOf s k.alcove →
    ((domD s d).set ≠ [] ∨ s.life.life = .transit) → drawState s 2 = .ok → r = drawFrom s 2 112 →
    t = newTicket r.2 d (fld k.payload 0 2) (slice k.payload 8 64) r.1 → exec (.quorumPrepare w) s
    = .next (okWork (setDom r.2 d (fun x => { x with tickets := x.tickets ++ [t] })) w (ticketBytes r.2 d t)))
  ∧ (∀ (s : State) (w d : Nat) (k : Work) (ap : Approval) (r : Bytes × State), isReady s w 0x0802 k →
    d = domainOf s k.alcove → (domD s d).root = none → drawState s 2 = .ok → approvalAt k.payload 8 = some ap →
    approvalOk s d 0x0802 (k.payload.take 8) ap = true → r = drawFrom s 2 (32 + exportRandom (domD s d)) →
    exec (.rootCreate w) s = .next (mutateWork r.2 w k (rootBody r.2 d (r.1.take 32)) (some ap.ticket)
      (exportShares d (domD s d) (r.1.take 32) (r.1.drop 32))))
  ∧ (∀ (s : State) (w d e : Nat) (k : Work) (ap : Approval) (xp : Bytes × Bytes) (root : Bytes), isReady s w 0x0803 k →
    d = domainOf s k.alcove → e = restoreEnd k.payload → (domD s d).root = none → approvalAt k.payload e = some ap →
    approvalOk s d 0x0803 (k.payload.take e) ap = true → (ticketOf (domD s d) ap.ticket).bind (fun t => t.xport) = some xp →
    restoreRoot d xp (restoreParts k.payload) = .ok root →
    exec (.rootRestore w) s = .next (mutateWork s w k (rootBody s d root) (some ap.ticket) (rootCheck root)))
  ∧ (∀ (s t : State) (w d : Nat) (k : Work) (root : Bytes) (ap : Approval) (r : Bytes × State), isReady s w 0x0804 k →
    d = domainOf s k.alcove → (domD s d).root = some root → drawState s 2 = .ok → approvalAt k.payload 8 = some ap →
    approvalOk s d 0x0804 (k.payload.take 8) ap = true → t = endTicket s d ap.ticket →
    r = drawFrom t 2 (exportRandom (domD t d)) →
    exec (.sharesExport w) s = .next (okWork r.2 w (exportShares d (domD t d) root r.1)))
  ∧ (∀ (s : State) (w d : Nat) (k : Work) (ap : Approval), isReady s w 0x0805 k → d = domainOf s k.alcove →
    approvalAt k.payload 64 = some ap → approvalOk s d 0x0805 (k.payload.take 64) ap = true →
    exec (.quotaSet w) s = .next (mutateWork s w k
      (.quota (if d = 0 then 65536 else fld k.payload 0 4) (quotaRates k.payload)) (some ap.ticket) []))
  ∧ (∀ (s : State) (w d e : Nat) (k : Work) (ap : Approval), isReady s w 0x0806 k → d = domainOf s k.alcove →
    e = custEnd k.payload → approvalAt k.payload e = some ap → approvalOk s d 0x0806 (k.payload.take e) ap = true →
    (custPart k.payload).all custKeysOk = true → exec (.custodiansSet w) s = .next (mutateWork s w k
      (.custodians ((custPart k.payload).map custOf) (fld k.payload 1 1) (fld k.payload 4 4)
        ((domD s d).epoch + 1)) (some ap.ticket) []))

/-- R80, R85, R86, R89 to R92, R128: slices, queue pairs and dirty logs. R659, R93, R660, R661, R662: the event
session, the reset of an alcove, client keys, and the creation, configuration and removal of alcoves. -/
def Obligations.SliceAndAlcoveCommandsRun : Prop :=
  (∀ (c : Nat → Instr) (op : Nat) (old : Bool),
    (c = .sliceCreate ∧ op = 0x0701 ∧ old = false) ∨ (c = .sliceModify ∧ op = 0x0702 ∧ old = true) →
    ∀ (s : State) (w : Nat) (k : Work) (r : SliceReq), isReady s w op k → sliceReq k.payload = some r →
    sliceRefused s k.alcove r = none → thas s.net.slices (sliceKey k.alcove r.pid) = old →
    exec (c w) s = .next (putSlice s w k.alcove r))
  ∧ (∀ (s : State) (w key : Nat) (k : Work), isReady s w 0x0703 k → key = sliceKey k.alcove (fld k.payload 0 4) →
    thas s.net.slices key = true → exec (.sliceRemove w) s
    = .next (okWork (mirrorAlcove { s with net := { s.net with slices := tdel s.net.slices key } } k.alcove) w []))
  ∧ (∀ (s : State) (w q : Nat) (k : Work) (r : Bytes × State) (x : Qp), isReady s w 0x0704 k → q = fld k.payload 0 2 →
    qpBusy s w q = false → (tget s.net.qps q).any (fun x => x.alcove != k.alcove || x.state != .reset) = false →
    drawState s 5 = .ok → r = drawFrom s 5 3 → x = qpConnected r.2 k (beNat r.1) → exec (.qpConnect w) s
    = .next (okWork (mirrorAlcove { r.2 with net := { r.2.net with qps := tput r.2.net.qps q x } } k.alcove) w
      (be 4 x.psn ++ zeros 4)))
  ∧ (∀ (s : State) (w q : Nat) (k : Work) (x : Qp), isReady s w 0x0705 k → q = fld k.payload 0 2 → qpBusy s w q = false →
    tget s.net.qps q = some x → x.alcove = k.alcove → exec (.qpReset w) s = .next (okWork (mirrorAlcove (liftSlices
      { s with net := { s.net with qps := tput s.net.qps q (qpFresh k.alcove) } } q) k.alcove) w []))
  ∧ (∀ (s : State) (w key : Nat) (k : Work) (x : Slice) (g : Nat × Nat × Nat), isReady s w 0x0706 k →
    key = sliceKey k.alcove (fld k.payload 0 4) → tget s.net.slices key = some x → x.region = some g →
    dirtyFits s x.words (dirtyWords g.2.1) = true → exec (.dirtyEnable w) s
    = .next (okWork { s with net := { s.net with slices := tput s.net.slices key (logOn x g) } } w []))
  ∧ (∀ (s : State) (w key i n : Nat) (k : Work) (x : Slice), isReady s w 0x0707 k →
    key = sliceKey k.alcove (fld k.payload 0 4) → i = fld k.payload 4 4 → n = fld k.payload 8 2 →
    tget s.net.slices key = some x → i + n ≤ x.words →
    exec (.dirtyReadClear w) s = .next (okWork { s with net := { s.net with slices := tmod s.net.slices key (fun y =>
      { y with dirty := tfilter y.dirty (fun j _ => decide (j < i ∨ i + n ≤ j)) }) } } w
      ((List.range n).flatMap (fun j => be 8 (tgetD x.dirty (i + j) 0#64).toNat))))
  ∧ (∀ (s : State) (w i : Nat) (k : Work) (x : Session), isReady s w 0x0708 k → i = fld k.payload 0 1 → i ≠ 0xFF →
    sess s k.alcove i = some x → x.open_ = true → exec (.eventSessionSet w) s
    = .next (okWork (flushAll (modAlc s k.alcove (fun y => { y with evSession := some i })) k.alcove) w []))
  ∧ (∀ (s : State) (w : Nat) (k : Work), isReady s w 0x0708 k → fld k.payload 0 1 = 0xFF → exec (.eventSessionSet w) s
    = .next (okWork (modAlc s k.alcove (fun y => { y with evSession := none })) w []))
  ∧ (∀ (s : State) (w : Nat) (k : Work), isReady s w 0x0709 k →
    exec (.alcoveReset w) s = .next (mutateWork s w k (.alcoveReset k.alcove) none []))
  ∧ (∀ (s : State) (w : Nat) (k : Work), isReady s w 0x070B k → keySetInput s k.alcove k.payload = true →
    exec (.clientKeySet w) s = .next (mutateWork s w k (.clientKeys k.alcove
      (((keyEntries k.payload).filter (fun e => e.1 == true)).map (fun e => e.2.2))
      (((keyEntries k.payload).filter (fun e => e.1 == false)).map (fun e => e.2.2))) none []))
  ∧ (∀ (c : Nat → Instr) (op : Nat) (new : Bool),
    (c = .alcoveCreate ∧ op = 0x0A01 ∧ new = true) ∨ (c = .alcoveConfigure ∧ op = 0x0A02 ∧ new = false) →
    ∀ (s : State) (w : Nat) (k : Work), isReady s w op k → alcoveRefused s new k.payload = none → exec (c w) s
    = .next (mutateWork s w k (.alcoveSet (alcoveOf (k.payload.take 72)) (stewardKeys k.payload) new) none []))
  ∧ (∀ (s : State) (w a : Nat) (k : Work), isReady s w 0x0A03 k → a = fld k.payload 0 2 → a ≠ 0 →
    (pairAlcove s a).isSome = true → exec (.alcoveRemove w) s = .next (mutateWork s w k (.alcoveRemove a) none []))

/-- R463 to R476, R531 to R536, R158: section loads, life-cycle changes, debug, units, firmware and snapshots. R598 to
R601, R455, R129 to R131: the commands of the Tally, the acknowledgement of a watch gap, and register access by
command. -/
def Obligations.ManagerAndTallyCommandsRun : Prop :=
  (∀ (s t : State) (w n : Nat) (k : Work), isReady s w 0x0A04 k → n = 784 + fld k.payload 4 4 →
    loadDenied s k.role k.key = false →
    (if loadNeedsQuorum s k.payload then ∃ ap, approvalAt k.payload n = some ap
      ∧ approvalOk s 0 0x0A04 (k.payload.take n) ap = true ∧ t = endTicket s 0 ap.ticket else t = s) →
    loadRefused t (secHead k.payload) (secLoad k.payload) = none →
    exec (.sectionLoad w) s = .next (commitLoad t w (secHead k.payload) (secLoad k.payload)))
  ∧ (∀ (s t : State) (w n : Nat) (k : Work) (b : List (Nat × Nat)) (img : Bytes) (ap : Approval) (l : Life),
    isReady s w 0x0A05 k → n = 48 + fld k.payload 40 4 → img = slice k.payload 48 (fld k.payload 40 4) →
    approvalAt k.payload n = some ap → lifeQuorum s (k.payload.take n) img ap = true → l = lifeOf (fld k.payload 0 1) →
    s.life.voteFail = false → ownerMay s.life.life l = true →
    t = modWork (endTicket s 0 ap.ticket) w (fun k => { k with stage := .waitEpoch 9 0 [] }) →
    exec (.lifeCycleSet w b) s = .next (beginTrans t {
      target := l, work := some w, bad := b, image := if l = .commissioned then some (slice k.payload 8 32, img) else none }))
  ∧ (∀ (s t : State) (w d e : Nat) (k : Work) (ap : Approval) (m : BitVec 4), isReady s w 0x0A06 k →
    m = BitVec.ofNat 4 (fld k.payload 0 1) → d = fld k.payload 4 4 → approvalAt k.payload 8 = some ap →
    approvalOk s 0 0x0A06 (k.payload.take 8) ap = true → t = endTicket s 0 ap.ticket → m &&& ~~~ (lcAllowed t.life) = 0 →
    e = t.time + d * 10 ^ 9 → exec (.debugEnable w) s
    = .next (okWork (setDebug t (if d = 0 then 0 else m) e) w (be 8 (if d = 0 then 0 else e))))
  ∧ (∀ (s : State) (w i : Nat) (k : Work) (u : UnitKind) (z : Nat) (l : List Nat), isReady s w 0x0A07 k →
    i = fld k.payload 1 1 → unitKindOf (fld k.payload 0 1) = some (u, z) → unitInner s u i = false →
    unitHanding s u i = false → l = (unitNos u i).filter (fun n => inServe (unitAt s u n).1) → l ≠ [] →
    exec (.unitOut w) s = .next (modWork (l.foldl (fun s n => putUnit s u n (unitAt s u n).1 true) s) w
      (fun k => { k with stage := .waitEpoch (unitCode u) i [] })))
  ∧ (∀ (s : State) (w i : Nat) (k : Work) (u : UnitKind) (z : Nat) (l : List Nat), isReady s w 0x0A08 k →
    i = fld k.payload 1 1 → unitKindOf (fld k.payload 0 1) = some (u, z) → unitHanding s u i = false →
    l = (unitNos u i).filter (fun n => returnActs u (unitAt s u n)) → l ≠ [] →
    exec (.unitReturn w) s = .next (modWork (l.foldl (fun s n => unitBegin s u n) s) w
      (fun k => { k with stage := .waitEpoch (unitCode u) i l })))
  ∧ (∀ (s t : State) (w c n : Nat) (k : Work) (ap : Approval), isReady s w 0x0A09 k → c = fld k.payload 0 1 →
    n = fld k.payload 4 4 → approvalAt k.payload (16 + n) = some ap →
    approvalOk s 0 0x0A09 (k.payload.take (16 + n)) ap = true → t = endTicket s 0 ap.ticket → t.boot.activated = false →
    (c ≠ 0 → imageRefused t c (slice k.payload 16 n) = none) → exec (.firmwareUpdate w) s
    = .next (endUpdate (if c = 0 then t else stageImage t c (slice k.payload 16 n)) w c (fld k.payload 1 1)))
  ∧ (∀ (s : State) (w : Nat) (k : Work), isReady s w 0x0A0A k → exec (.archiveSnapshot w) s
    = .next (modWork (beginSnap s) w (fun k => { k with stage := .waitEpoch 7 0 [] })))
  ∧ (∀ (s : State) (w i : Nat) (k : Work), isReady s w 0x0A0B k → fld k.payload 0 1 = 0 → i = fld k.payload 8 8 →
    i ≤ s.tally.newest → s.tally.newest < i + 1536 → exec (.tallyRecordRead w) s = .next (okWork s w (listPayload
      s.tally.newest (((List.range (fld k.payload 16 2)).filterMap (fun j => tget s.tally.records (i + j))).map (·.bytes)))))
  ∧ (∀ (s : State) (w : Nat) (k : Work) (r : TallyRec), isReady s w 0x0A0B k → fld k.payload 0 1 = 1 →
    tget s.tally.records s.tally.newest = some r → s.tally.time < r.time + 10 ^ 9 →
    exec (.tallyCut w) s = .next (okWork s w (recordPayload s.tally s.tally.newest)))
  ∧ (∀ (s : State) (w : Nat) (k : Work), isReady s w 0x0A0B k → fld k.payload 0 1 = 1 →
    (tget s.tally.records s.tally.newest).all (fun r => decide (r.time + 10 ^ 9 ≤ s.tally.time)) = true →
    exec (.tallyCut w) s = .next (modWork (modTally s (fun t => { t with cut := t.cut ++ [w] })) w
      (fun k => { k with stage := .waitTally })))
  ∧ (∀ (s : State) (w : Nat) (k : Work), isReady s w 0x0A0B k → fld k.payload 0 1 = 2 → exec (.tallyLogRead w) s
    = .next (okWork s w (listPayload s.tally.logNewest (((List.range (fld k.payload 16 2)).filterMap (fun i =>
      tget s.tally.log (fld k.payload 8 8 + i))).map (logBytes s.tally)))))
  ∧ (∀ (s : State) (w : Nat) (k : Work), isReady s w 0x0A0B k → fld k.payload 0 1 = 3 → exec (.tallyIdentity w) s
    = .next (okWork s w (s.tally.fwDigest ++ be 4 s.tally.fwVersion ++ be 1 (sealCount s) ++ zeros 3 ++ s.tally.secDigest
      ++ Config.edPub (s.tally.seed.getD s.stair.tally) ++ s.tally.endorse ++ be 8 s.tally.time)))
  ∧ (∀ (s t : State) (w n b : Nat) (k : Work) (ap : Approval), isReady s w 0x0A0C k →
    n = 784 + fld k.payload 4 4 + fld k.payload 8 4 → approvalAt k.payload n = some ap →
    approvalOk s 0 0x0A0C (k.payload.take n) ap = true → t = endTicket s 0 ap.ticket → resealRefused t k.payload = none →
    exec (.tallyReseal w b) s = .next (runReseal t w k.payload b))
  ∧ (∀ (s : State) (w g : Nat) (k : Work) (ap : Approval), isReady s w 0x0A0D k → g = fld k.payload 0 1 →
    approvalAt k.payload 8 = some ap → approvalOk s 0 0x0A0D (k.payload.take 8) ap = true → g ≠ 0 → g = s.bb.gap.toNat →
    exec (.gapAck w) s = .next (mutateWork s w k (.gapAck g) (some ap.ticket) []))
  ∧ (∀ (s : State) (w : Nat) (k : Work) (r : Nat × Bytes × State), isReady s w 0x0A10 k →
    r = readList ((List.range (fld k.payload 0 2)).map (fun i => fld k.payload (4 + 4 * i) 4)) 0 0 [] s →
    exec (.regRead w) s = .next (okWork r.2.2 w (be 8 r.1 ++ r.2.1)))
  ∧ (∀ (s t : State) (w n : Nat) (k : Work) (ap : Approval), isReady s w 0x0A11 k → n = 4 + 12 * fld k.payload 0 2 →
    (writeEntries k.payload).any (fun e => ownWindow e.1) = false → approvalAt k.payload n = some ap →
    approvalOk s 0 0x0A11 (k.payload.take n) ap = true →
    writeList (writeEntries k.payload) 0 (endTicket s 0 ap.ticket) = (none, t) →
    exec (.regWrite w) s = .next (okWork t w []))

/-- R545 to R548, R558, R561, R572 to R576: pairing, and the functions of `GRANT_INSTALL`. R577 to R581: the phases of
a migration at its source and at its destination. -/
def Obligations.PairingGrantsAndMigrationRun : Prop :=
  (∀ (s t : State) (w n : Nat) (k : Work) (ap : Approval) (st : Bytes), isReady s w 0x0B01 k → n = pairEnd k.payload →
    approvalAt k.payload n = some ap → approvalOk s 0 0x0B01 (k.payload.take n) ap = true → t = endTicket s 0 ap.ticket →
    st = slice k.payload 8 1006 →
    (fld k.payload 0 1 = 1 → pairRefused t k.payload = none → exec (.twinPair w) s = .next (okWork (modTwin (writePair t
      (fun r => { r with
        paired := true, side := t.twin.side, epoch := 0, partner := statementItem st 0x02
        identity := statementItem st 0x03 }))
      (fun t => { t with state := .joining, link := if t.down then 0 else 1 })) w []))
    ∧ (fld k.payload 0 1 = 2 → exec (.twinUnpair w) s = .next (okWork (modTwin (dropPartnerHomes (writePair t
      (fun r => { r with paired := false, partner := [], identity := [] }))) (fun t => { t with
        state := .unpaired, link := 0, held := [], mirrors := [], marks := [], accepts := [], applied := [], lostAt := none
        joinedAt := none })) w []))
    ∧ (fld k.payload 0 1 = 3 → t.twin.state = .held ∨ t.twin.state = .yielded → ∀ u,
      u = (tkeys t.twin.alcoves).foldl openRecord (surviveAll t) →
      exec (.twinSolo w) s = .next (okWork (openSet u (fun a => a == 0 || !u.boot.sealed_)) w [])))
  ∧ (∀ (s : State) (w : Nat) (k : Work), isReady s w 0x0B02 k →
    (fld k.payload 0 1 = 0 → exec (.receiveKey w) s
      = .next (okWork s w (remaining s ++ Config.xPub s.gallery.recvX ++ Config.kemPub false s.gallery.recvK)))
    ∧ (∀ t, fld k.payload 0 1 = 1 → (s.gallery.member = none ∨ s.gallery.member = some (fld k.payload 8 1)) →
      t = addBlock { s with gallery := { s.gallery with
        member := some (fld k.payload 8 1), number := fld k.payload 9 1 } } (fld k.payload 12 4) →
      exec (.join w) s = .next (okWork t w (remaining t)))
    ∧ (∀ t, fld k.payload 0 1 = 2 → t = addBlock s (fld k.payload 8 4) →
      exec (.instanceBlock w) s = .next (okWork t w (remaining t)))
    ∧ (∀ key, fld k.payload 0 1 = 3 → keyIn s "WGRK1" (k.payload.drop 16) = some key → exec (.grantKey w) s
      = .next (okWork (setDom s (fld k.payload 8 2) (fun x => { x with grantKey := key })) w (remaining s)))
    ∧ (∀ env d m f0 f1, fld k.payload 0 1 = 4 → env = k.payload.drop 24 → grantDomain s env = some d →
      openEnvelope (domD s d).grantKey env = some m → f0 = grantFace env (fld env 6 2) (fld k.payload 16 4) 0 →
      f1 = grantFace env (fld env 6 2) (fld k.payload 16 4) 1 → rootMissing s d = false →
      facesOk (fld env 6 2) (fld env 8 2) f0 f1 = true →
      grantBad s (fld k.payload 8 4) (fld k.payload 12 4) f0 f1 = false →
      domainUse s d + slotsFor m.length ≤ (domD s d).quota → slotsFor m.length - 1 ≤ freeCount s →
      exec (.grant w) s = .next (mutateOn s w d k (.grant (fld k.payload 8 4) (fld k.payload 12 4)
        { newSecret d (fld env 6 2) (fld env 8 2) m f0 f1 with granted := true }) (remaining s)))
    ∧ (∀ slot n x, fld k.payload 0 1 = 5 → grantedFace s (fld k.payload 8 8) = some (slot, n, x) →
      exec (.revoke w) s = .next (mutateOn s w x.domain k (.revoke slot n) (remaining s))))
  ∧ (∀ (s : State) (w a : Nat) (k : Work), isReady s w 0x0B03 k → a = migAlcove k.payload →
    s.gallery.member ≠ some (migPeer k.payload) →
    (∀ x key, fld k.payload 0 1 = 1 → alc s a = some x → a ≠ 0 → x.migration = none → x.removing = false →
      keyIn s "WMIG1" (k.payload.drop 16) = some key → (alcoveSecrets s a).length ≤ 65536 →
      exec (.migrateOutBegin w) s = .next (sendChunk s w a x
        { number := migNumber k.payload, out := true, phase := 1, peer := migPeer k.payload, key := key, chunk := 0
          pages := [], secs := [], map := [] } false []))
    ∧ (∀ x m, fld k.payload 0 1 = 2 → migOut s k.payload false = some (x, m) →
      exec (.migrateOutNext w) s = .next (sendChunk s w a x m false []))
    ∧ (∀ x m, fld k.payload 0 1 = 3 → migOut s k.payload false = some (x, m) →
      stopFits s a x m (liveBytes s a) = true → alcoveWorks s a w = false → ∀ t,
      t = modAlc (quiesce s a) a (fun y => { y with stopped := true }) →
      exec (.migrateOutStop w) s = .next (sendChunk t w a x m true (liveBytes t a)))
    ∧ (∀ p, fld k.payload 0 1 = 4 → migOut s k.payload true = some p → ∀ t,
      t = recordAlone s 0 (.alcoveRemove a) →
      exec (.migrateOutDone w) s
        = .next (beginRemove (modWork (destroyOwn t a) w (fun k => { k with stage := .waitAlcove a })) a))
    ∧ (∀ x m, fld k.payload 0 1 = 5 → alc s a = some x → x.migration = some m → m.number = migNumber k.payload →
      exec (.migrateAbort w) s = .next (okWork (modAlc s a (fun x =>
        { x with migration := none, quiesced := false, stopped := false })) w [])))
  ∧ (∀ (s : State) (w a : Nat) (k : Work), isReady s w 0x0B04 k → a = migAlcove k.payload →
    s.gallery.member ≠ some (migPeer k.payload) →
    (∀ key m, fld k.payload 0 1 = 1 → a ≠ 0 → pairAlcove s a = none → thas s.gallery.reserved a = false →
      keyIn s "WMIG1" (k.payload.drop 16) = some key →
      m = { number := migNumber k.payload, out := false, phase := 1, peer := migPeer k.payload, key := key, chunk := 0
            pages := [], secs := [], map := [] } →
      exec (.migrateInPrepare w) s
        = .next (okWork { s with gallery := { s.gallery with reserved := tput s.gallery.reserved a m } } w []))
    ∧ (∀ m t n live, fld k.payload 0 1 = 2 → migIn s k.payload = some m →
      takeChunk s a m (k.payload.drop 16) false = .ok (t, n, live) → exec (.migrateInPages w) s = .next (okWork
        { t with gallery := { t.gallery with reserved := tput t.gallery.reserved a n } } w []))
    ∧ (∀ m t n live r, fld k.payload 0 1 = 3 → migIn s k.payload = some m →
      takeChunk s a m (k.payload.drop 16) true = .ok (t, n, live) → r = (alcoveParse ((tvals n.pages).flatten)).1 →
      r.set.alcove = a → (liveParse s.time r.set.alcove live).2.any (fun e => thas s.net.qps e.1) = false →
      exec (.migrateInFinal w) s = .next (okWork (openMigrated t n live) w []))
    ∧ (∀ m t, fld k.payload 0 1 = 5 → migIn s k.payload = some m →
      t = ((m.map.map (fun e => hSlot e.2)).eraseDups).foldl (fun s n =>
        mutateAlone s (((tget s.keys.secrets n).map (fun x => x.domain)).getD 0) 0 (.destroySecret n)) s →
      exec (.migrateAbort w) s = .next (okWork { t with gallery := { t.gallery with
        reserved := tdel t.gallery.reserved a } } w [])))

/-! ### The key store, admission and the wings -/

/-- R195 to R201, R207, R209: the sequencing side places the head mutation of a domain, and commits it at once or, in a
joined pair, once the twin holds the record; the other side applies a held record and forwards its own mutations; a mark
of a counter that is due is committed; the Archive takes journal records, writes a snapshot into its older partition and
drops the records that it covers, a block is refreshed when its period has passed, an expired grant is destroyed and an
expired ticket ends. R155, R158, R388, R536, R503: the admission epoch, units that leave once drained, and timers. R136,
as the model reads it (log 109): a command whose deadline has come fails, with `ENTROPY_FAULT` while it waits for an
instance, `UNIT_LOST` while it is ready or issued, and `BUSY_CLASS` while its mutation is not yet placed. -/
def Obligations.KeyStoreAndAdmissionEventsRun : Prop :=
  (∀ (s t : State) (d : Nat) (m : Mutation) (l : List Mutation) (r : JournalRec), (domD s d).pending = m :: l →
    seqHere s d = true → m.placed = none → journalTakes s m.size = true → placeHead s d m = (t, some r) →
    exec (.mutationCommit d) s = .next (if twinned t then t else applyHead t d m r))
  ∧ (∀ (s : State) (d : Nat) (m : Mutation) (l : List Mutation) (r : JournalRec), (domD s d).pending = m :: l →
    seqHere s d = true → m.placed = some r → (s.twin.state = .joined → s.twin.link = 3) →
    exec (.mutationCommit d) s = .next (applyHead s d m r))
  ∧ (∀ (s : State) (d : Nat) (r : JournalRec), seqHere s d = false → heldFirst s d = some r →
    journalTakes s (recordSize r.body) = true → exec (.mutationCommit d) s = .next (applyRecord s r))
  ∧ (∀ (s : State) (d : Nat) (m : Mutation) (l : List Mutation), (domD s d).pending = m :: l → seqHere s d = false →
    heldFirst s d = none → journalTakes s m.size = true → m.sent = false →
    exec (.mutationCommit d) s = .next (forwardHead s d m))
  ∧ (∀ (s : State) (r : MarkRef) (d : Nat), markDomain s r = some d → journalTakes s (recordSize (.mark r)) = true →
    (seqHere s d = true → exec (.invocationMarkCommit r) s = .next (rerunStreams (liftMark (recordAlone s d (.mark r)) r)))
    ∧ (seqHere s d = false → s.twin.marksSent.contains r = false → exec (.invocationMarkCommit r) s
      = .next (recordAlone (modTwin s (fun t => { t with marksSent := t.marksSent ++ [r] })) d (.mark r))))
  ∧ (∀ (s : State) (a x : Archive) (void : Bool), s.keys.snapping = some a → x = sealSnap s a →
    void = (vectorRises s || !s.keys.oldJournal.isEmpty || !archiveOpens s) → ∃ t,
    exec .snapshotComplete s = .next (wakeSnapshot t) ∧ t.keys.snapping = none ∧ t.keys.oldJournal = []
      ∧ t.keys.current = (if s.keys.current = 0 then 1 else 0) ∧ currentSnap t.keys = x
      ∧ (if s.keys.current = 0 then t.keys.snap0 else t.keys.snap1) = (if void then archiveReset else currentSnap s.keys)
      ∧ t.keys.archJournal = s.keys.archJournal.filter (fun r => decide (tgetD a.last r.body.domain 0 < r.body.seq))
      ∧ t.keys.secrets = s.keys.secrets ∧ t.keys.journal = s.keys.journal ∧ { t with keys := s.keys } = s)
  ∧ (∀ (s t : State) (n : Nat), t = { s with keys := { s.keys with
      journal := s.keys.journal.drop n, archJournal := s.keys.archJournal ++ s.keys.journal.take n } } →
    exec (.archiveJournalWrite n) s = .next (if 384 * 2 ^ 20 ≤ recordsLen t.keys.archJournal then beginSnap t else t))
  ∧ (∀ (s t : State) (b : Nat) (h c : BitVec 16), s.power.powered = true → s.keys.journal = [] →
    t = modPower s (fun p => { p with hottest := h, coolest := c }) →
    tgetD s.keys.refreshed b 0 + refreshPeriod t ≤ s.time → exec (.archiveRefreshDue b h c) s
    = .next { t with keys := { s.keys with refreshed := tput s.keys.refreshed b s.time } })
  ∧ (∀ (s : State) (n : Nat) (x : Secret) (f : Face), tget s.keys.secrets n = some x → x.granted = true → x.face0 = some f →
    x.face1 = none → f.notAfter < tallySec s → (domD s x.domain).pending.any (fun m => m.body == .destroyFace n 0) = false →
    exec (.grantExpiry n) s = .next (mutateAlone s x.domain 0 (.destroyFace n 0)))
  ∧ (∀ (s : State) (d : Nat) (i : Bytes) (t : Ticket), ticketOf (domD s d) i = some t → t.expires < tallySec s →
    exec (.ticketExpiry d i) s = .next (endTicket s d i))
  ∧ (∀ (s : State) (d side : Nat) (x : Domain), dom s d = some x → x.nextSide = some side →
    x.pending.any (fun m => m.sent || m.placed.isSome) = false → heldFirst s d = none →
    exec (.sequencerMove d) s = .next (setDom s d (fun y => { y with sequencer := side, nextSide := none })))
  ∧ (∀ (s : State), s.power.powered = true → s.boot.epochAt + 10000 ≤ s.time →
    exec .admissionEpoch s = .next (settleLoads (takeWaiting (epoch s))))
  ∧ (∀ (s : State) (k : UnitKind) (i : Nat), exec (.unitOutDone k i) s = .next (settleOut ((unitNos k i).foldl (fun s n =>
      if (unitAt s k n).1 = .draining ∧ unitBusy s k n = false then putUnit s k n .out false else s) s)))
  ∧ (∀ (s : State) (w : Nat) (k : Work), wrk s w = some k → k.deadline ≤ s.time + 1 →
    (k.stage = .waitRng → exec (.promiseDeadline w) s = .next (failWork s w stEntropy))
    ∧ (k.stage = .ready → exec (.promiseDeadline w) s = .next (failWork s w stUnitLost))
    ∧ (k.stage = .issued → exec (.promiseDeadline w) s = .next (failIssued s w stUnitLost))
    ∧ (k.stage = .mutating → isPlaced s w = false →
      exec (.promiseDeadline w) s = .next (failWork (dropWork s w) w stBusyClass)))
  ∧ (∀ (s : State) (n : Nat), n < 8 → exec (.timerEvent n) s = .next (raise s (76 + n)))

/-- R284, R365, R368, R311, R318, R324 to R327, R335 to R341, R313, R315, R345, R536: operations and jobs end and
deliver their results; a lane that fails its check is lost, and a core that fails its check runs again; cores yield when a job of earlier
deadline waits, park, zeroise and return; tests of units end. -/
def Obligations.EnginesDeliver : Prop :=
  (∀ (s : State) (n : Nat) (o : UnitOp), tget s.cipher.ops n = some o → endsInTurn s n o = true →
    (o.wing = .cipher → exec (.cipherOpDone n) s = .next (opDone s n o))
    ∧ (o.wing = .hash → exec (.hashOpDone n true) s = .next (opDone s n o))
    ∧ (o.wing = .legacy → exec (.legacyOpDone n) s = .next (opDone s n o)))
  ∧ (∀ (s : State) (n : Nat) (o : UnitOp), tget s.cipher.ops n = some o → o.wing = .hash →
    exec (.hashOpDone n false) s = .next (pulse (loseLane s o.unit) 21 .degrade))
  ∧ (∀ (s : State) (b c i j : Nat) (x : Job), b < 6 → c < 8 → i = 8 * b + c → (coreAt s i).job = some j →
    jobAt s j = some x → (coreAt s i).state ≠ .moving → x.abort = false → x.half = false →
    (x.prog = 0x23 → searchDone s x = true) → (endsKey x.prog = true → pairStands x.result = true) →
    exec (.pkJobEnd b c true) s = .next (pkSchedule (coreIdle (pkDeliver s i j x) i)))
  ∧ (∀ (s : State) (b c i j : Nat) (x : Job), b < 6 → c < 8 → i = 8 * b + c → (coreAt s i).job = some j →
    jobAt s j = some x → (coreAt s i).state ≠ .moving → (x.prog = 0x23 → x.abort = false → searchDone s x = true) →
    exec (.pkJobEnd b c false) s = .next (checkFailed s i))
  ∧ (∀ (s t u : State) (b c i j : Nat) (x y : Job) (same : List Nat), b < 6 → c < 8 → i = 8 * b + c →
    (coreAt s i).job = some j → jobAt s j = some x → x.waiting = false → x.long = true → (coreAt s i).state ≠ .moving →
    y = { x with iters := x.iters + 1 } → t = perfAdd (modJob s j (fun z => { z with iters := y.iters })) (5 + b) 0x17 1 →
    u = (if x.prog = 0x38 ∨ x.prog = 0x3C then perfAdd t (5 + b) 0x18 1 else t) →
    x.abort = false → (budgetSpent s.time y = true → overBudget u y = true) →
    exec (.pkYieldPoint b c same) s = .next (if anyFree u = false ∧ displaced u i y same = true then
      pkSchedule (modCore u i (fun c => { c with state := .moving })) else u))
  ∧ (∀ (s : State) (b c i j : Nat) (x : Job), b < 6 → c < 8 → i = 8 * b + c → (coreAt s i).state = .moving →
    (coreAt s i).drains = false → (coreAt s i).job = none → (coreAt s i).next = some j → jobAt s j = some x → ∃ t,
    t = modCore s i (fun c => { c with state := .inService, drains := false })
    ∧ exec (.pkParkMoveDone b c) s = .next (pkSchedule (modJob (coreProg (modCore t i (fun c =>
      { c with next := none, job := some j, om := x.om })) i x.prog) j (fun y => { y with om := [] }))))
  ∧ (∀ (s : State) (b c i : Nat), b < 6 → c < 8 → i = 8 * b + c → (coreAt s i).busy = true → (coreAt s i).job = none →
    (coreAt s i).next = none → (coreAt s i).state ≠ .zeroising →
    exec (.pkZeroiseDone b c true) s = .next (pkSchedule (modCore s i (fun c => { c with om := [], busy := false }))))
  ∧ (∀ (s : State) (b c i : Nat), b < 6 → c < 8 → i = 8 * b + c → (coreAt s i).lost = true →
    underTest (coreAt s i).state = true → exec (.pkCoreSelfReturn b c true) s = .next (modCore (coreProg (modCore s i
      (fun c => { c with bistDone := true, bist := true, kat := true, om := [] })) i 0x7F) i
      (fun c => { c with state := .out, joining := true })))
  ∧ (∀ (s : State) (b c i : Nat), b < 6 → c < 8 → i = 8 * b + c → (coreAt s i).state = .zeroising →
    exec (.pkZeroiseDone b c true) s = .next (coreProg (modCore (modCore s i (fun c => { c with om := [] })) i
      (fun c => { c with state := .testing })) i 0x7F)
    ∧ exec (.pkZeroiseDone b c false) s = .next (pkFire (modCore s i (fun c => { c with om := [] })) i 7))
  ∧ (∀ (s : State) (k : UnitKind) (i n : Nat) (a b : Bool), unitInTest s k i n = true →
    exec (.unitBistDone k i n a b) s = .next (unitTested (testBits s k i n a b) k i n (a && b)))

/-- R247 to R251, R254: a climb by an Inner core to the next landing, and a lineage request by the key-store
controller, are answered without an error. -/
def Obligations.StairAnswers : Prop :=
  (∀ (s : State) (m n v : Nat) (a b : Bytes), m ≤ 3 → climbOk s n v = true →
    exec (.stairClimb m n a b v) s = .next (busOk (climb s n a b v) 0))
  ∧ (∀ (s : State) (v : List Nat), vectorOk s v = true → exec (.stairLineageRequest 0x6C v) s
    = .next (busOk { s with stair := { s.stair with vec := vectorKey s v } } 0))
  ∧ (∀ (s : State) (m n v : Nat) (a b : Bytes), (4 ≤ m ∨ climbOk s n v = false) →
    exec (.stairClimb m n a b v) s = .next (stairRefuse s m))
  ∧ (∀ (s : State) (m : Nat) (v : List Nat), (m ≠ 0x6C ∨ vectorOk s v = false) →
    exec (.stairLineageRequest m v) s = .next (stairRefuse s m))

/-- R313 to R316, R345 to R348: the registers that start tests, force errors and open operand memory, and the error
sources of the wings. -/
def Obligations.WingRegistersAct : Prop :=
  (∀ (s : State) (m b : Nat), b < 4 → mayWrite s m (0x100004 + 0x4000 * b) →
    exec (.cbBistStart m b) s = .next (bayBist s b))
  ∧ (∀ (s : State) (m b : Nat) (v : Word), b < 4 → mayWrite s m (0x100024 + 0x4000 * b) →
    exec (.cbErrForce m b v) s = .next (wrOk ((setBits 8 v.toNat).foldl (fun s i => bayFire s b i) s)))
  ∧ (∀ (s : State) (b i : Nat), b < 4 → i < 8 → exec (.cbErrFire b i) s = .next (bayFire s b i))
  ∧ (∀ (s : State) (m : Nat) (v : Word), mayWrite s m 0x102008 →
    exec (.cwCtxForce m v) s = .next (wrOk ((setBits 3 v.toNat).foldl (fun s i => ctxFire s i none) s)))
  ∧ (∀ (s : State) (i : Nat) (c : Option Nat), i < 3 → exec (.cwCtxErrFire i c) s = .next (ctxFire s i c))
  ∧ (∀ (s : State) (m : Nat), mayWrite s m 0x102010 → s.cipher.legacy.state = .out → exec (.cwLegacyBistStart m) s
    = .next (wrOk (modLegReg (modLegacy s (fun u => { u with state := .testing, leaving := false, testAt := s.time }))
      (fun r => { r with bistDone := false, bist := true, kat := true }))))
  ∧ (∀ (s : State) (m : Nat) (v : Word), mayWrite s m 0x10201C →
    exec (.cwLegacyForce m v) s = .next (wrOk ((setBits 3 v.toNat).foldl legacyFire s)))
  ∧ (∀ (s : State) (i : Nat), i < 3 → exec (.cwLegacyErrFire i) s = .next (legacyFire s i))
  ∧ (∀ (s : State) (m b c i : Nat), b < 6 → c < 8 → i = 8 * b + c → mayWrite s m (0x200004 + 0x10000 * b + 0x2000 * c) →
    (coreAt s i).state = .out → exec (.pkBistStart m b c) s = .next (wrOk (modCore s i (fun c =>
      { c with state := .zeroising, bistDone := false, bist := false, kat := false }))))
  ∧ (∀ (s : State) (m b c i : Nat) (v : Word), b < 6 → c < 8 → i = 8 * b + c →
    mayWrite s m (0x200024 + 0x10000 * b + 0x2000 * c) →
    exec (.pkErrForce m b c v) s = .next (wrOk ((setBits 8 v.toNat).foldl (fun s n => pkFire s i n) s)))
  ∧ (∀ (s : State) (b c n : Nat), b < 6 → c < 8 → n < 8 → exec (.pkErrFire b c n) s = .next (pkFire s (8 * b + c) n))
  ∧ (∀ (s : State) (m b c i n : Nat) (v : Word), b < 6 → c < 8 → i = 8 * b + c → n = v.toNat % 2048 →
    mayWrite s m (0x200040 + 0x10000 * b + 0x2000 * c) → omWorks s i = true →
    exec (.pkOmAddrWrite m b c v) s = .next (wrOk (modCore s i (fun c => { c with line := n, data := lineWords c n }))))
  ∧ (∀ (s : State) (m b c i : Nat) (v : Word) (x : PkCore), b < 6 → c < 8 → i = 8 * b + c → tget s.pk.cores i = some x →
    mayWrite s m (0x200050 + 0x10000 * b + 0x2000 * c) → omWorks s i = true → ∃ t y,
    exec (.pkOmData3Write m b c v) s = .next t ∧ tget t.pk.cores i = some y ∧ y.data = x.data.set 3 v
      ∧ y.line = (x.line + 1) % 2048 ∧ lineWords y x.line = ((List.range 4).map (fun n => w32 (fld ((x.data.set 3 v).flatMap
        (fun w => be 4 w.toNat)) (4 * n) 4))))
  ∧ (∀ (s : State) (m : Nat) (v : Word), mayWrite s m 0x201808 → exec (.pwParkForce m v) s
    = .next (wrOk ((setBits 2 v.toNat).foldl (fun s b => parkFire s b ((tkeys s.pk.park).head?)) s)))
  ∧ (∀ (s : State) (i n : Nat), i < 2 → n < 384 → exec (.pwParkErrFire i n) s = .next (parkFire s i (some n)))

/-! ### The digest unit -/

/-- R352 to R358, R361: the digest unit. A length opens an operation; data words and the last word gather the message;
a compressed block clears `BUSY`; `ABORT` ends it; the end leaves the digest or HMAC of the message and zeroes the
keys. -/
def Obligations.DigestUnitRuns : Prop :=
  (∀ (s : State) (m : Nat) (v : Word), mayWrite s m 0x40008 → duIsOpen s.digest = false → s.digest.algo ≤ 4 →
    s.digest.hmac = false → s.digest.lenHi = 0 → s.heldHi = [] → ∃ t, exec (.duLenLoWrite m v) s = .next t ∧
    t.digest.opLen = v.toNat ∧ t.digest.msg = [] ∧ t.digest.opAlgo = s.digest.algo ∧ t.digest.opHmac = false
      ∧ t.lastErr = false ∧ (v ≠ 0 → t.digest.state = .open_ ∧ t.digest.busy = false)
      ∧ (v = 0 → t.digest.state = .final ∧ t.digest.busy = true) ∧ t.digest.keys = s.digest.keys)
  ∧ (∀ (s : State) (m : Nat) (v : Word), mayWrite s m 0x40010 → duIsOpen s.digest = true → s.digest.busy = false →
    4 * (s.digest.words + 1) < s.digest.opLen → exec (.duDataWrite m v) s = .next (wrOk { s with digest := { s.digest with
      msg := s.digest.msg ++ wordBytes v, words := s.digest.words + 1
      busy := 4 * (s.digest.words + 1) % Config.hashBlock s.digest.opAlgo == 0 } }))
  ∧ (∀ (s : State) (m : Nat) (v : Word), mayWrite s m 0x40018 → duIsOpen s.digest = true → s.digest.busy = false →
    1 ≤ s.digest.lastB → s.digest.lastB ≤ 4 → 4 * s.digest.words + s.digest.lastB = s.digest.opLen →
    exec (.duLastWrite m v) s = .next (wrOk { s with digest := { s.digest with
      msg := s.digest.msg ++ (wordBytes v).take s.digest.lastB, state := .final, busy := true } }))
  ∧ (∀ (s : State) (m : Nat) (v : Option Word), mayWrite s m 0x40000 → duIsOpen s.digest = true →
    exec (.duAbort m v) s = .next (wrOk { s with digest := duEnd s.digest .lenMismatch }))
  ∧ (∀ (s : State), s.digest.state = .open_ →
    exec .duBlockCompressed s = .next { s with digest := { s.digest with busy := false } })
  ∧ (∀ (s : State), s.digest.state = .final → ∃ t, exec (.duFinalDone none) s = .next t ∧ t.digest.state = .done
    ∧ t.digest.busy = false ∧ t.digest.keys = List.replicate 34 0 ∧ t.digest.result = resultWords
      (if s.digest.opHmac then Config.hmac s.digest.opAlgo s.digest.opKey s.digest.msg
       else Config.hash s.digest.opAlgo s.digest.msg) ∧ { t with digest := s.digest } = s)
  ∧ (∀ (s : State) (p : Nat × Nat), s.digest.state = .final → p ≠ (0xA5, 0x5A) → p ≠ (0x5A, 0xA5) → ∃ t,
    exec (.duFinalDone (some p)) s = .next (duCmp t) ∧ t.digest.state = .done
      ∧ t.digest.match_ = BitVec.ofNat 8 p.1 ∧ t.digest.matchN = BitVec.ofNat 8 p.2 ∧ { t with digest := s.digest } = s)
  ∧ (∀ (s : State) (m n : Nat) (v : Word) (p : Option (Nat × Nat)), mayWrite s m (0x40080 + 4 * n) → n < 16 →
    exec (.duExpectWrite m n v p) s
      = .next (wrOk (duCompare { s with digest := { s.digest with expect := s.digest.expect.set n v } } p))
    ∧ (s.digest.state ≠ .done → exec (.duExpectWrite m n v p) s
      = .next (wrOk { s with digest := { s.digest with expect := s.digest.expect.set n v } })))
  ∧ (∀ (s : State) (m : Nat) (v : Word), mayWrite s m 0x400E4 → exec (.duErrForce m v) s = .next (duForce s v))
  ∧ (∀ (s : State), exec .duParityFire s = .next (duParity s) ∧ (duParity s).digest.err.getLsbD 3 = true)

/-! ### Random numbers and the memories -/

/-- R371 to R394: blocks of the banks, spores, generate requests, blocks of the small sources, and the error register
of the random-number source. R372, R373: 0 to 4 failing banks run, 5 to 8 hold, and more than 8 are fatal; `OFF` and
`FATAL` stay. -/
def Obligations.RandomSourceRuns : Prop :=
  (∀ (s t u : State) (lo hi l : List (BitVec 1024)) (g : Bool) (bad : Tab Bank), s.rng.source ≠ .off →
    s.rng.source ≠ .fatal → l = lo ++ hi →
    t = modRng s (fun q => { q with banks := tmap q.banks (fun i b => bankBlock b (l.getD i 0)) }) →
    bad = s.rng.banks.filter (fun e => blockFails e.2.run (l.getD e.1 0)) →
    u = (if bad.isEmpty then t else pulses (rngBit t 4) (bad.map (fun _ =>
      { line := 7, cls := .note, type := 0, addr := 0, master := 0xFF }))) →
    exec (.bankBlockEnd lo hi g) s = .next (condition (goSource u (sourceNext u.rng.source (failingBanks u.rng)))
      (s.rng.banks.map (fun e => blockCredit e.2 (l.getD e.1 0))) g))
  ∧ (∀ (s : State) (i : Nat), s.rng.buffer ≠ 0 → s.rng.source ≠ .fatal → sporeTaker s.rng = some i →
    exec .sporeDelivery s = .next (s.net.waitHellos.foldl wakeHello (takeSpore s i)))
  ∧ (∀ (s : State) (i : Nat), i < 256 → drawState s i = .ok → exec (.drbgGenerate i) s = .next (countDraw s i))
  ∧ (∀ (s : State) (i : Nat) (l : Tab UnitOp) (e : Nat × UnitOp), 256 ≤ i →
    l = tfilter s.cipher.ops (fun _ o => o.wing == .random && o.alcove == i - 256) →
    l.find? (fun p => l.all (fun q => drawBefore s p q)) = some e →
    exec (.drbgGenerate i) s = .next (opDone s e.1 e.2))
  ∧ (∀ (s : State) (b : Nat) (x : BitVec 1024), s.rng.tally.state ≠ 2 → blockFails (smallRun s.rng.tally b) x = false →
    ∃ t, exec (.smallSourceBlockEnd true b x) s = .next t
    ∧ t.rng.tally.state = 1 ∧ t.rng.tally.consec = 0 ∧ t.rng.tally.spores = s.rng.tally.spores + 1 ∧ t.fc = s.fc)
  ∧ (∀ (s t : State) (b : Nat) (x : BitVec 1024) (r : SmallSource × Bool), r = smallBlock s.time s.rng.aon b x →
    t = { s with rng := { s.rng with aon := r.1 } } →
    exec (.smallSourceBlockEnd false b x) s = .next (if r.2 then aonFatal t else t))
  ∧ (∀ (s : State) (m : Nat) (v : Word), mayWrite s m 0x50024 →
    exec (.rngErrForce m v) s = .next (wrOk ((setBits 8 v.toNat).foldl (fun s i => rngFire s i 0) s)))
  ∧ (∀ (s : State) (i n : Nat), i < 8 → exec (.rngErrFire i n) s = .next (rngFire s i n))
  ∧ (∀ (st : RngState) (f : Nat), st ≠ .off → st ≠ .fatal →
     (f ≤ 4 → sourceNext st f = .run) ∧ (5 ≤ f ∧ f ≤ 8 → sourceNext st f = .hold) ∧ (9 ≤ f → sourceNext st f = .fatal)
     ∧ sourceNext .off f = .off ∧ sourceNext .fatal f = .fatal)

/-- R398 to R400: `IC_0` starts a move of a watermark within its bounds; its commit zeroises the changing range and
takes the target. -/
def Obligations.WatermarksMove : Prop :=
  (∀ (s : State) (v : Word), mayWrite s 0 0x70010 → 0x1800000 ≤ v.toNat → v.toNat ≤ 0x2000000 → v.toNat % 0x10000 = 0 →
    s.halls.logic.busy = false → enclAbove s v.toNat = false → exec (.hcWmLogicWrite 0 v) s
    = .next (wrOk { s with halls := { s.halls with logic := { s.halls.logic with
      target := v.toNat / 0x10000, busy := decide (v.toNat / 0x10000 ≠ s.halls.logic.cur) } } }))
  ∧ (∀ (s : State) (v : Word), mayWrite s 0 0x70018 → 0x12800000 ≤ v.toNat → v.toNat ≤ 0x1A800000 →
    v.toNat % 0x100000 = 0 → s.halls.mezz.busy = false → exec (.hcWmMezzWrite 0 v) s
    = .next (wrOk { s with halls := { s.halls with mezz := { s.halls.mezz with
      target := v.toNat / 0x100000, busy := decide (v.toNat / 0x100000 ≠ s.halls.mezz.cur) } } }))
  ∧ (∀ (s : State) (w : Watermark), w = s.halls.logic → w.busy = true → exec (.wmMoveCommit false) s
    = .next { s with halls := { s.halls with
      logic := { w with cur := w.target, busy := false }
      logicMem := Mem.zero s.halls.logicMem (min w.cur w.target * 0x10000) (max w.cur w.target * 0x10000) } })
  ∧ (∀ (s : State) (w : Watermark), w = s.halls.mezz → w.busy = true → exec (.wmMoveCommit true) s
    = .next { s with halls := { s.halls with
      mezz := { w with cur := w.target, busy := false }
      mezzMem := Mem.zero s.halls.mezzMem (min w.cur w.target * 0x100000) (max w.cur w.target * 0x100000) } })
  ∧ (∀ (s : State), s.halls.logic.busy = true → exec (.drainTimeout .wmLogic) s = .next (hcFire s 1))
  ∧ (∀ (s : State), s.halls.mezz.busy = true → exec (.drainTimeout .wmMezz) s = .next (hcFire s 1))
  ∧ (∀ (s : State) (n : Nat), handState s n = .releasing →
    exec (.drainTimeout (.block n)) s = .next (handDrained (hcFire s 1) n))

/-- R415 to R418, R507: the five states of a hand-over, each entered by its command or event. -/
def Obligations.HandoverRuns : Prop :=
  (∀ (s : State) (m n : Nat) (b : HallBlock), n < 22 → mayWrite s m (0x70100 + 4 * n) → tget s.halls.blocks n = some b →
    b.state = .owned → masterHall s m = some b.owner → releaseOk s n = true →
    exec (.handoverReleaseInner m n) s = .next (wrOk (modBlock s n (fun b =>
      { b with state := .releasing, last := m, dest := .inner })))
    ∧ exec (.handoverReleaseOuter m n) s = .next (wrOk (modBlock s n (fun b =>
      { b with state := .releasing, last := m, dest := .outer }))))
  ∧ (∀ (s : State) (n : Nat) (t : State), n < 22 → handState s n = .releasing →
    t = modBlock s n (fun b => { b with state := .reset }) →
    exec (.handoverDrainEnd n) s = .next (putSrc t (64 + n) { evSrc t (64 + n) with pending := false }))
  ∧ (∀ (s : State) (n : Nat), handState s n = .reset → exec (.handoverResetEnd n) s
    = .next (modBlock (dropHalves (clearBlock s n) n) n (fun b => { b with state := .free })))
  ∧ (∀ (s : State) (m n : Nat) (b : HallBlock), n < 22 → mayWrite s m (0x70100 + 4 * n) → tget s.halls.blocks n = some b →
    b.state = .free → masterHall s m = some b.dest →
    exec (.handoverClaim m n) s = .next (wrOk (modBlock s n (fun b => { b with state := .claimed, last := m }))))
  ∧ (∀ (s : State) (n : Nat) (b : HallBlock), tget s.halls.blocks n = some b → b.state = .claimed →
    exec (.handoverClaimCommit n) s = .next (putSrc (modBlock s n (fun b => { b with state := .owned, owner := b.dest }))
      (64 + n) { evSrc s (64 + n) with target := if b.dest = .inner then 0 else 16 }))

/-- R405, R426, R412, R413, R420, R655: the enclave lock is set and stays, forced errors of the hall controller and of
power control fire, an MPU swaps its sets and releases its fault, and blocks are gated and restored. -/
def Obligations.ProtectionRegistersAct : Prop :=
  (∀ (s : State) (m : Nat) (v : Word), mayWrite s m 0x70040 → exec (.hcEncLock m v) s
    = .next (wrOk { s with halls := { s.halls with lock := s.halls.lock || bitOf v.toNat 0 } }))
  ∧ (∀ (s : State) (m : Nat) (v : Word), mayWrite s m 0x70024 →
    exec (.hcErrForce m v) s = .next (wrOk ((setBits 5 v.toNat).foldl hcFire s)))
  ∧ (∀ (s : State) (m c : Nat), c < 28 → mayWrite s m (0x80000 + 0x800 * c) → (mpuOf s c).pending = false →
    overlapOf (setOf (mpuOf s c) (!(mpuOf s c).active)) = none →
    exec (.mpuSwap m c) s = .next (wrOk (modMpu s c (fun p => { p with active := !p.active, pending := true }))))
  ∧ (∀ (s : State) (c : Nat), exec (.mpuSwapDrainEnd c) s = .next (modMpu s c (fun p =>
      if p.pending then { p with shown := p.active, pending := false } else p)))
  ∧ (∀ (s : State) (m c : Nat), c < 28 → mayWrite s m (0x80014 + 0x800 * c) →
    exec (.mpuFaultRelease m c) s = .next (wrOk (modMpu s c (fun p => { p with valid := false, more := 0 }))))
  ∧ (∀ (s : State) (m n : Nat) (t : State), n < 22 → mayWrite s m 0xA0100 →
    (masterHall s m = some .outer → ownerOf s n = .outer) → (blockIdle s n = true ∨ handState s n = .free) →
    t = { s with power := { s.power with gate := pack [(n, 0), (m, 8), (stOk, 16)] } } →
    exec (.pcGateClock m n) s = .next (wrOk (modBlock t n (fun b => { b with clkOff := true })))
    ∧ exec (.pcGatePower m n) s = .next (wrOk (modBlock t n (fun b => { b with pwrOff := true })))
    ∧ exec (.pcRestore m n) s = .next (wrOk (if ((tget s.halls.blocks n).map (fun b => b.pwrOff)).getD false then
        clearBlock (modBlock t n (fun b => { b with clkOff := false, pwrOff := false })) n
      else modBlock t n (fun b => { b with clkOff := false, pwrOff := false }))))
  ∧ (∀ (s : State) (m : Nat) (v : Word), mayWrite s m 0xA0024 →
    exec (.pcErrForce m v) s = .next (wrOk ((setBits 5 v.toNat).foldl pcFire s)))

/-- R15, R395, R400, R403 to R413, R422, R423: a transaction that its MPU, the halls and the enclaves admit reads or
writes the memory; one that its MPU refuses has no effect but the exception; debug reads and writes what it may. -/
def Obligations.TransactionsAccess : Prop :=
  (∀ (s : State) (t : Txn) (h : Hall), txnHall s t = some h → txnOk t = true →
    (∀ c, coreOf t.master = some c → coreTxnOk t = true ∧ mpuCheck s c t = none) →
    (t.space = .regs → exec (.fabricTransaction t) s = .next (regTxn (perfAdd s 0 0x08 1) t))
    ∧ (t.space ≠ .regs → t.addr + t.len ≤ spaceSize t.space → closed s t.space t.addr = false →
      memAdmits s t.space h t.master t.addr (t.access == .write) = true →
      (t.space = .logic → enclAdmits s t = true) → exec (.fabricTransaction t) s = .next (memDo (perfAdd s 0 0x08 1) t)))
  ∧ (∀ (s : State) (t : Txn) (h : Hall) (c r : Nat), txnHall s t = some h → txnOk t = true →
    coreOf t.master = some c → coreTxnOk t = true → mpuCheck s c t = some r →
    exec (.fabricTransaction t) s = .next (mpuFault s c r t))
  ∧ (∀ (s : State) (sp : Space) (w : Bool) (a v : Nat), debugThere s sp a = true →
    (∃ h, debugHas s h w = true ∧ debugTarget s sp h w a = true) → debugEncl s sp a = true →
    exec (.debugAccess (.access sp w a v)) s = .next (debugDo s sp w a v))
  ∧ (∀ (s : State) (c : Nat), isCore c = true → debugHas s (coreHall c) true = true →
    exec (.debugAccess (.halt c)) s = .next (emit s (.coreHalt c)))

/-- R15, R24, R395: no transaction of a master of the Outer Hall reads or changes the logic memory below the Inner
watermark, and none of the Inner Hall above it: the memory stays, and the answer is an error unless the MPU of the
master has refused it before. -/
def Obligations.HallsKeepTheLogicMemory : Prop :=
  ∀ (s t' : State) (t : Txn) (h : Hall), txnHall s t = some h → t.space = .logic → txnOk t = true →
    t.addr + t.len ≤ 0x6000000 →
    (h = .outer ∧ t.addr < s.halls.logic.cur * 0x10000 ∨ h = .inner ∧ s.halls.logic.cur * 0x10000 ≤ t.addr) →
    exec (.fabricTransaction t) s = .next t' → t'.halls.logicMem = s.halls.logicMem
    ∧ ((∀ c, coreOf t.master = some c → coreTxnOk t = true ∧ mpuCheck s c t = none) → t'.lastErr = true ∧ t'.lastVal = 0)

/-! ### Tamper, life cycle and debug -/

/-- R428 to R434, R441 to R449, R453, R29: alarms of the layers, the light sensors and the soft monitors; the end of
an erasure; the check; the backup cell and the retention latch. R435 to R440, R456: settings apply, tests of monitors
begin, end and come round, and forced errors and alarms act. -/
def Obligations.TamperActs : Prop :=
  (∀ (s : State), exec (.lichenTraceFail 1) s = .next (alarm s 0 true) ∧ exec (.lichenTraceFail 2) s = .next (alarm s 1 true)
    ∧ exec .lightAlarm s = .next (alarm s 2 true))
  ∧ (∀ (s t : State) (n i : Nat) (m m' : Monitor), tget s.tamper.mons n = some m → s.power.powered = true →
    armOf (tampLife s) ≠ 0 → (m.stamps.head?).all (fun t => t / (monLimits n).1 != s.time / (monLimits n).1) = true →
    (s.tamper.bistOn = true → s.tamper.bistMon ≠ n ∨ s.tamper.bistInst ≠ i) →
    m' = { m with stamps := (s.time :: m.stamps).take 16 } → t = modTamp s (fun t => { t with mons := tput t.mons n m' }) →
    exec (.softMonitorEvent n i) s = .next (if monFires m' then alarm t (n + 1) (monResp m'.set == 2) else t))
  ∧ (∀ (s : State), s.power.powered = false → watchOn (tampLife s) = true →
    exec (.cellTempSample false) s = .next { s with tamper := { s.tamper with tempOut := 0 } }
    ∧ exec (.cellTempSample true) s = .next (if s.tamper.tempOut = 0 then { s with tamper := { s.tamper with tempOut := 1 } }
      else alarm { s with tamper := { s.tamper with tempOut := s.tamper.tempOut + 1 } } 5 true))
  ∧ (∀ (s t : State) (i bad : Nat), s.tamper.phase = 2 → s.tamper.flag = some i → t = commitFlag s i bad →
    exec (.eraseComplete bad) s
      = .next { t with bb := bbRewrite t.bb, tamper := { t.tamper with phase := 3, flag := none } })
  ∧ (∀ (s : State), s.bb.busy = true → exec .bbCheckRewriteDone s = .next { s with bb := bbRewrite s.bb })
  ∧ (∀ (s : State) (mv : Nat), s.power.powered = true → mv < 2400 → s.tamper.cellLow = false →
    exec (.cellLow mv) s = .next (pulse { s with power := { s.power with cellMv := mv }
                                                 tamper := { s.tamper with cellLow := true } } 2 .note))
  ∧ (∀ (s : State) (mv : Nat), s.power.powered = false → mv < 2200 → watchOn (tampLife s) = true →
    s.bb.gap.getLsbD 0 = false → exec (.cellLow mv) s = .next (bbChange { s with power := { s.power with cellMv := mv } }
      (fun b => { b with gap := setBit b.gap 0 })))
  ∧ (∀ (s : State), exec .cellLowClear s = .next { s with tamper := { s.tamper with cellLow := false } })
  ∧ (∀ (s : State), ∃ t, exec .retentionLatchClear s = .next t ∧ t.bb.latch = false ∧ t.bb.busy = false
    ∧ t.bb.secret = slice (drawn s 64) 0 32 ∧ { t with bb := s.bb, fresh := s.fresh } = s)
  ∧ (∀ (s : State) (m : Nat), mayWrite s m 0x60000 → s.tamper.mons.all (fun e => monOk e.1 e.2.shadow) = true →
    exec (.tampApply m) s = .next (wrOk { s with tamper := { s.tamper with
      mons := tmap s.tamper.mons (fun _ x => { x with set := x.shadow }) } }))
  ∧ (∀ (s : State) (m n i : Nat) (v : Word), mayWrite s m 0x60100 → n = bitsOf v.toNat 3 0 → i = bitsOf v.toNat 8 8 →
    bitOf v.toNat 12 = true → s.tamper.bistOn = false → n < 9 → exec (.tampBistStart m v) s
    = .next (wrOk { s with tamper := testBegin s.time { s.tamper with selMon := n, selInst := i } n i }))
  ∧ (∀ (s t : State), s.tamper.bistOn = true →
    t = { s with tamper := { s.tamper with bistOn := false, bistDone := true, bistPass := true } } →
    exec (.tampBistEnd true) s = .next (nextTest t))
  ∧ (∀ (s t : State), s.tamper.bistOn = true → s.tamper.bistAt + 1000000 ≤ s.time →
    t = { s with tamper := { s.tamper with bistOn := false, bistDone := true, bistPass := false } } →
    exec (.tampBistEnd false) s = .next (nextTest (markFail t s.tamper.bistMon s.tamper.bistInst)))
  ∧ (∀ (s : State), s.power.powered = true → s.tamper.testedAt + s.tamper.interval * 10 ^ 9 ≤ s.time →
    exec .tampTestInterval s = .next (nextTest { s with tamper := { s.tamper with testedAt := s.time, round := some 0 } }))
  ∧ (∀ (s : State) (m : Nat) (v : Word), mayWrite s m 0x60024 →
    exec (.tampErrForce m v) s = .next (wrOk ((setBits 5 v.toNat).foldl tampErr s)))
  ∧ (∀ (s : State) (m : Nat) (v : Word), mayWrite s m 0x60028 → (s.life.life = .vendor ∨ s.life.life = .return) →
    exec (.tampAlarmForce m v) s = .next (wrOk ((setBits 9 v.toNat).foldl (fun s i => alarm (tampCause s 9) i
      (if 3 ≤ i then ((tget s.tamper.mons (i - 1)).map (fun m => monResp m.set == 2)).getD true else true)) s)))

/-- R441 to R446, R464: an alarm of the response `ERASE` in an armed, powered state leaves no erase secret, no Stair
keys, no random-number states, no key store and no operand memory, and burns no bit of OTP by itself. -/
def Obligations.EraseLeavesNoKeys : Prop :=
  ∀ (s : State) (i : Nat), s.power.powered = true → armOf (tampLife s) ≠ 0 → armOf (tampLife s) ≠ 1 →
    s.tamper.erased = false → ∃ t, t = alarm s i true ∧ t.bb.secret = zeros 32 ∧ t.keys.secrets = []
    ∧ t.keys.journal = [] ∧ t.rng.inst = [] ∧ t.pk.park = [] ∧ t.stair.identity = [] ∧ t.stair.ledger = []
    ∧ t.stair.device = [] ∧ t.stair.custody = [] ∧ t.tamper.erased = true ∧ t.tamper.phase = 2 ∧ t.otp = s.otp

/-- R473 to R475, R477 to R482: the debug register and its expiry, vendor authorisation, and forced errors of the
life-cycle controller. R246, R477, R649: the instructions of the test access port. -/
def Obligations.DebugAndTestAccess : Prop :=
  (∀ (s : State) (m : Nat) (v : Word), m ≤ 3 → mayWrite s m 0x10020 → exec (.lcDebugWrite m v) s
    = .next (wrOk { s with life := { s.life with dbg := BitVec.ofNat 4 v.toNat &&& lcAllowed s.life } }))
  ∧ (∀ (s : State), s.life.expiry ≠ 0 → s.life.expiry ≤ s.time →
    exec .debugExpiry s = .next { s with life := { s.life with dbg := 0 } })
  ∧ (∀ (s : State) (m : Nat) (v : Word), mayWrite s m 0x10034 →
    exec (.lcErrForce m v) s = .next (wrOk ((setBits 4 v.toNat).foldl lcFire s)))
  ∧ (∀ (s t : State) (r : Bytes × State), t = tapSelect s 0x40 → t.life.life ≠ .scrapped → t.life.voteFail = false →
    (t.life.life = .blank → allZero t.otp.rootHash = false) → drawState t 4 = .ok → r = drawFrom t 4 32 →
    exec .authChallenge s = .next (emit (modLife r.2 (fun l => { l with challenge := some r.1 })) (.tdo r.1)))
  ∧ (∀ (s t : State) (a : Bytes) (b : List (Nat × Nat)), a.length = 288 →
    t = modLife (tapSelect s 0x41) (fun l => { l with challenge := none }) → authCheck t a s.life.challenge = 0 →
    exec (.authSubmit a b) s = .next (authRun (modLife t (fun l => { l with result := 2, refusedAt := 0 })) a b))
  ∧ (∀ (s : State) (a : Bytes) (b : List (Nat × Nat)) (n : Nat), a.length = 288 → n ≠ 0 →
    authCheck (modLife (tapSelect s 0x41) (fun l => { l with challenge := none })) a s.life.challenge = n →
    exec (.authSubmit a b) s = .next { s with life := { s.life with
      tapInstr := 0x41, challenge := none, result := 3, refusedAt := n } })
  ∧ (∀ (s : State), exec .authStatus s = .next (emit (tapSelect s 0x42) (.tdo (be 4 (authWord s).toNat))))
  ∧ (∀ (s : State), exec .dap s = .next (tapSelect s 0x50)
    ∧ exec .idcode s = .next (emit (tapSelect s 0x01) (.tdo (be 4 0x00800587)))
    ∧ (∀ b, exec (.samplePreload b) s = .next { s with life := { s.life with tapInstr := 0x02, boundary := b } })
    ∧ exec .bypass s = .next (tapSelect s 0xFF) ∧ exec .trstNLow s = .next (tapSelect s 0x01)
    ∧ (∀ c, (tapSelect s c).life.tapInstr = c ∧ { tapSelect s c with life := s.life } = s))
  ∧ (∀ (s : State), s.life.life = .blank ∨ s.life.life = .vendor ∨ s.life.life = .return ∨ s.life.life = .scrapped →
    exec .extest s = .next (tapSelect s 0x03) ∧ exec .clamp s = .next (tapSelect s 0x04)
    ∧ exec .highz s = .next (tapSelect s 0x05))
  ∧ (∀ (s : State), s.life.life = .transit ∨ s.life.life = .commissioned ∨ s.life.life = .inService →
    exec .extest s = .next (tapSelect s 0xFF) ∧ exec .clamp s = .next (tapSelect s 0xFF)
    ∧ exec .highz s = .next (tapSelect s 0xFF))
  ∧ (∀ (s : State), exec .persoKeys s = .next (emit (tapSelect s 0x43) (.tdo (if s.stair.paused then
      s.stair.idPub ++ s.stair.ledPub ++ Config.edPub (s.tally.seed.getD []) else zeros 96))))
  ∧ (∀ (s t u v : State) (b pub led : Bytes), t = tapSelect s 0x44 → s.stair.paused = true → persoOk t b = true →
    pub = Config.edPub (s.tally.seed.getD []) → led = issueCert t 2 0 t.stair.identity t.stair.ledPub [] →
    u = modStair (modTally t (fun y => { y with
      endorse := Config.edSign t.stair.identity (ascii "WTKY1" ++ deviceKeyId t ++ pub) }))
      (fun y => { y with idCert := (persoItems b).2.2, ledCert := led, paused := false }) →
    stepClimb u = .ok v → exec (.persoCert b) s = .next (goOn v 5))

/-! ### Faults, power, starts and the Tally -/

/-- R484 to R490: pulses of the classes that their lines carry reach the collector; a pulse of `NOTE` that finds the
capture held sets its status bit, raises its class field and counts, and changes no service state. R484, R491 to R495,
R509, R502: the registers of the collector act, the handle limit and a fault of the collector itself stop the device,
and `SAFE` restarts when its time is over. -/
def Obligations.CollectorActs : Prop :=
  (∀ (s : State) (ps : List Pulse), exec (.faultPulse ps) s
    = .next (pulses s (ps.filter (fun p => (lineClasses p.line).contains p.cls))))
  ∧ (∀ (s : State) (p : Pulse), p.cls = .note → (lineClasses p.line).contains .note = true → s.fc.valid = true →
    ∃ t, exec (.faultPulse [p]) s = .next t ∧ t.fc.status = setBit s.fc.status p.line
      ∧ tget t.fc.cls p.line = some (max (tgetD s.fc.cls p.line 0) 1)
      ∧ t.fc.more = (if s.fc.capMin ≤ 1 then min (s.fc.more + 1) 65535 else s.fc.more) ∧ t.fc.service = s.fc.service
      ∧ t.fc.valid = true ∧ t.fc.fLine = s.fc.fLine ∧ { t with fc := s.fc, perf := s.perf } = s)
  ∧ (∀ (s : State) (m : Nat) (v : Word) (ps : List Pulse), mayWrite s m 0x20004 → exec (.fcStatusClear m true v ps) s
    = .next (pulses (wrOk (holdHi s m 0x20004 v)) (ps.filter (fun p => (lineClasses p.line).contains p.cls))))
  ∧ (∀ (s : State) (m n : Nat) (v : Word) (ps : List Pulse), mayWrite s m 0x20000 →
    n = (((heldOf s m 0x20004).map (fun h => h.toNat)).getD 0) * 2 ^ 32 + v.toNat →
    ∃ t, exec (.fcStatusClear m false v ps) s
      = .next (pulses t (ps.filter (fun p => (lineClasses p.line).contains p.cls))) ∧ t.fc.status = w1c s.fc.status n
      ∧ t.fc.cls = s.fc.cls.filter (fun e => !n.testBit e.1) ∧ t.lastErr = false ∧ heldOf t m 0x20004 = none
      ∧ t.fc.valid = s.fc.valid ∧ t.fc.service = s.fc.service ∧ t.fc.more = s.fc.more)
  ∧ (∀ (s : State) (m : Nat), mayWrite s m 0x2001C → exec (.fcCaptureRelease m) s
    = .next (wrOk { s with fc := { s.fc with valid := false, more := 0 } }))
  ∧ (∀ (s : State) (m : Nat) (hi lo : Word) (l : List Nat), mayWrite s m 0x20030 →
    l = setBits 64 (hi.toNat * 2 ^ 32 + lo.toNat) → l ≠ [] → s.fc.forceCls = 1 →
    exec (.fcForce m hi lo) s = .next (wrOk (pulses { dropHeld s m 0x20034 with fc := { s.fc with forced := true } }
      (l.map (fun n => { line := n, cls := .note, type := 0, addr := 0, master := 0xFF })))))
  ∧ (∀ (s : State) (m : Nat) (v : Word), mayWrite s m 0x20008 → bitsOf v.toNat 31 20 ≤ 3600 →
    1 ≤ bitsOf v.toNat 19 10 → bitsOf v.toNat 19 10 ≤ 1000 → 1 ≤ bitsOf v.toNat 7 5 → bitsOf v.toNat 7 5 ≤ 5 →
    exec (.fcCtrlWrite m v) s = .next (wrOk { s with fc := { s.fc with
      restart := bitsOf v.toNat 31 20, handle := bitsOf v.toNat 19 10, capMin := bitsOf v.toNat 7 5 } }))
  ∧ (∀ (s : State), s.fc.valid = true → 2 ≤ s.fc.fClass → s.fc.heldAt + s.fc.handle * 10 ^ 6 < s.time →
    exec .handleLimitExpiry s = .next (pulse s 0 .safe))
  ∧ (∀ (s : State) (c : SelfCause), exec (.collectorSelfFault c) s = .next (enterSafe { s with fc := { s.fc with
      self := setBit s.fc.self (selfBit c), status := setBit s.fc.status 0 } }))
  ∧ (∀ (s : State), s.fc.service = .safe → s.fc.restart ≠ 0 → s.fc.safeAt + s.fc.restart * 10 ^ 9 ≤ s.time →
    exec .safeRestartExpiry s = .next (resetSteps s))

/-- R487 to R490: the pulses of one cycle that reach `CAP_MIN` fill a free capture with the one of the highest class,
at equal classes of the lowest line, and the others count in `FC_MORE`; a held capture keeps what it holds. -/
def Obligations.FirstErrorIsCaptured : Prop :=
  (∀ (now : Nat) (f g : Collector) (ps : List Pulse), f.valid = false → g = capturePulses now f ps →
    (∃ p ∈ ps, f.capMin ≤ fclassCode p.cls) →
    ∃ p ∈ ps, f.capMin ≤ fclassCode p.cls
      ∧ (∀ q ∈ ps, f.capMin ≤ fclassCode q.cls →
          fclassCode q.cls < fclassCode p.cls ∨ fclassCode q.cls = fclassCode p.cls ∧ p.line ≤ q.line)
      ∧ g.valid = true ∧ g.fLine = p.line ∧ g.fClass = fclassCode p.cls ∧ g.fType = p.type ∧ g.fAddr = p.addr
      ∧ g.fMaster = p.master ∧ g.fTime = now
      ∧ g.more = min (f.more + ((ps.filter (fun q => decide (f.capMin ≤ fclassCode q.cls))).length - 1)) 65535)
  ∧ (∀ (now : Nat) (f : Collector) (ps : List Pulse), f.valid = true → f.more ≤ 65535 →
    capturePulses now f ps = { f with more := (capturePulses now f ps).more } ∧ f.more ≤ (capturePulses now f ps).more ∧ (capturePulses now f ps).more ≤ 65535)

/-- R499 to R501: the collector's direct path leaves a device that has not been tampered with in `SAFE`, with
`FAULT_N` low, admission stopped, no operation on a unit and `FC_SELF` saying why. -/
def Obligations.SelfFaultStopsTheDevice : Prop :=
  ∀ (s : State) (c : SelfCause), s.fc.service ≠ .safe → s.fc.service ≠ .tampered →
    ∃ t, exec (.collectorSelfFault c) s = .next t ∧ t.fc.service = .safe ∧ t.fc.faultN = some false
      ∧ t.boot.admitStop = true ∧ t.cipher.ops = [] ∧ t.fc.safeAt = s.time ∧ t.fc.self.getLsbD (selfBit c) = true

/-- R503 to R508: a core configures, acknowledges and rings sources of its own hall, and a forced error of the
distributor is `SAFE`. -/
def Obligations.DistributorServesCores : Prop :=
  (∀ (s : State) (c n t : Nat) (v : Word) (e : EvSource), coreOf c = some c → n < 1280 → srcHall s n = coreHall c →
    t = bitsOf v.toNat 4 0 → (t ≤ 3 ∨ 16 ≤ t ∧ t ≤ 27) → coreHall t = coreHall c → e = evSrc s n →
    exec (.edSrcWrite c n v) s = .next (wrOk (putSrc s n
      { pending := e.pending && !bitOf v.toNat 31, enable := bitOf v.toNat 12, prio := bitsOf v.toNat 9 8, target := t })))
  ∧ (∀ (s : State) (c n : Nat), coreOf c = some c → n < 1280 → srcHall s n = coreHall c →
    exec (.edAck c n false) s = .next (wrOk (putSrc s n { evSrc s n with pending := false }))
    ∧ exec (.edAck c n true) s = .next (raise (wrOk (putSrc s n { evSrc s n with pending := false })) n))
  ∧ (∀ (s : State) (c n : Nat), coreOf c = some c → n ≤ 3 → coreHall n = coreHall c →
    exec (.doorbellSet c n) s = .next (wrOk (raise s (192 + n))))
  ∧ (∀ (s : State) (c n : Nat), coreOf c = some c → 16 ≤ n → n ≤ 27 → coreHall n = coreHall c →
    exec (.doorbellSet c n) s = .next (wrOk (raise s (180 + n))))
  ∧ (∀ (s : State) (c n : Nat), coreOf c = some c → 1280 ≤ n ∨ srcHall s n ≠ coreHall c →
    exec (.edAck c n false) s = .next (busErr s) ∧ (∀ v, exec (.edSrcWrite c n v) s = .next (busErr s)))
  ∧ (∀ (s : State) (m : Nat) (v : Word), mayWrite s m 0x30024 → bitOf v.toNat 0 = true →
    exec (.edErrForce m v) s = .next (wrOk (pulse { s with ed := { s.ed with err := true } } 39 .safe)))

/-- R629 to R642: locks of the PLLs, the rail, and the reset pin. -/
def Obligations.PowerEventsRun : Prop :=
  (∀ (s : State),
    exec (.pllPortUnlock .pclkA) s = .next (pcFire (modPort
      { s with power := { s.power with pll := clrBit s.power.pll 4 } } 0 portDown) 3)
    ∧ exec (.pllPortUnlock .pclkB) s = .next (pcFire (modPort
      { s with power := { s.power with pll := clrBit s.power.pll 5 } } 1 portDown) 3)
    ∧ exec (.pllPortUnlock .lclk) s = .next (pcFire
      { s with power := { s.power with pll := clrBit s.power.pll 6 }, twin := { s.twin with lanes := 0 } } 3)
    ∧ exec (.pllRelock .pclkA) s = .next (modPort
      { s with power := { s.power with pll := setBit s.power.pll 4 } } 0 (fun q => { q with pllOk := true }))
    ∧ exec (.pllRelock .pclkB) s = .next (modPort
      { s with power := { s.power with pll := setBit s.power.pll 5 } } 1 (fun q => { q with pllOk := true }))
    ∧ exec (.pllRelock .lclk) s = .next { s with power := { s.power with pll := setBit s.power.pll 6 } })
  ∧ (∀ (s : State) (p : Pll), p = .cclk ∨ p = .kclk ∨ p = .hclk ∨ p = .mclk → exec (.pllCoreUnlock p) s
    = .next (pcFire { s with power := { s.power with pll := clrBit s.power.pll (pllBit p) } } 4))
  ∧ (∀ (s : State), s.power.powered = true → ∃ t, exec .railFall s = .next t ∧ t.power.powered = false
    ∧ t.fc.faultN = none ∧ t.net = State.reset.net ∧ t.cipher = State.reset.cipher ∧ t.pk = State.reset.pk
    ∧ t.tally.seed = none ∧ t.tally.buffers = [] ∧ t.tally.checkTot = t.tally.totals ∧ t.otp = s.otp ∧ t.bb = s.bb)
  ∧ (∀ (s : State) (mv : Nat), s.power.powered = false → 11200 < mv → ∃ t, exec (.railRise mv) s = .next t
    ∧ t.power.powered = true ∧ t.power.holdup = true ∧ t.boot.stopped = false ∧ t.boot.step = 0 ∧ t.fc = State.reset.fc
    ∧ t.keys.snap0 = s.keys.snap0 ∧ t.keys.snap1 = s.keys.snap1 ∧ t.keys.archJournal = s.keys.archJournal ∧ t.otp = s.otp ∧ t.bb = s.bb)
  ∧ (∀ (s t : State) (mv : Nat), s.power.powered = true → 10800 ≤ mv →
    t = { s with power := { s.power with mv := mv } } →
    exec (.vinLow mv) s = .next (if mv < 11400 ∧ ¬ (10800 ≤ s.power.mv ∧ s.power.mv < 11400) then pcFire t 0 else t))
  ∧ (∀ (s t : State) (ns : Nat), s.power.powered = true → 1000 ≤ ns → t = resetSteps s →
    exec (.resetNLow ns) s = .next { t with boot := { t.boot with stopped := false } })

/-- R200, R461, R475, R636: a reset that interrupts no erasure leaves one-time programmable memory and the 
battery-backed bits as they are, and no session, no accepted command, no operation, no job and no key outside the Archive; the
service state is `STARTING`, the collector is at its reset values, and only `BLANK` has debug enables. -/
def Obligations.ResetLeavesNoWork : Prop :=
  ∀ (s : State), s.power.powered = true → s.tamper.phase ≠ 2 → ∃ t, exec (.resetNLow 1000) s = .next t
    ∧ t.otp = s.otp ∧ t.bb = s.bb ∧ t.net.sessions = [] ∧ t.net.work = [] ∧ t.net.comps = [] ∧ t.cipher.ops = []
    ∧ t.pk.jobs = [] ∧ t.keys.secrets = [] ∧ t.keys.journal = [] ∧ t.stair.identity = [] ∧ t.stair.ledger = []
    ∧ t.fc.service = .starting ∧ t.fc.status = 0 ∧ t.life.dbg = (if voteOf s.otp.copies = some 0 then 0xF else 0)

/-- R511 to R534: a start runs its steps, a step over its limit fails the start, 600 s of service clear the count, and
a reset that is due runs. -/
def Obligations.StartsRun : Prop :=
  (∀ (s : State) (e : StartEnv), s.power.powered = true → s.boot.step = 0 → s.boot.running = false →
    s.boot.stopped = false → s.boot.resetAt = none → s.fc.service = .starting →
    exec (.start e) s = .next (runSteps 12 1 e s))
  ∧ (∀ (s : State) (n : Nat), s.boot.running = true → s.stair.paused = false → s.boot.step < n → n ≤ 12 →
    s.twin.waiting = false → s.boot.began + stepLimit n * 10 ^ 6 ≤ s.time →
    exec (.startStepLimit n) s = .next (startFail s n .timeout))
  ∧ (∀ (s : State), s.fc.service = .inService ∨ s.fc.service = .degraded → s.boot.cleared = false →
    s.boot.began + 600 * 10 ^ 9 ≤ s.time → exec .service600s s = .next { s with boot := { s.boot with
      cleared := true, attempt := { s.boot.attempt with fails := 0, hard := 0, seq := s.boot.attempt.seq + 1 } } })
  ∧ (∀ (s t : State) (d : Nat), s.life.trans = none → t = settleRestart s → t.boot.resetAt = some d → d ≤ t.time →
    t.fc.service ≠ .tampered → exec .selfReset s = .next (resetSteps t))

/-- R586 to R609: the Tally takes its seed once, accumulates, captures records, steers its time and reports its
faults. -/
def Obligations.TallyRuns : Prop :=
  (∀ (s : State) (seed : Bytes), s.tally.seed = none →
    exec (.tallySeedDelivery seed) s = .next (signAll { s with tally := { s.tally with seed := some seed } }))
  ∧ (∀ (s : State) (k : Bytes), s.tally.seed = some k → exec (.tallySeedDelivery k) s = .next s)
  ∧ (∀ (s : State) (k seed : Bytes), s.tally.seed = some k → k ≠ seed →
    exec (.tallySeedDelivery seed) s = .next (pulse s 38 .degrade))
  ∧ (∀ (s : State), exec .tallyAccumulate s = .next { s with tally := tallyDrain 4 s.tally })
  ∧ (∀ (s : State), tallySec s % s.tally.interval = 0 ∨ s.tally.cut ≠ [] → lastSec s.tally ≠ some (tallySec s) →
    exec .tallyRecordDue s = .next (signAll { s with tally := capture s.tally (!s.tally.cut.isEmpty) }))
  ∧ (∀ (s : State), exec (.tallyTimePath false) s = .next { s with tally := { s.tally with
      discipl := false, err := s.tally.err &&& 0x8, rate := 0 } })
  ∧ (∀ (s : State), s.tally.suspect = false → exec (.tallyTimePath true) s = .next { s with tally := { s.tally with
      discipl := true, err := s.tally.err &&& 0x8, rate := clampPpm ((tallyTarget s - s.tally.time) / 1000) } })
  ∧ (∀ (s : State), s.tally.suspect = true → ∃ t, exec (.tallyTimePath true) s = .next t
    ∧ s.tally.time ≤ t.tally.time ∧ tallyTarget s ≤ t.tally.time ∧ t.tally.suspect = false)
  ∧ (∀ (s : State) (lost : Bool) (n : Nat), s.tally.core = 0 → ∃ t, exec (.tallyPowerUp lost n) s = .next t
    ∧ t.tally.core = 1 ∧ t.tally.resumed = true ∧ t.tally.totals = s.tally.checkTot
    ∧ t.tally.time = (if lost then s.tally.checkTime else s.tally.checkTime + n)
    ∧ t.tally.suspect = (s.tally.suspect || lost))
  ∧ (∀ (s : State), exec (.tallyFault .watchdog) s
      = .next (pulse { s with tally := { s.tally with err := setBit s.tally.err 2 } } 38 .note)
    ∧ exec (.tallyFault .sourceFatal) s = .next (pulse s 38 .degrade)
    ∧ exec (.tallyFault .pathParity) s = .next (pulse (logEvent { s with tally := { s.tally with
        err := setBit s.tally.err 0, pathFault := true } } 7) 38 .degrade)
    ∧ exec (.tallyFault .accParity) s = .next (pulse (logEvent { s with tally := { s.tally with
        err := setBit s.tally.err 1, pathFault := true } } 7) 38 .degrade))

/-- R591 to R593: one entry of the combining buffers adds its quantity by the weight of its tariff row to one category
of one domain, saturating, and leaves every other total. -/
def Obligations.TotalsAccumulate : Prop :=
  ∀ (t : Tally) (wing d meter qty cat weight d' k : Nat), tget t.tariff meter = some (cat, weight) → cat < 16 → k < 16 →
    (∀ l, tget t.totals d = some l → l.length = 16) →
    ((tgetD (tallyEntry t (wing, d, meter, qty)).totals d' (List.replicate 16 0)).getD k 0
      = if d' = d ∧ k = cat then min ((tgetD t.totals d (List.replicate 16 0)).getD cat 0 + qty * weight) (2 ^ 64 - 1)
        else (tgetD t.totals d' (List.replicate 16 0)).getD k 0)

/-- R611, R615, R619, R623: a strobe latches while the Outer Hall owns the reader and counts as missed while it does
not; forced errors act. -/
def Obligations.PerformanceReaderRuns : Prop :=
  (∀ (s : State), s.time / (s.perf.interval * 1000) ≠ s.perf.lastAt / (s.perf.interval * 1000) → readerRuns s = true →
    ∃ t, exec .snapshotStrobe s = .next t ∧ t.perf.snapSeq = s.perf.snapSeq + s.perf.missed + 1 ∧ t.perf.missed = 0
      ∧ t.perf.interval = s.perf.intNext ∧ t.perf.selNext = [] ∧ t.perf.lastAt = s.time
      ∧ (∀ k, thas s.perf.selNext k = false → tget t.perf.counts k = tget s.perf.counts k))
  ∧ (∀ (s : State), s.time / (s.perf.interval * 1000) ≠ s.perf.lastAt / (s.perf.interval * 1000) → readerRuns s = false →
    exec .snapshotStrobe s = .next { s with perf := { s.perf with
      missed := s.perf.missed + 1, gap := true, lastAt := s.time } })
  ∧ (∀ (s : State) (m : Nat) (v : Word), mayWrite s m 0x90024 →
    exec (.prErrForce m v) s = .next (wrOk ((setBits 3 v.toNat).foldl prFire s)))

/-- R615, R616, R619: once device time has crossed a multiple of the interval, a `SNAPSHOT_STROBE` completes: a new
snapshot is the newest of at most 64, with the next sequence number, and selects and interval take their shadowed
values; while the Outer Hall does not own the reader it counts as missed. R623: an admitted `PR_ERR_FORCE`
completes without an error, sets the sources that it names and no other, and changes no setting of the reader. -/
def Obligations.StrobesAndForcedReaderErrorsComplete : Prop :=
  (∀ (s : State), s.time / (s.perf.interval * 1000) ≠ s.perf.lastAt / (s.perf.interval * 1000) ∨ s.perf.stepped = true →
    (readerRuns s = true → ∃ t b, exec .snapshotStrobe s = .next t
      ∧ t.perf.snaps = ((s.perf.snapSeq + s.perf.missed + 1, b) :: s.perf.snaps).take 64
      ∧ t.perf.snapSeq = s.perf.snapSeq + s.perf.missed + 1 ∧ t.perf.missed = 0 ∧ t.perf.stepped = false
      ∧ t.perf.gap = false ∧ t.perf.interval = s.perf.intNext ∧ t.perf.selNext = [] ∧ t.perf.lastAt = s.time
      ∧ { t with perf := s.perf, net := s.net, fresh := s.fresh } = s)
    ∧ (readerRuns s = false → exec .snapshotStrobe s = .next { s with perf := { s.perf with
      missed := s.perf.missed + 1, gap := true, lastAt := s.time } }))
  ∧ (∀ (s : State) (m : Nat) (v : Word), mayWrite s m 0x90024 → ∃ t, exec (.prErrForce m v) s = .next t
    ∧ t.lastErr = false ∧ (∀ i, i < 3 → v.toNat.testBit i = true → t.perf.err.getLsbD i = true)
    ∧ (∀ i, v.toNat.testBit i = false → t.perf.err.getLsbD i = s.perf.err.getLsbD i)
    ∧ t.perf.interval = s.perf.interval ∧ t.perf.sel = s.perf.sel)

/-! ### Twins, the Gallery and registers -/

/-- R539 to R544, R585: frames of Ibvelet are taken in order, asked for and sent again; heartbeats are sent; the link
is lost by its three causes and by forced errors, and comes up keyed by a handshake whose checks pass. R541: a frame
that is accepted moves the receive number by one, acknowledges what the partner has, and frees a place of its channel;
the link, the keys and every other part of the machine stay. -/
def Obligations.IbveletRuns : Prop :=
  (∀ (s : State) (f : IbFrame), s.twin.link = 3 → ibTag s.twin.rxKey s.twin.rxSalt f = f.tag →
    f.seq = s.twin.rxSeq + 1 → exec (.ibveletFrame f) s = .next (ibAccept s f))
  ∧ (∀ (s : State) (f : IbFrame), s.twin.link = 3 → ibTag s.twin.rxKey s.twin.rxSalt f = f.tag →
    f.seq ≠ s.twin.rxSeq + 1 → exec (.ibveletFrame f) s = .next (ibAsk s))
  ∧ (∀ (s : State) (f : IbFrame), s.twin.link = 3 → ibTag s.twin.rxKey s.twin.rxSalt f ≠ f.tag →
    exec (.ibveletFrame f) s = .next (ibFire s 1))
  ∧ (∀ (s : State) (n : Nat), s.twin.link = 3 → ∃ t, exec (.ibRetransmitRequest n) s = .next t
    ∧ t.outbox = s.outbox ++ (s.twin.kept.filter (fun f => decide (n ≤ f.seq))).map (fun f => Output.ibFrame f)
    ∧ t.twin.kept = s.twin.kept ∧ t.twin.link = 3 ∧ t.twin.sentAt = s.time ∧ t.twin.err.getLsbD 0 = true)
  ∧ (∀ (s : State), s.twin.link = 3 → s.twin.sentAt + 10000 ≤ s.time →
    exec .ibHeartbeatDue s = .next (ibControl s []))
  ∧ (∀ (s : State), s.twin.link = 3 → exec (.ibLinkLost .tag) s = .next (ibFire s 1))
  ∧ (∀ (s : State), s.twin.link = 3 → s.twin.authAt + 100000 ≤ s.time →
    exec (.ibLinkLost .timeout) s = .next (ibFire s 3))
  ∧ (∀ (s : State), s.twin.link ≠ 0 →
    exec (.ibLinkLost .lane) s = .next (ibFire { s with twin := { s.twin with lanes := 0 } } 2))
  ∧ (∀ (s : State) (m : Nat) (v : Word), mayWrite s m 0x380024 →
    exec (.ibErrForce m v) s = .next (wrOk ((setBits 6 v.toNat).foldl ibFire s)))
  ∧ (∀ (s t u : State) (p : IbPeer) (rnd : Bytes) (h : Bytes × Bytes × Bytes × Bytes × Bytes),
    s.twin.pair.paired = true → s.twin.down = false → s.twin.link ≠ 3 → drawState s 6 = .ok →
    drawFrom s 6 112 = (rnd, t) → h = ibHalf t p rnd →
    u = emit t (.ibHandshake t.twin.side (rnd.take 16) h.1 h.2.1 (zeroCert t) (statementFor t 0 (h.2.2.2.2.take 32))) →
    ibPeerOk u p h.2.2.2.2 = true → ∃ v, exec (.ibLinkHandshake p) s = .next v ∧ v.twin.twinKey = p.alcoveKey
      ∧ v.twin.rxKey ≠ [] ∧ (s.twin.kept = [] → v.twin.link = 3 ∧ v.twin.txSeq = 1 ∧ v.twin.rxSeq = 0
      ∧ v.twin.lanes = 0xF))
  ∧ (∀ (s : State) (f : IbFrame), s.twin.link = 3 → ibTag s.twin.rxKey s.twin.rxSalt f = f.tag →
     f.seq = s.twin.rxSeq + 1 → ∃ t, exec (.ibveletFrame f) s = .next t ∧ t.twin.rxSeq = s.twin.rxSeq + 1
     ∧ (∀ k ∈ t.twin.kept, f.ackSeq < k.seq ∧ k ∈ s.twin.kept) ∧ t.twin.peerFreed = f.credits
     ∧ exec (.ibveletFrame f) t = .next (ibAsk t) ∧ { t with twin := s.twin } = s)

/-- R551 to R557: mirror records that arrive are held, forwarded mutations are refused or sequenced, and the marks,
the sessions, the acceptances, the alcoves and the sections of the partner are kept. -/
def Obligations.MirrorRecordsArrive : Prop :=
  (∀ (s : State) (r : JournalRec), twinned s = true → s.twin.held.contains r = false →
    exec (.journalRecordMirror r) s = .next (emit { s with twin := { s.twin with
      held := s.twin.held ++ [r], reported := s.twin.reported ++ [(r.domain, r.seq)] } } (.journalHeld r.domain r.seq)))
  ∧ (∀ (s : State) (r : JournalRec) (e : Nat), twinned s = true → seqHere s r.domain = true →
    journalTakes s (recordSize r.body) = true → forwardRefused s r e = none →
    exec (.forwardedMutation r e) s = .next (sequenceForward s r))
  ∧ (∀ (s : State) (r : JournalRec) (e n : Nat), twinned s = true → seqHere s r.domain = true →
    journalTakes s (recordSize r.body) = true → forwardRefused s r e = some n →
    exec (.forwardedMutation r e) s = .next (emit s (.forwardResult r.domain 0 n)))
  ∧ (∀ (s : State) (r : SessionMirror), twinned s = true → ∃ t, exec (.sessionRecord r) s = .next t
    ∧ t.twin.mirrors = s.twin.mirrors.filter (fun m => m.alcove != r.alcove || m.session != r.session) ++ [r]
    ∧ (∀ m ∈ t.twin.marks, ¬ (m.1 = r.alcove ∧ m.2.1 = r.session)) ∧ { t with twin := s.twin } = s)
  ∧ (∀ (s : State) (a i : Nat) (m : MirrorMark), twinned s = true → exec (.packetMark a i m) s
    = .next { s with twin := { s.twin with
      marks := s.twin.marks.filter (fun x => x.1 != a || x.2.1 != i || !sameMark x.2.2 m) ++ [(a, i, m)] } })
  ∧ (∀ (s : State) (r : AcceptMirror), twinned s = true → exec (.acceptanceRecord r) s
    = .next { s with twin := { s.twin with
      accepts := s.twin.accepts.filter (fun a => a.alcove != r.alcove || a.session != r.session || a.seq != r.seq) ++ [r] } })
  ∧ (∀ (s : State) (r : AlcoveRecord), twinned s = true → r.set.alcove ≠ 0 → alc s r.set.alcove = none →
    exec (.alcoveRecord r) s = .next { s with twin := { s.twin with alcoves := tput s.twin.alcoves r.set.alcove r } })
  ∧ (∀ (s t : State) (h : Bytes) (b : List (Nat × Bytes)), s.twin.link = 3 → s.twin.state ≠ .unpaired →
    t = flipPrefer (emit (stageConfig s h b) .sectionHeld) 2 → t.twin.waiting = false →
    exec (.sectionLoadForward h b) s = .next (settleLoads (applySections t (b.map (·.1))).1))
  ∧ (∀ (s t : State) (n : Nat), s.twin.link = 3 → t = { s with twin := { s.twin with service := n } } →
    exec (.serviceStateNotice n) s = .next (if s.twin.state = .joined ∧ (n = 3 ∨ n = 4) then
      { t with twin := { t.twin with takeAt := some s.time, lostAt := none } } else t))

/-- R557, R558, R568, R569: a copy replaces the key store of a side that joins; a pair whose images agree is joined,
and the wait for the link ends; a planned move leaves an old home that has no accepted work and enters the new one. -/
def Obligations.TwinsJoinAndMove : Prop :=
  (∀ (s : State) (b : BulkState), joinable s = true → s.twin.state ≠ .survivor → b.domains = [] → b.alcoves = [] →
    ∃ t, exec (.bulkCopy b) s = .next t
      ∧ t.keys.secrets = b.secrets.map (fun e => (e.1, copySecret b s.keys e.1 e.2))
      ∧ t.keys.checks = b.checks ∧ t.keys.freed = b.freed ∧ t.keys.retired = b.retired
      ∧ t.keys.instNext = max s.keys.instNext b.instNext ∧ t.keys.cache = [] ∧ t.keys.domains = [] ∧ t.twin.held = []
      ∧ t.keys.journal = [] ∧ t.keys.snapping = some t.keys.archive ∧ t.keys.archive.secrets = t.keys.secrets
      ∧ { t with keys := s.keys, twin := s.twin } = s)
  ∧ (∀ (s : State) (j : JoinInfo), joinable s = true → headSerial (cfgSlot s).head = j.serial →
    zeroAt (cfgSlot s).head 16 16 = true → imagesAgree s j = true →
    exec (.twinJoin j) s = .next (joinPair (((dropAbove s j).twin.held ++ j.records).foldl (takeRecord j) (dropAbove s j)) j))
  ∧ (∀ (s : State), s.twin.waiting = true → s.twin.link ≠ 3 → s.boot.began + 200 * 10 ^ 6 ≤ s.time →
    exec .twinLinkWaitExpiry s = .next (goOn { s with twin := { s.twin with waiting := false, state := .held } } 10))
  ∧ (∀ (s t : State) (a : Nat) (l : List MovedSession), s.twin.state = .joined → s.twin.link = 3 → a ≠ 0 →
    thas s.net.alcoves a = true → homeOf s a ≠ s.twin.side → t = quiesce s a → alcoveWorks t a t.net.nextWork = false →
    exec (.plannedMove a l) s = .next (handAway (emit t (.planned a (movedAll t a))) a))
  ∧ (∀ (s : State) (a : Nat) (l : List MovedSession), s.twin.state = .joined → s.twin.link = 3 → a ≠ 0 →
    thas s.net.alcoves a = false → thas s.twin.alcoves a = true → homeOf s a = s.twin.side →
    exec (.plannedMove a l) s = .next (moveIn s a l))
  ∧ (∀ (s : State) (t : Nat), s.twin.joinedAt = some t → s.twin.state = .joined → t + s.twin.failback * 10 ^ 9 ≤ s.time →
    exec .failbackExpiry s = .next ((awayFromHome s).foldl quiesce { s with twin := { s.twin with joinedAt := none } }))

/-- R559 to R562: the presence check asks, ends and decides between takeover and yielding; the takeover runs when it
is due; announcements repeat. -/
def Obligations.TheSurvivorTakesOver : Prop :=
  (∀ (s : State), s.twin.state = .joined → s.twin.keepAt + 10 ^ 10 ≤ s.time → tget s.gallery.clients 128 = some 1 →
    exec .twinKeepaliveDue s = .next (emit { s with twin := { s.twin with keepAt := s.time } } (.clientAck 128)))
  ∧ (∀ (s : State) (t : Nat), s.twin.lostAt = some t → s.twin.state = .joined → s.twin.queries < 20 →
    t + s.twin.queries * 10 ^ 6 ≤ s.time → tget s.gallery.clients 128 = some 1 → exec .presenceQueryDue s
    = .next (emit { s with twin := { s.twin with queries := s.twin.queries + 1 } }
      (.clientCommand 128 0x0103 ((sendLink s (4 * (s.twin.queries % 2))).getD (4 * (s.twin.queries % 2))) (zeros 8))))
  ∧ (∀ (s : State) (m : ClientMsg), m.session = 128 → m.ok = true → m.status = 0 → s.twin.lostAt.isSome = true →
    tget s.gallery.clients 128 = some 1 →
    exec (.completionReceived m) s = .next { s with twin := { s.twin with answered := true } })
  ∧ (∀ (s : State) (t : Nat), s.twin.lostAt = some t → s.twin.state = .joined → t + 20 * 10 ^ 6 ≤ s.time →
    (s.twin.link = 3 → exec .presenceCheckEnd s = .next { s with twin := { s.twin with lostAt := none } })
    ∧ (s.twin.link ≠ 3 → s.twin.answered = true → s.twin.side = 1 → exec .presenceCheckEnd s = .next (yieldSide s))
    ∧ (s.twin.link ≠ 3 → s.twin.answered = true → s.twin.side ≠ 1 → exec .presenceCheckEnd s
      = .next { s with twin := { s.twin with takeAt := some (s.time + 2 * 10 ^ 6), lostAt := none } })
    ∧ (s.twin.link ≠ 3 → s.twin.answered = false → (firstUp s 0).isSome = true ∨ (firstUp s 1).isSome = true →
      exec .presenceCheckEnd s = .next { s with twin := { s.twin with takeAt := some s.time, lostAt := none } })
    ∧ (s.twin.link ≠ 3 → s.twin.answered = false → firstUp s 0 = none → firstUp s 1 = none →
      exec .presenceCheckEnd s = .next (yieldSide s)))
  ∧ (∀ (s : State) (t : Nat), s.twin.takeAt = some t → s.twin.state = .joined → t ≤ s.time →
    exec .takeover s = .next (takeOver s))
  ∧ (∀ (s : State), s.twin.rounds ≠ [] → s.twin.roundAt ≤ s.time → ∃ t, exec .announcementDue s = .next t
    ∧ t.twin.roundAt = s.time + 10 ^ 6
    ∧ t.twin.rounds = (s.twin.rounds.map (fun r => (r.1, r.2 - 1))).filter (fun r => r.2 != 0))

/-- R57 to R62, R570: probes and client sessions: a probe goes out, a manager's key is taken from its reply, a `REPLY`
that proves its key is answered, and `READY` opens the session. -/
def Obligations.ClientSessionsOpen : Prop :=
  (∀ (s : State), s.gallery.role = 1 → (alc s 0).isSome = true → s.gallery.probeAt ≤ s.time →
    exec .galleryProbeDue s = .next (sendHello { s with gallery := { s.gallery with
      probeAt := s.time + 60 * 10 ^ 9 } } 255 0 (zeros 16)))
  ∧ (∀ (s t : State) (p k h : Bytes) (x : Alcove), tget s.gallery.hellos 255 = some h → alc s 0 = some x →
    s.gallery.role = 1 → (chainIdentity (splitCerts (replyCerts p))).map (fun e => (Config.sha512 e).take 16) = s.boot.authority →
    s.boot.authority.isSome = true →
    replyProves h p k = true →
    t = { s with gallery := { s.gallery with mgrKey := some k, mgrOf := s.boot.authority, hellos := tdel s.gallery.hellos 255 } } →
    exec (.probeReply p k) s = .next (putKeys t 0
      (x.keys.filter (fun e => e.2 != .galleryManager && e.1 != k) ++ [(k, Role.galleryManager)])))
  ∧ (∀ (s : State) (m : ClientMsg) (th : Bytes), tget s.gallery.clients m.session = some 0 → m.ok = true →
    clientKeyOk s m.session m.payload = true →
    th = Config.sha512 ((tget s.gallery.hellos m.session).getD [] ++ m.payload) →
    exec (.replyReceived m) s = .next (emit s (.clientFinish m.session (slice m.payload 2 1 ++ zeros 3
      ++ Config.edSign (((alc s 0).map (fun x => x.alcoveKey)).getD []) (ascii "WCP1 client" ++ th)))))
  ∧ (∀ (s : State) (m : ClientMsg), tget s.gallery.clients m.session = some 0 → m.ok = true →
    exec (.readyReceived m) s = .next (askReceiveKey { s with gallery := { s.gallery with
      clients := tput s.gallery.clients m.session 1, hellos := tdel s.gallery.hellos m.session } } m.session))
  ∧ (∀ (s : State) (m : ClientMsg), tget s.gallery.clients m.session = some 0 → m.ok = false →
    exec (.readyReceived m) s = .next { s with gallery := { s.gallery with
      clients := tdel s.gallery.clients m.session, hellos := tdel s.gallery.hellos m.session } })

/-- R5 to R9, R15, R31: a register write that is admitted acts on its window; one that is not is refused; a read of
the low half of a pair captures the high half, and a write of the high half is held for the write of the low. R15,
R31: a refused register write has no effect but the error response, the bit of `HC_ERR`, the event count and the
`NOTE` of line 15, which the collector records with the address and the master. -/
def Obligations.RegisterCommandsAct : Prop :=
  (∀ (s : State) (m addr off : Nat) (w : Win) (v : Word), windowOf addr = some (w, off) → admits s m w off true = true →
    exec (.registerWrite m addr v 0) s = .next (writeWin s m w off v)
    ∧ (∀ n t, n ≠ 0 → t = writeWin s m w off v →
      exec (.registerWrite m addr v n) s = .next { hwSets t m w off n with lastErr := t.lastErr, lastVal := t.lastVal }))
  ∧ (∀ (s : State) (m addr off : Nat) (w : Win) (v : Word), windowOf addr = some (w, off) → admits s m w off true = false →
    exec (.registerWrite m addr v 0) s = .next (refuse s m addr true))
  ∧ (∀ (s : State) (m addr n : Nat) (v : Word), windowOf addr = none → exec (.registerWrite m addr v n) s = .next (busErr s))
  ∧ (∀ (s : State) (m addr off h : Nat) (w : Win) (v : Word), windowOf addr = some (w, off) →
    admits s m w off false = true → pairHi w off = some h → readRaw s w off = some v →
    exec (.regPairLoRead m addr) s = .next (busOk (captureHi s m (addr + 4) ((readRaw s w h).getD 0)) v))
  ∧ (∀ (s : State) (m off : Nat) (v : Word), off = 4 ∨ off = 0x34 → mayWrite s m (0x20000 + off) →
    exec (.regPairHiWrite m (0x20000 + off) v) s = .next (wrOk (holdHi s m (0x20000 + off) v)))
  ∧ (∀ (s : State) (m : Nat) (v : Word), mayWrite s m 0x1002C →
    exec (.regPairHiWrite m 0x1002C v) s = .next (wrOk (holdHi s m 0x1002C v)))
  ∧ (∀ (s : State) (m addr off : Nat) (w : Win) (v : Word), windowOf addr = some (w, off) → admits s m w off true = false →
     ∃ t, exec (.registerWrite m addr v 0) s = .next t ∧ t.lastErr = true ∧ t.halls.err = setBit s.halls.err 0
       ∧ t.fc.status = setBit s.fc.status 15 ∧ t.fc.service = s.fc.service
       ∧ (s.fc.valid = false → s.fc.capMin ≤ 1 → t.fc.fLine = 15 ∧ t.fc.fAddr = addr ∧ t.fc.fMaster = m)
       ∧ { t with fc := s.fc, perf := s.perf, halls := s.halls, lastErr := s.lastErr, lastVal := s.lastVal } = s
       ∧ { t.halls with err := s.halls.err } = s.halls)
end

