-- ==== Sys2Proof/Laws/Crypto.lean ====
section
/-! SUPPORT. What holds of the algorithms of the standards whatever their operands: the length of each result, that
counter-mode encryption undoes itself, and that the equation of R332 holds for the key of order 1. -/

namespace Sys2Proof.Laws

open Sys2Proof.Config Sys2Proof.Machine

@[simp] theorem fixLen_length (n : Nat) (l : Bytes) : (fixLen n l).length = n := by simp [fixLen]

@[simp] theorem hash_length (a : Nat) (m : Bytes) : (Config.hash a m).length = hashLen a := by simp [Config.hash]

@[simp] theorem sha512_length (m : Bytes) : (Config.sha512 m).length = 64 := by simp [Config.sha512, hashLen]

@[simp] theorem hmac512_length (k m : Bytes) : (hmac512 k m).length = 64 := by simp [hmac512, hmac, hashLen]

@[simp] theorem gcmTag_length (k n a c : Bytes) : (gcmTag k n a c).length = 16 := by simp [gcmTag]

@[simp] theorem edSign_length (k m : Bytes) : (edSign k m).length = 64 := by simp [edSign]

@[simp] theorem edPub_length (k : Bytes) : (edPub k).length = 32 := by simp [edPub]

@[simp] theorem x25519_length (k u : Bytes) : (x25519 k u).length = 32 := by simp [x25519]

@[simp] theorem kemPub_length (b : Bool) (k : Bytes) : (kemPub b k).length = ekLen b := by simp [kemPub]

@[simp] theorem xorBytes_length (a b : Bytes) : (xorBytes a b).length = min a.length b.length := by simp [xorBytes]

@[simp] theorem aesCtr_length (k b : Bytes) (w : Nat) (d : Bytes) : (aesCtr k b w d).length = d.length := by simp [aesCtr]

@[simp] theorem gcmCrypt_length (k n d : Bytes) : (gcmCrypt k n d).length = d.length := by simp [gcmCrypt]

/-- Exclusive or twice with a string that is long enough. -/
theorem xorBytes_twice (a b : Bytes) (h : a.length ≤ b.length) : xorBytes (xorBytes a b) b = a := by
  induction a generalizing b with
  | nil => rfl
  | cons x a ih =>
    cases b with
    | nil => simp at h
    | cons y b =>
      have e : x ^^^ y ^^^ y = x := by rw [BitVec.xor_assoc, BitVec.xor_self, BitVec.xor_zero]
      have i := ih b (by simpa using h)
      simp only [xorBytes, List.zipWith] at i ⊢
      rw [i, e]

/-- Decryption in counter mode undoes encryption. -/
@[simp] theorem aesCtr_twice (k b : Bytes) (w : Nat) (d : Bytes) : aesCtr k b w (aesCtr k b w d) = d := by
  have l : (aesCtr k b w d).length = d.length := aesCtr_length k b w d
  unfold aesCtr at l ⊢
  rw [l]
  exact xorBytes_twice d _ (by simp)

@[simp] theorem gcmCrypt_twice (k n d : Bytes) : gcmCrypt k n (gcmCrypt k n d) = d := aesCtr_twice k _ 32 d

@[simp] theorem ccmCrypt_twice (k n d : Bytes) : ccmCrypt k n (ccmCrypt k n d) = d := aesCtr_twice k _ 24 d

/-! ### Ed25519 with the neutral point -/

/-- The coordinates of the neutral point, with any factor. -/
def neutral (a : Std.EdPoint) : Prop := a.x = 0 ∧ a.t = 0 ∧ a.y = a.z

theorem neutral_add {a b : Std.EdPoint} (h : neutral a) (k : neutral b) : neutral (Std.edAdd a b) := by
  obtain ⟨x, y, z, t⟩ := a
  obtain ⟨x', y', z', t'⟩ := b
  obtain ⟨rfl, rfl, rfl⟩ : x = 0 ∧ t = 0 ∧ y = z := h
  obtain ⟨rfl, rfl, rfl⟩ : x' = 0 ∧ t' = 0 ∧ y' = z' := k
  have z0 : ∀ n, Std.subMod Std.p25519 n 0 = n % Std.p25519 := fun n => by simp [Std.subMod]
  have m : y % Std.p25519 * (y' % Std.p25519) % Std.p25519 = y * y' % Std.p25519 := (Nat.mul_mod ..).symm
  have e : Std.subMod Std.p25519 (y * y' % Std.p25519) (y * y' % Std.p25519) = 0 := by
    have l : y * y' % Std.p25519 < Std.p25519 := Nat.mod_lt _ (by decide)
    rw [Std.subMod, Nat.mod_mod, Nat.add_sub_cancel' (Nat.le_of_lt l), Nat.mod_self]
  have d : (y * y' % Std.p25519 + y * y' % Std.p25519) % Std.p25519 = 2 * y * y' % Std.p25519 := by
    rw [Nat.mul_assoc, Nat.two_mul, Nat.add_mod, Nat.mod_mod, ← Nat.add_mod]
  refine ⟨?_, ?_, ?_⟩
  · simp [Std.edAdd, z0, m, e]
  · simp [Std.edAdd, z0, m, e]
  · simp only [Std.edAdd, z0, m, Nat.add_zero, Nat.mul_zero, Nat.zero_mul, Nat.zero_mod, Nat.mod_mod]
    rw [Nat.mul_mod, d, Nat.mod_mod, ← Nat.mul_mod, Nat.mul_mod]

theorem neutral_mul (k : Nat) {a : Std.EdPoint} (h : neutral a) (n : Nat) {r : Std.EdPoint} (g : neutral r) :
    neutral (Std.edMul k a n r) := by
  induction n generalizing r with
  | zero => exact g
  | succ n ih =>
    have d := neutral_add g g
    simp only [Std.edMul]
    split
    · exact ih (neutral_add d h)
    · exact ih d

theorem neutral_mul_zero (a : Std.EdPoint) (n : Nat) {r : Std.EdPoint} (g : neutral r) : neutral (Std.edMul 0 a n r) := by
  induction n generalizing r with
  | zero => exact g
  | succ n ih =>
    simp only [Std.edMul, Nat.zero_testBit, Bool.false_eq_true, if_false]
    exact ih (neutral_add g g)

theorem neutral_eq {a b : Std.EdPoint} (h : neutral a) (k : neutral b) : Std.edEq a b = true := by
  simp [Std.edEq, h.1, k.1, h.2.2, k.2.2, Nat.mul_comm]

/-- Under the neutral point as key, the neutral point and the scalar 0 sign every message (R332). -/
theorem edVerify_neutral (m : Bytes) : edVerify (1 :: zeros 31) m (1 :: zeros 63) = true := by
  have p : Std.edPoint (1 :: zeros 31) = some Std.edZero := by decide +kernel
  have q : (1 :: zeros 63 : Bytes).take 32 = 1 :: zeros 31 := by decide
  have l : Std.leNat ((1 :: zeros 63 : Bytes).drop 32) = 0 := by decide
  have z : neutral Std.edZero := ⟨rfl, rfl, rfl⟩
  have g : ∀ k, neutral (Std.edMul 8 (Std.edAdd Std.edZero (Std.edMul k Std.edZero 256 Std.edZero)) 4 Std.edZero) :=
    fun k => neutral_mul 8 (neutral_add z (neutral_mul k z 256 z)) 4 z
  have h : neutral (Std.edMul 8 (Std.edBaseMul 0) 4 Std.edZero) := neutral_mul 8 (neutral_mul_zero _ 256 z) 4 z
  have n : (1 :: zeros 63 : Bytes).length = 64 ∧ 0 < Std.edL := by decide
  simp only [edVerify, Std.edVerify, q, p, l, n, and_self, decide_true, Bool.true_and]
  exact neutral_eq h (g _)

end Sys2Proof.Laws
end

