-- ==== Sys2Proof/Laws/State.lean ====
section
/-! SUPPORT. Every named update of the state, field by field: what it writes, and that every other field stays. -/

namespace Sys2Proof.Machine

variable (s : State)

/-! `emit` -/

@[simp] theorem emit_time (o : Output) :
    (emit s o).time = s.time := rfl
@[simp] theorem emit_net (o : Output) :
    (emit s o).net = s.net := rfl
@[simp] theorem emit_cipher (o : Output) :
    (emit s o).cipher = s.cipher := rfl
@[simp] theorem emit_pk (o : Output) :
    (emit s o).pk = s.pk := rfl
@[simp] theorem emit_digest (o : Output) :
    (emit s o).digest = s.digest := rfl
@[simp] theorem emit_rng (o : Output) :
    (emit s o).rng = s.rng := rfl
@[simp] theorem emit_keys (o : Output) :
    (emit s o).keys = s.keys := rfl
@[simp] theorem emit_stair (o : Output) :
    (emit s o).stair = s.stair := rfl
@[simp] theorem emit_ledger (o : Output) :
    (emit s o).ledger = s.ledger := rfl
@[simp] theorem emit_halls (o : Output) :
    (emit s o).halls = s.halls := rfl
@[simp] theorem emit_tamper (o : Output) :
    (emit s o).tamper = s.tamper := rfl
@[simp] theorem emit_bb (o : Output) :
    (emit s o).bb = s.bb := rfl
@[simp] theorem emit_otp (o : Output) :
    (emit s o).otp = s.otp := rfl
@[simp] theorem emit_life (o : Output) :
    (emit s o).life = s.life := rfl
@[simp] theorem emit_fc (o : Output) :
    (emit s o).fc = s.fc := rfl
@[simp] theorem emit_ed (o : Output) :
    (emit s o).ed = s.ed := rfl
@[simp] theorem emit_boot (o : Output) :
    (emit s o).boot = s.boot := rfl
@[simp] theorem emit_twin (o : Output) :
    (emit s o).twin = s.twin := rfl
@[simp] theorem emit_gallery (o : Output) :
    (emit s o).gallery = s.gallery := rfl
@[simp] theorem emit_tally (o : Output) :
    (emit s o).tally = s.tally := rfl
@[simp] theorem emit_perf (o : Output) :
    (emit s o).perf = s.perf := rfl
@[simp] theorem emit_power (o : Output) :
    (emit s o).power = s.power := rfl
@[simp] theorem emit_captured (o : Output) :
    (emit s o).captured = s.captured := rfl
@[simp] theorem emit_heldHi (o : Output) :
    (emit s o).heldHi = s.heldHi := rfl
@[simp] theorem emit_lastErr (o : Output) :
    (emit s o).lastErr = s.lastErr := rfl
@[simp] theorem emit_lastVal (o : Output) :
    (emit s o).lastVal = s.lastVal := rfl
@[simp] theorem emit_fresh (o : Output) :
    (emit s o).fresh = s.fresh := rfl
@[simp] theorem emit_outbox (o : Output) :
    (emit s o).outbox = s.outbox ++ [o] := rfl
@[simp] theorem emit_pending (o : Output) :
    (emit s o).pending = s.pending := rfl

/-! `emits` -/

@[simp] theorem emits_time (l : List Output) :
    (emits s l).time = s.time := rfl
@[simp] theorem emits_net (l : List Output) :
    (emits s l).net = s.net := rfl
@[simp] theorem emits_cipher (l : List Output) :
    (emits s l).cipher = s.cipher := rfl
@[simp] theorem emits_pk (l : List Output) :
    (emits s l).pk = s.pk := rfl
@[simp] theorem emits_digest (l : List Output) :
    (emits s l).digest = s.digest := rfl
@[simp] theorem emits_rng (l : List Output) :
    (emits s l).rng = s.rng := rfl
@[simp] theorem emits_keys (l : List Output) :
    (emits s l).keys = s.keys := rfl
@[simp] theorem emits_stair (l : List Output) :
    (emits s l).stair = s.stair := rfl
@[simp] theorem emits_ledger (l : List Output) :
    (emits s l).ledger = s.ledger := rfl
@[simp] theorem emits_halls (l : List Output) :
    (emits s l).halls = s.halls := rfl
@[simp] theorem emits_tamper (l : List Output) :
    (emits s l).tamper = s.tamper := rfl
@[simp] theorem emits_bb (l : List Output) :
    (emits s l).bb = s.bb := rfl
@[simp] theorem emits_otp (l : List Output) :
    (emits s l).otp = s.otp := rfl
@[simp] theorem emits_life (l : List Output) :
    (emits s l).life = s.life := rfl
@[simp] theorem emits_fc (l : List Output) :
    (emits s l).fc = s.fc := rfl
@[simp] theorem emits_ed (l : List Output) :
    (emits s l).ed = s.ed := rfl
@[simp] theorem emits_boot (l : List Output) :
    (emits s l).boot = s.boot := rfl
@[simp] theorem emits_twin (l : List Output) :
    (emits s l).twin = s.twin := rfl
@[simp] theorem emits_gallery (l : List Output) :
    (emits s l).gallery = s.gallery := rfl
@[simp] theorem emits_tally (l : List Output) :
    (emits s l).tally = s.tally := rfl
@[simp] theorem emits_perf (l : List Output) :
    (emits s l).perf = s.perf := rfl
@[simp] theorem emits_power (l : List Output) :
    (emits s l).power = s.power := rfl
@[simp] theorem emits_captured (l : List Output) :
    (emits s l).captured = s.captured := rfl
@[simp] theorem emits_heldHi (l : List Output) :
    (emits s l).heldHi = s.heldHi := rfl
@[simp] theorem emits_lastErr (l : List Output) :
    (emits s l).lastErr = s.lastErr := rfl
@[simp] theorem emits_lastVal (l : List Output) :
    (emits s l).lastVal = s.lastVal := rfl
@[simp] theorem emits_fresh (l : List Output) :
    (emits s l).fresh = s.fresh := rfl
@[simp] theorem emits_outbox (l : List Output) :
    (emits s l).outbox = s.outbox ++ l := rfl
@[simp] theorem emits_pending (l : List Output) :
    (emits s l).pending = s.pending := rfl

/-! `useFree` -/

@[simp] theorem useFree_time (n : Nat) :
    (useFree s n).time = s.time := rfl
@[simp] theorem useFree_net (n : Nat) :
    (useFree s n).net = s.net := rfl
@[simp] theorem useFree_cipher (n : Nat) :
    (useFree s n).cipher = s.cipher := rfl
@[simp] theorem useFree_pk (n : Nat) :
    (useFree s n).pk = s.pk := rfl
@[simp] theorem useFree_digest (n : Nat) :
    (useFree s n).digest = s.digest := rfl
@[simp] theorem useFree_rng (n : Nat) :
    (useFree s n).rng = s.rng := rfl
@[simp] theorem useFree_keys (n : Nat) :
    (useFree s n).keys = s.keys := rfl
@[simp] theorem useFree_stair (n : Nat) :
    (useFree s n).stair = s.stair := rfl
@[simp] theorem useFree_ledger (n : Nat) :
    (useFree s n).ledger = s.ledger := rfl
@[simp] theorem useFree_halls (n : Nat) :
    (useFree s n).halls = s.halls := rfl
@[simp] theorem useFree_tamper (n : Nat) :
    (useFree s n).tamper = s.tamper := rfl
@[simp] theorem useFree_bb (n : Nat) :
    (useFree s n).bb = s.bb := rfl
@[simp] theorem useFree_otp (n : Nat) :
    (useFree s n).otp = s.otp := rfl
@[simp] theorem useFree_life (n : Nat) :
    (useFree s n).life = s.life := rfl
@[simp] theorem useFree_fc (n : Nat) :
    (useFree s n).fc = s.fc := rfl
@[simp] theorem useFree_ed (n : Nat) :
    (useFree s n).ed = s.ed := rfl
@[simp] theorem useFree_boot (n : Nat) :
    (useFree s n).boot = s.boot := rfl
@[simp] theorem useFree_twin (n : Nat) :
    (useFree s n).twin = s.twin := rfl
@[simp] theorem useFree_gallery (n : Nat) :
    (useFree s n).gallery = s.gallery := rfl
@[simp] theorem useFree_tally (n : Nat) :
    (useFree s n).tally = s.tally := rfl
@[simp] theorem useFree_perf (n : Nat) :
    (useFree s n).perf = s.perf := rfl
@[simp] theorem useFree_power (n : Nat) :
    (useFree s n).power = s.power := rfl
@[simp] theorem useFree_captured (n : Nat) :
    (useFree s n).captured = s.captured := rfl
@[simp] theorem useFree_heldHi (n : Nat) :
    (useFree s n).heldHi = s.heldHi := rfl
@[simp] theorem useFree_lastErr (n : Nat) :
    (useFree s n).lastErr = s.lastErr := rfl
@[simp] theorem useFree_lastVal (n : Nat) :
    (useFree s n).lastVal = s.lastVal := rfl
@[simp] theorem useFree_fresh (n : Nat) :
    (useFree s n).fresh = s.fresh + n := rfl
@[simp] theorem useFree_outbox (n : Nat) :
    (useFree s n).outbox = s.outbox := rfl
@[simp] theorem useFree_pending (n : Nat) :
    (useFree s n).pending = s.pending := rfl

/-! `busOk` -/

@[simp] theorem busOk_time (v : Word) :
    (busOk s v).time = s.time := rfl
@[simp] theorem busOk_net (v : Word) :
    (busOk s v).net = s.net := rfl
@[simp] theorem busOk_cipher (v : Word) :
    (busOk s v).cipher = s.cipher := rfl
@[simp] theorem busOk_pk (v : Word) :
    (busOk s v).pk = s.pk := rfl
@[simp] theorem busOk_digest (v : Word) :
    (busOk s v).digest = s.digest := rfl
@[simp] theorem busOk_rng (v : Word) :
    (busOk s v).rng = s.rng := rfl
@[simp] theorem busOk_keys (v : Word) :
    (busOk s v).keys = s.keys := rfl
@[simp] theorem busOk_stair (v : Word) :
    (busOk s v).stair = s.stair := rfl
@[simp] theorem busOk_ledger (v : Word) :
    (busOk s v).ledger = s.ledger := rfl
@[simp] theorem busOk_halls (v : Word) :
    (busOk s v).halls = s.halls := rfl
@[simp] theorem busOk_tamper (v : Word) :
    (busOk s v).tamper = s.tamper := rfl
@[simp] theorem busOk_bb (v : Word) :
    (busOk s v).bb = s.bb := rfl
@[simp] theorem busOk_otp (v : Word) :
    (busOk s v).otp = s.otp := rfl
@[simp] theorem busOk_life (v : Word) :
    (busOk s v).life = s.life := rfl
@[simp] theorem busOk_fc (v : Word) :
    (busOk s v).fc = s.fc := rfl
@[simp] theorem busOk_ed (v : Word) :
    (busOk s v).ed = s.ed := rfl
@[simp] theorem busOk_boot (v : Word) :
    (busOk s v).boot = s.boot := rfl
@[simp] theorem busOk_twin (v : Word) :
    (busOk s v).twin = s.twin := rfl
@[simp] theorem busOk_gallery (v : Word) :
    (busOk s v).gallery = s.gallery := rfl
@[simp] theorem busOk_tally (v : Word) :
    (busOk s v).tally = s.tally := rfl
@[simp] theorem busOk_perf (v : Word) :
    (busOk s v).perf = s.perf := rfl
@[simp] theorem busOk_power (v : Word) :
    (busOk s v).power = s.power := rfl
@[simp] theorem busOk_captured (v : Word) :
    (busOk s v).captured = s.captured := rfl
@[simp] theorem busOk_heldHi (v : Word) :
    (busOk s v).heldHi = s.heldHi := rfl
@[simp] theorem busOk_lastErr (v : Word) :
    (busOk s v).lastErr = false := rfl
@[simp] theorem busOk_lastVal (v : Word) :
    (busOk s v).lastVal = v := rfl
@[simp] theorem busOk_fresh (v : Word) :
    (busOk s v).fresh = s.fresh := rfl
@[simp] theorem busOk_outbox (v : Word) :
    (busOk s v).outbox = s.outbox := rfl
@[simp] theorem busOk_pending (v : Word) :
    (busOk s v).pending = s.pending := rfl

/-! `busErr` -/

@[simp] theorem busErr_time :
    (busErr s).time = s.time := rfl
@[simp] theorem busErr_net :
    (busErr s).net = s.net := rfl
@[simp] theorem busErr_cipher :
    (busErr s).cipher = s.cipher := rfl
@[simp] theorem busErr_pk :
    (busErr s).pk = s.pk := rfl
@[simp] theorem busErr_digest :
    (busErr s).digest = s.digest := rfl
@[simp] theorem busErr_rng :
    (busErr s).rng = s.rng := rfl
@[simp] theorem busErr_keys :
    (busErr s).keys = s.keys := rfl
@[simp] theorem busErr_stair :
    (busErr s).stair = s.stair := rfl
@[simp] theorem busErr_ledger :
    (busErr s).ledger = s.ledger := rfl
@[simp] theorem busErr_halls :
    (busErr s).halls = s.halls := rfl
@[simp] theorem busErr_tamper :
    (busErr s).tamper = s.tamper := rfl
@[simp] theorem busErr_bb :
    (busErr s).bb = s.bb := rfl
@[simp] theorem busErr_otp :
    (busErr s).otp = s.otp := rfl
@[simp] theorem busErr_life :
    (busErr s).life = s.life := rfl
@[simp] theorem busErr_fc :
    (busErr s).fc = s.fc := rfl
@[simp] theorem busErr_ed :
    (busErr s).ed = s.ed := rfl
@[simp] theorem busErr_boot :
    (busErr s).boot = s.boot := rfl
@[simp] theorem busErr_twin :
    (busErr s).twin = s.twin := rfl
@[simp] theorem busErr_gallery :
    (busErr s).gallery = s.gallery := rfl
@[simp] theorem busErr_tally :
    (busErr s).tally = s.tally := rfl
@[simp] theorem busErr_perf :
    (busErr s).perf = s.perf := rfl
@[simp] theorem busErr_power :
    (busErr s).power = s.power := rfl
@[simp] theorem busErr_captured :
    (busErr s).captured = s.captured := rfl
@[simp] theorem busErr_heldHi :
    (busErr s).heldHi = s.heldHi := rfl
@[simp] theorem busErr_lastErr :
    (busErr s).lastErr = true := rfl
@[simp] theorem busErr_lastVal :
    (busErr s).lastVal = 0 := rfl
@[simp] theorem busErr_fresh :
    (busErr s).fresh = s.fresh := rfl
@[simp] theorem busErr_outbox :
    (busErr s).outbox = s.outbox := rfl
@[simp] theorem busErr_pending :
    (busErr s).pending = s.pending := rfl

/-! `wrOk` -/

@[simp] theorem wrOk_time :
    (wrOk s).time = s.time := rfl
@[simp] theorem wrOk_net :
    (wrOk s).net = s.net := rfl
@[simp] theorem wrOk_cipher :
    (wrOk s).cipher = s.cipher := rfl
@[simp] theorem wrOk_pk :
    (wrOk s).pk = s.pk := rfl
@[simp] theorem wrOk_digest :
    (wrOk s).digest = s.digest := rfl
@[simp] theorem wrOk_rng :
    (wrOk s).rng = s.rng := rfl
@[simp] theorem wrOk_keys :
    (wrOk s).keys = s.keys := rfl
@[simp] theorem wrOk_stair :
    (wrOk s).stair = s.stair := rfl
@[simp] theorem wrOk_ledger :
    (wrOk s).ledger = s.ledger := rfl
@[simp] theorem wrOk_halls :
    (wrOk s).halls = s.halls := rfl
@[simp] theorem wrOk_tamper :
    (wrOk s).tamper = s.tamper := rfl
@[simp] theorem wrOk_bb :
    (wrOk s).bb = s.bb := rfl
@[simp] theorem wrOk_otp :
    (wrOk s).otp = s.otp := rfl
@[simp] theorem wrOk_life :
    (wrOk s).life = s.life := rfl
@[simp] theorem wrOk_fc :
    (wrOk s).fc = s.fc := rfl
@[simp] theorem wrOk_ed :
    (wrOk s).ed = s.ed := rfl
@[simp] theorem wrOk_boot :
    (wrOk s).boot = s.boot := rfl
@[simp] theorem wrOk_twin :
    (wrOk s).twin = s.twin := rfl
@[simp] theorem wrOk_gallery :
    (wrOk s).gallery = s.gallery := rfl
@[simp] theorem wrOk_tally :
    (wrOk s).tally = s.tally := rfl
@[simp] theorem wrOk_perf :
    (wrOk s).perf = s.perf := rfl
@[simp] theorem wrOk_power :
    (wrOk s).power = s.power := rfl
@[simp] theorem wrOk_captured :
    (wrOk s).captured = s.captured := rfl
@[simp] theorem wrOk_heldHi :
    (wrOk s).heldHi = s.heldHi := rfl
@[simp] theorem wrOk_lastErr :
    (wrOk s).lastErr = false := rfl
@[simp] theorem wrOk_lastVal :
    (wrOk s).lastVal = 0 := rfl
@[simp] theorem wrOk_fresh :
    (wrOk s).fresh = s.fresh := rfl
@[simp] theorem wrOk_outbox :
    (wrOk s).outbox = s.outbox := rfl
@[simp] theorem wrOk_pending :
    (wrOk s).pending = s.pending := rfl

/-! `modAlc` -/

@[simp] theorem modAlc_time (a : Nat) (f : Alcove → Alcove) :
    (modAlc s a f).time = s.time := rfl
@[simp] theorem modAlc_net (a : Nat) (f : Alcove → Alcove) :
    (modAlc s a f).net = { s.net with alcoves := tmod s.net.alcoves a f } := rfl
@[simp] theorem modAlc_cipher (a : Nat) (f : Alcove → Alcove) :
    (modAlc s a f).cipher = s.cipher := rfl
@[simp] theorem modAlc_pk (a : Nat) (f : Alcove → Alcove) :
    (modAlc s a f).pk = s.pk := rfl
@[simp] theorem modAlc_digest (a : Nat) (f : Alcove → Alcove) :
    (modAlc s a f).digest = s.digest := rfl
@[simp] theorem modAlc_rng (a : Nat) (f : Alcove → Alcove) :
    (modAlc s a f).rng = s.rng := rfl
@[simp] theorem modAlc_keys (a : Nat) (f : Alcove → Alcove) :
    (modAlc s a f).keys = s.keys := rfl
@[simp] theorem modAlc_stair (a : Nat) (f : Alcove → Alcove) :
    (modAlc s a f).stair = s.stair := rfl
@[simp] theorem modAlc_ledger (a : Nat) (f : Alcove → Alcove) :
    (modAlc s a f).ledger = s.ledger := rfl
@[simp] theorem modAlc_halls (a : Nat) (f : Alcove → Alcove) :
    (modAlc s a f).halls = s.halls := rfl
@[simp] theorem modAlc_tamper (a : Nat) (f : Alcove → Alcove) :
    (modAlc s a f).tamper = s.tamper := rfl
@[simp] theorem modAlc_bb (a : Nat) (f : Alcove → Alcove) :
    (modAlc s a f).bb = s.bb := rfl
@[simp] theorem modAlc_otp (a : Nat) (f : Alcove → Alcove) :
    (modAlc s a f).otp = s.otp := rfl
@[simp] theorem modAlc_life (a : Nat) (f : Alcove → Alcove) :
    (modAlc s a f).life = s.life := rfl
@[simp] theorem modAlc_fc (a : Nat) (f : Alcove → Alcove) :
    (modAlc s a f).fc = s.fc := rfl
@[simp] theorem modAlc_ed (a : Nat) (f : Alcove → Alcove) :
    (modAlc s a f).ed = s.ed := rfl
@[simp] theorem modAlc_boot (a : Nat) (f : Alcove → Alcove) :
    (modAlc s a f).boot = s.boot := rfl
@[simp] theorem modAlc_twin (a : Nat) (f : Alcove → Alcove) :
    (modAlc s a f).twin = s.twin := rfl
@[simp] theorem modAlc_gallery (a : Nat) (f : Alcove → Alcove) :
    (modAlc s a f).gallery = s.gallery := rfl
@[simp] theorem modAlc_tally (a : Nat) (f : Alcove → Alcove) :
    (modAlc s a f).tally = s.tally := rfl
@[simp] theorem modAlc_perf (a : Nat) (f : Alcove → Alcove) :
    (modAlc s a f).perf = s.perf := rfl
@[simp] theorem modAlc_power (a : Nat) (f : Alcove → Alcove) :
    (modAlc s a f).power = s.power := rfl
@[simp] theorem modAlc_captured (a : Nat) (f : Alcove → Alcove) :
    (modAlc s a f).captured = s.captured := rfl
@[simp] theorem modAlc_heldHi (a : Nat) (f : Alcove → Alcove) :
    (modAlc s a f).heldHi = s.heldHi := rfl
@[simp] theorem modAlc_lastErr (a : Nat) (f : Alcove → Alcove) :
    (modAlc s a f).lastErr = s.lastErr := rfl
@[simp] theorem modAlc_lastVal (a : Nat) (f : Alcove → Alcove) :
    (modAlc s a f).lastVal = s.lastVal := rfl
@[simp] theorem modAlc_fresh (a : Nat) (f : Alcove → Alcove) :
    (modAlc s a f).fresh = s.fresh := rfl
@[simp] theorem modAlc_outbox (a : Nat) (f : Alcove → Alcove) :
    (modAlc s a f).outbox = s.outbox := rfl
@[simp] theorem modAlc_pending (a : Nat) (f : Alcove → Alcove) :
    (modAlc s a f).pending = s.pending := rfl

/-! `putAlc` -/

@[simp] theorem putAlc_time (a : Nat) (x : Alcove) :
    (putAlc s a x).time = s.time := rfl
@[simp] theorem putAlc_net (a : Nat) (x : Alcove) :
    (putAlc s a x).net = { s.net with alcoves := tput s.net.alcoves a x } := rfl
@[simp] theorem putAlc_cipher (a : Nat) (x : Alcove) :
    (putAlc s a x).cipher = s.cipher := rfl
@[simp] theorem putAlc_pk (a : Nat) (x : Alcove) :
    (putAlc s a x).pk = s.pk := rfl
@[simp] theorem putAlc_digest (a : Nat) (x : Alcove) :
    (putAlc s a x).digest = s.digest := rfl
@[simp] theorem putAlc_rng (a : Nat) (x : Alcove) :
    (putAlc s a x).rng = s.rng := rfl
@[simp] theorem putAlc_keys (a : Nat) (x : Alcove) :
    (putAlc s a x).keys = s.keys := rfl
@[simp] theorem putAlc_stair (a : Nat) (x : Alcove) :
    (putAlc s a x).stair = s.stair := rfl
@[simp] theorem putAlc_ledger (a : Nat) (x : Alcove) :
    (putAlc s a x).ledger = s.ledger := rfl
@[simp] theorem putAlc_halls (a : Nat) (x : Alcove) :
    (putAlc s a x).halls = s.halls := rfl
@[simp] theorem putAlc_tamper (a : Nat) (x : Alcove) :
    (putAlc s a x).tamper = s.tamper := rfl
@[simp] theorem putAlc_bb (a : Nat) (x : Alcove) :
    (putAlc s a x).bb = s.bb := rfl
@[simp] theorem putAlc_otp (a : Nat) (x : Alcove) :
    (putAlc s a x).otp = s.otp := rfl
@[simp] theorem putAlc_life (a : Nat) (x : Alcove) :
    (putAlc s a x).life = s.life := rfl
@[simp] theorem putAlc_fc (a : Nat) (x : Alcove) :
    (putAlc s a x).fc = s.fc := rfl
@[simp] theorem putAlc_ed (a : Nat) (x : Alcove) :
    (putAlc s a x).ed = s.ed := rfl
@[simp] theorem putAlc_boot (a : Nat) (x : Alcove) :
    (putAlc s a x).boot = s.boot := rfl
@[simp] theorem putAlc_twin (a : Nat) (x : Alcove) :
    (putAlc s a x).twin = s.twin := rfl
@[simp] theorem putAlc_gallery (a : Nat) (x : Alcove) :
    (putAlc s a x).gallery = s.gallery := rfl
@[simp] theorem putAlc_tally (a : Nat) (x : Alcove) :
    (putAlc s a x).tally = s.tally := rfl
@[simp] theorem putAlc_perf (a : Nat) (x : Alcove) :
    (putAlc s a x).perf = s.perf := rfl
@[simp] theorem putAlc_power (a : Nat) (x : Alcove) :
    (putAlc s a x).power = s.power := rfl
@[simp] theorem putAlc_captured (a : Nat) (x : Alcove) :
    (putAlc s a x).captured = s.captured := rfl
@[simp] theorem putAlc_heldHi (a : Nat) (x : Alcove) :
    (putAlc s a x).heldHi = s.heldHi := rfl
@[simp] theorem putAlc_lastErr (a : Nat) (x : Alcove) :
    (putAlc s a x).lastErr = s.lastErr := rfl
@[simp] theorem putAlc_lastVal (a : Nat) (x : Alcove) :
    (putAlc s a x).lastVal = s.lastVal := rfl
@[simp] theorem putAlc_fresh (a : Nat) (x : Alcove) :
    (putAlc s a x).fresh = s.fresh := rfl
@[simp] theorem putAlc_outbox (a : Nat) (x : Alcove) :
    (putAlc s a x).outbox = s.outbox := rfl
@[simp] theorem putAlc_pending (a : Nat) (x : Alcove) :
    (putAlc s a x).pending = s.pending := rfl

/-! `modSess` -/

@[simp] theorem modSess_time (a i : Nat) (f : Session → Session) :
    (modSess s a i f).time = s.time := rfl
@[simp] theorem modSess_net (a i : Nat) (f : Session → Session) :
    (modSess s a i f).net = { s.net with sessions := tmod s.net.sessions (sessKey a i) f } := rfl
@[simp] theorem modSess_cipher (a i : Nat) (f : Session → Session) :
    (modSess s a i f).cipher = s.cipher := rfl
@[simp] theorem modSess_pk (a i : Nat) (f : Session → Session) :
    (modSess s a i f).pk = s.pk := rfl
@[simp] theorem modSess_digest (a i : Nat) (f : Session → Session) :
    (modSess s a i f).digest = s.digest := rfl
@[simp] theorem modSess_rng (a i : Nat) (f : Session → Session) :
    (modSess s a i f).rng = s.rng := rfl
@[simp] theorem modSess_keys (a i : Nat) (f : Session → Session) :
    (modSess s a i f).keys = s.keys := rfl
@[simp] theorem modSess_stair (a i : Nat) (f : Session → Session) :
    (modSess s a i f).stair = s.stair := rfl
@[simp] theorem modSess_ledger (a i : Nat) (f : Session → Session) :
    (modSess s a i f).ledger = s.ledger := rfl
@[simp] theorem modSess_halls (a i : Nat) (f : Session → Session) :
    (modSess s a i f).halls = s.halls := rfl
@[simp] theorem modSess_tamper (a i : Nat) (f : Session → Session) :
    (modSess s a i f).tamper = s.tamper := rfl
@[simp] theorem modSess_bb (a i : Nat) (f : Session → Session) :
    (modSess s a i f).bb = s.bb := rfl
@[simp] theorem modSess_otp (a i : Nat) (f : Session → Session) :
    (modSess s a i f).otp = s.otp := rfl
@[simp] theorem modSess_life (a i : Nat) (f : Session → Session) :
    (modSess s a i f).life = s.life := rfl
@[simp] theorem modSess_fc (a i : Nat) (f : Session → Session) :
    (modSess s a i f).fc = s.fc := rfl
@[simp] theorem modSess_ed (a i : Nat) (f : Session → Session) :
    (modSess s a i f).ed = s.ed := rfl
@[simp] theorem modSess_boot (a i : Nat) (f : Session → Session) :
    (modSess s a i f).boot = s.boot := rfl
@[simp] theorem modSess_twin (a i : Nat) (f : Session → Session) :
    (modSess s a i f).twin = s.twin := rfl
@[simp] theorem modSess_gallery (a i : Nat) (f : Session → Session) :
    (modSess s a i f).gallery = s.gallery := rfl
@[simp] theorem modSess_tally (a i : Nat) (f : Session → Session) :
    (modSess s a i f).tally = s.tally := rfl
@[simp] theorem modSess_perf (a i : Nat) (f : Session → Session) :
    (modSess s a i f).perf = s.perf := rfl
@[simp] theorem modSess_power (a i : Nat) (f : Session → Session) :
    (modSess s a i f).power = s.power := rfl
@[simp] theorem modSess_captured (a i : Nat) (f : Session → Session) :
    (modSess s a i f).captured = s.captured := rfl
@[simp] theorem modSess_heldHi (a i : Nat) (f : Session → Session) :
    (modSess s a i f).heldHi = s.heldHi := rfl
@[simp] theorem modSess_lastErr (a i : Nat) (f : Session → Session) :
    (modSess s a i f).lastErr = s.lastErr := rfl
@[simp] theorem modSess_lastVal (a i : Nat) (f : Session → Session) :
    (modSess s a i f).lastVal = s.lastVal := rfl
@[simp] theorem modSess_fresh (a i : Nat) (f : Session → Session) :
    (modSess s a i f).fresh = s.fresh := rfl
@[simp] theorem modSess_outbox (a i : Nat) (f : Session → Session) :
    (modSess s a i f).outbox = s.outbox := rfl
@[simp] theorem modSess_pending (a i : Nat) (f : Session → Session) :
    (modSess s a i f).pending = s.pending := rfl

/-! `putSess` -/

@[simp] theorem putSess_time (a i : Nat) (x : Session) :
    (putSess s a i x).time = s.time := rfl
@[simp] theorem putSess_net (a i : Nat) (x : Session) :
    (putSess s a i x).net = { s.net with sessions := tput s.net.sessions (sessKey a i) x } := rfl
@[simp] theorem putSess_cipher (a i : Nat) (x : Session) :
    (putSess s a i x).cipher = s.cipher := rfl
@[simp] theorem putSess_pk (a i : Nat) (x : Session) :
    (putSess s a i x).pk = s.pk := rfl
@[simp] theorem putSess_digest (a i : Nat) (x : Session) :
    (putSess s a i x).digest = s.digest := rfl
@[simp] theorem putSess_rng (a i : Nat) (x : Session) :
    (putSess s a i x).rng = s.rng := rfl
@[simp] theorem putSess_keys (a i : Nat) (x : Session) :
    (putSess s a i x).keys = s.keys := rfl
@[simp] theorem putSess_stair (a i : Nat) (x : Session) :
    (putSess s a i x).stair = s.stair := rfl
@[simp] theorem putSess_ledger (a i : Nat) (x : Session) :
    (putSess s a i x).ledger = s.ledger := rfl
@[simp] theorem putSess_halls (a i : Nat) (x : Session) :
    (putSess s a i x).halls = s.halls := rfl
@[simp] theorem putSess_tamper (a i : Nat) (x : Session) :
    (putSess s a i x).tamper = s.tamper := rfl
@[simp] theorem putSess_bb (a i : Nat) (x : Session) :
    (putSess s a i x).bb = s.bb := rfl
@[simp] theorem putSess_otp (a i : Nat) (x : Session) :
    (putSess s a i x).otp = s.otp := rfl
@[simp] theorem putSess_life (a i : Nat) (x : Session) :
    (putSess s a i x).life = s.life := rfl
@[simp] theorem putSess_fc (a i : Nat) (x : Session) :
    (putSess s a i x).fc = s.fc := rfl
@[simp] theorem putSess_ed (a i : Nat) (x : Session) :
    (putSess s a i x).ed = s.ed := rfl
@[simp] theorem putSess_boot (a i : Nat) (x : Session) :
    (putSess s a i x).boot = s.boot := rfl
@[simp] theorem putSess_twin (a i : Nat) (x : Session) :
    (putSess s a i x).twin = s.twin := rfl
@[simp] theorem putSess_gallery (a i : Nat) (x : Session) :
    (putSess s a i x).gallery = s.gallery := rfl
@[simp] theorem putSess_tally (a i : Nat) (x : Session) :
    (putSess s a i x).tally = s.tally := rfl
@[simp] theorem putSess_perf (a i : Nat) (x : Session) :
    (putSess s a i x).perf = s.perf := rfl
@[simp] theorem putSess_power (a i : Nat) (x : Session) :
    (putSess s a i x).power = s.power := rfl
@[simp] theorem putSess_captured (a i : Nat) (x : Session) :
    (putSess s a i x).captured = s.captured := rfl
@[simp] theorem putSess_heldHi (a i : Nat) (x : Session) :
    (putSess s a i x).heldHi = s.heldHi := rfl
@[simp] theorem putSess_lastErr (a i : Nat) (x : Session) :
    (putSess s a i x).lastErr = s.lastErr := rfl
@[simp] theorem putSess_lastVal (a i : Nat) (x : Session) :
    (putSess s a i x).lastVal = s.lastVal := rfl
@[simp] theorem putSess_fresh (a i : Nat) (x : Session) :
    (putSess s a i x).fresh = s.fresh := rfl
@[simp] theorem putSess_outbox (a i : Nat) (x : Session) :
    (putSess s a i x).outbox = s.outbox := rfl
@[simp] theorem putSess_pending (a i : Nat) (x : Session) :
    (putSess s a i x).pending = s.pending := rfl

/-! `delSess` -/

@[simp] theorem delSess_time (a i : Nat) :
    (delSess s a i).time = s.time := rfl
@[simp] theorem delSess_net (a i : Nat) :
    (delSess s a i).net = { s.net with sessions := tdel s.net.sessions (sessKey a i) } := rfl
@[simp] theorem delSess_cipher (a i : Nat) :
    (delSess s a i).cipher = s.cipher := rfl
@[simp] theorem delSess_pk (a i : Nat) :
    (delSess s a i).pk = s.pk := rfl
@[simp] theorem delSess_digest (a i : Nat) :
    (delSess s a i).digest = s.digest := rfl
@[simp] theorem delSess_rng (a i : Nat) :
    (delSess s a i).rng = s.rng := rfl
@[simp] theorem delSess_keys (a i : Nat) :
    (delSess s a i).keys = s.keys := rfl
@[simp] theorem delSess_stair (a i : Nat) :
    (delSess s a i).stair = s.stair := rfl
@[simp] theorem delSess_ledger (a i : Nat) :
    (delSess s a i).ledger = s.ledger := rfl
@[simp] theorem delSess_halls (a i : Nat) :
    (delSess s a i).halls = s.halls := rfl
@[simp] theorem delSess_tamper (a i : Nat) :
    (delSess s a i).tamper = s.tamper := rfl
@[simp] theorem delSess_bb (a i : Nat) :
    (delSess s a i).bb = s.bb := rfl
@[simp] theorem delSess_otp (a i : Nat) :
    (delSess s a i).otp = s.otp := rfl
@[simp] theorem delSess_life (a i : Nat) :
    (delSess s a i).life = s.life := rfl
@[simp] theorem delSess_fc (a i : Nat) :
    (delSess s a i).fc = s.fc := rfl
@[simp] theorem delSess_ed (a i : Nat) :
    (delSess s a i).ed = s.ed := rfl
@[simp] theorem delSess_boot (a i : Nat) :
    (delSess s a i).boot = s.boot := rfl
@[simp] theorem delSess_twin (a i : Nat) :
    (delSess s a i).twin = s.twin := rfl
@[simp] theorem delSess_gallery (a i : Nat) :
    (delSess s a i).gallery = s.gallery := rfl
@[simp] theorem delSess_tally (a i : Nat) :
    (delSess s a i).tally = s.tally := rfl
@[simp] theorem delSess_perf (a i : Nat) :
    (delSess s a i).perf = s.perf := rfl
@[simp] theorem delSess_power (a i : Nat) :
    (delSess s a i).power = s.power := rfl
@[simp] theorem delSess_captured (a i : Nat) :
    (delSess s a i).captured = s.captured := rfl
@[simp] theorem delSess_heldHi (a i : Nat) :
    (delSess s a i).heldHi = s.heldHi := rfl
@[simp] theorem delSess_lastErr (a i : Nat) :
    (delSess s a i).lastErr = s.lastErr := rfl
@[simp] theorem delSess_lastVal (a i : Nat) :
    (delSess s a i).lastVal = s.lastVal := rfl
@[simp] theorem delSess_fresh (a i : Nat) :
    (delSess s a i).fresh = s.fresh := rfl
@[simp] theorem delSess_outbox (a i : Nat) :
    (delSess s a i).outbox = s.outbox := rfl
@[simp] theorem delSess_pending (a i : Nat) :
    (delSess s a i).pending = s.pending := rfl

/-! `modWork` -/

@[simp] theorem modWork_time (w : Nat) (f : Work → Work) :
    (modWork s w f).time = s.time := rfl
@[simp] theorem modWork_net (w : Nat) (f : Work → Work) :
    (modWork s w f).net = { s.net with work := tmod s.net.work w f } := rfl
@[simp] theorem modWork_cipher (w : Nat) (f : Work → Work) :
    (modWork s w f).cipher = s.cipher := rfl
@[simp] theorem modWork_pk (w : Nat) (f : Work → Work) :
    (modWork s w f).pk = s.pk := rfl
@[simp] theorem modWork_digest (w : Nat) (f : Work → Work) :
    (modWork s w f).digest = s.digest := rfl
@[simp] theorem modWork_rng (w : Nat) (f : Work → Work) :
    (modWork s w f).rng = s.rng := rfl
@[simp] theorem modWork_keys (w : Nat) (f : Work → Work) :
    (modWork s w f).keys = s.keys := rfl
@[simp] theorem modWork_stair (w : Nat) (f : Work → Work) :
    (modWork s w f).stair = s.stair := rfl
@[simp] theorem modWork_ledger (w : Nat) (f : Work → Work) :
    (modWork s w f).ledger = s.ledger := rfl
@[simp] theorem modWork_halls (w : Nat) (f : Work → Work) :
    (modWork s w f).halls = s.halls := rfl
@[simp] theorem modWork_tamper (w : Nat) (f : Work → Work) :
    (modWork s w f).tamper = s.tamper := rfl
@[simp] theorem modWork_bb (w : Nat) (f : Work → Work) :
    (modWork s w f).bb = s.bb := rfl
@[simp] theorem modWork_otp (w : Nat) (f : Work → Work) :
    (modWork s w f).otp = s.otp := rfl
@[simp] theorem modWork_life (w : Nat) (f : Work → Work) :
    (modWork s w f).life = s.life := rfl
@[simp] theorem modWork_fc (w : Nat) (f : Work → Work) :
    (modWork s w f).fc = s.fc := rfl
@[simp] theorem modWork_ed (w : Nat) (f : Work → Work) :
    (modWork s w f).ed = s.ed := rfl
@[simp] theorem modWork_boot (w : Nat) (f : Work → Work) :
    (modWork s w f).boot = s.boot := rfl
@[simp] theorem modWork_twin (w : Nat) (f : Work → Work) :
    (modWork s w f).twin = s.twin := rfl
@[simp] theorem modWork_gallery (w : Nat) (f : Work → Work) :
    (modWork s w f).gallery = s.gallery := rfl
@[simp] theorem modWork_tally (w : Nat) (f : Work → Work) :
    (modWork s w f).tally = s.tally := rfl
@[simp] theorem modWork_perf (w : Nat) (f : Work → Work) :
    (modWork s w f).perf = s.perf := rfl
@[simp] theorem modWork_power (w : Nat) (f : Work → Work) :
    (modWork s w f).power = s.power := rfl
@[simp] theorem modWork_captured (w : Nat) (f : Work → Work) :
    (modWork s w f).captured = s.captured := rfl
@[simp] theorem modWork_heldHi (w : Nat) (f : Work → Work) :
    (modWork s w f).heldHi = s.heldHi := rfl
@[simp] theorem modWork_lastErr (w : Nat) (f : Work → Work) :
    (modWork s w f).lastErr = s.lastErr := rfl
@[simp] theorem modWork_lastVal (w : Nat) (f : Work → Work) :
    (modWork s w f).lastVal = s.lastVal := rfl
@[simp] theorem modWork_fresh (w : Nat) (f : Work → Work) :
    (modWork s w f).fresh = s.fresh := rfl
@[simp] theorem modWork_outbox (w : Nat) (f : Work → Work) :
    (modWork s w f).outbox = s.outbox := rfl
@[simp] theorem modWork_pending (w : Nat) (f : Work → Work) :
    (modWork s w f).pending = s.pending := rfl

/-! `delWork` -/

@[simp] theorem delWork_time (w : Nat) :
    (delWork s w).time = s.time := rfl
@[simp] theorem delWork_net (w : Nat) :
    (delWork s w).net = { s.net with work := tdel s.net.work w } := rfl
@[simp] theorem delWork_cipher (w : Nat) :
    (delWork s w).cipher = s.cipher := rfl
@[simp] theorem delWork_pk (w : Nat) :
    (delWork s w).pk = s.pk := rfl
@[simp] theorem delWork_digest (w : Nat) :
    (delWork s w).digest = s.digest := rfl
@[simp] theorem delWork_rng (w : Nat) :
    (delWork s w).rng = s.rng := rfl
@[simp] theorem delWork_keys (w : Nat) :
    (delWork s w).keys = s.keys := rfl
@[simp] theorem delWork_stair (w : Nat) :
    (delWork s w).stair = s.stair := rfl
@[simp] theorem delWork_ledger (w : Nat) :
    (delWork s w).ledger = s.ledger := rfl
@[simp] theorem delWork_halls (w : Nat) :
    (delWork s w).halls = s.halls := rfl
@[simp] theorem delWork_tamper (w : Nat) :
    (delWork s w).tamper = s.tamper := rfl
@[simp] theorem delWork_bb (w : Nat) :
    (delWork s w).bb = s.bb := rfl
@[simp] theorem delWork_otp (w : Nat) :
    (delWork s w).otp = s.otp := rfl
@[simp] theorem delWork_life (w : Nat) :
    (delWork s w).life = s.life := rfl
@[simp] theorem delWork_fc (w : Nat) :
    (delWork s w).fc = s.fc := rfl
@[simp] theorem delWork_ed (w : Nat) :
    (delWork s w).ed = s.ed := rfl
@[simp] theorem delWork_boot (w : Nat) :
    (delWork s w).boot = s.boot := rfl
@[simp] theorem delWork_twin (w : Nat) :
    (delWork s w).twin = s.twin := rfl
@[simp] theorem delWork_gallery (w : Nat) :
    (delWork s w).gallery = s.gallery := rfl
@[simp] theorem delWork_tally (w : Nat) :
    (delWork s w).tally = s.tally := rfl
@[simp] theorem delWork_perf (w : Nat) :
    (delWork s w).perf = s.perf := rfl
@[simp] theorem delWork_power (w : Nat) :
    (delWork s w).power = s.power := rfl
@[simp] theorem delWork_captured (w : Nat) :
    (delWork s w).captured = s.captured := rfl
@[simp] theorem delWork_heldHi (w : Nat) :
    (delWork s w).heldHi = s.heldHi := rfl
@[simp] theorem delWork_lastErr (w : Nat) :
    (delWork s w).lastErr = s.lastErr := rfl
@[simp] theorem delWork_lastVal (w : Nat) :
    (delWork s w).lastVal = s.lastVal := rfl
@[simp] theorem delWork_fresh (w : Nat) :
    (delWork s w).fresh = s.fresh := rfl
@[simp] theorem delWork_outbox (w : Nat) :
    (delWork s w).outbox = s.outbox := rfl
@[simp] theorem delWork_pending (w : Nat) :
    (delWork s w).pending = s.pending := rfl

/-! `modDom` -/

@[simp] theorem modDom_time (d : Nat) (f : Domain → Domain) :
    (modDom s d f).time = s.time := rfl
@[simp] theorem modDom_net (d : Nat) (f : Domain → Domain) :
    (modDom s d f).net = s.net := rfl
@[simp] theorem modDom_cipher (d : Nat) (f : Domain → Domain) :
    (modDom s d f).cipher = s.cipher := rfl
@[simp] theorem modDom_pk (d : Nat) (f : Domain → Domain) :
    (modDom s d f).pk = s.pk := rfl
@[simp] theorem modDom_digest (d : Nat) (f : Domain → Domain) :
    (modDom s d f).digest = s.digest := rfl
@[simp] theorem modDom_rng (d : Nat) (f : Domain → Domain) :
    (modDom s d f).rng = s.rng := rfl
@[simp] theorem modDom_keys (d : Nat) (f : Domain → Domain) :
    (modDom s d f).keys = { s.keys with domains := tmod s.keys.domains d f } := rfl
@[simp] theorem modDom_stair (d : Nat) (f : Domain → Domain) :
    (modDom s d f).stair = s.stair := rfl
@[simp] theorem modDom_ledger (d : Nat) (f : Domain → Domain) :
    (modDom s d f).ledger = s.ledger := rfl
@[simp] theorem modDom_halls (d : Nat) (f : Domain → Domain) :
    (modDom s d f).halls = s.halls := rfl
@[simp] theorem modDom_tamper (d : Nat) (f : Domain → Domain) :
    (modDom s d f).tamper = s.tamper := rfl
@[simp] theorem modDom_bb (d : Nat) (f : Domain → Domain) :
    (modDom s d f).bb = s.bb := rfl
@[simp] theorem modDom_otp (d : Nat) (f : Domain → Domain) :
    (modDom s d f).otp = s.otp := rfl
@[simp] theorem modDom_life (d : Nat) (f : Domain → Domain) :
    (modDom s d f).life = s.life := rfl
@[simp] theorem modDom_fc (d : Nat) (f : Domain → Domain) :
    (modDom s d f).fc = s.fc := rfl
@[simp] theorem modDom_ed (d : Nat) (f : Domain → Domain) :
    (modDom s d f).ed = s.ed := rfl
@[simp] theorem modDom_boot (d : Nat) (f : Domain → Domain) :
    (modDom s d f).boot = s.boot := rfl
@[simp] theorem modDom_twin (d : Nat) (f : Domain → Domain) :
    (modDom s d f).twin = s.twin := rfl
@[simp] theorem modDom_gallery (d : Nat) (f : Domain → Domain) :
    (modDom s d f).gallery = s.gallery := rfl
@[simp] theorem modDom_tally (d : Nat) (f : Domain → Domain) :
    (modDom s d f).tally = s.tally := rfl
@[simp] theorem modDom_perf (d : Nat) (f : Domain → Domain) :
    (modDom s d f).perf = s.perf := rfl
@[simp] theorem modDom_power (d : Nat) (f : Domain → Domain) :
    (modDom s d f).power = s.power := rfl
@[simp] theorem modDom_captured (d : Nat) (f : Domain → Domain) :
    (modDom s d f).captured = s.captured := rfl
@[simp] theorem modDom_heldHi (d : Nat) (f : Domain → Domain) :
    (modDom s d f).heldHi = s.heldHi := rfl
@[simp] theorem modDom_lastErr (d : Nat) (f : Domain → Domain) :
    (modDom s d f).lastErr = s.lastErr := rfl
@[simp] theorem modDom_lastVal (d : Nat) (f : Domain → Domain) :
    (modDom s d f).lastVal = s.lastVal := rfl
@[simp] theorem modDom_fresh (d : Nat) (f : Domain → Domain) :
    (modDom s d f).fresh = s.fresh := rfl
@[simp] theorem modDom_outbox (d : Nat) (f : Domain → Domain) :
    (modDom s d f).outbox = s.outbox := rfl
@[simp] theorem modDom_pending (d : Nat) (f : Domain → Domain) :
    (modDom s d f).pending = s.pending := rfl

/-! `setDom` -/

@[simp] theorem setDom_time (d : Nat) (f : Domain → Domain) :
    (setDom s d f).time = s.time := rfl
@[simp] theorem setDom_net (d : Nat) (f : Domain → Domain) :
    (setDom s d f).net = s.net := rfl
@[simp] theorem setDom_cipher (d : Nat) (f : Domain → Domain) :
    (setDom s d f).cipher = s.cipher := rfl
@[simp] theorem setDom_pk (d : Nat) (f : Domain → Domain) :
    (setDom s d f).pk = s.pk := rfl
@[simp] theorem setDom_digest (d : Nat) (f : Domain → Domain) :
    (setDom s d f).digest = s.digest := rfl
@[simp] theorem setDom_rng (d : Nat) (f : Domain → Domain) :
    (setDom s d f).rng = s.rng := rfl
@[simp] theorem setDom_keys (d : Nat) (f : Domain → Domain) :
    (setDom s d f).keys = { s.keys with domains := tput s.keys.domains d (f (domD s d)) } := rfl
@[simp] theorem setDom_stair (d : Nat) (f : Domain → Domain) :
    (setDom s d f).stair = s.stair := rfl
@[simp] theorem setDom_ledger (d : Nat) (f : Domain → Domain) :
    (setDom s d f).ledger = s.ledger := rfl
@[simp] theorem setDom_halls (d : Nat) (f : Domain → Domain) :
    (setDom s d f).halls = s.halls := rfl
@[simp] theorem setDom_tamper (d : Nat) (f : Domain → Domain) :
    (setDom s d f).tamper = s.tamper := rfl
@[simp] theorem setDom_bb (d : Nat) (f : Domain → Domain) :
    (setDom s d f).bb = s.bb := rfl
@[simp] theorem setDom_otp (d : Nat) (f : Domain → Domain) :
    (setDom s d f).otp = s.otp := rfl
@[simp] theorem setDom_life (d : Nat) (f : Domain → Domain) :
    (setDom s d f).life = s.life := rfl
@[simp] theorem setDom_fc (d : Nat) (f : Domain → Domain) :
    (setDom s d f).fc = s.fc := rfl
@[simp] theorem setDom_ed (d : Nat) (f : Domain → Domain) :
    (setDom s d f).ed = s.ed := rfl
@[simp] theorem setDom_boot (d : Nat) (f : Domain → Domain) :
    (setDom s d f).boot = s.boot := rfl
@[simp] theorem setDom_twin (d : Nat) (f : Domain → Domain) :
    (setDom s d f).twin = s.twin := rfl
@[simp] theorem setDom_gallery (d : Nat) (f : Domain → Domain) :
    (setDom s d f).gallery = s.gallery := rfl
@[simp] theorem setDom_tally (d : Nat) (f : Domain → Domain) :
    (setDom s d f).tally = s.tally := rfl
@[simp] theorem setDom_perf (d : Nat) (f : Domain → Domain) :
    (setDom s d f).perf = s.perf := rfl
@[simp] theorem setDom_power (d : Nat) (f : Domain → Domain) :
    (setDom s d f).power = s.power := rfl
@[simp] theorem setDom_captured (d : Nat) (f : Domain → Domain) :
    (setDom s d f).captured = s.captured := rfl
@[simp] theorem setDom_heldHi (d : Nat) (f : Domain → Domain) :
    (setDom s d f).heldHi = s.heldHi := rfl
@[simp] theorem setDom_lastErr (d : Nat) (f : Domain → Domain) :
    (setDom s d f).lastErr = s.lastErr := rfl
@[simp] theorem setDom_lastVal (d : Nat) (f : Domain → Domain) :
    (setDom s d f).lastVal = s.lastVal := rfl
@[simp] theorem setDom_fresh (d : Nat) (f : Domain → Domain) :
    (setDom s d f).fresh = s.fresh := rfl
@[simp] theorem setDom_outbox (d : Nat) (f : Domain → Domain) :
    (setDom s d f).outbox = s.outbox := rfl
@[simp] theorem setDom_pending (d : Nat) (f : Domain → Domain) :
    (setDom s d f).pending = s.pending := rfl

/-! `putSrc` -/

@[simp] theorem putSrc_time (n : Nat) (e : EvSource) :
    (putSrc s n e).time = s.time := rfl
@[simp] theorem putSrc_net (n : Nat) (e : EvSource) :
    (putSrc s n e).net = s.net := rfl
@[simp] theorem putSrc_cipher (n : Nat) (e : EvSource) :
    (putSrc s n e).cipher = s.cipher := rfl
@[simp] theorem putSrc_pk (n : Nat) (e : EvSource) :
    (putSrc s n e).pk = s.pk := rfl
@[simp] theorem putSrc_digest (n : Nat) (e : EvSource) :
    (putSrc s n e).digest = s.digest := rfl
@[simp] theorem putSrc_rng (n : Nat) (e : EvSource) :
    (putSrc s n e).rng = s.rng := rfl
@[simp] theorem putSrc_keys (n : Nat) (e : EvSource) :
    (putSrc s n e).keys = s.keys := rfl
@[simp] theorem putSrc_stair (n : Nat) (e : EvSource) :
    (putSrc s n e).stair = s.stair := rfl
@[simp] theorem putSrc_ledger (n : Nat) (e : EvSource) :
    (putSrc s n e).ledger = s.ledger := rfl
@[simp] theorem putSrc_halls (n : Nat) (e : EvSource) :
    (putSrc s n e).halls = s.halls := rfl
@[simp] theorem putSrc_tamper (n : Nat) (e : EvSource) :
    (putSrc s n e).tamper = s.tamper := rfl
@[simp] theorem putSrc_bb (n : Nat) (e : EvSource) :
    (putSrc s n e).bb = s.bb := rfl
@[simp] theorem putSrc_otp (n : Nat) (e : EvSource) :
    (putSrc s n e).otp = s.otp := rfl
@[simp] theorem putSrc_life (n : Nat) (e : EvSource) :
    (putSrc s n e).life = s.life := rfl
@[simp] theorem putSrc_fc (n : Nat) (e : EvSource) :
    (putSrc s n e).fc = s.fc := rfl
@[simp] theorem putSrc_ed (n : Nat) (e : EvSource) :
    (putSrc s n e).ed = { s.ed with srcs := tput s.ed.srcs n e } := rfl
@[simp] theorem putSrc_boot (n : Nat) (e : EvSource) :
    (putSrc s n e).boot = s.boot := rfl
@[simp] theorem putSrc_twin (n : Nat) (e : EvSource) :
    (putSrc s n e).twin = s.twin := rfl
@[simp] theorem putSrc_gallery (n : Nat) (e : EvSource) :
    (putSrc s n e).gallery = s.gallery := rfl
@[simp] theorem putSrc_tally (n : Nat) (e : EvSource) :
    (putSrc s n e).tally = s.tally := rfl
@[simp] theorem putSrc_perf (n : Nat) (e : EvSource) :
    (putSrc s n e).perf = s.perf := rfl
@[simp] theorem putSrc_power (n : Nat) (e : EvSource) :
    (putSrc s n e).power = s.power := rfl
@[simp] theorem putSrc_captured (n : Nat) (e : EvSource) :
    (putSrc s n e).captured = s.captured := rfl
@[simp] theorem putSrc_heldHi (n : Nat) (e : EvSource) :
    (putSrc s n e).heldHi = s.heldHi := rfl
@[simp] theorem putSrc_lastErr (n : Nat) (e : EvSource) :
    (putSrc s n e).lastErr = s.lastErr := rfl
@[simp] theorem putSrc_lastVal (n : Nat) (e : EvSource) :
    (putSrc s n e).lastVal = s.lastVal := rfl
@[simp] theorem putSrc_fresh (n : Nat) (e : EvSource) :
    (putSrc s n e).fresh = s.fresh := rfl
@[simp] theorem putSrc_outbox (n : Nat) (e : EvSource) :
    (putSrc s n e).outbox = s.outbox := rfl
@[simp] theorem putSrc_pending (n : Nat) (e : EvSource) :
    (putSrc s n e).pending = s.pending := rfl

/-! `raise` -/

@[simp] theorem raise_time (n : Nat) :
    (raise s n).time = s.time := rfl
@[simp] theorem raise_net (n : Nat) :
    (raise s n).net = s.net := rfl
@[simp] theorem raise_cipher (n : Nat) :
    (raise s n).cipher = s.cipher := rfl
@[simp] theorem raise_pk (n : Nat) :
    (raise s n).pk = s.pk := rfl
@[simp] theorem raise_digest (n : Nat) :
    (raise s n).digest = s.digest := rfl
@[simp] theorem raise_rng (n : Nat) :
    (raise s n).rng = s.rng := rfl
@[simp] theorem raise_keys (n : Nat) :
    (raise s n).keys = s.keys := rfl
@[simp] theorem raise_stair (n : Nat) :
    (raise s n).stair = s.stair := rfl
@[simp] theorem raise_ledger (n : Nat) :
    (raise s n).ledger = s.ledger := rfl
@[simp] theorem raise_halls (n : Nat) :
    (raise s n).halls = s.halls := rfl
@[simp] theorem raise_tamper (n : Nat) :
    (raise s n).tamper = s.tamper := rfl
@[simp] theorem raise_bb (n : Nat) :
    (raise s n).bb = s.bb := rfl
@[simp] theorem raise_otp (n : Nat) :
    (raise s n).otp = s.otp := rfl
@[simp] theorem raise_life (n : Nat) :
    (raise s n).life = s.life := rfl
@[simp] theorem raise_fc (n : Nat) :
    (raise s n).fc = s.fc := rfl
@[simp] theorem raise_ed (n : Nat) :
    (raise s n).ed = { s.ed with srcs := tput s.ed.srcs n { evSrc s n with pending := true } } := rfl
@[simp] theorem raise_boot (n : Nat) :
    (raise s n).boot = s.boot := rfl
@[simp] theorem raise_twin (n : Nat) :
    (raise s n).twin = s.twin := rfl
@[simp] theorem raise_gallery (n : Nat) :
    (raise s n).gallery = s.gallery := rfl
@[simp] theorem raise_tally (n : Nat) :
    (raise s n).tally = s.tally := rfl
@[simp] theorem raise_perf (n : Nat) :
    (raise s n).perf = s.perf := rfl
@[simp] theorem raise_power (n : Nat) :
    (raise s n).power = s.power := rfl
@[simp] theorem raise_captured (n : Nat) :
    (raise s n).captured = s.captured := rfl
@[simp] theorem raise_heldHi (n : Nat) :
    (raise s n).heldHi = s.heldHi := rfl
@[simp] theorem raise_lastErr (n : Nat) :
    (raise s n).lastErr = s.lastErr := rfl
@[simp] theorem raise_lastVal (n : Nat) :
    (raise s n).lastVal = s.lastVal := rfl
@[simp] theorem raise_fresh (n : Nat) :
    (raise s n).fresh = s.fresh := rfl
@[simp] theorem raise_outbox (n : Nat) :
    (raise s n).outbox = s.outbox := rfl
@[simp] theorem raise_pending (n : Nat) :
    (raise s n).pending = s.pending := rfl

/-! `countDrop` -/

@[simp] theorem countDrop_time (r : Nat) :
    (countDrop s r).time = s.time := rfl
@[simp] theorem countDrop_net (r : Nat) :
    (countDrop s r).net = { s.net with drops := tput s.net.drops r (tgetD s.net.drops r 0 + 1) } := rfl
@[simp] theorem countDrop_cipher (r : Nat) :
    (countDrop s r).cipher = s.cipher := rfl
@[simp] theorem countDrop_pk (r : Nat) :
    (countDrop s r).pk = s.pk := rfl
@[simp] theorem countDrop_digest (r : Nat) :
    (countDrop s r).digest = s.digest := rfl
@[simp] theorem countDrop_rng (r : Nat) :
    (countDrop s r).rng = s.rng := rfl
@[simp] theorem countDrop_keys (r : Nat) :
    (countDrop s r).keys = s.keys := rfl
@[simp] theorem countDrop_stair (r : Nat) :
    (countDrop s r).stair = s.stair := rfl
@[simp] theorem countDrop_ledger (r : Nat) :
    (countDrop s r).ledger = s.ledger := rfl
@[simp] theorem countDrop_halls (r : Nat) :
    (countDrop s r).halls = s.halls := rfl
@[simp] theorem countDrop_tamper (r : Nat) :
    (countDrop s r).tamper = s.tamper := rfl
@[simp] theorem countDrop_bb (r : Nat) :
    (countDrop s r).bb = s.bb := rfl
@[simp] theorem countDrop_otp (r : Nat) :
    (countDrop s r).otp = s.otp := rfl
@[simp] theorem countDrop_life (r : Nat) :
    (countDrop s r).life = s.life := rfl
@[simp] theorem countDrop_fc (r : Nat) :
    (countDrop s r).fc = s.fc := rfl
@[simp] theorem countDrop_ed (r : Nat) :
    (countDrop s r).ed = s.ed := rfl
@[simp] theorem countDrop_boot (r : Nat) :
    (countDrop s r).boot = s.boot := rfl
@[simp] theorem countDrop_twin (r : Nat) :
    (countDrop s r).twin = s.twin := rfl
@[simp] theorem countDrop_gallery (r : Nat) :
    (countDrop s r).gallery = s.gallery := rfl
@[simp] theorem countDrop_tally (r : Nat) :
    (countDrop s r).tally = s.tally := rfl
@[simp] theorem countDrop_perf (r : Nat) :
    (countDrop s r).perf = s.perf := rfl
@[simp] theorem countDrop_power (r : Nat) :
    (countDrop s r).power = s.power := rfl
@[simp] theorem countDrop_captured (r : Nat) :
    (countDrop s r).captured = s.captured := rfl
@[simp] theorem countDrop_heldHi (r : Nat) :
    (countDrop s r).heldHi = s.heldHi := rfl
@[simp] theorem countDrop_lastErr (r : Nat) :
    (countDrop s r).lastErr = s.lastErr := rfl
@[simp] theorem countDrop_lastVal (r : Nat) :
    (countDrop s r).lastVal = s.lastVal := rfl
@[simp] theorem countDrop_fresh (r : Nat) :
    (countDrop s r).fresh = s.fresh := rfl
@[simp] theorem countDrop_outbox (r : Nat) :
    (countDrop s r).outbox = s.outbox := rfl
@[simp] theorem countDrop_pending (r : Nat) :
    (countDrop s r).pending = s.pending := rfl

/-! `perfAdd` -/

@[simp] theorem perfAdd_time (b e n : Nat) :
    (perfAdd s b e n).time = s.time := rfl
@[simp] theorem perfAdd_net (b e n : Nat) :
    (perfAdd s b e n).net = s.net := rfl
@[simp] theorem perfAdd_cipher (b e n : Nat) :
    (perfAdd s b e n).cipher = s.cipher := rfl
@[simp] theorem perfAdd_pk (b e n : Nat) :
    (perfAdd s b e n).pk = s.pk := rfl
@[simp] theorem perfAdd_digest (b e n : Nat) :
    (perfAdd s b e n).digest = s.digest := rfl
@[simp] theorem perfAdd_rng (b e n : Nat) :
    (perfAdd s b e n).rng = s.rng := rfl
@[simp] theorem perfAdd_keys (b e n : Nat) :
    (perfAdd s b e n).keys = s.keys := rfl
@[simp] theorem perfAdd_stair (b e n : Nat) :
    (perfAdd s b e n).stair = s.stair := rfl
@[simp] theorem perfAdd_ledger (b e n : Nat) :
    (perfAdd s b e n).ledger = s.ledger := rfl
@[simp] theorem perfAdd_halls (b e n : Nat) :
    (perfAdd s b e n).halls = s.halls := rfl
@[simp] theorem perfAdd_tamper (b e n : Nat) :
    (perfAdd s b e n).tamper = s.tamper := rfl
@[simp] theorem perfAdd_bb (b e n : Nat) :
    (perfAdd s b e n).bb = s.bb := rfl
@[simp] theorem perfAdd_otp (b e n : Nat) :
    (perfAdd s b e n).otp = s.otp := rfl
@[simp] theorem perfAdd_life (b e n : Nat) :
    (perfAdd s b e n).life = s.life := rfl
@[simp] theorem perfAdd_fc (b e n : Nat) :
    (perfAdd s b e n).fc = s.fc := rfl
@[simp] theorem perfAdd_ed (b e n : Nat) :
    (perfAdd s b e n).ed = s.ed := rfl
@[simp] theorem perfAdd_boot (b e n : Nat) :
    (perfAdd s b e n).boot = s.boot := rfl
@[simp] theorem perfAdd_twin (b e n : Nat) :
    (perfAdd s b e n).twin = s.twin := rfl
@[simp] theorem perfAdd_gallery (b e n : Nat) :
    (perfAdd s b e n).gallery = s.gallery := rfl
@[simp] theorem perfAdd_tally (b e n : Nat) :
    (perfAdd s b e n).tally = s.tally := rfl
@[simp] theorem perfAdd_power (b e n : Nat) :
    (perfAdd s b e n).power = s.power := rfl
@[simp] theorem perfAdd_captured (b e n : Nat) :
    (perfAdd s b e n).captured = s.captured := rfl
@[simp] theorem perfAdd_heldHi (b e n : Nat) :
    (perfAdd s b e n).heldHi = s.heldHi := rfl
@[simp] theorem perfAdd_lastErr (b e n : Nat) :
    (perfAdd s b e n).lastErr = s.lastErr := rfl
@[simp] theorem perfAdd_lastVal (b e n : Nat) :
    (perfAdd s b e n).lastVal = s.lastVal := rfl
@[simp] theorem perfAdd_fresh (b e n : Nat) :
    (perfAdd s b e n).fresh = s.fresh := rfl
@[simp] theorem perfAdd_outbox (b e n : Nat) :
    (perfAdd s b e n).outbox = s.outbox := rfl
@[simp] theorem perfAdd_pending (b e n : Nat) :
    (perfAdd s b e n).pending = s.pending := rfl

/-! `modQp` -/

@[simp] theorem modQp_time (q : Nat) (f : Qp → Qp) :
    (modQp s q f).time = s.time := rfl
@[simp] theorem modQp_net (q : Nat) (f : Qp → Qp) :
    (modQp s q f).net = { s.net with qps := tmod s.net.qps q f } := rfl
@[simp] theorem modQp_cipher (q : Nat) (f : Qp → Qp) :
    (modQp s q f).cipher = s.cipher := rfl
@[simp] theorem modQp_pk (q : Nat) (f : Qp → Qp) :
    (modQp s q f).pk = s.pk := rfl
@[simp] theorem modQp_digest (q : Nat) (f : Qp → Qp) :
    (modQp s q f).digest = s.digest := rfl
@[simp] theorem modQp_rng (q : Nat) (f : Qp → Qp) :
    (modQp s q f).rng = s.rng := rfl
@[simp] theorem modQp_keys (q : Nat) (f : Qp → Qp) :
    (modQp s q f).keys = s.keys := rfl
@[simp] theorem modQp_stair (q : Nat) (f : Qp → Qp) :
    (modQp s q f).stair = s.stair := rfl
@[simp] theorem modQp_ledger (q : Nat) (f : Qp → Qp) :
    (modQp s q f).ledger = s.ledger := rfl
@[simp] theorem modQp_halls (q : Nat) (f : Qp → Qp) :
    (modQp s q f).halls = s.halls := rfl
@[simp] theorem modQp_tamper (q : Nat) (f : Qp → Qp) :
    (modQp s q f).tamper = s.tamper := rfl
@[simp] theorem modQp_bb (q : Nat) (f : Qp → Qp) :
    (modQp s q f).bb = s.bb := rfl
@[simp] theorem modQp_otp (q : Nat) (f : Qp → Qp) :
    (modQp s q f).otp = s.otp := rfl
@[simp] theorem modQp_life (q : Nat) (f : Qp → Qp) :
    (modQp s q f).life = s.life := rfl
@[simp] theorem modQp_fc (q : Nat) (f : Qp → Qp) :
    (modQp s q f).fc = s.fc := rfl
@[simp] theorem modQp_ed (q : Nat) (f : Qp → Qp) :
    (modQp s q f).ed = s.ed := rfl
@[simp] theorem modQp_boot (q : Nat) (f : Qp → Qp) :
    (modQp s q f).boot = s.boot := rfl
@[simp] theorem modQp_twin (q : Nat) (f : Qp → Qp) :
    (modQp s q f).twin = s.twin := rfl
@[simp] theorem modQp_gallery (q : Nat) (f : Qp → Qp) :
    (modQp s q f).gallery = s.gallery := rfl
@[simp] theorem modQp_tally (q : Nat) (f : Qp → Qp) :
    (modQp s q f).tally = s.tally := rfl
@[simp] theorem modQp_perf (q : Nat) (f : Qp → Qp) :
    (modQp s q f).perf = s.perf := rfl
@[simp] theorem modQp_power (q : Nat) (f : Qp → Qp) :
    (modQp s q f).power = s.power := rfl
@[simp] theorem modQp_captured (q : Nat) (f : Qp → Qp) :
    (modQp s q f).captured = s.captured := rfl
@[simp] theorem modQp_heldHi (q : Nat) (f : Qp → Qp) :
    (modQp s q f).heldHi = s.heldHi := rfl
@[simp] theorem modQp_lastErr (q : Nat) (f : Qp → Qp) :
    (modQp s q f).lastErr = s.lastErr := rfl
@[simp] theorem modQp_lastVal (q : Nat) (f : Qp → Qp) :
    (modQp s q f).lastVal = s.lastVal := rfl
@[simp] theorem modQp_fresh (q : Nat) (f : Qp → Qp) :
    (modQp s q f).fresh = s.fresh := rfl
@[simp] theorem modQp_outbox (q : Nat) (f : Qp → Qp) :
    (modQp s q f).outbox = s.outbox := rfl
@[simp] theorem modQp_pending (q : Nat) (f : Qp → Qp) :
    (modQp s q f).pending = s.pending := rfl

/-! `modCore` -/

@[simp] theorem modCore_time (i : Nat) (f : PkCore → PkCore) :
    (modCore s i f).time = s.time := rfl
@[simp] theorem modCore_net (i : Nat) (f : PkCore → PkCore) :
    (modCore s i f).net = s.net := rfl
@[simp] theorem modCore_cipher (i : Nat) (f : PkCore → PkCore) :
    (modCore s i f).cipher = s.cipher := rfl
@[simp] theorem modCore_pk (i : Nat) (f : PkCore → PkCore) :
    (modCore s i f).pk = { s.pk with cores := tmod s.pk.cores i f } := rfl
@[simp] theorem modCore_digest (i : Nat) (f : PkCore → PkCore) :
    (modCore s i f).digest = s.digest := rfl
@[simp] theorem modCore_rng (i : Nat) (f : PkCore → PkCore) :
    (modCore s i f).rng = s.rng := rfl
@[simp] theorem modCore_keys (i : Nat) (f : PkCore → PkCore) :
    (modCore s i f).keys = s.keys := rfl
@[simp] theorem modCore_stair (i : Nat) (f : PkCore → PkCore) :
    (modCore s i f).stair = s.stair := rfl
@[simp] theorem modCore_ledger (i : Nat) (f : PkCore → PkCore) :
    (modCore s i f).ledger = s.ledger := rfl
@[simp] theorem modCore_halls (i : Nat) (f : PkCore → PkCore) :
    (modCore s i f).halls = s.halls := rfl
@[simp] theorem modCore_tamper (i : Nat) (f : PkCore → PkCore) :
    (modCore s i f).tamper = s.tamper := rfl
@[simp] theorem modCore_bb (i : Nat) (f : PkCore → PkCore) :
    (modCore s i f).bb = s.bb := rfl
@[simp] theorem modCore_otp (i : Nat) (f : PkCore → PkCore) :
    (modCore s i f).otp = s.otp := rfl
@[simp] theorem modCore_life (i : Nat) (f : PkCore → PkCore) :
    (modCore s i f).life = s.life := rfl
@[simp] theorem modCore_fc (i : Nat) (f : PkCore → PkCore) :
    (modCore s i f).fc = s.fc := rfl
@[simp] theorem modCore_ed (i : Nat) (f : PkCore → PkCore) :
    (modCore s i f).ed = s.ed := rfl
@[simp] theorem modCore_boot (i : Nat) (f : PkCore → PkCore) :
    (modCore s i f).boot = s.boot := rfl
@[simp] theorem modCore_twin (i : Nat) (f : PkCore → PkCore) :
    (modCore s i f).twin = s.twin := rfl
@[simp] theorem modCore_gallery (i : Nat) (f : PkCore → PkCore) :
    (modCore s i f).gallery = s.gallery := rfl
@[simp] theorem modCore_tally (i : Nat) (f : PkCore → PkCore) :
    (modCore s i f).tally = s.tally := rfl
@[simp] theorem modCore_perf (i : Nat) (f : PkCore → PkCore) :
    (modCore s i f).perf = s.perf := rfl
@[simp] theorem modCore_power (i : Nat) (f : PkCore → PkCore) :
    (modCore s i f).power = s.power := rfl
@[simp] theorem modCore_captured (i : Nat) (f : PkCore → PkCore) :
    (modCore s i f).captured = s.captured := rfl
@[simp] theorem modCore_heldHi (i : Nat) (f : PkCore → PkCore) :
    (modCore s i f).heldHi = s.heldHi := rfl
@[simp] theorem modCore_lastErr (i : Nat) (f : PkCore → PkCore) :
    (modCore s i f).lastErr = s.lastErr := rfl
@[simp] theorem modCore_lastVal (i : Nat) (f : PkCore → PkCore) :
    (modCore s i f).lastVal = s.lastVal := rfl
@[simp] theorem modCore_fresh (i : Nat) (f : PkCore → PkCore) :
    (modCore s i f).fresh = s.fresh := rfl
@[simp] theorem modCore_outbox (i : Nat) (f : PkCore → PkCore) :
    (modCore s i f).outbox = s.outbox := rfl
@[simp] theorem modCore_pending (i : Nat) (f : PkCore → PkCore) :
    (modCore s i f).pending = s.pending := rfl

/-! `modJob` -/

@[simp] theorem modJob_time (j : Nat) (f : Job → Job) :
    (modJob s j f).time = s.time := rfl
@[simp] theorem modJob_net (j : Nat) (f : Job → Job) :
    (modJob s j f).net = s.net := rfl
@[simp] theorem modJob_cipher (j : Nat) (f : Job → Job) :
    (modJob s j f).cipher = s.cipher := rfl
@[simp] theorem modJob_pk (j : Nat) (f : Job → Job) :
    (modJob s j f).pk = { s.pk with jobs := tmod s.pk.jobs j f } := rfl
@[simp] theorem modJob_digest (j : Nat) (f : Job → Job) :
    (modJob s j f).digest = s.digest := rfl
@[simp] theorem modJob_rng (j : Nat) (f : Job → Job) :
    (modJob s j f).rng = s.rng := rfl
@[simp] theorem modJob_keys (j : Nat) (f : Job → Job) :
    (modJob s j f).keys = s.keys := rfl
@[simp] theorem modJob_stair (j : Nat) (f : Job → Job) :
    (modJob s j f).stair = s.stair := rfl
@[simp] theorem modJob_ledger (j : Nat) (f : Job → Job) :
    (modJob s j f).ledger = s.ledger := rfl
@[simp] theorem modJob_halls (j : Nat) (f : Job → Job) :
    (modJob s j f).halls = s.halls := rfl
@[simp] theorem modJob_tamper (j : Nat) (f : Job → Job) :
    (modJob s j f).tamper = s.tamper := rfl
@[simp] theorem modJob_bb (j : Nat) (f : Job → Job) :
    (modJob s j f).bb = s.bb := rfl
@[simp] theorem modJob_otp (j : Nat) (f : Job → Job) :
    (modJob s j f).otp = s.otp := rfl
@[simp] theorem modJob_life (j : Nat) (f : Job → Job) :
    (modJob s j f).life = s.life := rfl
@[simp] theorem modJob_fc (j : Nat) (f : Job → Job) :
    (modJob s j f).fc = s.fc := rfl
@[simp] theorem modJob_ed (j : Nat) (f : Job → Job) :
    (modJob s j f).ed = s.ed := rfl
@[simp] theorem modJob_boot (j : Nat) (f : Job → Job) :
    (modJob s j f).boot = s.boot := rfl
@[simp] theorem modJob_twin (j : Nat) (f : Job → Job) :
    (modJob s j f).twin = s.twin := rfl
@[simp] theorem modJob_gallery (j : Nat) (f : Job → Job) :
    (modJob s j f).gallery = s.gallery := rfl
@[simp] theorem modJob_tally (j : Nat) (f : Job → Job) :
    (modJob s j f).tally = s.tally := rfl
@[simp] theorem modJob_perf (j : Nat) (f : Job → Job) :
    (modJob s j f).perf = s.perf := rfl
@[simp] theorem modJob_power (j : Nat) (f : Job → Job) :
    (modJob s j f).power = s.power := rfl
@[simp] theorem modJob_captured (j : Nat) (f : Job → Job) :
    (modJob s j f).captured = s.captured := rfl
@[simp] theorem modJob_heldHi (j : Nat) (f : Job → Job) :
    (modJob s j f).heldHi = s.heldHi := rfl
@[simp] theorem modJob_lastErr (j : Nat) (f : Job → Job) :
    (modJob s j f).lastErr = s.lastErr := rfl
@[simp] theorem modJob_lastVal (j : Nat) (f : Job → Job) :
    (modJob s j f).lastVal = s.lastVal := rfl
@[simp] theorem modJob_fresh (j : Nat) (f : Job → Job) :
    (modJob s j f).fresh = s.fresh := rfl
@[simp] theorem modJob_outbox (j : Nat) (f : Job → Job) :
    (modJob s j f).outbox = s.outbox := rfl
@[simp] theorem modJob_pending (j : Nat) (f : Job → Job) :
    (modJob s j f).pending = s.pending := rfl

/-! `addComp` -/

@[simp] theorem addComp_time (c : Completion) :
    (addComp s c).time = s.time := rfl
@[simp] theorem addComp_net (c : Completion) :
    (addComp s c).net = { s.net with comps := tput s.net.comps s.net.nextComp c, nextComp := s.net.nextComp + 1 } := rfl
@[simp] theorem addComp_cipher (c : Completion) :
    (addComp s c).cipher = s.cipher := rfl
@[simp] theorem addComp_pk (c : Completion) :
    (addComp s c).pk = s.pk := rfl
@[simp] theorem addComp_digest (c : Completion) :
    (addComp s c).digest = s.digest := rfl
@[simp] theorem addComp_rng (c : Completion) :
    (addComp s c).rng = s.rng := rfl
@[simp] theorem addComp_keys (c : Completion) :
    (addComp s c).keys = s.keys := rfl
@[simp] theorem addComp_stair (c : Completion) :
    (addComp s c).stair = s.stair := rfl
@[simp] theorem addComp_ledger (c : Completion) :
    (addComp s c).ledger = s.ledger := rfl
@[simp] theorem addComp_halls (c : Completion) :
    (addComp s c).halls = s.halls := rfl
@[simp] theorem addComp_tamper (c : Completion) :
    (addComp s c).tamper = s.tamper := rfl
@[simp] theorem addComp_bb (c : Completion) :
    (addComp s c).bb = s.bb := rfl
@[simp] theorem addComp_otp (c : Completion) :
    (addComp s c).otp = s.otp := rfl
@[simp] theorem addComp_life (c : Completion) :
    (addComp s c).life = s.life := rfl
@[simp] theorem addComp_fc (c : Completion) :
    (addComp s c).fc = s.fc := rfl
@[simp] theorem addComp_ed (c : Completion) :
    (addComp s c).ed = s.ed := rfl
@[simp] theorem addComp_boot (c : Completion) :
    (addComp s c).boot = s.boot := rfl
@[simp] theorem addComp_twin (c : Completion) :
    (addComp s c).twin = s.twin := rfl
@[simp] theorem addComp_gallery (c : Completion) :
    (addComp s c).gallery = s.gallery := rfl
@[simp] theorem addComp_tally (c : Completion) :
    (addComp s c).tally = s.tally := rfl
@[simp] theorem addComp_perf (c : Completion) :
    (addComp s c).perf = s.perf := rfl
@[simp] theorem addComp_power (c : Completion) :
    (addComp s c).power = s.power := rfl
@[simp] theorem addComp_captured (c : Completion) :
    (addComp s c).captured = s.captured := rfl
@[simp] theorem addComp_heldHi (c : Completion) :
    (addComp s c).heldHi = s.heldHi := rfl
@[simp] theorem addComp_lastErr (c : Completion) :
    (addComp s c).lastErr = s.lastErr := rfl
@[simp] theorem addComp_lastVal (c : Completion) :
    (addComp s c).lastVal = s.lastVal := rfl
@[simp] theorem addComp_fresh (c : Completion) :
    (addComp s c).fresh = s.fresh := rfl
@[simp] theorem addComp_outbox (c : Completion) :
    (addComp s c).outbox = s.outbox := rfl
@[simp] theorem addComp_pending (c : Completion) :
    (addComp s c).pending = s.pending := rfl

/-! `modFc` -/

@[simp] theorem modFc_time (f : Collector → Collector) :
    (modFc s f).time = s.time := rfl
@[simp] theorem modFc_net (f : Collector → Collector) :
    (modFc s f).net = s.net := rfl
@[simp] theorem modFc_cipher (f : Collector → Collector) :
    (modFc s f).cipher = s.cipher := rfl
@[simp] theorem modFc_pk (f : Collector → Collector) :
    (modFc s f).pk = s.pk := rfl
@[simp] theorem modFc_digest (f : Collector → Collector) :
    (modFc s f).digest = s.digest := rfl
@[simp] theorem modFc_rng (f : Collector → Collector) :
    (modFc s f).rng = s.rng := rfl
@[simp] theorem modFc_keys (f : Collector → Collector) :
    (modFc s f).keys = s.keys := rfl
@[simp] theorem modFc_stair (f : Collector → Collector) :
    (modFc s f).stair = s.stair := rfl
@[simp] theorem modFc_ledger (f : Collector → Collector) :
    (modFc s f).ledger = s.ledger := rfl
@[simp] theorem modFc_halls (f : Collector → Collector) :
    (modFc s f).halls = s.halls := rfl
@[simp] theorem modFc_tamper (f : Collector → Collector) :
    (modFc s f).tamper = s.tamper := rfl
@[simp] theorem modFc_bb (f : Collector → Collector) :
    (modFc s f).bb = s.bb := rfl
@[simp] theorem modFc_otp (f : Collector → Collector) :
    (modFc s f).otp = s.otp := rfl
@[simp] theorem modFc_life (f : Collector → Collector) :
    (modFc s f).life = s.life := rfl
@[simp] theorem modFc_fc (f : Collector → Collector) :
    (modFc s f).fc = f s.fc := rfl
@[simp] theorem modFc_ed (f : Collector → Collector) :
    (modFc s f).ed = s.ed := rfl
@[simp] theorem modFc_boot (f : Collector → Collector) :
    (modFc s f).boot = s.boot := rfl
@[simp] theorem modFc_twin (f : Collector → Collector) :
    (modFc s f).twin = s.twin := rfl
@[simp] theorem modFc_gallery (f : Collector → Collector) :
    (modFc s f).gallery = s.gallery := rfl
@[simp] theorem modFc_tally (f : Collector → Collector) :
    (modFc s f).tally = s.tally := rfl
@[simp] theorem modFc_perf (f : Collector → Collector) :
    (modFc s f).perf = s.perf := rfl
@[simp] theorem modFc_power (f : Collector → Collector) :
    (modFc s f).power = s.power := rfl
@[simp] theorem modFc_captured (f : Collector → Collector) :
    (modFc s f).captured = s.captured := rfl
@[simp] theorem modFc_heldHi (f : Collector → Collector) :
    (modFc s f).heldHi = s.heldHi := rfl
@[simp] theorem modFc_lastErr (f : Collector → Collector) :
    (modFc s f).lastErr = s.lastErr := rfl
@[simp] theorem modFc_lastVal (f : Collector → Collector) :
    (modFc s f).lastVal = s.lastVal := rfl
@[simp] theorem modFc_fresh (f : Collector → Collector) :
    (modFc s f).fresh = s.fresh := rfl
@[simp] theorem modFc_outbox (f : Collector → Collector) :
    (modFc s f).outbox = s.outbox := rfl
@[simp] theorem modFc_pending (f : Collector → Collector) :
    (modFc s f).pending = s.pending := rfl

/-! `modKeys` -/

@[simp] theorem modKeys_time (f : Keys → Keys) :
    (modKeys s f).time = s.time := rfl
@[simp] theorem modKeys_net (f : Keys → Keys) :
    (modKeys s f).net = s.net := rfl
@[simp] theorem modKeys_cipher (f : Keys → Keys) :
    (modKeys s f).cipher = s.cipher := rfl
@[simp] theorem modKeys_pk (f : Keys → Keys) :
    (modKeys s f).pk = s.pk := rfl
@[simp] theorem modKeys_digest (f : Keys → Keys) :
    (modKeys s f).digest = s.digest := rfl
@[simp] theorem modKeys_rng (f : Keys → Keys) :
    (modKeys s f).rng = s.rng := rfl
@[simp] theorem modKeys_keys (f : Keys → Keys) :
    (modKeys s f).keys = f s.keys := rfl
@[simp] theorem modKeys_stair (f : Keys → Keys) :
    (modKeys s f).stair = s.stair := rfl
@[simp] theorem modKeys_ledger (f : Keys → Keys) :
    (modKeys s f).ledger = s.ledger := rfl
@[simp] theorem modKeys_halls (f : Keys → Keys) :
    (modKeys s f).halls = s.halls := rfl
@[simp] theorem modKeys_tamper (f : Keys → Keys) :
    (modKeys s f).tamper = s.tamper := rfl
@[simp] theorem modKeys_bb (f : Keys → Keys) :
    (modKeys s f).bb = s.bb := rfl
@[simp] theorem modKeys_otp (f : Keys → Keys) :
    (modKeys s f).otp = s.otp := rfl
@[simp] theorem modKeys_life (f : Keys → Keys) :
    (modKeys s f).life = s.life := rfl
@[simp] theorem modKeys_fc (f : Keys → Keys) :
    (modKeys s f).fc = s.fc := rfl
@[simp] theorem modKeys_ed (f : Keys → Keys) :
    (modKeys s f).ed = s.ed := rfl
@[simp] theorem modKeys_boot (f : Keys → Keys) :
    (modKeys s f).boot = s.boot := rfl
@[simp] theorem modKeys_twin (f : Keys → Keys) :
    (modKeys s f).twin = s.twin := rfl
@[simp] theorem modKeys_gallery (f : Keys → Keys) :
    (modKeys s f).gallery = s.gallery := rfl
@[simp] theorem modKeys_tally (f : Keys → Keys) :
    (modKeys s f).tally = s.tally := rfl
@[simp] theorem modKeys_perf (f : Keys → Keys) :
    (modKeys s f).perf = s.perf := rfl
@[simp] theorem modKeys_power (f : Keys → Keys) :
    (modKeys s f).power = s.power := rfl
@[simp] theorem modKeys_captured (f : Keys → Keys) :
    (modKeys s f).captured = s.captured := rfl
@[simp] theorem modKeys_heldHi (f : Keys → Keys) :
    (modKeys s f).heldHi = s.heldHi := rfl
@[simp] theorem modKeys_lastErr (f : Keys → Keys) :
    (modKeys s f).lastErr = s.lastErr := rfl
@[simp] theorem modKeys_lastVal (f : Keys → Keys) :
    (modKeys s f).lastVal = s.lastVal := rfl
@[simp] theorem modKeys_fresh (f : Keys → Keys) :
    (modKeys s f).fresh = s.fresh := rfl
@[simp] theorem modKeys_outbox (f : Keys → Keys) :
    (modKeys s f).outbox = s.outbox := rfl
@[simp] theorem modKeys_pending (f : Keys → Keys) :
    (modKeys s f).pending = s.pending := rfl

/-! `modDu` -/

@[simp] theorem modDu_time (f : Digest → Digest) :
    (modDu s f).time = s.time := rfl
@[simp] theorem modDu_net (f : Digest → Digest) :
    (modDu s f).net = s.net := rfl
@[simp] theorem modDu_cipher (f : Digest → Digest) :
    (modDu s f).cipher = s.cipher := rfl
@[simp] theorem modDu_pk (f : Digest → Digest) :
    (modDu s f).pk = s.pk := rfl
@[simp] theorem modDu_digest (f : Digest → Digest) :
    (modDu s f).digest = f s.digest := rfl
@[simp] theorem modDu_rng (f : Digest → Digest) :
    (modDu s f).rng = s.rng := rfl
@[simp] theorem modDu_keys (f : Digest → Digest) :
    (modDu s f).keys = s.keys := rfl
@[simp] theorem modDu_stair (f : Digest → Digest) :
    (modDu s f).stair = s.stair := rfl
@[simp] theorem modDu_ledger (f : Digest → Digest) :
    (modDu s f).ledger = s.ledger := rfl
@[simp] theorem modDu_halls (f : Digest → Digest) :
    (modDu s f).halls = s.halls := rfl
@[simp] theorem modDu_tamper (f : Digest → Digest) :
    (modDu s f).tamper = s.tamper := rfl
@[simp] theorem modDu_bb (f : Digest → Digest) :
    (modDu s f).bb = s.bb := rfl
@[simp] theorem modDu_otp (f : Digest → Digest) :
    (modDu s f).otp = s.otp := rfl
@[simp] theorem modDu_life (f : Digest → Digest) :
    (modDu s f).life = s.life := rfl
@[simp] theorem modDu_fc (f : Digest → Digest) :
    (modDu s f).fc = s.fc := rfl
@[simp] theorem modDu_ed (f : Digest → Digest) :
    (modDu s f).ed = s.ed := rfl
@[simp] theorem modDu_boot (f : Digest → Digest) :
    (modDu s f).boot = s.boot := rfl
@[simp] theorem modDu_twin (f : Digest → Digest) :
    (modDu s f).twin = s.twin := rfl
@[simp] theorem modDu_gallery (f : Digest → Digest) :
    (modDu s f).gallery = s.gallery := rfl
@[simp] theorem modDu_tally (f : Digest → Digest) :
    (modDu s f).tally = s.tally := rfl
@[simp] theorem modDu_perf (f : Digest → Digest) :
    (modDu s f).perf = s.perf := rfl
@[simp] theorem modDu_power (f : Digest → Digest) :
    (modDu s f).power = s.power := rfl
@[simp] theorem modDu_captured (f : Digest → Digest) :
    (modDu s f).captured = s.captured := rfl
@[simp] theorem modDu_heldHi (f : Digest → Digest) :
    (modDu s f).heldHi = s.heldHi := rfl
@[simp] theorem modDu_lastErr (f : Digest → Digest) :
    (modDu s f).lastErr = s.lastErr := rfl
@[simp] theorem modDu_lastVal (f : Digest → Digest) :
    (modDu s f).lastVal = s.lastVal := rfl
@[simp] theorem modDu_fresh (f : Digest → Digest) :
    (modDu s f).fresh = s.fresh := rfl
@[simp] theorem modDu_outbox (f : Digest → Digest) :
    (modDu s f).outbox = s.outbox := rfl
@[simp] theorem modDu_pending (f : Digest → Digest) :
    (modDu s f).pending = s.pending := rfl

/-! `modHalls` -/

@[simp] theorem modHalls_time (f : Halls → Halls) :
    (modHalls s f).time = s.time := rfl
@[simp] theorem modHalls_net (f : Halls → Halls) :
    (modHalls s f).net = s.net := rfl
@[simp] theorem modHalls_cipher (f : Halls → Halls) :
    (modHalls s f).cipher = s.cipher := rfl
@[simp] theorem modHalls_pk (f : Halls → Halls) :
    (modHalls s f).pk = s.pk := rfl
@[simp] theorem modHalls_digest (f : Halls → Halls) :
    (modHalls s f).digest = s.digest := rfl
@[simp] theorem modHalls_rng (f : Halls → Halls) :
    (modHalls s f).rng = s.rng := rfl
@[simp] theorem modHalls_keys (f : Halls → Halls) :
    (modHalls s f).keys = s.keys := rfl
@[simp] theorem modHalls_stair (f : Halls → Halls) :
    (modHalls s f).stair = s.stair := rfl
@[simp] theorem modHalls_ledger (f : Halls → Halls) :
    (modHalls s f).ledger = s.ledger := rfl
@[simp] theorem modHalls_halls (f : Halls → Halls) :
    (modHalls s f).halls = f s.halls := rfl
@[simp] theorem modHalls_tamper (f : Halls → Halls) :
    (modHalls s f).tamper = s.tamper := rfl
@[simp] theorem modHalls_bb (f : Halls → Halls) :
    (modHalls s f).bb = s.bb := rfl
@[simp] theorem modHalls_otp (f : Halls → Halls) :
    (modHalls s f).otp = s.otp := rfl
@[simp] theorem modHalls_life (f : Halls → Halls) :
    (modHalls s f).life = s.life := rfl
@[simp] theorem modHalls_fc (f : Halls → Halls) :
    (modHalls s f).fc = s.fc := rfl
@[simp] theorem modHalls_ed (f : Halls → Halls) :
    (modHalls s f).ed = s.ed := rfl
@[simp] theorem modHalls_boot (f : Halls → Halls) :
    (modHalls s f).boot = s.boot := rfl
@[simp] theorem modHalls_twin (f : Halls → Halls) :
    (modHalls s f).twin = s.twin := rfl
@[simp] theorem modHalls_gallery (f : Halls → Halls) :
    (modHalls s f).gallery = s.gallery := rfl
@[simp] theorem modHalls_tally (f : Halls → Halls) :
    (modHalls s f).tally = s.tally := rfl
@[simp] theorem modHalls_perf (f : Halls → Halls) :
    (modHalls s f).perf = s.perf := rfl
@[simp] theorem modHalls_power (f : Halls → Halls) :
    (modHalls s f).power = s.power := rfl
@[simp] theorem modHalls_captured (f : Halls → Halls) :
    (modHalls s f).captured = s.captured := rfl
@[simp] theorem modHalls_heldHi (f : Halls → Halls) :
    (modHalls s f).heldHi = s.heldHi := rfl
@[simp] theorem modHalls_lastErr (f : Halls → Halls) :
    (modHalls s f).lastErr = s.lastErr := rfl
@[simp] theorem modHalls_lastVal (f : Halls → Halls) :
    (modHalls s f).lastVal = s.lastVal := rfl
@[simp] theorem modHalls_fresh (f : Halls → Halls) :
    (modHalls s f).fresh = s.fresh := rfl
@[simp] theorem modHalls_outbox (f : Halls → Halls) :
    (modHalls s f).outbox = s.outbox := rfl
@[simp] theorem modHalls_pending (f : Halls → Halls) :
    (modHalls s f).pending = s.pending := rfl

/-! `modLife` -/

@[simp] theorem modLife_time (f : LifeCycle → LifeCycle) :
    (modLife s f).time = s.time := rfl
@[simp] theorem modLife_net (f : LifeCycle → LifeCycle) :
    (modLife s f).net = s.net := rfl
@[simp] theorem modLife_cipher (f : LifeCycle → LifeCycle) :
    (modLife s f).cipher = s.cipher := rfl
@[simp] theorem modLife_pk (f : LifeCycle → LifeCycle) :
    (modLife s f).pk = s.pk := rfl
@[simp] theorem modLife_digest (f : LifeCycle → LifeCycle) :
    (modLife s f).digest = s.digest := rfl
@[simp] theorem modLife_rng (f : LifeCycle → LifeCycle) :
    (modLife s f).rng = s.rng := rfl
@[simp] theorem modLife_keys (f : LifeCycle → LifeCycle) :
    (modLife s f).keys = s.keys := rfl
@[simp] theorem modLife_stair (f : LifeCycle → LifeCycle) :
    (modLife s f).stair = s.stair := rfl
@[simp] theorem modLife_ledger (f : LifeCycle → LifeCycle) :
    (modLife s f).ledger = s.ledger := rfl
@[simp] theorem modLife_halls (f : LifeCycle → LifeCycle) :
    (modLife s f).halls = s.halls := rfl
@[simp] theorem modLife_tamper (f : LifeCycle → LifeCycle) :
    (modLife s f).tamper = s.tamper := rfl
@[simp] theorem modLife_bb (f : LifeCycle → LifeCycle) :
    (modLife s f).bb = s.bb := rfl
@[simp] theorem modLife_otp (f : LifeCycle → LifeCycle) :
    (modLife s f).otp = s.otp := rfl
@[simp] theorem modLife_life (f : LifeCycle → LifeCycle) :
    (modLife s f).life = f s.life := rfl
@[simp] theorem modLife_fc (f : LifeCycle → LifeCycle) :
    (modLife s f).fc = s.fc := rfl
@[simp] theorem modLife_ed (f : LifeCycle → LifeCycle) :
    (modLife s f).ed = s.ed := rfl
@[simp] theorem modLife_boot (f : LifeCycle → LifeCycle) :
    (modLife s f).boot = s.boot := rfl
@[simp] theorem modLife_twin (f : LifeCycle → LifeCycle) :
    (modLife s f).twin = s.twin := rfl
@[simp] theorem modLife_gallery (f : LifeCycle → LifeCycle) :
    (modLife s f).gallery = s.gallery := rfl
@[simp] theorem modLife_tally (f : LifeCycle → LifeCycle) :
    (modLife s f).tally = s.tally := rfl
@[simp] theorem modLife_perf (f : LifeCycle → LifeCycle) :
    (modLife s f).perf = s.perf := rfl
@[simp] theorem modLife_power (f : LifeCycle → LifeCycle) :
    (modLife s f).power = s.power := rfl
@[simp] theorem modLife_captured (f : LifeCycle → LifeCycle) :
    (modLife s f).captured = s.captured := rfl
@[simp] theorem modLife_heldHi (f : LifeCycle → LifeCycle) :
    (modLife s f).heldHi = s.heldHi := rfl
@[simp] theorem modLife_lastErr (f : LifeCycle → LifeCycle) :
    (modLife s f).lastErr = s.lastErr := rfl
@[simp] theorem modLife_lastVal (f : LifeCycle → LifeCycle) :
    (modLife s f).lastVal = s.lastVal := rfl
@[simp] theorem modLife_fresh (f : LifeCycle → LifeCycle) :
    (modLife s f).fresh = s.fresh := rfl
@[simp] theorem modLife_outbox (f : LifeCycle → LifeCycle) :
    (modLife s f).outbox = s.outbox := rfl
@[simp] theorem modLife_pending (f : LifeCycle → LifeCycle) :
    (modLife s f).pending = s.pending := rfl

/-! `modTwin` -/

@[simp] theorem modTwin_time (f : Twin → Twin) :
    (modTwin s f).time = s.time := rfl
@[simp] theorem modTwin_net (f : Twin → Twin) :
    (modTwin s f).net = s.net := rfl
@[simp] theorem modTwin_cipher (f : Twin → Twin) :
    (modTwin s f).cipher = s.cipher := rfl
@[simp] theorem modTwin_pk (f : Twin → Twin) :
    (modTwin s f).pk = s.pk := rfl
@[simp] theorem modTwin_digest (f : Twin → Twin) :
    (modTwin s f).digest = s.digest := rfl
@[simp] theorem modTwin_rng (f : Twin → Twin) :
    (modTwin s f).rng = s.rng := rfl
@[simp] theorem modTwin_keys (f : Twin → Twin) :
    (modTwin s f).keys = s.keys := rfl
@[simp] theorem modTwin_stair (f : Twin → Twin) :
    (modTwin s f).stair = s.stair := rfl
@[simp] theorem modTwin_ledger (f : Twin → Twin) :
    (modTwin s f).ledger = s.ledger := rfl
@[simp] theorem modTwin_halls (f : Twin → Twin) :
    (modTwin s f).halls = s.halls := rfl
@[simp] theorem modTwin_tamper (f : Twin → Twin) :
    (modTwin s f).tamper = s.tamper := rfl
@[simp] theorem modTwin_bb (f : Twin → Twin) :
    (modTwin s f).bb = s.bb := rfl
@[simp] theorem modTwin_otp (f : Twin → Twin) :
    (modTwin s f).otp = s.otp := rfl
@[simp] theorem modTwin_life (f : Twin → Twin) :
    (modTwin s f).life = s.life := rfl
@[simp] theorem modTwin_fc (f : Twin → Twin) :
    (modTwin s f).fc = s.fc := rfl
@[simp] theorem modTwin_ed (f : Twin → Twin) :
    (modTwin s f).ed = s.ed := rfl
@[simp] theorem modTwin_boot (f : Twin → Twin) :
    (modTwin s f).boot = s.boot := rfl
@[simp] theorem modTwin_twin (f : Twin → Twin) :
    (modTwin s f).twin = f s.twin := rfl
@[simp] theorem modTwin_gallery (f : Twin → Twin) :
    (modTwin s f).gallery = s.gallery := rfl
@[simp] theorem modTwin_tally (f : Twin → Twin) :
    (modTwin s f).tally = s.tally := rfl
@[simp] theorem modTwin_perf (f : Twin → Twin) :
    (modTwin s f).perf = s.perf := rfl
@[simp] theorem modTwin_power (f : Twin → Twin) :
    (modTwin s f).power = s.power := rfl
@[simp] theorem modTwin_captured (f : Twin → Twin) :
    (modTwin s f).captured = s.captured := rfl
@[simp] theorem modTwin_heldHi (f : Twin → Twin) :
    (modTwin s f).heldHi = s.heldHi := rfl
@[simp] theorem modTwin_lastErr (f : Twin → Twin) :
    (modTwin s f).lastErr = s.lastErr := rfl
@[simp] theorem modTwin_lastVal (f : Twin → Twin) :
    (modTwin s f).lastVal = s.lastVal := rfl
@[simp] theorem modTwin_fresh (f : Twin → Twin) :
    (modTwin s f).fresh = s.fresh := rfl
@[simp] theorem modTwin_outbox (f : Twin → Twin) :
    (modTwin s f).outbox = s.outbox := rfl
@[simp] theorem modTwin_pending (f : Twin → Twin) :
    (modTwin s f).pending = s.pending := rfl

/-! `modGallery` -/

@[simp] theorem modGallery_time (f : Gallery → Gallery) :
    (modGallery s f).time = s.time := rfl
@[simp] theorem modGallery_net (f : Gallery → Gallery) :
    (modGallery s f).net = s.net := rfl
@[simp] theorem modGallery_cipher (f : Gallery → Gallery) :
    (modGallery s f).cipher = s.cipher := rfl
@[simp] theorem modGallery_pk (f : Gallery → Gallery) :
    (modGallery s f).pk = s.pk := rfl
@[simp] theorem modGallery_digest (f : Gallery → Gallery) :
    (modGallery s f).digest = s.digest := rfl
@[simp] theorem modGallery_rng (f : Gallery → Gallery) :
    (modGallery s f).rng = s.rng := rfl
@[simp] theorem modGallery_keys (f : Gallery → Gallery) :
    (modGallery s f).keys = s.keys := rfl
@[simp] theorem modGallery_stair (f : Gallery → Gallery) :
    (modGallery s f).stair = s.stair := rfl
@[simp] theorem modGallery_ledger (f : Gallery → Gallery) :
    (modGallery s f).ledger = s.ledger := rfl
@[simp] theorem modGallery_halls (f : Gallery → Gallery) :
    (modGallery s f).halls = s.halls := rfl
@[simp] theorem modGallery_tamper (f : Gallery → Gallery) :
    (modGallery s f).tamper = s.tamper := rfl
@[simp] theorem modGallery_bb (f : Gallery → Gallery) :
    (modGallery s f).bb = s.bb := rfl
@[simp] theorem modGallery_otp (f : Gallery → Gallery) :
    (modGallery s f).otp = s.otp := rfl
@[simp] theorem modGallery_life (f : Gallery → Gallery) :
    (modGallery s f).life = s.life := rfl
@[simp] theorem modGallery_fc (f : Gallery → Gallery) :
    (modGallery s f).fc = s.fc := rfl
@[simp] theorem modGallery_ed (f : Gallery → Gallery) :
    (modGallery s f).ed = s.ed := rfl
@[simp] theorem modGallery_boot (f : Gallery → Gallery) :
    (modGallery s f).boot = s.boot := rfl
@[simp] theorem modGallery_twin (f : Gallery → Gallery) :
    (modGallery s f).twin = s.twin := rfl
@[simp] theorem modGallery_gallery (f : Gallery → Gallery) :
    (modGallery s f).gallery = f s.gallery := rfl
@[simp] theorem modGallery_tally (f : Gallery → Gallery) :
    (modGallery s f).tally = s.tally := rfl
@[simp] theorem modGallery_perf (f : Gallery → Gallery) :
    (modGallery s f).perf = s.perf := rfl
@[simp] theorem modGallery_power (f : Gallery → Gallery) :
    (modGallery s f).power = s.power := rfl
@[simp] theorem modGallery_captured (f : Gallery → Gallery) :
    (modGallery s f).captured = s.captured := rfl
@[simp] theorem modGallery_heldHi (f : Gallery → Gallery) :
    (modGallery s f).heldHi = s.heldHi := rfl
@[simp] theorem modGallery_lastErr (f : Gallery → Gallery) :
    (modGallery s f).lastErr = s.lastErr := rfl
@[simp] theorem modGallery_lastVal (f : Gallery → Gallery) :
    (modGallery s f).lastVal = s.lastVal := rfl
@[simp] theorem modGallery_fresh (f : Gallery → Gallery) :
    (modGallery s f).fresh = s.fresh := rfl
@[simp] theorem modGallery_outbox (f : Gallery → Gallery) :
    (modGallery s f).outbox = s.outbox := rfl
@[simp] theorem modGallery_pending (f : Gallery → Gallery) :
    (modGallery s f).pending = s.pending := rfl

/-! `modPerf` -/

@[simp] theorem modPerf_time (f : Perf → Perf) :
    (modPerf s f).time = s.time := rfl
@[simp] theorem modPerf_net (f : Perf → Perf) :
    (modPerf s f).net = s.net := rfl
@[simp] theorem modPerf_cipher (f : Perf → Perf) :
    (modPerf s f).cipher = s.cipher := rfl
@[simp] theorem modPerf_pk (f : Perf → Perf) :
    (modPerf s f).pk = s.pk := rfl
@[simp] theorem modPerf_digest (f : Perf → Perf) :
    (modPerf s f).digest = s.digest := rfl
@[simp] theorem modPerf_rng (f : Perf → Perf) :
    (modPerf s f).rng = s.rng := rfl
@[simp] theorem modPerf_keys (f : Perf → Perf) :
    (modPerf s f).keys = s.keys := rfl
@[simp] theorem modPerf_stair (f : Perf → Perf) :
    (modPerf s f).stair = s.stair := rfl
@[simp] theorem modPerf_ledger (f : Perf → Perf) :
    (modPerf s f).ledger = s.ledger := rfl
@[simp] theorem modPerf_halls (f : Perf → Perf) :
    (modPerf s f).halls = s.halls := rfl
@[simp] theorem modPerf_tamper (f : Perf → Perf) :
    (modPerf s f).tamper = s.tamper := rfl
@[simp] theorem modPerf_bb (f : Perf → Perf) :
    (modPerf s f).bb = s.bb := rfl
@[simp] theorem modPerf_otp (f : Perf → Perf) :
    (modPerf s f).otp = s.otp := rfl
@[simp] theorem modPerf_life (f : Perf → Perf) :
    (modPerf s f).life = s.life := rfl
@[simp] theorem modPerf_fc (f : Perf → Perf) :
    (modPerf s f).fc = s.fc := rfl
@[simp] theorem modPerf_ed (f : Perf → Perf) :
    (modPerf s f).ed = s.ed := rfl
@[simp] theorem modPerf_boot (f : Perf → Perf) :
    (modPerf s f).boot = s.boot := rfl
@[simp] theorem modPerf_twin (f : Perf → Perf) :
    (modPerf s f).twin = s.twin := rfl
@[simp] theorem modPerf_gallery (f : Perf → Perf) :
    (modPerf s f).gallery = s.gallery := rfl
@[simp] theorem modPerf_tally (f : Perf → Perf) :
    (modPerf s f).tally = s.tally := rfl
@[simp] theorem modPerf_perf (f : Perf → Perf) :
    (modPerf s f).perf = f s.perf := rfl
@[simp] theorem modPerf_power (f : Perf → Perf) :
    (modPerf s f).power = s.power := rfl
@[simp] theorem modPerf_captured (f : Perf → Perf) :
    (modPerf s f).captured = s.captured := rfl
@[simp] theorem modPerf_heldHi (f : Perf → Perf) :
    (modPerf s f).heldHi = s.heldHi := rfl
@[simp] theorem modPerf_lastErr (f : Perf → Perf) :
    (modPerf s f).lastErr = s.lastErr := rfl
@[simp] theorem modPerf_lastVal (f : Perf → Perf) :
    (modPerf s f).lastVal = s.lastVal := rfl
@[simp] theorem modPerf_fresh (f : Perf → Perf) :
    (modPerf s f).fresh = s.fresh := rfl
@[simp] theorem modPerf_outbox (f : Perf → Perf) :
    (modPerf s f).outbox = s.outbox := rfl
@[simp] theorem modPerf_pending (f : Perf → Perf) :
    (modPerf s f).pending = s.pending := rfl

/-! `modPk` -/

@[simp] theorem modPk_time (f : Pk → Pk) :
    (modPk s f).time = s.time := rfl
@[simp] theorem modPk_net (f : Pk → Pk) :
    (modPk s f).net = s.net := rfl
@[simp] theorem modPk_cipher (f : Pk → Pk) :
    (modPk s f).cipher = s.cipher := rfl
@[simp] theorem modPk_pk (f : Pk → Pk) :
    (modPk s f).pk = f s.pk := rfl
@[simp] theorem modPk_digest (f : Pk → Pk) :
    (modPk s f).digest = s.digest := rfl
@[simp] theorem modPk_rng (f : Pk → Pk) :
    (modPk s f).rng = s.rng := rfl
@[simp] theorem modPk_keys (f : Pk → Pk) :
    (modPk s f).keys = s.keys := rfl
@[simp] theorem modPk_stair (f : Pk → Pk) :
    (modPk s f).stair = s.stair := rfl
@[simp] theorem modPk_ledger (f : Pk → Pk) :
    (modPk s f).ledger = s.ledger := rfl
@[simp] theorem modPk_halls (f : Pk → Pk) :
    (modPk s f).halls = s.halls := rfl
@[simp] theorem modPk_tamper (f : Pk → Pk) :
    (modPk s f).tamper = s.tamper := rfl
@[simp] theorem modPk_bb (f : Pk → Pk) :
    (modPk s f).bb = s.bb := rfl
@[simp] theorem modPk_otp (f : Pk → Pk) :
    (modPk s f).otp = s.otp := rfl
@[simp] theorem modPk_life (f : Pk → Pk) :
    (modPk s f).life = s.life := rfl
@[simp] theorem modPk_fc (f : Pk → Pk) :
    (modPk s f).fc = s.fc := rfl
@[simp] theorem modPk_ed (f : Pk → Pk) :
    (modPk s f).ed = s.ed := rfl
@[simp] theorem modPk_boot (f : Pk → Pk) :
    (modPk s f).boot = s.boot := rfl
@[simp] theorem modPk_twin (f : Pk → Pk) :
    (modPk s f).twin = s.twin := rfl
@[simp] theorem modPk_gallery (f : Pk → Pk) :
    (modPk s f).gallery = s.gallery := rfl
@[simp] theorem modPk_tally (f : Pk → Pk) :
    (modPk s f).tally = s.tally := rfl
@[simp] theorem modPk_perf (f : Pk → Pk) :
    (modPk s f).perf = s.perf := rfl
@[simp] theorem modPk_power (f : Pk → Pk) :
    (modPk s f).power = s.power := rfl
@[simp] theorem modPk_captured (f : Pk → Pk) :
    (modPk s f).captured = s.captured := rfl
@[simp] theorem modPk_heldHi (f : Pk → Pk) :
    (modPk s f).heldHi = s.heldHi := rfl
@[simp] theorem modPk_lastErr (f : Pk → Pk) :
    (modPk s f).lastErr = s.lastErr := rfl
@[simp] theorem modPk_lastVal (f : Pk → Pk) :
    (modPk s f).lastVal = s.lastVal := rfl
@[simp] theorem modPk_fresh (f : Pk → Pk) :
    (modPk s f).fresh = s.fresh := rfl
@[simp] theorem modPk_outbox (f : Pk → Pk) :
    (modPk s f).outbox = s.outbox := rfl
@[simp] theorem modPk_pending (f : Pk → Pk) :
    (modPk s f).pending = s.pending := rfl

/-! `modPower` -/

@[simp] theorem modPower_time (f : Power → Power) :
    (modPower s f).time = s.time := rfl
@[simp] theorem modPower_net (f : Power → Power) :
    (modPower s f).net = s.net := rfl
@[simp] theorem modPower_cipher (f : Power → Power) :
    (modPower s f).cipher = s.cipher := rfl
@[simp] theorem modPower_pk (f : Power → Power) :
    (modPower s f).pk = s.pk := rfl
@[simp] theorem modPower_digest (f : Power → Power) :
    (modPower s f).digest = s.digest := rfl
@[simp] theorem modPower_rng (f : Power → Power) :
    (modPower s f).rng = s.rng := rfl
@[simp] theorem modPower_keys (f : Power → Power) :
    (modPower s f).keys = s.keys := rfl
@[simp] theorem modPower_stair (f : Power → Power) :
    (modPower s f).stair = s.stair := rfl
@[simp] theorem modPower_ledger (f : Power → Power) :
    (modPower s f).ledger = s.ledger := rfl
@[simp] theorem modPower_halls (f : Power → Power) :
    (modPower s f).halls = s.halls := rfl
@[simp] theorem modPower_tamper (f : Power → Power) :
    (modPower s f).tamper = s.tamper := rfl
@[simp] theorem modPower_bb (f : Power → Power) :
    (modPower s f).bb = s.bb := rfl
@[simp] theorem modPower_otp (f : Power → Power) :
    (modPower s f).otp = s.otp := rfl
@[simp] theorem modPower_life (f : Power → Power) :
    (modPower s f).life = s.life := rfl
@[simp] theorem modPower_fc (f : Power → Power) :
    (modPower s f).fc = s.fc := rfl
@[simp] theorem modPower_ed (f : Power → Power) :
    (modPower s f).ed = s.ed := rfl
@[simp] theorem modPower_boot (f : Power → Power) :
    (modPower s f).boot = s.boot := rfl
@[simp] theorem modPower_twin (f : Power → Power) :
    (modPower s f).twin = s.twin := rfl
@[simp] theorem modPower_gallery (f : Power → Power) :
    (modPower s f).gallery = s.gallery := rfl
@[simp] theorem modPower_tally (f : Power → Power) :
    (modPower s f).tally = s.tally := rfl
@[simp] theorem modPower_perf (f : Power → Power) :
    (modPower s f).perf = s.perf := rfl
@[simp] theorem modPower_power (f : Power → Power) :
    (modPower s f).power = f s.power := rfl
@[simp] theorem modPower_captured (f : Power → Power) :
    (modPower s f).captured = s.captured := rfl
@[simp] theorem modPower_heldHi (f : Power → Power) :
    (modPower s f).heldHi = s.heldHi := rfl
@[simp] theorem modPower_lastErr (f : Power → Power) :
    (modPower s f).lastErr = s.lastErr := rfl
@[simp] theorem modPower_lastVal (f : Power → Power) :
    (modPower s f).lastVal = s.lastVal := rfl
@[simp] theorem modPower_fresh (f : Power → Power) :
    (modPower s f).fresh = s.fresh := rfl
@[simp] theorem modPower_outbox (f : Power → Power) :
    (modPower s f).outbox = s.outbox := rfl
@[simp] theorem modPower_pending (f : Power → Power) :
    (modPower s f).pending = s.pending := rfl

/-! `modRng` -/

@[simp] theorem modRng_time (f : Rng → Rng) :
    (modRng s f).time = s.time := rfl
@[simp] theorem modRng_net (f : Rng → Rng) :
    (modRng s f).net = s.net := rfl
@[simp] theorem modRng_cipher (f : Rng → Rng) :
    (modRng s f).cipher = s.cipher := rfl
@[simp] theorem modRng_pk (f : Rng → Rng) :
    (modRng s f).pk = s.pk := rfl
@[simp] theorem modRng_digest (f : Rng → Rng) :
    (modRng s f).digest = s.digest := rfl
@[simp] theorem modRng_rng (f : Rng → Rng) :
    (modRng s f).rng = f s.rng := rfl
@[simp] theorem modRng_keys (f : Rng → Rng) :
    (modRng s f).keys = s.keys := rfl
@[simp] theorem modRng_stair (f : Rng → Rng) :
    (modRng s f).stair = s.stair := rfl
@[simp] theorem modRng_ledger (f : Rng → Rng) :
    (modRng s f).ledger = s.ledger := rfl
@[simp] theorem modRng_halls (f : Rng → Rng) :
    (modRng s f).halls = s.halls := rfl
@[simp] theorem modRng_tamper (f : Rng → Rng) :
    (modRng s f).tamper = s.tamper := rfl
@[simp] theorem modRng_bb (f : Rng → Rng) :
    (modRng s f).bb = s.bb := rfl
@[simp] theorem modRng_otp (f : Rng → Rng) :
    (modRng s f).otp = s.otp := rfl
@[simp] theorem modRng_life (f : Rng → Rng) :
    (modRng s f).life = s.life := rfl
@[simp] theorem modRng_fc (f : Rng → Rng) :
    (modRng s f).fc = s.fc := rfl
@[simp] theorem modRng_ed (f : Rng → Rng) :
    (modRng s f).ed = s.ed := rfl
@[simp] theorem modRng_boot (f : Rng → Rng) :
    (modRng s f).boot = s.boot := rfl
@[simp] theorem modRng_twin (f : Rng → Rng) :
    (modRng s f).twin = s.twin := rfl
@[simp] theorem modRng_gallery (f : Rng → Rng) :
    (modRng s f).gallery = s.gallery := rfl
@[simp] theorem modRng_tally (f : Rng → Rng) :
    (modRng s f).tally = s.tally := rfl
@[simp] theorem modRng_perf (f : Rng → Rng) :
    (modRng s f).perf = s.perf := rfl
@[simp] theorem modRng_power (f : Rng → Rng) :
    (modRng s f).power = s.power := rfl
@[simp] theorem modRng_captured (f : Rng → Rng) :
    (modRng s f).captured = s.captured := rfl
@[simp] theorem modRng_heldHi (f : Rng → Rng) :
    (modRng s f).heldHi = s.heldHi := rfl
@[simp] theorem modRng_lastErr (f : Rng → Rng) :
    (modRng s f).lastErr = s.lastErr := rfl
@[simp] theorem modRng_lastVal (f : Rng → Rng) :
    (modRng s f).lastVal = s.lastVal := rfl
@[simp] theorem modRng_fresh (f : Rng → Rng) :
    (modRng s f).fresh = s.fresh := rfl
@[simp] theorem modRng_outbox (f : Rng → Rng) :
    (modRng s f).outbox = s.outbox := rfl
@[simp] theorem modRng_pending (f : Rng → Rng) :
    (modRng s f).pending = s.pending := rfl

/-! `modStair` -/

@[simp] theorem modStair_time (f : Stair → Stair) :
    (modStair s f).time = s.time := rfl
@[simp] theorem modStair_net (f : Stair → Stair) :
    (modStair s f).net = s.net := rfl
@[simp] theorem modStair_cipher (f : Stair → Stair) :
    (modStair s f).cipher = s.cipher := rfl
@[simp] theorem modStair_pk (f : Stair → Stair) :
    (modStair s f).pk = s.pk := rfl
@[simp] theorem modStair_digest (f : Stair → Stair) :
    (modStair s f).digest = s.digest := rfl
@[simp] theorem modStair_rng (f : Stair → Stair) :
    (modStair s f).rng = s.rng := rfl
@[simp] theorem modStair_keys (f : Stair → Stair) :
    (modStair s f).keys = s.keys := rfl
@[simp] theorem modStair_stair (f : Stair → Stair) :
    (modStair s f).stair = f s.stair := rfl
@[simp] theorem modStair_ledger (f : Stair → Stair) :
    (modStair s f).ledger = s.ledger := rfl
@[simp] theorem modStair_halls (f : Stair → Stair) :
    (modStair s f).halls = s.halls := rfl
@[simp] theorem modStair_tamper (f : Stair → Stair) :
    (modStair s f).tamper = s.tamper := rfl
@[simp] theorem modStair_bb (f : Stair → Stair) :
    (modStair s f).bb = s.bb := rfl
@[simp] theorem modStair_otp (f : Stair → Stair) :
    (modStair s f).otp = s.otp := rfl
@[simp] theorem modStair_life (f : Stair → Stair) :
    (modStair s f).life = s.life := rfl
@[simp] theorem modStair_fc (f : Stair → Stair) :
    (modStair s f).fc = s.fc := rfl
@[simp] theorem modStair_ed (f : Stair → Stair) :
    (modStair s f).ed = s.ed := rfl
@[simp] theorem modStair_boot (f : Stair → Stair) :
    (modStair s f).boot = s.boot := rfl
@[simp] theorem modStair_twin (f : Stair → Stair) :
    (modStair s f).twin = s.twin := rfl
@[simp] theorem modStair_gallery (f : Stair → Stair) :
    (modStair s f).gallery = s.gallery := rfl
@[simp] theorem modStair_tally (f : Stair → Stair) :
    (modStair s f).tally = s.tally := rfl
@[simp] theorem modStair_perf (f : Stair → Stair) :
    (modStair s f).perf = s.perf := rfl
@[simp] theorem modStair_power (f : Stair → Stair) :
    (modStair s f).power = s.power := rfl
@[simp] theorem modStair_captured (f : Stair → Stair) :
    (modStair s f).captured = s.captured := rfl
@[simp] theorem modStair_heldHi (f : Stair → Stair) :
    (modStair s f).heldHi = s.heldHi := rfl
@[simp] theorem modStair_lastErr (f : Stair → Stair) :
    (modStair s f).lastErr = s.lastErr := rfl
@[simp] theorem modStair_lastVal (f : Stair → Stair) :
    (modStair s f).lastVal = s.lastVal := rfl
@[simp] theorem modStair_fresh (f : Stair → Stair) :
    (modStair s f).fresh = s.fresh := rfl
@[simp] theorem modStair_outbox (f : Stair → Stair) :
    (modStair s f).outbox = s.outbox := rfl
@[simp] theorem modStair_pending (f : Stair → Stair) :
    (modStair s f).pending = s.pending := rfl

/-! `modBoot` -/

@[simp] theorem modBoot_time (f : Boot → Boot) :
    (modBoot s f).time = s.time := rfl
@[simp] theorem modBoot_net (f : Boot → Boot) :
    (modBoot s f).net = s.net := rfl
@[simp] theorem modBoot_cipher (f : Boot → Boot) :
    (modBoot s f).cipher = s.cipher := rfl
@[simp] theorem modBoot_pk (f : Boot → Boot) :
    (modBoot s f).pk = s.pk := rfl
@[simp] theorem modBoot_digest (f : Boot → Boot) :
    (modBoot s f).digest = s.digest := rfl
@[simp] theorem modBoot_rng (f : Boot → Boot) :
    (modBoot s f).rng = s.rng := rfl
@[simp] theorem modBoot_keys (f : Boot → Boot) :
    (modBoot s f).keys = s.keys := rfl
@[simp] theorem modBoot_stair (f : Boot → Boot) :
    (modBoot s f).stair = s.stair := rfl
@[simp] theorem modBoot_ledger (f : Boot → Boot) :
    (modBoot s f).ledger = s.ledger := rfl
@[simp] theorem modBoot_halls (f : Boot → Boot) :
    (modBoot s f).halls = s.halls := rfl
@[simp] theorem modBoot_tamper (f : Boot → Boot) :
    (modBoot s f).tamper = s.tamper := rfl
@[simp] theorem modBoot_bb (f : Boot → Boot) :
    (modBoot s f).bb = s.bb := rfl
@[simp] theorem modBoot_otp (f : Boot → Boot) :
    (modBoot s f).otp = s.otp := rfl
@[simp] theorem modBoot_life (f : Boot → Boot) :
    (modBoot s f).life = s.life := rfl
@[simp] theorem modBoot_fc (f : Boot → Boot) :
    (modBoot s f).fc = s.fc := rfl
@[simp] theorem modBoot_ed (f : Boot → Boot) :
    (modBoot s f).ed = s.ed := rfl
@[simp] theorem modBoot_boot (f : Boot → Boot) :
    (modBoot s f).boot = f s.boot := rfl
@[simp] theorem modBoot_twin (f : Boot → Boot) :
    (modBoot s f).twin = s.twin := rfl
@[simp] theorem modBoot_gallery (f : Boot → Boot) :
    (modBoot s f).gallery = s.gallery := rfl
@[simp] theorem modBoot_tally (f : Boot → Boot) :
    (modBoot s f).tally = s.tally := rfl
@[simp] theorem modBoot_perf (f : Boot → Boot) :
    (modBoot s f).perf = s.perf := rfl
@[simp] theorem modBoot_power (f : Boot → Boot) :
    (modBoot s f).power = s.power := rfl
@[simp] theorem modBoot_captured (f : Boot → Boot) :
    (modBoot s f).captured = s.captured := rfl
@[simp] theorem modBoot_heldHi (f : Boot → Boot) :
    (modBoot s f).heldHi = s.heldHi := rfl
@[simp] theorem modBoot_lastErr (f : Boot → Boot) :
    (modBoot s f).lastErr = s.lastErr := rfl
@[simp] theorem modBoot_lastVal (f : Boot → Boot) :
    (modBoot s f).lastVal = s.lastVal := rfl
@[simp] theorem modBoot_fresh (f : Boot → Boot) :
    (modBoot s f).fresh = s.fresh := rfl
@[simp] theorem modBoot_outbox (f : Boot → Boot) :
    (modBoot s f).outbox = s.outbox := rfl
@[simp] theorem modBoot_pending (f : Boot → Boot) :
    (modBoot s f).pending = s.pending := rfl

/-! `modTally` -/

@[simp] theorem modTally_time (f : Tally → Tally) :
    (modTally s f).time = s.time := rfl
@[simp] theorem modTally_net (f : Tally → Tally) :
    (modTally s f).net = s.net := rfl
@[simp] theorem modTally_cipher (f : Tally → Tally) :
    (modTally s f).cipher = s.cipher := rfl
@[simp] theorem modTally_pk (f : Tally → Tally) :
    (modTally s f).pk = s.pk := rfl
@[simp] theorem modTally_digest (f : Tally → Tally) :
    (modTally s f).digest = s.digest := rfl
@[simp] theorem modTally_rng (f : Tally → Tally) :
    (modTally s f).rng = s.rng := rfl
@[simp] theorem modTally_keys (f : Tally → Tally) :
    (modTally s f).keys = s.keys := rfl
@[simp] theorem modTally_stair (f : Tally → Tally) :
    (modTally s f).stair = s.stair := rfl
@[simp] theorem modTally_ledger (f : Tally → Tally) :
    (modTally s f).ledger = s.ledger := rfl
@[simp] theorem modTally_halls (f : Tally → Tally) :
    (modTally s f).halls = s.halls := rfl
@[simp] theorem modTally_tamper (f : Tally → Tally) :
    (modTally s f).tamper = s.tamper := rfl
@[simp] theorem modTally_bb (f : Tally → Tally) :
    (modTally s f).bb = s.bb := rfl
@[simp] theorem modTally_otp (f : Tally → Tally) :
    (modTally s f).otp = s.otp := rfl
@[simp] theorem modTally_life (f : Tally → Tally) :
    (modTally s f).life = s.life := rfl
@[simp] theorem modTally_fc (f : Tally → Tally) :
    (modTally s f).fc = s.fc := rfl
@[simp] theorem modTally_ed (f : Tally → Tally) :
    (modTally s f).ed = s.ed := rfl
@[simp] theorem modTally_boot (f : Tally → Tally) :
    (modTally s f).boot = s.boot := rfl
@[simp] theorem modTally_twin (f : Tally → Tally) :
    (modTally s f).twin = s.twin := rfl
@[simp] theorem modTally_gallery (f : Tally → Tally) :
    (modTally s f).gallery = s.gallery := rfl
@[simp] theorem modTally_tally (f : Tally → Tally) :
    (modTally s f).tally = f s.tally := rfl
@[simp] theorem modTally_perf (f : Tally → Tally) :
    (modTally s f).perf = s.perf := rfl
@[simp] theorem modTally_power (f : Tally → Tally) :
    (modTally s f).power = s.power := rfl
@[simp] theorem modTally_captured (f : Tally → Tally) :
    (modTally s f).captured = s.captured := rfl
@[simp] theorem modTally_heldHi (f : Tally → Tally) :
    (modTally s f).heldHi = s.heldHi := rfl
@[simp] theorem modTally_lastErr (f : Tally → Tally) :
    (modTally s f).lastErr = s.lastErr := rfl
@[simp] theorem modTally_lastVal (f : Tally → Tally) :
    (modTally s f).lastVal = s.lastVal := rfl
@[simp] theorem modTally_fresh (f : Tally → Tally) :
    (modTally s f).fresh = s.fresh := rfl
@[simp] theorem modTally_outbox (f : Tally → Tally) :
    (modTally s f).outbox = s.outbox := rfl
@[simp] theorem modTally_pending (f : Tally → Tally) :
    (modTally s f).pending = s.pending := rfl

/-! `modTamp` -/

@[simp] theorem modTamp_time (f : Tamper → Tamper) :
    (modTamp s f).time = s.time := rfl
@[simp] theorem modTamp_net (f : Tamper → Tamper) :
    (modTamp s f).net = s.net := rfl
@[simp] theorem modTamp_cipher (f : Tamper → Tamper) :
    (modTamp s f).cipher = s.cipher := rfl
@[simp] theorem modTamp_pk (f : Tamper → Tamper) :
    (modTamp s f).pk = s.pk := rfl
@[simp] theorem modTamp_digest (f : Tamper → Tamper) :
    (modTamp s f).digest = s.digest := rfl
@[simp] theorem modTamp_rng (f : Tamper → Tamper) :
    (modTamp s f).rng = s.rng := rfl
@[simp] theorem modTamp_keys (f : Tamper → Tamper) :
    (modTamp s f).keys = s.keys := rfl
@[simp] theorem modTamp_stair (f : Tamper → Tamper) :
    (modTamp s f).stair = s.stair := rfl
@[simp] theorem modTamp_ledger (f : Tamper → Tamper) :
    (modTamp s f).ledger = s.ledger := rfl
@[simp] theorem modTamp_halls (f : Tamper → Tamper) :
    (modTamp s f).halls = s.halls := rfl
@[simp] theorem modTamp_tamper (f : Tamper → Tamper) :
    (modTamp s f).tamper = f s.tamper := rfl
@[simp] theorem modTamp_bb (f : Tamper → Tamper) :
    (modTamp s f).bb = s.bb := rfl
@[simp] theorem modTamp_otp (f : Tamper → Tamper) :
    (modTamp s f).otp = s.otp := rfl
@[simp] theorem modTamp_life (f : Tamper → Tamper) :
    (modTamp s f).life = s.life := rfl
@[simp] theorem modTamp_fc (f : Tamper → Tamper) :
    (modTamp s f).fc = s.fc := rfl
@[simp] theorem modTamp_ed (f : Tamper → Tamper) :
    (modTamp s f).ed = s.ed := rfl
@[simp] theorem modTamp_boot (f : Tamper → Tamper) :
    (modTamp s f).boot = s.boot := rfl
@[simp] theorem modTamp_twin (f : Tamper → Tamper) :
    (modTamp s f).twin = s.twin := rfl
@[simp] theorem modTamp_gallery (f : Tamper → Tamper) :
    (modTamp s f).gallery = s.gallery := rfl
@[simp] theorem modTamp_tally (f : Tamper → Tamper) :
    (modTamp s f).tally = s.tally := rfl
@[simp] theorem modTamp_perf (f : Tamper → Tamper) :
    (modTamp s f).perf = s.perf := rfl
@[simp] theorem modTamp_power (f : Tamper → Tamper) :
    (modTamp s f).power = s.power := rfl
@[simp] theorem modTamp_captured (f : Tamper → Tamper) :
    (modTamp s f).captured = s.captured := rfl
@[simp] theorem modTamp_heldHi (f : Tamper → Tamper) :
    (modTamp s f).heldHi = s.heldHi := rfl
@[simp] theorem modTamp_lastErr (f : Tamper → Tamper) :
    (modTamp s f).lastErr = s.lastErr := rfl
@[simp] theorem modTamp_lastVal (f : Tamper → Tamper) :
    (modTamp s f).lastVal = s.lastVal := rfl
@[simp] theorem modTamp_fresh (f : Tamper → Tamper) :
    (modTamp s f).fresh = s.fresh := rfl
@[simp] theorem modTamp_outbox (f : Tamper → Tamper) :
    (modTamp s f).outbox = s.outbox := rfl
@[simp] theorem modTamp_pending (f : Tamper → Tamper) :
    (modTamp s f).pending = s.pending := rfl

/-! `modPort` -/

@[simp] theorem modPort_time (p : Nat) (f : Port → Port) :
    (modPort s p f).time = s.time := by unfold modPort; split <;> rfl
@[simp] theorem modPort_cipher (p : Nat) (f : Port → Port) :
    (modPort s p f).cipher = s.cipher := by unfold modPort; split <;> rfl
@[simp] theorem modPort_pk (p : Nat) (f : Port → Port) :
    (modPort s p f).pk = s.pk := by unfold modPort; split <;> rfl
@[simp] theorem modPort_digest (p : Nat) (f : Port → Port) :
    (modPort s p f).digest = s.digest := by unfold modPort; split <;> rfl
@[simp] theorem modPort_rng (p : Nat) (f : Port → Port) :
    (modPort s p f).rng = s.rng := by unfold modPort; split <;> rfl
@[simp] theorem modPort_keys (p : Nat) (f : Port → Port) :
    (modPort s p f).keys = s.keys := by unfold modPort; split <;> rfl
@[simp] theorem modPort_stair (p : Nat) (f : Port → Port) :
    (modPort s p f).stair = s.stair := by unfold modPort; split <;> rfl
@[simp] theorem modPort_ledger (p : Nat) (f : Port → Port) :
    (modPort s p f).ledger = s.ledger := by unfold modPort; split <;> rfl
@[simp] theorem modPort_halls (p : Nat) (f : Port → Port) :
    (modPort s p f).halls = s.halls := by unfold modPort; split <;> rfl
@[simp] theorem modPort_tamper (p : Nat) (f : Port → Port) :
    (modPort s p f).tamper = s.tamper := by unfold modPort; split <;> rfl
@[simp] theorem modPort_bb (p : Nat) (f : Port → Port) :
    (modPort s p f).bb = s.bb := by unfold modPort; split <;> rfl
@[simp] theorem modPort_otp (p : Nat) (f : Port → Port) :
    (modPort s p f).otp = s.otp := by unfold modPort; split <;> rfl
@[simp] theorem modPort_life (p : Nat) (f : Port → Port) :
    (modPort s p f).life = s.life := by unfold modPort; split <;> rfl
@[simp] theorem modPort_fc (p : Nat) (f : Port → Port) :
    (modPort s p f).fc = s.fc := by unfold modPort; split <;> rfl
@[simp] theorem modPort_ed (p : Nat) (f : Port → Port) :
    (modPort s p f).ed = s.ed := by unfold modPort; split <;> rfl
@[simp] theorem modPort_boot (p : Nat) (f : Port → Port) :
    (modPort s p f).boot = s.boot := by unfold modPort; split <;> rfl
@[simp] theorem modPort_twin (p : Nat) (f : Port → Port) :
    (modPort s p f).twin = s.twin := by unfold modPort; split <;> rfl
@[simp] theorem modPort_gallery (p : Nat) (f : Port → Port) :
    (modPort s p f).gallery = s.gallery := by unfold modPort; split <;> rfl
@[simp] theorem modPort_tally (p : Nat) (f : Port → Port) :
    (modPort s p f).tally = s.tally := by unfold modPort; split <;> rfl
@[simp] theorem modPort_perf (p : Nat) (f : Port → Port) :
    (modPort s p f).perf = s.perf := by unfold modPort; split <;> rfl
@[simp] theorem modPort_power (p : Nat) (f : Port → Port) :
    (modPort s p f).power = s.power := by unfold modPort; split <;> rfl
@[simp] theorem modPort_captured (p : Nat) (f : Port → Port) :
    (modPort s p f).captured = s.captured := by unfold modPort; split <;> rfl
@[simp] theorem modPort_heldHi (p : Nat) (f : Port → Port) :
    (modPort s p f).heldHi = s.heldHi := by unfold modPort; split <;> rfl
@[simp] theorem modPort_lastErr (p : Nat) (f : Port → Port) :
    (modPort s p f).lastErr = s.lastErr := by unfold modPort; split <;> rfl
@[simp] theorem modPort_lastVal (p : Nat) (f : Port → Port) :
    (modPort s p f).lastVal = s.lastVal := by unfold modPort; split <;> rfl
@[simp] theorem modPort_fresh (p : Nat) (f : Port → Port) :
    (modPort s p f).fresh = s.fresh := by unfold modPort; split <;> rfl
@[simp] theorem modPort_outbox (p : Nat) (f : Port → Port) :
    (modPort s p f).outbox = s.outbox := by unfold modPort; split <;> rfl
@[simp] theorem modPort_pending (p : Nat) (f : Port → Port) :
    (modPort s p f).pending = s.pending := by unfold modPort; split <;> rfl

end Sys2Proof.Machine
end

