-- ==== Sys2Proof/Laws/Tab.lean ====
section
/-! SUPPORT. What the operations on tables leave and change. -/

namespace Sys2Proof.Machine

variable {α : Type}

@[simp] theorem tget_tput_same (t : Tab α) (k : Nat) (v : α) : tget (tput t k v) k = some v := by
  induction t with
  | nil => simp [tput, tget]
  | cons e r ih =>
    obtain ⟨i, a⟩ := e
    unfold tput
    split
    · simp [tget]
    · split
      · simp [tget]
      · have : i ≠ k := by omega
        simp [tget, this, ih]

theorem tget_tput_other (t : Tab α) (k j : Nat) (v : α) (h : j ≠ k) : tget (tput t k v) j = tget t j := by
  induction t with
  | nil => simp [tput, tget, Ne.symm h]
  | cons e r ih =>
    obtain ⟨i, a⟩ := e
    unfold tput
    split
    · simp [tget, Ne.symm h]
    · split
      · rename_i _ e; subst e; simp [tget, Ne.symm h]
      · simp [tget, ih]

@[simp] theorem tget_tmod_same (t : Tab α) (k : Nat) (f : α → α) : tget (tmod t k f) k = (tget t k).map f := by
  induction t with
  | nil => rfl
  | cons e r ih =>
    obtain ⟨i, a⟩ := e
    unfold tmod
    split <;> rename_i h <;> simp [tget, h, ih]

theorem tget_tmod_other (t : Tab α) (k j : Nat) (f : α → α) (h : j ≠ k) : tget (tmod t k f) j = tget t j := by
  induction t with
  | nil => rfl
  | cons e r ih =>
    obtain ⟨i, a⟩ := e
    unfold tmod
    split
    · rename_i e; subst e; simp [tget, Ne.symm h]
    · simp [tget, ih]

@[simp] theorem tget_tdel_same (t : Tab α) (k : Nat) : tget (tdel t k) k = none := by
  induction t with
  | nil => rfl
  | cons e r ih =>
    obtain ⟨i, a⟩ := e
    by_cases h : i = k
    · simp [tdel, h] at ih ⊢; exact ih
    · simp [tdel, h, tget] at ih ⊢; exact ih

theorem tget_tdel_other (t : Tab α) (k j : Nat) (h : j ≠ k) : tget (tdel t k) j = tget t j := by
  induction t with
  | nil => rfl
  | cons e r ih =>
    obtain ⟨i, a⟩ := e
    by_cases e : i = k
    · subst e; simp [tdel, tget, Ne.symm h] at ih ⊢; exact ih
    · simp [tdel, e, tget] at ih ⊢; rw [ih]

@[simp] theorem tget_tmap (t : Tab α) (k : Nat) (f : Nat → α → α) : tget (tmap t f) k = (tget t k).map (f k) := by
  induction t with
  | nil => rfl
  | cons e r ih =>
    obtain ⟨i, a⟩ := e
    by_cases h : i = k
    · subst h; simp [tmap, tget]
    · simp [tmap, tget, h] at ih ⊢; exact ih

@[simp] theorem tkeys_tmod (t : Tab α) (k : Nat) (f : α → α) : tkeys (tmod t k f) = tkeys t := by
  induction t with
  | nil => rfl
  | cons e r ih =>
    obtain ⟨i, a⟩ := e
    unfold tmod
    split
    · simp [tkeys]
    · simp [tkeys] at ih ⊢; exact ih

@[simp] theorem thas_tput_same (t : Tab α) (k : Nat) (v : α) : thas (tput t k v) k = true := by simp [thas]

@[simp] theorem thas_tdel_same (t : Tab α) (k : Nat) : thas (tdel t k) k = false := by simp [thas]

end Sys2Proof.Machine
end

