-- ==== Sys2Proof/Laws/Ops.lean ====
section
/-! SUPPORT. What each shared operation does where its checks pass and where one of them fails: the lemmas to cite in
place of unfolding it. -/

namespace Sys2Proof.Machine

/-! ### Register access -/

theorem writeAs_admitted {s : State} {m a : Nat} {f : State → State} (h : mayWrite s m a) : writeAs s m a f = f s := by
  obtain ⟨w, o, h1, h2⟩ := h
  simp [writeAs, h1, h2]

theorem writeAs_outside {s : State} {m a : Nat} {f : State → State} (h : windowOf a = none) :
    writeAs s m a f = busErr s := by simp [writeAs, h]

theorem writeAs_refused {s : State} {m a off : Nat} {w : Win} {f : State → State} (h : windowOf a = some (w, off))
    (h' : admits s m w off true = false) : writeAs s m a f = refuse s m a true := by simp [writeAs, h, h']

/-! ### Commands that execute -/

theorem onWork_ready {s : State} {w op : Nat} {k : Work} (h : isReady s w op k) (f : Work → State) :
    onWork s w op f = f k := by
  obtain ⟨h1, h2, h3, h4⟩ := h
  simp [onWork, h1, h2, h3, h4]

theorem onWork_absent {s : State} {w op : Nat} {f : Work → State} (h : wrk s w = none) : onWork s w op f = s := by
  simp [onWork, h]

theorem onWork_other {s : State} {w op : Nat} {k : Work} {f : Work → State} (h : wrk s w = some k)
    (h' : k.opcode ≠ op ∨ k.stage ≠ .ready ∨ k.stream.isSome = true) : onWork s w op f = s := by
  have : ¬ (k.opcode = op ∧ k.stage = .ready ∧ k.stream = none) := by
    rintro ⟨a, b, c⟩; rcases h' with h' | h' | h' <;> simp_all
  simp [onWork, h, this]

theorem withFace_ok {s : State} {w : Nat} {k : Work} {h slot n : Nat} {pay : Bool} {ok : Secret → Face → Bool}
    {sec : Secret} {face : Face} (e : faceCheck s k.alcove h pay ok = .ok (slot, n, sec, face))
    (f : Nat → Nat → Secret → Face → State) : withFace s w k h pay ok f = f slot n sec face := by simp [withFace, e]

theorem withFace_refused {s : State} {w : Nat} {k : Work} {h st : Nat} {pay : Bool} {ok : Secret → Face → Bool}
    (e : faceCheck s k.alcove h pay ok = .error st) (f : Nat → Nat → Secret → Face → State) :
    withFace s w k h pay ok f = failWork s w st := by simp [withFace, e]

theorem withQuorum_ok {s : State} {w d op : Nat} {body : Bytes} {a : Option Approval} {ap : Approval} {m : Bool}
    {f : State → Approval → State} (h : a = some ap) (h' : approvalOk s d op body ap = true) :
    withQuorum s w d op body a m f = f (if m then s else endTicket s d ap.ticket) ap := by
  subst h; cases m <;> simp [withQuorum, quorumPass, h']

theorem withQuorum_absent {s : State} {w d op : Nat} {body : Bytes} {m : Bool} {f : State → Approval → State} :
    withQuorum s w d op body none m f = failWork s w stDeniedQuorum := rfl

theorem withQuorum_refused {s : State} {w d op : Nat} {body : Bytes} {ap : Approval} {m : Bool}
    {f : State → Approval → State} (h : approvalOk s d op body ap = false) :
    withQuorum s w d op body (some ap) m f = failWork (failTicket s d ap.ticket) w stDeniedQuorum := by
  simp [withQuorum, quorumPass, h]

theorem onGrant_ready {s : State} {w f : Nat} {k : Work} (h : isReady s w 0x0B02 k) (g : Work → State) :
    onGrant s w f g = if fld k.payload 0 1 = f then g k else s := by simp only [onGrant, onWork_ready h]

theorem onMigrate_ready {s : State} {w op ph : Nat} {k : Work} (h : isReady s w op k) (hp : fld k.payload 0 1 = ph)
    (hm : s.gallery.member ≠ some (migPeer k.payload)) (g : Work → State) : onMigrate s w op ph g = g k := by
  simp [onMigrate, onWork_ready h, hp, hm]

/-! ### Frames -/

theorem deliverTo_reaches {s : State} {d : Datagram} {a : Nat} {y : Alcove} (h : reachesAlcove s d a y) :
    deliverTo (received s d) d = .ok (a, y) := by
  obtain ⟨h1, h2, h3, h4, h5, h6, h7, h8, h9⟩ := h
  have hl : ¬ (onlyPortA (received s d) ∧ 4 ≤ d.sublink) := by
    show ¬ (onlyPortA s ∧ 4 ≤ d.sublink)
    rintro ⟨p, q⟩
    rcases h3 with h | h
    · simp [h] at p
    · omega
  have r1 : reaches (received s d) d.addr = some a := h1
  have r2 : alc (received s d) a = some y := h2
  simp [deliverTo, r1, r2, h4, h5, h6, h7, h8, h9, hl]

theorem authFrame_accepted {s : State} {d : Datagram} {type a : Nat} {y : Alcove} {x : Session}
    (h : frameAccepted s d type a y x) : authFrame s d = .ok (a, sessionTook s d x, frameTaken s d a x) := by
  obtain ⟨h0, h1, h2, h3, h4, h5, h6, h7⟩ := h
  have hs : sess (received s d) a d.hdr.session = some x := h2
  have hp : ¬ 2 ^ 48 ≤ d.hdr.pktNum := by omega
  have e : authFrame s d = (match deliverTo (received s d) d with
      | .error s => .error s
      | .ok (a, _) =>
        match sess (received s d) a d.hdr.session with
        | none => .error (dropFrame (received s d) d.sublink 49)
        | some x =>
          if x.open_ = false ∨ x.closing.isSome then .error (dropFrame (received s d) d.sublink 49)
          else if frameTag x.c2dKey x.c2dSalt d.hdr d.data ≠ d.tag then
            .error (alcCount (dropFrame (received s d) d.sublink 66) a 14 1)
          else if 2 ^ 48 ≤ d.hdr.pktNum then .error (closeSession (received s d) a d.hdr.session stCounterExh)
          else if pktSeen x d.hdr.pktNum then .error (alcCount (dropFrame (received s d) d.sublink 66) a 14 1)
          else .ok (a, sessionTook s d x, frameTaken s d a x)) := by rfl
  rw [e, deliverTo_reaches h1]
  dsimp only
  rw [hs]
  dsimp only
  rw [if_neg (by simp [h3, h4]), if_neg (by simp [h5]), if_neg hp, if_neg (by simp [h7])]

/-! ### Parts of the state after an update -/

@[simp] theorem sess_modSess (s : State) (a i : Nat) (f : Session → Session) :
    sess (modSess s a i f) a i = (sess s a i).map f := by simp [sess]

@[simp] theorem sess_putSess (s : State) (a i : Nat) (x : Session) : sess (putSess s a i x) a i = some x := by
  simp [sess]

@[simp] theorem sess_delSess (s : State) (a i : Nat) : sess (delSess s a i) a i = none := by simp [sess]

@[simp] theorem alc_modAlc (s : State) (a : Nat) (f : Alcove → Alcove) : alc (modAlc s a f) a = (alc s a).map f := by
  simp [alc]

@[simp] theorem alc_putAlc (s : State) (a : Nat) (x : Alcove) : alc (putAlc s a x) a = some x := by simp [alc]

@[simp] theorem wrk_modWork (s : State) (w : Nat) (f : Work → Work) : wrk (modWork s w f) w = (wrk s w).map f := by
  simp [wrk]

@[simp] theorem wrk_delWork (s : State) (w : Nat) : wrk (delWork s w) w = none := by simp [wrk]

@[simp] theorem qpAt_modQp (s : State) (q : Nat) (f : Qp → Qp) : qpAt (modQp s q f) q = (qpAt s q).map f := by
  simp [qpAt]

@[simp] theorem evSrc_raise (s : State) (n : Nat) : evSrc (raise s n) n = { evSrc s n with pending := true } := by
  simp [evSrc]

end Sys2Proof.Machine
end

