-- ==== Sys2Proof/Laws/Fault.lean ====
section
/-! SUPPORT. What pulses, event records and service states reach: the network face, the collector, the distributor, the
counters and what was sent, and nothing else. A `NOTE` reaches the collector and the counters alone. -/

namespace Sys2Proof.Machine

/-- Two states that differ at most in the network face, the collector, the distributor, the counters and the outbox. -/
def Told (s t : State) : Prop :=
  { t with net := s.net, fc := s.fc, ed := s.ed, perf := s.perf, outbox := s.outbox } = s

theorem Told.refl (s : State) : Told s s := rfl

theorem Told.trans {s t u : State} (h : Told s t) (k : Told t u) : Told s u := by
  cases s; cases t; cases u
  simp only [Told, State.mk.injEq] at *
  simp_all

theorem Told.digest {s t : State} (h : Told s t) : t.digest = s.digest := by
  cases s; cases t; simp only [Told, State.mk.injEq] at h; simp_all

theorem Told.halls {s t : State} (h : Told s t) : t.halls = s.halls := by
  cases s; cases t; simp only [Told, State.mk.injEq] at h; simp_all

theorem Told.keys {s t : State} (h : Told s t) : t.keys = s.keys := by
  cases s; cases t; simp only [Told, State.mk.injEq] at h; simp_all

theorem Told.otp {s t : State} (h : Told s t) : t.otp = s.otp := by
  cases s; cases t; simp only [Told, State.mk.injEq] at h; simp_all

theorem Told.stair {s t : State} (h : Told s t) : t.stair = s.stair := by
  cases s; cases t; simp only [Told, State.mk.injEq] at h; simp_all

theorem Told.rng {s t : State} (h : Told s t) : t.rng = s.rng := by
  cases s; cases t; simp only [Told, State.mk.injEq] at h; simp_all

theorem Told.pk {s t : State} (h : Told s t) : t.pk = s.pk := by
  cases s; cases t; simp only [Told, State.mk.injEq] at h; simp_all

theorem Told.twin {s t : State} (h : Told s t) : t.twin = s.twin := by
  cases s; cases t; simp only [Told, State.mk.injEq] at h; simp_all

theorem Told.tamper {s t : State} (h : Told s t) : t.tamper = s.tamper := by
  cases s; cases t; simp only [Told, State.mk.injEq] at h; simp_all

theorem Told.bb {s t : State} (h : Told s t) : t.bb = s.bb := by
  cases s; cases t; simp only [Told, State.mk.injEq] at h; simp_all

theorem foldl_told {α : Type} (f : State → α → State) (h : ∀ s a, Told s (f s a)) (l : List α) :
    ∀ s, Told s (l.foldl f s) := by
  induction l with
  | nil => exact fun s => rfl
  | cons a r ih => exact fun s => (h s a).trans (ih _)

theorem emit_told (s : State) (o : Output) : Told s (emit s o) := rfl
theorem modAlc_told (s : State) (a : Nat) (f : Alcove → Alcove) : Told s (modAlc s a f) := rfl
theorem modSess_told (s : State) (a i : Nat) (f : Session → Session) : Told s (modSess s a i f) := rfl
theorem delSess_told (s : State) (a i : Nat) : Told s (delSess s a i) := rfl
theorem perfAdd_told (s : State) (b e n : Nat) : Told s (perfAdd s b e n) := rfl
theorem raise_told (s : State) (n : Nat) : Told s (raise s n) := rfl

theorem sendOut_told (s : State) (l p : Nat) (o : Output) : Told s (sendOut s l p o) := by
  unfold sendOut
  split <;> rfl

theorem sendProt_told (s : State) (a i : Nat) (x : Session) (l p : Nat) (h : WcpHeader) (b : Bytes) :
    Told s (sendProt s a i x l p h b) := by
  unfold sendProt mirrorDev
  split <;> (refine Told.trans ?_ (sendOut_told _ _ _ _); rfl)

theorem dropSession_told (s : State) (a i st : Nat) : Told s (dropSession s a i st) := by
  unfold dropSession
  split
  · rfl
  · split
    · exact ((sendProt_told s _ _ _ _ _ _ _).trans (delSess_told _ _ _)).trans (modAlc_told _ _ _)
    · rfl

theorem flushEvents_told (n : Nat) : ∀ s a, Told s (flushEvents n s a) := by
  induction n with
  | zero => exact fun _ _ => rfl
  | succ n ih =>
    intro s a
    unfold flushEvents
    repeat' split
    · rfl
    · rfl
    · rfl
    · rfl
    · exact dropSession_told _ _ _ _
    · exact ((sendProt_told _ _ _ _ _ _ _ _).trans (modAlc_told _ _ _)).trans (ih _ _)

theorem flushDue_told (s : State) (a : Nat) : Told s (flushDue s a) := by
  unfold flushDue
  repeat' split
  · rfl
  · exact flushEvents_told _ _ _
  · rfl

theorem postEvent_told (s : State) (a c st i q n d : Nat) : Told s (postEvent s a c st i q n d) := by
  unfold postEvent
  split
  · exact (modAlc_told _ _ _).trans (flushEvents_told _ _ _)
  · exact (modAlc_told _ _ _).trans (flushDue_told _ _)

theorem setService_told (s : State) (v : Service) : Told s (setService s v) := by
  unfold setService
  split
  · rfl
  · refine Told.trans (t := { s with fc := { s.fc with service := v, faultN := some (faultLevel v) } }) rfl ?_
    unfold postService
    refine foldl_told _ (fun s a => ?_) _ _
    repeat' split
    · exact postEvent_told _ _ _ _ _ _ _ _
    · rfl
    · rfl

theorem settle_told (s : State) : Told s (settle s) := by
  unfold settle
  repeat' split
  · rfl
  · exact setService_told _ _
  · exact setService_told _ _
  · rfl
  · rfl

theorem setCause_told (s : State) (i : Nat) : Told s (setCause s i) :=
  Told.trans (t := { s with fc := { s.fc with causes := setBit s.fc.causes i } }) rfl (settle_told _)

theorem clrCause_told (s : State) (i : Nat) : Told s (clrCause s i) :=
  Told.trans (t := { s with fc := { s.fc with causes := clrBit s.fc.causes i } }) rfl (settle_told _)

/-- A pulse of the class `DEGRADE` tells, and changes nothing else. -/
theorem pulse_degrade_told (s : State) (l : Nat) : Told s (pulse s l .degrade) := by
  have h : ∀ t i, Told s t → Told s (setCause t i) := fun t i k => k.trans (setCause_told t i)
  exact h _ _ rfl

/-- A `NOTE` is recorded and counted, and does nothing else. -/
theorem noteAt_eq (s : State) (l ty a m : Nat) : noteAt s l ty a m
    = perfAdd { s with
        fc := capturePulses s.time (recordPulse s.fc { line := l, cls := .note, type := ty, addr := a, master := m })
          [{ line := l, cls := .note, type := ty, addr := a, master := m }] } 20 0x60 1 := rfl

/-- A `NOTE` that concerns no access. -/
theorem pulse_note_eq (s : State) (l : Nat) : pulse s l .note = noteAt s l 0 0 0xFF := rfl

@[simp] theorem noteAt_halls (s : State) (l ty a m : Nat) : (noteAt s l ty a m).halls = s.halls := rfl
@[simp] theorem noteAt_net (s : State) (l ty a m : Nat) : (noteAt s l ty a m).net = s.net := rfl
@[simp] theorem noteAt_ed (s : State) (l ty a m : Nat) : (noteAt s l ty a m).ed = s.ed := rfl
@[simp] theorem noteAt_outbox (s : State) (l ty a m : Nat) : (noteAt s l ty a m).outbox = s.outbox := rfl

end Sys2Proof.Machine
end

