-- ==== Sys2Proof/Laws/Mem.lean ====
section
/-! SUPPORT. The laws of byte memories and of the bits of one-time programmable memory: every operation keeps the
canonical form, a byte reads as written, and a burn sets bits only. -/

namespace Sys2Proof.Machine

/-! ### The canonical form -/

theorem Mem.wfFrom_mono {m : List Host.Cell} {a b : Nat} (h : b ≤ a) (hm : Mem.wfFrom a m = true) :
    Mem.wfFrom b m = true := by
  cases m with
  | nil => rfl
  | cons c r =>
    obtain ⟨i, v⟩ := c
    simp only [Mem.wfFrom, Bool.and_eq_true, decide_eq_true_eq] at hm ⊢
    exact ⟨⟨by omega, hm.1.2⟩, hm.2⟩

theorem Mem.wfFrom_put {m : List Host.Cell} {lo a : Nat} {v : Byte} (h : lo ≤ a) (hm : Mem.wfFrom lo m = true) :
    Mem.wfFrom lo (Mem.put m a v) = true := by
  induction m generalizing lo with
  | nil =>
    unfold Mem.put
    split
    · rfl
    · simp_all [Mem.wfFrom]
  | cons c r ih =>
    obtain ⟨i, x⟩ := c
    simp only [Mem.wfFrom, Bool.and_eq_true, decide_eq_true_eq] at hm
    unfold Mem.put
    split
    · split
      · simp_all [Mem.wfFrom]
      · simp_all [Mem.wfFrom] <;> omega
    · split
      · rename_i h1 h2
        subst h2
        split
        · exact Mem.wfFrom_mono (by omega) hm.2
        · simp_all [Mem.wfFrom]
      · simp only [Mem.wfFrom, Bool.and_eq_true, decide_eq_true_eq]
        exact ⟨hm.1, ih (by omega) hm.2⟩

theorem Mem.wf_put {m : List Host.Cell} (a : Nat) (v : Byte) (hm : Mem.wf m = true) : Mem.wf (Mem.put m a v) = true :=
  Mem.wfFrom_put (Nat.zero_le a) hm

theorem Mem.wf_write {m : List Host.Cell} (a : Nat) (l : Bytes) (hm : Mem.wf m = true) : Mem.wf (Mem.write m a l) = true := by
  induction l generalizing m a with
  | nil => exact hm
  | cons v r ih => exact ih _ (Mem.wf_put a v hm)

theorem Mem.wfFrom_filter {m : List Host.Cell} {lo : Nat} (p : Host.Cell → Bool) (hm : Mem.wfFrom lo m = true) :
    Mem.wfFrom lo (m.filter p) = true := by
  induction m generalizing lo with
  | nil => rfl
  | cons c r ih =>
    obtain ⟨i, v⟩ := c
    simp only [Mem.wfFrom, Bool.and_eq_true, decide_eq_true_eq] at hm
    simp only [List.filter_cons]
    split
    · simp only [Mem.wfFrom, Bool.and_eq_true, decide_eq_true_eq]
      exact ⟨hm.1, ih hm.2⟩
    · exact Mem.wfFrom_mono (by omega) (ih hm.2)

theorem Mem.wf_zero {m : List Host.Cell} (lo hi : Nat) (hm : Mem.wf m = true) : Mem.wf (Mem.zero m lo hi) = true :=
  Mem.wfFrom_filter _ hm

/-! ### What a byte reads as -/

theorem Mem.get_below {m : List Host.Cell} {lo a : Nat} (h : a < lo) (hm : Mem.wfFrom lo m = true) : Mem.get m a = 0 := by
  induction m generalizing lo with
  | nil => rfl
  | cons c r ih =>
    obtain ⟨i, v⟩ := c
    simp only [Mem.wfFrom, Bool.and_eq_true, decide_eq_true_eq] at hm
    have : i ≠ a := by omega
    simp only [Mem.get, this, if_false]
    exact ih (by omega) hm.2

theorem Mem.get_put {m : List Host.Cell} (a b : Nat) (v : Byte) (hm : Mem.wf m = true) :
    Mem.get (Mem.put m a v) b = if b = a then v else Mem.get m b := by
  have key : ∀ (m : List Host.Cell) (lo : Nat), Mem.wfFrom lo m = true →
      Mem.get (Mem.put m a v) b = if b = a then v else Mem.get m b := by
    intro m
    induction m with
    | nil =>
      intro lo _
      unfold Mem.put
      by_cases hb : b = a
      · subst hb
        split
        · rename_i hv
          simp [Mem.get, hv]
        · simp [Mem.get]
      · have : a ≠ b := fun h => hb h.symm
        split <;> simp [Mem.get, this]
    | cons c r ih =>
      intro lo hm
      obtain ⟨i, x⟩ := c
      simp only [Mem.wfFrom, Bool.and_eq_true, decide_eq_true_eq] at hm
      unfold Mem.put
      split
      · rename_i h1
        split
        · rename_i hv
          subst hv
          by_cases hb : b = a
          · subst hb
            have : i ≠ b := by omega
            simp only [Mem.get, this, if_false, if_true]
            exact Mem.get_below (lo := i + 1) (by omega) hm.2
          · simp [hb]
        · by_cases hb : b = a
          · simp [Mem.get, hb]
          · have : a ≠ b := fun h => hb h.symm
            simp [Mem.get, hb, this]
      · split
        · rename_i h1 h2
          subst h2
          split
          · rename_i hv
            subst hv
            by_cases hb : b = a
            · subst hb
              simp only [if_true]
              exact Mem.get_below (lo := b + 1) (by omega) hm.2
            · have : a ≠ b := fun h => hb h.symm
              simp [hb, Mem.get, this]
          · by_cases hb : b = a
            · simp [Mem.get, hb]
            · have : a ≠ b := fun h => hb h.symm
              simp [Mem.get, hb, this]
        · rename_i h1 h2
          by_cases hb : i = b
          · have : b ≠ a := by omega
            simp [Mem.get, hb, this]
          · simp only [Mem.get, hb, if_false]
            exact ih _ hm.2
  exact key m 0 hm

theorem Mem.get_write_outside {m : List Host.Cell} (a b : Nat) (l : Bytes) (hm : Mem.wf m = true)
    (hb : b < a ∨ a + l.length ≤ b) : Mem.get (Mem.write m a l) b = Mem.get m b := by
  induction l generalizing m a with
  | nil => rfl
  | cons v r ih =>
    simp only [List.length_cons] at hb
    have h1 := ih (a := a + 1) (m := Mem.put m a v) (Mem.wf_put a v hm) (by omega)
    have h2 : b ≠ a := by omega
    simp only [Mem.write, h1, Mem.get_put a b v hm, h2, if_false]

theorem Mem.get_write_inside {m : List Host.Cell} (a i : Nat) (l : Bytes) (hm : Mem.wf m = true) (hi : i < l.length) :
    Mem.get (Mem.write m a l) (a + i) = l.getD i 0 := by
  induction l generalizing m a i with
  | nil => simp at hi
  | cons v r ih =>
    cases i with
    | zero =>
      have := Mem.get_write_outside (m := Mem.put m a v) (a + 1) a r (Mem.wf_put a v hm) (by omega)
      simp only [Mem.write, Nat.add_zero, this, Mem.get_put a a v hm, if_true, List.getD_cons_zero]
    | succ i =>
      have h := ih (a := a + 1) (i := i) (m := Mem.put m a v) (Mem.wf_put a v hm)
        (by simpa [List.length_cons] using hi)
      have e : a + (i + 1) = a + 1 + i := by omega
      simp only [Mem.write, e, h, List.getD_cons_succ]

/-! ### Bits that stay set -/

theorem bitsKept_refl {n : Nat} (a : BitVec n) : bitsKept a a := BitVec.and_self

theorem bitsKept_trans {n : Nat} {a b c : BitVec n} (h : bitsKept a b) (k : bitsKept b c) : bitsKept a c := by
  unfold bitsKept at *
  rw [← h, BitVec.and_assoc, k]

theorem bitsKept_or {n : Nat} (a b : BitVec n) : bitsKept a (a ||| b) := by
  unfold bitsKept
  ext i
  simp +contextual

theorem bitsKept_setBit {n : Nat} (a : BitVec n) (i : Nat) : bitsKept a (setBit a i) := bitsKept_or _ _

theorem bitsKept_zero {n : Nat} (a : BitVec n) : bitsKept 0 a := by
  simp [bitsKept]

theorem wordsKept_refl {n : Nat} (a : List (BitVec n)) : wordsKept a a := fun _ => bitsKept_refl _

theorem wordsKept_trans {n : Nat} {a b c : List (BitVec n)} (h : wordsKept a b) (k : wordsKept b c) : wordsKept a c :=
  fun i => bitsKept_trans (h i) (k i)

theorem OtpKept.refl (o : Otp) : OtpKept o o :=
  ⟨wordsKept_refl _, bitsKept_refl _, bitsKept_refl _, wordsKept_refl _, wordsKept_refl _, wordsKept_refl _, wordsKept_refl _⟩

theorem OtpKept.trans {a b c : Otp} (h : OtpKept a b) (k : OtpKept b c) : OtpKept a c :=
  ⟨wordsKept_trans h.1 k.1, bitsKept_trans h.2 k.2, bitsKept_trans h.3 k.3, wordsKept_trans h.4 k.4,
    wordsKept_trans h.5 k.5, wordsKept_trans h.6 k.6, wordsKept_trans h.7 k.7⟩

theorem burnBits_keeps (n : Nat) (bad : List (Nat × Nat)) (l : List Nat) (w : Word) :
    bitsKept w (burnBits n bad l w).1 := by
  induction l generalizing w with
  | nil => exact bitsKept_refl w
  | cons i r ih =>
    unfold burnBits
    split
    · exact ih w
    · split
      · exact bitsKept_refl w
      · exact bitsKept_trans (bitsKept_setBit w i) (ih _)

theorem burnCopy_keeps (bad : List (Nat × Nat)) (old target n : Nat) (w : Word) :
    bitsKept w (burnCopy bad old target n w).1 := by
  unfold burnCopy
  split
  · exact burnBits_keeps _ _ _ _
  · exact bitsKept_refl w

/-- A transition burns the three copies and clears no bit of them. -/
theorem burnAll_keeps (bad : List (Nat × Nat)) (old target : Nat) (l : List Word) (h : l.length = 3) :
    wordsKept l (burnAll bad old target l).1 ∧ (burnAll bad old target l).1.length = 3 := by
  refine ⟨?_, by simp [burnAll]⟩
  intro i
  match i with
  | 0 => exact burnCopy_keeps _ _ _ _ _
  | 1 => exact burnCopy_keeps _ _ _ _ _
  | 2 => exact burnCopy_keeps _ _ _ _ _
  | n + 3 =>
    have e : l.getD (n + 3) 0 = 0 := by simp [List.getD, List.getElem?_eq_none (by omega : l.length ≤ n + 3)]
    rw [e]
    exact bitsKept_zero _

theorem inside_keeps {w p : Word} (h : inside w p = true) : bitsKept w p := by
  unfold inside at h
  unfold bitsKept
  have h : w &&& ~~~p = 0 := by simpa using h
  ext i hi
  have := congrArg (fun x => x.getLsbD i) h
  simp [hi] at this ⊢
  exact this

theorem burnEvidence_keeps {e f : BitVec 256} {bad : Nat} (h : burnEvidence e bad = some f) : bitsKept e f := by
  unfold burnEvidence at h
  split at h
  · cases h
  · obtain ⟨i, _, rfl⟩ := Option.map_eq_some_iff.mp h
    exact bitsKept_setBit e i

theorem burnSeal_keeps {e f : BitVec 64} {bad : Nat} (h : burnSeal e bad = some f) : bitsKept e f := by
  unfold burnSeal at h
  split at h
  · cases h
  · obtain ⟨i, _, rfl⟩ := Option.map_eq_some_iff.mp h
    exact bitsKept_setBit e i

theorem wordsKept_zero {a b : Bytes} (h : allZero a = true) : wordsKept a b := by
  intro i
  have e : a.getD i 0 = 0 := by
    by_cases hi : i < a.length
    · have := List.all_eq_true.mp h _ (List.getElem_mem hi)
      simpa [List.getD, List.getElem?_eq_getElem hi] using this
    · simp [List.getD, List.getElem?_eq_none (by omega : a.length ≤ i)]
  rw [e]
  exact bitsKept_zero _

theorem wordsKept_ones {a : Bytes} {n : Nat} (h : a.length = n) : wordsKept a (List.replicate n 0xFF) := by
  intro i
  by_cases hi : i < n
  · have e : (List.replicate n (0xFF : Byte)).getD i 0 = 0xFF := by simp [List.getD, hi]
    rw [e]
    have : (0xFF : Byte) = BitVec.allOnes 8 := by decide
    rw [this]
    exact BitVec.and_allOnes
  · have e : a.getD i 0 = 0 := by simp [List.getD, List.getElem?_eq_none (by omega : a.length ≤ i)]
    rw [e]
    exact bitsKept_zero _

theorem wordsKept_set {a : List Word} {n : Nat} {p : Word} (h : bitsKept (a.getD n 0) p) : wordsKept a (a.set n p) := by
  intro i
  simp only [List.getD, List.getElem?_set]
  split
  · rename_i e
    subst e
    split
    · exact h
    · rename_i hn
      simp only [List.getElem?_eq_none (by omega : a.length ≤ n)]
      exact bitsKept_refl _
  · exact bitsKept_refl _

end Sys2Proof.Machine
end

