-- ==== Sys2Proof/Laws/Keeps.lean ====
section
/-! SUPPORT. What every operation keeps: the queue of waiting commands, the canonical form of the memories, and every bit
of one-time programmable memory that is set. -/

namespace Sys2Proof.Machine

/-- What a command may change beyond its own effect: memory, one-time programmable memory, the life-cycle state. -/
structure Scope where
  mem : Bool
  otp : Bool
  life : Bool

/-- From one state to another the queue stays, the memories stay in their canonical form, and one-time programmable memory
keeps its lengths and its set bits; what the scope does not name stays as it is. -/
structure Keeps (sc : Scope) (s t : State) : Prop where
  queue : t.pending = s.pending
  mem : memWf s = true → memWf t = true
  otp : otpShape s.otp = true → otpShape t.otp = true ∧ OtpKept s.otp t.otp
  sameMem : sc.mem = false → t.halls.logicMem = s.halls.logicMem ∧ t.halls.mezzMem = s.halls.mezzMem
    ∧ t.halls.archMem = s.halls.archMem
  sameOtp : sc.otp = false → t.otp = s.otp
  sameLife : sc.life = false → t.life.life = s.life.life
  fault : faultFollows s = true → faultFollows t = true

/-- What an outcome keeps. -/
def KeepsOut (sc : Scope) (s : State) (o : Out) : Prop := ∀ t, o = .next t → Keeps sc s t

theorem KeepsOut.next {sc : Scope} {s t : State} (h : Keeps sc s t) : KeepsOut sc s (.next t) := by
  intro u e
  cases e
  exact h

theorem Keeps.refl (sc : Scope) (s : State) : Keeps sc s s :=
  ⟨rfl, id, fun h => ⟨h, OtpKept.refl _⟩, fun _ => ⟨rfl, rfl, rfl⟩, fun _ => rfl, fun _ => rfl, id⟩

/-! ### Updates of a state

An update that leaves these parts alone keeps what the state before it kept. -/

theorem Keeps.upd {sc : Scope} {s0 t u : State} (h : Keeps sc s0 t) (e1 : u.pending = t.pending)
    (e2 : u.halls.logicMem = t.halls.logicMem) (e3 : u.halls.mezzMem = t.halls.mezzMem)
    (e4 : u.halls.archMem = t.halls.archMem) (e5 : u.otp = t.otp) (e6 : u.life.life = t.life.life)
    (e7 : u.fc.service = t.fc.service) (e8 : u.fc.faultN = t.fc.faultN) (e9 : u.power.powered = t.power.powered) :
    Keeps sc s0 u := by
  refine ⟨e1.trans h.1, fun w => ?_, fun w => ?_, fun k => ?_, fun k => e5.trans (h.5 k), fun k => e6.trans (h.6 k), fun w => ?_⟩
  · have := h.2 w
    simp only [memWf, hallsWf, e2, e3, e4] at this ⊢
    exact this
  · rw [e5]
    exact h.3 w
  · rw [e2, e3, e4]
    exact h.4 k
  · have := h.7 w
    simp only [faultFollows, e7, e8, e9] at this ⊢
    exact this

theorem Keeps.updS {sc : Scope} {s0 t : State} (h : Keeps sc s0 t) {a b c d e f g h1 h2 hh i j ly fc l m n o p q pw u v w x y z}
    (e2 : hh.logicMem = t.halls.logicMem) (e3 : hh.mezzMem = t.halls.mezzMem) (e4 : hh.archMem = t.halls.archMem)
    (e6 : ly.life = t.life.life) (e7 : fc.service = t.fc.service) (e8 : fc.faultN = t.fc.faultN)
    (e9 : pw.powered = t.power.powered) : Keeps sc s0
    (State.mk a b c d e f g h1 h2 hh i j t.otp ly fc l m n o p q pw u v w x y z t.pending) :=
  Keeps.upd h rfl e2 e3 e4 rfl e6 e7 e8 e9

theorem Keeps.updM {sc : Scope} {s0 t u : State} (h : Keeps sc s0 t) (hc : sc.mem = true)
    (hm : hallsWf t.halls = true → hallsWf u.halls = true) (e1 : u.pending = t.pending) (e5 : u.otp = t.otp)
    (e6 : u.life.life = t.life.life) (e7 : u.fc.service = t.fc.service) (e8 : u.fc.faultN = t.fc.faultN)
    (e9 : u.power.powered = t.power.powered) : Keeps sc s0 u := by
  refine ⟨e1.trans h.1, fun w => hm (h.2 w), fun w => ?_, fun k => by simp [hc] at k, fun k => e5.trans (h.5 k),
    fun k => e6.trans (h.6 k), fun w => ?_⟩
  · rw [e5]
    exact h.3 w
  · have := h.7 w
    simp only [faultFollows, e7, e8, e9] at this ⊢
    exact this

theorem Keeps.updO {sc : Scope} {s0 t u : State} (h : Keeps sc s0 t) (hc : sc.otp = true)
    (ho : otpShape t.otp = true → otpShape u.otp = true ∧ OtpKept t.otp u.otp) (e1 : u.pending = t.pending)
    (e2 : u.halls = t.halls) (e6 : u.life.life = t.life.life) (e7 : u.fc.service = t.fc.service)
    (e8 : u.fc.faultN = t.fc.faultN) (e9 : u.power.powered = t.power.powered) : Keeps sc s0 u := by
  refine ⟨e1.trans h.1, fun w => ?_, fun w => ⟨(ho (h.3 w).1).1, (h.3 w).2.trans (ho (h.3 w).1).2⟩, fun k => ?_,
    fun k => by simp [hc] at k, fun k => e6.trans (h.6 k), fun w => ?_⟩
  · have := h.2 w
    simp only [memWf, e2] at this ⊢
    exact this
  · rw [e2]
    exact h.4 k
  · have := h.7 w
    simp only [faultFollows, e7, e8, e9] at this ⊢
    exact this

theorem Keeps.foldl {sc : Scope} {s0 t : State} {α : Type} {f : State → α → State} {l : List α}
    (hf : ∀ s x, Keeps sc s0 s → Keeps sc s0 (f s x)) (h : Keeps sc s0 t) : Keeps sc s0 (l.foldl f t) := by
  induction l generalizing t with
  | nil => exact h
  | cons a r ih => exact ih (hf _ _ h)

theorem Keeps.elim {sc : Scope} {s0 u : State} {α : Type} {o : Option α} {f : α → State} (h : Keeps sc s0 u) (hf : ∀ x, Keeps sc s0 (f x)) :
    Keeps sc s0 (o.elim u f) := by
  cases o with
  | none => exact h
  | some x => exact hf x

theorem Keeps.ite_imp {c : Prop} [Decidable c] {a b : Option State} {t : State} {p : Prop} (ha : a = some t → p)
    (hb : b = some t → p) : (if c then a else b) = some t → p := by
  by_cases h : c
  · rwa [if_pos h]
  · rwa [if_neg h]

theorem Keeps.getD {sc : Scope} {s0 u : State} {o : Option State} (ho : ∀ t, o = some t → Keeps sc s0 t) (h : Keeps sc s0 u) :
    Keeps sc s0 (o.getD u) := by
  cases o with
  | none => exact h
  | some t => exact ho t rfl

/-! ### The operations that change a memory or burn a bit -/

theorem hallsWf_mk {h : Halls} {a b c d e f g i : _} {l m r : List Host.Cell} (hw : hallsWf h = true)
    (hl : Mem.wf h.logicMem = true → Mem.wf l = true) (hm : Mem.wf h.mezzMem = true → Mem.wf m = true)
    (hr : Mem.wf h.archMem = true → Mem.wf r = true) : hallsWf (Halls.mk a b c d e f g l m r i) = true := by
  simp only [hallsWf, Bool.and_eq_true] at hw ⊢
  exact ⟨⟨hl hw.1.1, hm hw.1.2⟩, hr hw.2⟩

theorem Mem.wf_commit {w : Watermark} {u : Nat} {m : List Host.Cell} (h : Mem.wf m = true) :
    Mem.wf (wmCommit w u m).2 = true := by
  unfold wmCommit
  split
  · exact Mem.wf_zero _ _ h
  · exact h

theorem modHalls_keeps {sc : Scope} {s0 : State} (s : State) (f : Halls → Halls) (hs : Keeps sc s0 s)
    (hm : (f s.halls).logicMem = s.halls.logicMem ∧ (f s.halls).mezzMem = s.halls.mezzMem
      ∧ (f s.halls).archMem = s.halls.archMem) : Keeps sc s0 (modHalls s f) :=
  Keeps.upd hs rfl hm.1 hm.2.1 hm.2.2 rfl rfl rfl rfl rfl

theorem modMem_keeps {sc : Scope} {s0 : State} (s : State) (f : Halls → Halls) (hs : Keeps sc s0 s) (hc : sc.mem = true)
    (hf : hallsWf s.halls = true → hallsWf (f s.halls) = true) : Keeps sc s0 (modHalls s f) :=
  Keeps.updM hs hc hf rfl rfl rfl rfl rfl rfl

theorem modLife_keeps {sc : Scope} {s0 : State} (s : State) (f : LifeCycle → LifeCycle) (hs : Keeps sc s0 s)
    (hf : (f s.life).life = s.life.life) : Keeps sc s0 (modLife s f) :=
  Keeps.upd hs rfl rfl rfl rfl rfl hf rfl rfl rfl

theorem modLifeX_keeps {sc : Scope} {s0 : State} (s : State) (f : LifeCycle → LifeCycle) (hs : Keeps sc s0 s)
    (hc : sc.life = true) : Keeps sc s0 (modLife s f) :=
  ⟨hs.1, hs.2, hs.3, hs.4, hs.5, fun k => by simp [hc] at k, hs.7⟩

theorem modFc_keeps {sc : Scope} {s0 : State} (s : State) (f : Collector → Collector) (hs : Keeps sc s0 s)
    (hf : (f s.fc).service = s.fc.service ∧ (f s.fc).faultN = s.fc.faultN) : Keeps sc s0 (modFc s f) :=
  Keeps.upd hs rfl rfl rfl rfl rfl rfl hf.1 hf.2 rfl

theorem modPower_keeps {sc : Scope} {s0 : State} (s : State) (f : Power → Power) (hs : Keeps sc s0 s)
    (hf : (f s.power).powered = s.power.powered) : Keeps sc s0 (modPower s f) :=
  Keeps.upd hs rfl rfl rfl rfl rfl rfl rfl rfl hf

end Sys2Proof.Machine
end

