-- ==== Sys2Proof/Laws/KeepsOps.lean ====
section
/-! SUPPORT. One lemma for each operation: what it keeps of the queue, the memories, one-time programmable memory and the
life-cycle state. Here: the shared operations, the collector, the digest unit and tamper control. -/

namespace Sys2Proof.Machine

theorem emit_keeps {sc : Scope} {s0 : State} (s : State) (o : Output) (hs : Keeps sc s0 s) : Keeps sc s0 (emit s o)
    := by
  unfold emit
  iterate 40 try any_goals first
    | (with_reducible first
        | assumption)
    | split | intro _ | dsimp only | (show _ = _; rfl)
    | (with_reducible first | apply Keeps.updS)

theorem emits_keeps {sc : Scope} {s0 : State} (s : State) (l : List Output) (hs : Keeps sc s0 s) : Keeps sc s0
    (emits s l) := by
  unfold emits
  iterate 40 try any_goals first
    | (with_reducible first
        | assumption)
    | split | intro _ | dsimp only | (show _ = _; rfl)
    | (with_reducible first | apply Keeps.updS)

theorem useFree_keeps {sc : Scope} {s0 : State} (s : State) (n : Nat) (hs : Keeps sc s0 s) : Keeps sc s0 (useFree s
    n) := by
  unfold useFree
  iterate 40 try any_goals first
    | (with_reducible first
        | assumption)
    | split | intro _ | dsimp only | (show _ = _; rfl)
    | (with_reducible first | apply Keeps.updS)

theorem modAlc_keeps {sc : Scope} {s0 : State} (s : State) (a : Nat) (f : Alcove → Alcove) (hs : Keeps sc s0 s) :
    Keeps sc s0 (modAlc s a f) := by
  unfold modAlc
  iterate 40 try any_goals first
    | (with_reducible first
        | assumption)
    | split | intro _ | dsimp only | (show _ = _; rfl)
    | (with_reducible first | apply Keeps.updS)

theorem modSess_keeps {sc : Scope} {s0 : State} (s : State) (a i : Nat) (f : Session → Session) (hs : Keeps sc s0 s)
    : Keeps sc s0 (modSess s a i f) := by
  unfold modSess
  iterate 40 try any_goals first
    | (with_reducible first
        | assumption)
    | split | intro _ | dsimp only | (show _ = _; rfl)
    | (with_reducible first | apply Keeps.updS)

theorem putSess_keeps {sc : Scope} {s0 : State} (s : State) (a i : Nat) (x : Session) (hs : Keeps sc s0 s) : Keeps
    sc s0 (putSess s a i x) := by
  unfold putSess
  iterate 40 try any_goals first
    | (with_reducible first
        | assumption)
    | split | intro _ | dsimp only | (show _ = _; rfl)
    | (with_reducible first | apply Keeps.updS)

theorem delSess_keeps {sc : Scope} {s0 : State} (s : State) (a i : Nat) (hs : Keeps sc s0 s) : Keeps sc s0 (delSess
    s a i) := by
  unfold delSess
  iterate 40 try any_goals first
    | (with_reducible first
        | assumption)
    | split | intro _ | dsimp only | (show _ = _; rfl)
    | (with_reducible first | apply Keeps.updS)

theorem modWork_keeps {sc : Scope} {s0 : State} (s : State) (w : Nat) (f : Work → Work) (hs : Keeps sc s0 s) : Keeps
    sc s0 (modWork s w f) := by
  unfold modWork
  iterate 40 try any_goals first
    | (with_reducible first
        | assumption)
    | split | intro _ | dsimp only | (show _ = _; rfl)
    | (with_reducible first | apply Keeps.updS)

theorem delWork_keeps {sc : Scope} {s0 : State} (s : State) (w : Nat) (hs : Keeps sc s0 s) : Keeps sc s0 (delWork s
    w) := by
  unfold delWork
  iterate 40 try any_goals first
    | (with_reducible first
        | assumption)
    | split | intro _ | dsimp only | (show _ = _; rfl)
    | (with_reducible first | apply Keeps.updS)

theorem modDom_keeps {sc : Scope} {s0 : State} (s : State) (d : Nat) (f : Domain → Domain) (hs : Keeps sc s0 s) :
    Keeps sc s0 (modDom s d f) := by
  unfold modDom
  iterate 40 try any_goals first
    | (with_reducible first
        | assumption)
    | split | intro _ | dsimp only | (show _ = _; rfl)
    | (with_reducible first | apply Keeps.updS)

theorem busOk_keeps {sc : Scope} {s0 : State} (s : State) (v : Word) (hs : Keeps sc s0 s) : Keeps sc s0 (busOk s v)
    := by
  unfold busOk
  iterate 40 try any_goals first
    | (with_reducible first
        | assumption)
    | split | intro _ | dsimp only | (show _ = _; rfl)
    | (with_reducible first | apply Keeps.updS)

theorem busErr_keeps {sc : Scope} {s0 : State} (s : State) (hs : Keeps sc s0 s) : Keeps sc s0 (busErr s) := by
  unfold busErr
  iterate 40 try any_goals first
    | (with_reducible first
        | assumption)
    | split | intro _ | dsimp only | (show _ = _; rfl)
    | (with_reducible first | apply Keeps.updS)

theorem countDrop_keeps {sc : Scope} {s0 : State} (s : State) (why : Nat) (hs : Keeps sc s0 s) : Keeps sc s0
    (countDrop s why) := by
  unfold countDrop
  iterate 40 try any_goals first
    | (with_reducible first
        | assumption)
    | split | intro _ | dsimp only | (show _ = _; rfl)
    | (with_reducible first | apply Keeps.updS)

theorem perfAdd_keeps {sc : Scope} {s0 : State} (s : State) (b e n : Nat) (hs : Keeps sc s0 s) : Keeps sc s0
    (perfAdd s b e n) := by
  unfold perfAdd
  iterate 40 try any_goals first
    | (with_reducible first
        | assumption | apply Keeps.foldl)
    | split | intro _ | dsimp only | (show _ = _; rfl)
    | (with_reducible first | apply Keeps.updS)

theorem alcCount_keeps {sc : Scope} {s0 : State} (s : State) (a k n : Nat) (hs : Keeps sc s0 s) : Keeps sc s0
    (alcCount s a k n) := by
  unfold alcCount
  iterate 40 try any_goals first
    | (with_reducible first
        | assumption | apply modAlc_keeps)
    | split | intro _ | dsimp only | (show _ = _; rfl)
    | (with_reducible first | apply Keeps.updS)

theorem putSrc_keeps {sc : Scope} {s0 : State} (s : State) (n : Nat) (e : EvSource) (hs : Keeps sc s0 s) : Keeps sc
    s0 (putSrc s n e) := by
  unfold putSrc
  iterate 40 try any_goals first
    | (with_reducible first
        | assumption)
    | split | intro _ | dsimp only | (show _ = _; rfl)
    | (with_reducible first | apply Keeps.updS)

theorem raise_keeps {sc : Scope} {s0 : State} (s : State) (n : Nat) (hs : Keeps sc s0 s) : Keeps sc s0 (raise s n)
    := by
  unfold raise
  iterate 40 try any_goals first
    | (with_reducible first
        | assumption | apply putSrc_keeps)
    | split | intro _ | dsimp only | (show _ = _; rfl)
    | (with_reducible first | apply Keeps.updS)

theorem modPort_keeps {sc : Scope} {s0 : State} (s : State) (p : Nat) (f : Port → Port) (hs : Keeps sc s0 s) : Keeps
    sc s0 (modPort s p f) := by
  unfold modPort
  iterate 40 try any_goals first
    | (with_reducible first
        | assumption)
    | split | intro _ | dsimp only | (show _ = _; rfl)
    | (with_reducible first | apply Keeps.updS)

theorem sendOut_keeps {sc : Scope} {s0 : State} (s : State) (l prio : Nat) (o : Output) (hs : Keeps sc s0 s) : Keeps
    sc s0 (sendOut s l prio o) := by
  unfold sendOut
  iterate 40 try any_goals first
    | (with_reducible first
        | assumption | apply emit_keeps)
    | split | intro _ | dsimp only | (show _ = _; rfl)
    | (with_reducible first | apply Keeps.updS)

theorem releaseHeld_keeps {sc : Scope} {s0 : State} (s : State) (hs : Keeps sc s0 s) : Keeps sc s0 (releaseHeld s)
    := by
  unfold releaseHeld
  iterate 40 try any_goals first
    | (with_reducible first
        | assumption | apply emits_keeps)
    | split | intro _ | dsimp only | (show _ = _; rfl)
    | (with_reducible first | apply Keeps.updS)

theorem mirrorDev_keeps {sc : Scope} {s0 : State} (s : State) (a i : Nat) (x : Session) (hs : Keeps sc s0 s) : Keeps
    sc s0 (mirrorDev s a i x) := by
  unfold mirrorDev
  iterate 40 try any_goals first
    | (with_reducible first
        | assumption | apply emit_keeps | apply modSess_keeps)
    | split | intro _ | dsimp only | (show _ = _; rfl)
    | (with_reducible first | apply Keeps.updS)

theorem sendProt_keeps {sc : Scope} {s0 : State} (s : State) (a i : Nat) (x : Session) (sublink prio : Nat) (h :
    WcpHeader) (data : Bytes) (hs : Keeps sc s0 s) : Keeps sc s0 (sendProt s a i x sublink prio h data) := by
  unfold sendProt
  iterate 40 try any_goals first
    | (with_reducible first
        | assumption | apply mirrorDev_keeps | apply modSess_keeps | apply sendOut_keeps)
    | split | intro _ | dsimp only | (show _ = _; rfl)
    | (with_reducible first | apply Keeps.updS)

theorem setHead_keeps {sc : Scope} {s0 : State} (s : State) (hs : Keeps sc s0 s) : Keeps sc s0 (setHead s) := by
  unfold setHead
  iterate 40 try any_goals first
    | (with_reducible first
        | assumption)
    | split | intro _ | dsimp only | (show _ = _; rfl)
    | (with_reducible first | apply Keeps.updS)

theorem writeExt_keeps {sc : Scope} {s0 : State} (s : State) (ext : Bytes) (hs : Keeps sc s0 s) : Keeps sc s0
    (writeExt s ext) := by
  unfold writeExt
  iterate 40 try any_goals first
    | (with_reducible first
        | assumption | apply setHead_keeps)
    | split | intro _ | dsimp only | (show _ = _; rfl)
    | (with_reducible first | apply Keeps.updS)

theorem sendPlain_keeps {sc : Scope} {s0 : State} (s : State) (sublink prio : Nat) (h : WcpHeader) (data : Bytes)
    (hs : Keeps sc s0 s) : Keeps sc s0 (sendPlain s sublink prio h data) := by
  unfold sendPlain
  iterate 40 try any_goals first
    | (with_reducible first
        | assumption | apply sendOut_keeps)
    | split | intro _ | dsimp only | (show _ = _; rfl)
    | (with_reducible first | apply Keeps.updS)

theorem dropSession_keeps {sc : Scope} {s0 : State} (s : State) (a i status : Nat) (hs : Keeps sc s0 s) : Keeps sc
    s0 (dropSession s a i status) := by
  unfold dropSession
  iterate 40 try any_goals first
    | (with_reducible first
        | assumption | apply sendProt_keeps | apply delSess_keeps | apply modAlc_keeps)
    | split | intro _ | dsimp only | (show _ = _; rfl)
    | (with_reducible first | apply Keeps.updS)

theorem flushEvents_keeps {sc : Scope} {s0 : State} (x0 : Nat) (s : State) (x2 : Nat) (hs : Keeps sc s0 s) : Keeps
    sc s0 (flushEvents x0 s x2) := by
  induction x0 generalizing s x2 with
  | zero => exact hs
  | succ n ih =>
    unfold flushEvents
    iterate 40 try any_goals first
      | (with_reducible first
          | assumption | apply ih | apply dropSession_keeps | apply sendProt_keeps | apply modAlc_keeps)
      | split | intro _ | dsimp only | (show _ = _; rfl)
      | (with_reducible first | apply Keeps.updS)

theorem flushAll_keeps {sc : Scope} {s0 : State} (s : State) (a : Nat) (hs : Keeps sc s0 s) : Keeps sc s0 (flushAll
    s a) := by
  unfold flushAll
  iterate 40 try any_goals first
    | (with_reducible first
        | assumption | apply flushEvents_keeps)
    | split | intro _ | dsimp only | (show _ = _; rfl)
    | (with_reducible first | apply Keeps.updS)

theorem flushDue_keeps {sc : Scope} {s0 : State} (s : State) (a : Nat) (hs : Keeps sc s0 s) : Keeps sc s0 (flushDue
    s a) := by
  unfold flushDue
  iterate 40 try any_goals first
    | (with_reducible first
        | assumption | apply flushAll_keeps)
    | split | intro _ | dsimp only | (show _ = _; rfl)
    | (with_reducible first | apply Keeps.updS)

theorem postEvent_keeps {sc : Scope} {s0 : State} (s : State) (a code status session queue seq detail : Nat)
    (hs : Keeps sc s0 s) : Keeps sc s0 (postEvent s a code status session queue seq detail) := by
  unfold postEvent
  iterate 40 try any_goals first
    | (with_reducible first
        | assumption | apply modAlc_keeps | apply flushAll_keeps | apply flushDue_keeps)
    | split | intro _ | dsimp only | (show _ = _; rfl)
    | (with_reducible first | apply Keeps.updS)

theorem closeSession_keeps {sc : Scope} {s0 : State} (s : State) (a i status : Nat) (hs : Keeps sc s0 s) : Keeps sc
    s0 (closeSession s a i status) := by
  unfold closeSession
  iterate 40 try any_goals first
    | (with_reducible first
        | assumption | apply flushDue_keeps | apply dropSession_keeps)
    | split | intro _ | dsimp only | (show _ = _; rfl)
    | (with_reducible first | apply Keeps.updS)

theorem closeEvery_keeps {sc : Scope} {s0 : State} (s : State) (status : Nat) (hs : Keeps sc s0 s) : Keeps sc s0
    (closeEvery s status) := by
  unfold closeEvery
  iterate 40 try any_goals first
    | (with_reducible first
        | assumption | apply closeSession_keeps | apply Keeps.foldl)
    | split | intro _ | dsimp only | (show _ = _; rfl)
    | (with_reducible first | apply Keeps.updS)

theorem addComp_keeps {sc : Scope} {s0 : State} (s : State) (c : Completion) (hs : Keeps sc s0 s) : Keeps sc s0
    (addComp s c) := by
  unfold addComp
  iterate 40 try any_goals first
    | (with_reducible first
        | assumption)
    | split | intro _ | dsimp only | (show _ = _; rfl)
    | (with_reducible first | apply Keeps.updS)

theorem countSlots_keeps {sc : Scope} {s0 : State} (s : State) (a : Nat) (retired : Bool) (l : List (Nat × Nat))
    (hs : Keeps sc s0 s) : Keeps sc s0 (countSlots s a retired l) := by
  unfold countSlots
  iterate 40 try any_goals first
    | (with_reducible first
        | assumption | apply perfAdd_keeps | apply alcCount_keeps | apply Keeps.foldl)
    | split | intro _ | dsimp only | (show _ = _; rfl)
    | (with_reducible first | apply Keeps.updS)

theorem endReply_keeps {sc : Scope} {s0 : State} (s : State) (k : Work) (slot : Nat) (p : Bytes) (status : Nat)
    (hs : Keeps sc s0 s) : Keeps sc s0 (endReply s k slot p status) := by
  unfold endReply
  iterate 40 try any_goals first
    | (with_reducible first
        | assumption | apply modSess_keeps | apply sendPlain_keeps | apply delSess_keeps)
    | split | intro _ | dsimp only | (show _ = _; rfl)
    | (with_reducible first | apply Keeps.updS)

theorem putSigned_keeps {sc : Scope} {s0 : State} (s : State) (x0 : StairTask) (hs : Keeps sc s0 s) : Keeps sc s0
    (putSigned s x0) := by
  unfold putSigned
  iterate 40 try any_goals first
    | (with_reducible first
        | assumption | apply modAlc_keeps | apply modDom_keeps | apply writeExt_keeps)
    | split | intro _ | dsimp only | (show _ = _; rfl)
    | (with_reducible first | apply Keeps.updS)

theorem endTask_keeps {sc : Scope} {s0 : State} (s : State) (w : Nat) (k : Work) (t : StairTask) (status : Nat)
    (hs : Keeps sc s0 s) : Keeps sc s0 (endTask s w k t status) := by
  unfold endTask
  iterate 40 try any_goals first
    | (with_reducible first
        | assumption | apply countSlots_keeps | apply delWork_keeps | apply endReply_keeps | apply putSigned_keeps)
    | split | intro _ | dsimp only | (show _ = _; rfl)
    | (with_reducible first | apply Keeps.updS)

theorem complete_keeps {sc : Scope} {s0 : State} (s : State) (w status : Nat) (p : Bytes) (meters : List (Nat ×
    Nat)) (hs : Keeps sc s0 s) : Keeps sc s0 (complete s w status p meters) := by
  unfold complete
  iterate 40 try any_goals first
    | (with_reducible first
        | assumption | apply endTask_keeps | apply modWork_keeps | apply addComp_keeps)
    | split | intro _ | dsimp only | (show _ = _; rfl)
    | (with_reducible first | apply Keeps.updS)

theorem failWork_keeps {sc : Scope} {s0 : State} (s : State) (w status : Nat) (hs : Keeps sc s0 s) : Keeps sc s0
    (failWork s w status) := by
  unfold failWork
  iterate 40 try any_goals first
    | (with_reducible first
        | assumption | apply complete_keeps)
    | split | intro _ | dsimp only | (show _ = _; rfl)
    | (with_reducible first | apply Keeps.updS)

theorem okWork_keeps {sc : Scope} {s0 : State} (s : State) (w : Nat) (p : Bytes) (hs : Keeps sc s0 s) : Keeps sc s0
    (okWork s w p) := by
  unfold okWork
  iterate 40 try any_goals first
    | (with_reducible first
        | assumption | apply complete_keeps)
    | split | intro _ | dsimp only | (show _ = _; rfl)
    | (with_reducible first | apply Keeps.updS)

theorem enforceRetention_keeps {sc : Scope} {s0 : State} (x0 : Nat) (s : State) (x2 : Nat) (x3 : Nat)
    (hs : Keeps sc s0 s) : Keeps sc s0 (enforceRetention x0 s x2 x3) := by
  induction x0 generalizing s x2 x3 with
  | zero => exact hs
  | succ n ih =>
    unfold enforceRetention
    iterate 40 try any_goals first
      | (with_reducible first
          | assumption | apply ih)
      | split | intro _ | dsimp only | (show _ = _; rfl)
      | (with_reducible first | apply Keeps.updS)

theorem sendSegs_keeps {sc : Scope} {s0 : State} (x0 : Nat) (s : State) (x2 : Completion) (x3 : Nat) (x4 : Bytes)
    (hs : Keeps sc s0 s) : Keeps sc s0 (sendSegs x0 s x2 x3 x4) := by
  induction x0 generalizing s x2 x3 x4 with
  | zero => exact hs
  | succ n ih =>
    unfold sendSegs
    iterate 40 try any_goals first
      | (with_reducible first
          | assumption | apply ih | apply closeSession_keeps | apply sendProt_keeps | apply modAlc_keeps
          | apply sendOut_keeps)
      | split | intro _ | dsimp only | (show _ = _; rfl)
      | (with_reducible first | apply Keeps.updS)

theorem finishClosing_keeps {sc : Scope} {s0 : State} (s : State) (a i : Nat) (hs : Keeps sc s0 s) : Keeps sc s0
    (finishClosing s a i) := by
  unfold finishClosing
  iterate 40 try any_goals first
    | (with_reducible first
        | assumption | apply closeSession_keeps)
    | split | intro _ | dsimp only | (show _ = _; rfl)
    | (with_reducible first | apply Keeps.updS)

theorem slotsOf_keeps {sc : Scope} {s0 : State} (s : State) (c : Completion) (sent : Bool) (hs : Keeps sc s0 s) :
    Keeps sc s0 (slotsOf s c sent) := by
  unfold slotsOf
  iterate 40 try any_goals first
    | (with_reducible first
        | assumption | apply countSlots_keeps)
    | split | intro _ | dsimp only | (show _ = _; rfl)
    | (with_reducible first | apply Keeps.updS)

theorem dropComp_keeps {sc : Scope} {s0 : State} (s : State) (n : Nat) (c : Completion) (hs : Keeps sc s0 s) : Keeps
    sc s0 (dropComp s n c) := by
  unfold dropComp
  iterate 40 try any_goals first
    | (with_reducible first
        | assumption | apply delWork_keeps)
    | split | intro _ | dsimp only | (show _ = _; rfl)
    | (with_reducible first | apply Keeps.updS)

theorem meterComp_keeps {sc : Scope} {s0 : State} (s : State) (c : Completion) (hs : Keeps sc s0 s) : Keeps sc s0
    (meterComp s c) := by
  unfold meterComp
  iterate 40 try any_goals first
    | (with_reducible first
        | assumption | apply Keeps.foldl)
    | split | intro _ | dsimp only | (show _ = _; rfl)
    | (with_reducible first | apply Keeps.updS)

theorem afterSend_keeps {sc : Scope} {s0 : State} (s : State) (n : Nat) (c : Completion) (hs : Keeps sc s0 s) :
    Keeps sc s0 (afterSend s n c) := by
  unfold afterSend
  iterate 40 try any_goals first
    | (with_reducible first
        | assumption | apply modSess_keeps | apply enforceRetention_keeps | apply meterComp_keeps
        | apply alcCount_keeps | apply postEvent_keeps)
    | split | intro _ | dsimp only | (show _ = _; rfl)
    | (with_reducible first | apply Keeps.updS)

theorem handover_keeps {sc : Scope} {s0 : State} (s : State) (n : Nat) (hs : Keeps sc s0 s) : Keeps sc s0 (handover
    s n) := by
  unfold handover
  iterate 40 try any_goals first
    | (with_reducible first
        | assumption | apply dropComp_keeps | apply slotsOf_keeps | apply finishClosing_keeps | apply sendSegs_keeps
        | apply perfAdd_keeps | apply afterSend_keeps)
    | split | intro _ | dsimp only | (show _ = _; rfl)
    | (with_reducible first | apply Keeps.updS)

theorem handoverAll_keeps {sc : Scope} {s0 : State} (s : State) (hs : Keeps sc s0 s) : Keeps sc s0 (handoverAll s)
    := by
  unfold handoverAll
  iterate 40 try any_goals first
    | (with_reducible first
        | assumption | apply handover_keeps | apply Keeps.foldl)
    | split | intro _ | dsimp only | (show _ = _; rfl)
    | (with_reducible first | apply Keeps.updS)

theorem modQp_keeps {sc : Scope} {s0 : State} (s : State) (q : Nat) (f : Qp → Qp) (hs : Keeps sc s0 s) : Keeps sc s0
    (modQp s q f) := by
  unfold modQp
  iterate 40 try any_goals first
    | (with_reducible first
        | assumption)
    | split | intro _ | dsimp only | (show _ = _; rfl)
    | (with_reducible first | apply Keeps.updS)

theorem dirtyPacket_keeps {sc : Scope} {s0 : State} (s : State) (a pid addr len : Nat) (hs : Keeps sc s0 s) : Keeps
    sc s0 (dirtyPacket s a pid addr len) := by
  unfold dirtyPacket
  iterate 40 try any_goals first
    | (with_reducible first
        | assumption | apply alcCount_keeps | apply Keeps.foldl)
    | split | intro _ | dsimp only | (show _ = _; rfl)
    | (with_reducible first | apply Keeps.updS)

theorem sendPacket_keeps {sc : Scope} {s0 : State} (s : State) (q link a : Nat) (p : RdmaPacket)
    (hs : Keeps sc s0 s) : Keeps sc s0 (sendPacket s q link a p) := by
  unfold sendPacket
  iterate 40 try any_goals first
    | (with_reducible first
        | assumption | apply dirtyPacket_keeps | apply sendOut_keeps)
    | split | intro _ | dsimp only | (show _ = _; rfl)
    | (with_reducible first | apply Keeps.updS)

theorem issueWrite_keeps {sc : Scope} {s0 : State} (s : State) (q : Nat) (x : Qp) (a pid addr prio : Nat) (imm :
    Option Nat) (d : Bytes) (hs : Keeps sc s0 s) : Keeps sc s0 (issueWrite s q x a pid addr prio imm d) := by
  unfold issueWrite
  iterate 40 try any_goals first
    | (with_reducible first
        | assumption | apply modQp_keeps | apply alcCount_keeps | apply perfAdd_keeps | apply sendPacket_keeps
        | apply Keeps.foldl)
    | split | intro _ | dsimp only | (show _ = _; rfl)
    | (with_reducible first | apply Keeps.updS)

theorem sendStreamResult_keeps {sc : Scope} {s0 : State} (s : State) (c : Completion) (hs : Keeps sc s0 s) : Keeps
    sc s0 (sendStreamResult s c) := by
  unfold sendStreamResult
  iterate 40 try any_goals first
    | (with_reducible first
        | assumption | apply closeSession_keeps | apply sendProt_keeps)
    | split | intro _ | dsimp only | (show _ = _; rfl)
    | (with_reducible first | apply Keeps.updS)

theorem endStream_keeps {sc : Scope} {s0 : State} (s : State) (n : Nat) (c : Completion) (hs : Keeps sc s0 s) :
    Keeps sc s0 (endStream s n c) := by
  unfold endStream
  iterate 40 try any_goals first
    | (with_reducible first
        | assumption | apply finishClosing_keeps | apply dropComp_keeps | apply meterComp_keeps
        | apply slotsOf_keeps)
    | split | intro _ | dsimp only | (show _ = _; rfl)
    | (with_reducible first | apply Keeps.updS)

theorem placeResult_keeps {sc : Scope} {s0 : State} (s : State) (n : Nat) (c : Completion) (x : Slice) (q addr :
    Nat) (hs : Keeps sc s0 s) : Keeps sc s0 (placeResult s n c x q addr) := by
  unfold placeResult
  iterate 40 try any_goals first
    | (with_reducible first
        | assumption | apply endStream_keeps | apply issueWrite_keeps)
    | split | intro _ | dsimp only | (show _ = _; rfl)
    | (with_reducible first | apply Keeps.updS)

theorem frameResult_keeps {sc : Scope} {s0 : State} (s : State) (n : Nat) (c : Completion) (hs : Keeps sc s0 s) :
    Keeps sc s0 (frameResult s n c) := by
  unfold frameResult
  iterate 40 try any_goals first
    | (with_reducible first
        | assumption | apply endStream_keeps | apply perfAdd_keeps | apply sendStreamResult_keeps)
    | split | intro _ | dsimp only | (show _ = _; rfl)
    | (with_reducible first | apply Keeps.updS)

theorem streamReady_keeps {sc : Scope} {s0 : State} (s : State) (n : Nat) (hs : Keeps sc s0 s) : Keeps sc s0
    (streamReady s n) := by
  unfold streamReady
  iterate 40 try any_goals first
    | (with_reducible first
        | assumption | apply finishClosing_keeps | apply dropComp_keeps | apply slotsOf_keeps
        | apply placeResult_keeps | apply frameResult_keeps)
    | split | intro _ | dsimp only | (show _ = _; rfl)
    | (with_reducible first | apply Keeps.updS)

theorem unpin_keeps {sc : Scope} {s0 : State} (s : State) (c : Nat) (hs : Keeps sc s0 s) : Keeps sc s0 (unpin s c)
    := by
  unfold unpin
  iterate 40 try any_goals first
    | (with_reducible first
        | assumption)
    | split | intro _ | dsimp only | (show _ = _; rfl)
    | (with_reducible first | apply Keeps.updS)

theorem unpinAll_keeps {sc : Scope} {s0 : State} (s : State) (l : List Nat) (hs : Keeps sc s0 s) : Keeps sc s0
    (unpinAll s l) := by
  unfold unpinAll
  iterate 40 try any_goals first
    | (with_reducible first
        | assumption | apply unpin_keeps | apply Keeps.foldl)
    | split | intro _ | dsimp only | (show _ = _; rfl)
    | (with_reducible first | apply Keeps.updS)

theorem modPk_keeps {sc : Scope} {s0 : State} (s : State) (f : Pk → Pk) (hs : Keeps sc s0 s) : Keeps sc s0 (modPk s
    f) := by
  unfold modPk
  iterate 40 try any_goals first
    | (with_reducible first
        | assumption)
    | split | intro _ | dsimp only | (show _ = _; rfl)
    | (with_reducible first | apply Keeps.updS)

theorem modCore_keeps {sc : Scope} {s0 : State} (s : State) (i : Nat) (f : PkCore → PkCore) (hs : Keeps sc s0 s) :
    Keeps sc s0 (modCore s i f) := by
  unfold modCore
  iterate 40 try any_goals first
    | (with_reducible first
        | assumption | apply modPk_keeps)
    | split | intro _ | dsimp only | (show _ = _; rfl)
    | (with_reducible first | apply Keeps.updS)

theorem modJob_keeps {sc : Scope} {s0 : State} (s : State) (j : Nat) (f : Job → Job) (hs : Keeps sc s0 s) : Keeps sc
    s0 (modJob s j f) := by
  unfold modJob
  iterate 40 try any_goals first
    | (with_reducible first
        | assumption | apply modPk_keeps)
    | split | intro _ | dsimp only | (show _ = _; rfl)
    | (with_reducible first | apply Keeps.updS)

theorem removeJob_keeps {sc : Scope} {s0 : State} (s : State) (j : Nat) (hs : Keeps sc s0 s) : Keeps sc s0
    (removeJob s j) := by
  unfold removeJob
  iterate 40 try any_goals first
    | (with_reducible first
        | assumption | apply modPk_keeps | apply unpinAll_keeps)
    | split | intro _ | dsimp only | (show _ = _; rfl)
    | (with_reducible first | apply Keeps.updS)

theorem abortJobs_keeps {sc : Scope} {s0 : State} (s : State) (hs : Keeps sc s0 s) : Keeps sc s0 (abortJobs s) := by
  unfold abortJobs
  iterate 40 try any_goals first
    | (with_reducible first
        | assumption | apply modJob_keeps | apply removeJob_keeps | apply Keeps.foldl)
    | split | intro _ | dsimp only | (show _ = _; rfl)
    | (with_reducible first | apply Keeps.updS)

theorem clearOps_keeps {sc : Scope} {s0 : State} (s : State) (hs : Keeps sc s0 s) : Keeps sc s0 (clearOps s) := by
  unfold clearOps
  iterate 40 try any_goals first
    | (with_reducible first
        | assumption | apply unpinAll_keeps | apply Keeps.foldl)
    | split | intro _ | dsimp only | (show _ = _; rfl)
    | (with_reducible first | apply Keeps.updS)

theorem releaseCtx_keeps {sc : Scope} {s0 : State} (s : State) (a i : Nat) (hs : Keeps sc s0 s) : Keeps sc s0
    (releaseCtx s a i) := by
  unfold releaseCtx
  iterate 40 try any_goals first
    | (with_reducible first
        | assumption | apply modAlc_keeps)
    | split | intro _ | dsimp only | (show _ = _; rfl)
    | (with_reducible first | apply Keeps.updS)

theorem releaseAll_keeps {sc : Scope} {s0 : State} (s : State) (a : Nat) (hs : Keeps sc s0 s) : Keeps sc s0
    (releaseAll s a) := by
  unfold releaseAll
  iterate 40 try any_goals first
    | (with_reducible first
        | assumption | apply releaseCtx_keeps | apply Keeps.foldl)
    | split | intro _ | dsimp only | (show _ = _; rfl)
    | (with_reducible first | apply Keeps.updS)

theorem releaseTaken_keeps {sc : Scope} {s0 : State} (s : State) (hs : Keeps sc s0 s) : Keeps sc s0 (releaseTaken s)
    := by
  unfold releaseTaken
  iterate 40 try any_goals first
    | (with_reducible first
        | assumption | apply releaseAll_keeps | apply Keeps.foldl)
    | split | intro _ | dsimp only | (show _ = _; rfl)
    | (with_reducible first | apply Keeps.updS)

theorem postService_keeps {sc : Scope} {s0 : State} (s : State) (v : Service) (hs : Keeps sc s0 s) : Keeps sc s0
    (postService s v) := by
  unfold postService
  iterate 40 try any_goals first
    | (with_reducible first
        | assumption | apply postEvent_keeps | apply Keeps.foldl)
    | split | intro _ | dsimp only | (show _ = _; rfl)
    | (with_reducible first | apply Keeps.updS)

theorem setService_keeps {sc : Scope} {s0 : State} (s : State) (v : Service) (hs : Keeps sc s0 s) : Keeps sc s0
    (setService s v) := by
  unfold setService
  split
  · exact hs
  · exact postService_keeps _ _ ⟨hs.1, hs.2, hs.3, hs.4, hs.5, hs.6, fun _ => by simp [faultFollows]⟩

theorem settle_keeps {sc : Scope} {s0 : State} (s : State) (hs : Keeps sc s0 s) : Keeps sc s0 (settle s) := by
  unfold settle
  iterate 40 try any_goals first
    | (with_reducible first
        | assumption | apply setService_keeps)
    | split | intro _ | dsimp only | (show _ = _; rfl)
    | (with_reducible first | apply Keeps.updS)

theorem setCause_keeps {sc : Scope} {s0 : State} (s : State) (i : Nat) (hs : Keeps sc s0 s) : Keeps sc s0 (setCause
    s i) := by
  unfold setCause
  iterate 40 try any_goals first
    | (with_reducible first
        | assumption | apply settle_keeps)
    | split | intro _ | dsimp only | (show _ = _; rfl)
    | (with_reducible first | apply Keeps.updS)

theorem clrCause_keeps {sc : Scope} {s0 : State} (s : State) (i : Nat) (hs : Keeps sc s0 s) : Keeps sc s0 (clrCause
    s i) := by
  unfold clrCause
  iterate 40 try any_goals first
    | (with_reducible first
        | assumption | apply settle_keeps)
    | split | intro _ | dsimp only | (show _ = _; rfl)
    | (with_reducible first | apply Keeps.updS)

theorem notice_keeps {sc : Scope} {s0 : State} (s : State) (v : Service) (hs : Keeps sc s0 s) : Keeps sc s0 (notice
    s v) := by
  unfold notice
  iterate 40 try any_goals first
    | (with_reducible first
        | assumption | apply emit_keeps)
    | split | intro _ | dsimp only | (show _ = _; rfl)
    | (with_reducible first | apply Keeps.updS)

theorem failAllWork_keeps {sc : Scope} {s0 : State} (s : State) (status : Nat) (hs : Keeps sc s0 s) : Keeps sc s0
    (failAllWork s status) := by
  unfold failAllWork
  iterate 40 try any_goals first
    | (with_reducible first
        | assumption | apply failWork_keeps | apply Keeps.foldl)
    | split | intro _ | dsimp only | (show _ = _; rfl)
    | (with_reducible first | apply Keeps.updS)

theorem handOne_keeps {sc : Scope} {s0 : State} (s : State) (n : Nat) (hs : Keeps sc s0 s) : Keeps sc s0 (handOne s
    n) := by
  unfold handOne
  iterate 40 try any_goals first
    | (with_reducible first
        | assumption | apply streamReady_keeps | apply handover_keeps)
    | split | intro _ | dsimp only | (show _ = _; rfl)
    | (with_reducible first | apply Keeps.updS)

theorem handoverEvery_keeps {sc : Scope} {s0 : State} (s : State) (hs : Keeps sc s0 s) : Keeps sc s0 (handoverEvery
    s) := by
  unfold handoverEvery
  iterate 40 try any_goals first
    | (with_reducible first
        | assumption | apply handOne_keeps | apply Keeps.foldl)
    | split | intro _ | dsimp only | (show _ = _; rfl)
    | (with_reducible first | apply Keeps.updS)

theorem dropMutations_keeps {sc : Scope} {s0 : State} (s : State) (hs : Keeps sc s0 s) : Keeps sc s0 (dropMutations
    s) := by
  unfold dropMutations
  iterate 40 try any_goals first
    | (with_reducible first
        | assumption)
    | split | intro _ | dsimp only | (show _ = _; rfl)
    | (with_reducible first | apply Keeps.updS)

theorem enterSafe_keeps {sc : Scope} {s0 : State} (s : State) (hs : Keeps sc s0 s) : Keeps sc s0 (enterSafe s) := by
  unfold enterSafe
  iterate 40 try any_goals first
    | (with_reducible first
        | assumption | apply clearOps_keeps | apply handoverEvery_keeps | apply failAllWork_keeps
        | apply dropMutations_keeps | apply abortJobs_keeps | apply notice_keeps | apply closeEvery_keeps
        | apply setService_keeps | apply releaseTaken_keeps)
    | split | intro _ | dsimp only | (show _ = _; rfl)
    | (with_reducible first | apply Keeps.updS)

theorem enterTampered_keeps {sc : Scope} {s0 : State} (s : State) (hs : Keeps sc s0 s) : Keeps sc s0 (enterTampered
    s) := by
  unfold enterTampered
  iterate 40 try any_goals first
    | (with_reducible first
        | assumption | apply clearOps_keeps | apply notice_keeps | apply dropMutations_keeps | apply abortJobs_keeps
        | apply closeEvery_keeps | apply setService_keeps | apply releaseTaken_keeps)
    | split | intro _ | dsimp only | (show _ = _; rfl)
    | (with_reducible first | apply Keeps.updS)

theorem respond_keeps {sc : Scope} {s0 : State} (s : State) (p : Pulse) (hs : Keeps sc s0 s) : Keeps sc s0 (respond
    s p) := by
  unfold respond
  iterate 40 try any_goals first
    | (with_reducible first
        | assumption | apply setCause_keeps | apply enterSafe_keeps | apply enterTampered_keeps)
    | split | intro _ | dsimp only | (show _ = _; rfl)
    | (with_reducible first | apply Keeps.updS)

theorem recordPulses_frame (l : List Pulse) (f : Collector) :
    (l.foldl recordPulse f).service = f.service ∧ (l.foldl recordPulse f).faultN = f.faultN := by
  induction l generalizing f with
  | nil => exact ⟨rfl, rfl⟩
  | cons p r ih => exact ih (recordPulse f p)

theorem capturePulses_frame (now : Nat) (f : Collector) (l : List Pulse) :
    (capturePulses now f l).service = f.service ∧ (capturePulses now f l).faultN = f.faultN := by
  unfold capturePulses
  dsimp only
  split
  · exact ⟨rfl, rfl⟩
  · split <;> exact ⟨rfl, rfl⟩

theorem pulseCapture_keeps {sc : Scope} {s0 : State} (s : State) (l : List Pulse) (hs : Keeps sc s0 s) :
    Keeps sc s0 { s with fc := capturePulses s.time (l.foldl recordPulse s.fc) l } := by
  have h := capturePulses_frame s.time (l.foldl recordPulse s.fc) l
  have k := recordPulses_frame l s.fc
  exact Keeps.upd hs rfl rfl rfl rfl rfl rfl (h.1.trans k.1) (h.2.trans k.2) rfl

theorem pulses_keeps {sc : Scope} {s0 : State} (s : State) (ps : List Pulse) (hs : Keeps sc s0 s) : Keeps sc s0
    (pulses s ps) := by
  unfold pulses
  iterate 40 try any_goals first
    | (with_reducible first
        | assumption | apply pulseCapture_keeps | apply perfAdd_keeps | apply raise_keeps | apply respond_keeps
        | apply Keeps.foldl)
    | split | intro _ | dsimp only | (show _ = _; rfl)
    | (with_reducible first | apply Keeps.updS)

theorem pulse_keeps {sc : Scope} {s0 : State} (s : State) (line : Nat) (c : FClass) (hs : Keeps sc s0 s) : Keeps sc
    s0 (pulse s line c) := by
  unfold pulse
  iterate 40 try any_goals first
    | (with_reducible first
        | assumption | apply pulses_keeps)
    | split | intro _ | dsimp only | (show _ = _; rfl)
    | (with_reducible first | apply Keeps.updS)

theorem noteAt_keeps {sc : Scope} {s0 : State} (s : State) (line type addr master : Nat) (hs : Keeps sc s0 s) :
    Keeps sc s0 (noteAt s line type addr master) := by
  unfold noteAt
  iterate 40 try any_goals first
    | (with_reducible first
        | assumption | apply pulses_keeps)
    | split | intro _ | dsimp only | (show _ = _; rfl)
    | (with_reducible first | apply Keeps.updS)

theorem staticErr_keeps {sc : Scope} {s0 : State} (s : State) (line addr master : Nat) (hs : Keeps sc s0 s) : Keeps
    sc s0 (staticErr s line addr master) := by
  unfold staticErr
  iterate 40 try any_goals first
    | (with_reducible first
        | assumption | apply busErr_keeps | apply noteAt_keeps)
    | split | intro _ | dsimp only | (show _ = _; rfl)
    | (with_reducible first | apply Keeps.updS)

theorem setDom_keeps {sc : Scope} {s0 : State} (s : State) (d : Nat) (f : Domain → Domain) (hs : Keeps sc s0 s) :
    Keeps sc s0 (setDom s d f) := by
  unfold setDom
  iterate 40 try any_goals first
    | (with_reducible first
        | assumption)
    | split | intro _ | dsimp only | (show _ = _; rfl)
    | (with_reducible first | apply Keeps.updS)

theorem pinFace_keeps {sc : Scope} {s0 : State} (s : State) (slot face : Nat) (hs : Keeps sc s0 s) : Keeps sc s0
    (pinFace s slot face) := by
  unfold pinFace
  iterate 40 try any_goals first
    | (with_reducible first
        | assumption | apply perfAdd_keeps)
    | split | intro _ | dsimp only | (show _ = _; rfl)
    | (with_reducible first | apply Keeps.updS)

theorem splitPins_keeps {sc : Scope} {s0 : State} (s : State) (slot n : Nat) (hs : Keeps sc s0 s) : Keeps sc s0
    (splitPins s slot n) := by
  unfold splitPins
  iterate 40 try any_goals first
    | (with_reducible first
        | assumption)
    | split | intro _ | dsimp only | (show _ = _; rfl)
    | (with_reducible first | apply Keeps.updS)

theorem queueMut_keeps {sc : Scope} {s0 : State} (s : State) (d : Nat) (m : Mutation) (hs : Keeps sc s0 s) : Keeps
    sc s0 (queueMut s d m) := by
  unfold queueMut
  iterate 40 try any_goals first
    | (with_reducible first
        | assumption | apply setDom_keeps)
    | split | intro _ | dsimp only | (show _ = _; rfl)
    | (with_reducible first | apply Keeps.updS)

theorem mutateWork_keeps {sc : Scope} {s0 : State} (s : State) (w : Nat) (k : Work) (body : MutBody) (quorum :
    Option Bytes) (resp : Bytes) (hs : Keeps sc s0 s) : Keeps sc s0 (mutateWork s w k body quorum resp) := by
  unfold mutateWork
  iterate 40 try any_goals first
    | (with_reducible first
        | assumption | apply queueMut_keeps | apply modWork_keeps)
    | split | intro _ | dsimp only | (show _ = _; rfl)
    | (with_reducible first | apply Keeps.updS)

theorem mutateAlone_keeps {sc : Scope} {s0 : State} (s : State) (d a : Nat) (body : MutBody) (hs : Keeps sc s0 s) :
    Keeps sc s0 (mutateAlone s d a body) := by
  unfold mutateAlone
  iterate 40 try any_goals first
    | (with_reducible first
        | assumption | apply queueMut_keeps)
    | split | intro _ | dsimp only | (show _ = _; rfl)
    | (with_reducible first | apply Keeps.updS)

theorem modFace_keeps {sc : Scope} {s0 : State} (s : State) (slot n : Nat) (f : Face → Face) (hs : Keeps sc s0 s) :
    Keeps sc s0 (modFace s slot n f) := by
  unfold modFace
  iterate 40 try any_goals first
    | (with_reducible first
        | assumption)
    | split | intro _ | dsimp only | (show _ = _; rfl)
    | (with_reducible first | apply Keeps.updS)

theorem issueFace_keeps {sc : Scope} {s0 : State} (s : State) (a slot n : Nat) (f : Face) (hs : Keeps sc s0 s) :
    Keeps sc s0 (issueFace s a slot n f) := by
  unfold issueFace
  iterate 40 try any_goals first
    | (with_reducible first
        | assumption | apply pinFace_keeps | apply modFace_keeps | apply mutateAlone_keeps)
    | split | intro _ | dsimp only | (show _ = _; rfl)
    | (with_reducible first | apply Keeps.updS)

theorem drawInv_keeps {sc : Scope} {s0 : State} (s : State) (slot n : Nat) (hs : Keeps sc s0 s) : Keeps sc s0
    (drawInv s slot n) := by
  unfold drawInv
  iterate 40 try any_goals first
    | (with_reducible first
        | assumption | apply modFace_keeps)
    | split | intro _ | dsimp only | (show _ = _; rfl)
    | (with_reducible first | apply Keeps.updS)

theorem hcErr_keeps {sc : Scope} {s0 : State} (s : State) (i : Nat) (hs : Keeps sc s0 s) : Keeps sc s0 (hcErr s i)
    := by
  unfold hcErr
  iterate 40 try any_goals first
    | (with_reducible first
        | assumption)
    | split | intro _ | dsimp only | (show _ = _; rfl)
    | (with_reducible first | apply Keeps.updS)

theorem attrFault_keeps {sc : Scope} {s0 : State} (s : State) (m addr : Nat) (write : Bool) (hs : Keeps sc s0 s) :
    Keeps sc s0 (attrFault s m addr write) := by
  unfold attrFault
  iterate 40 try any_goals first
    | (with_reducible first
        | assumption | apply noteAt_keeps | apply hcErr_keeps | apply perfAdd_keeps)
    | split | intro _ | dsimp only | (show _ = _; rfl)
    | (with_reducible first | apply Keeps.updS)

theorem refuse_keeps {sc : Scope} {s0 : State} (s : State) (m addr : Nat) (write : Bool) (hs : Keeps sc s0 s) :
    Keeps sc s0 (refuse s m addr write) := by
  unfold refuse
  iterate 40 try any_goals first
    | (with_reducible first
        | assumption | apply busErr_keeps | apply attrFault_keeps)
    | split | intro _ | dsimp only | (show _ = _; rfl)
    | (with_reducible first | apply Keeps.updS)

theorem writeAs_keeps {sc : Scope} {s0 : State} (s : State) (m addr : Nat) (op : State → State) (hs : Keeps sc s0 s)
    (h_op : ∀ y0, Keeps sc s0 y0 → Keeps sc s0 (op y0)) : Keeps sc s0 (writeAs s m addr op) := by
  unfold writeAs
  iterate 40 try any_goals first
    | (with_reducible first
        | assumption | apply h_op | apply busErr_keeps | apply refuse_keeps)
    | split | intro _ | dsimp only | (show _ = _; rfl)
    | (with_reducible first | apply Keeps.updS)

theorem wrOk_keeps {sc : Scope} {s0 : State} (s : State) (hs : Keeps sc s0 s) : Keeps sc s0 (wrOk s) := by
  unfold wrOk
  iterate 40 try any_goals first
    | (with_reducible first
        | assumption | apply busOk_keeps)
    | split | intro _ | dsimp only | (show _ = _; rfl)
    | (with_reducible first | apply Keeps.updS)

theorem holdHi_keeps {sc : Scope} {s0 : State} (s : State) (m addr : Nat) (v : Word) (hs : Keeps sc s0 s) : Keeps sc
    s0 (holdHi s m addr v) := by
  unfold holdHi
  iterate 40 try any_goals first
    | (with_reducible first
        | assumption)
    | split | intro _ | dsimp only | (show _ = _; rfl)
    | (with_reducible first | apply Keeps.updS)

theorem dropHeld_keeps {sc : Scope} {s0 : State} (s : State) (m addr : Nat) (hs : Keeps sc s0 s) : Keeps sc s0
    (dropHeld s m addr) := by
  unfold dropHeld
  iterate 40 try any_goals first
    | (with_reducible first
        | assumption)
    | split | intro _ | dsimp only | (show _ = _; rfl)
    | (with_reducible first | apply Keeps.updS)

theorem captureHi_keeps {sc : Scope} {s0 : State} (s : State) (m addr : Nat) (v : Word) (hs : Keeps sc s0 s) : Keeps
    sc s0 (captureHi s m addr v) := by
  unfold captureHi
  iterate 40 try any_goals first
    | (with_reducible first
        | assumption)
    | split | intro _ | dsimp only | (show _ = _; rfl)
    | (with_reducible first | apply Keeps.updS)

theorem commitPair_keeps {sc : Scope} {s0 : State} (s : State) (m hiAddr d : Nat) (op : State → Nat → State)
    (hs : Keeps sc s0 s) (h_op : ∀ y0 y1, Keeps sc s0 y0 → Keeps sc s0 (op y0 y1)) : Keeps sc s0 (commitPair s m
    hiAddr d op) := by
  unfold commitPair
  iterate 40 try any_goals first
    | (with_reducible first
        | assumption | apply h_op | apply dropHeld_keeps)
    | split | intro _ | dsimp only | (show _ = _; rfl)
    | (with_reducible first | apply Keeps.updS)

theorem fcForce_keeps {sc : Scope} {s0 : State} (s : State) (v : Nat) (hs : Keeps sc s0 s) : Keeps sc s0 (fcForce s
    v) := by
  unfold fcForce
  iterate 40 try any_goals first
    | (with_reducible first
        | assumption | apply wrOk_keeps | apply pulses_keeps | apply modFc_keeps)
    | (show Collector.service _ = _ ∧ _; exact ⟨rfl, rfl⟩) | split | intro _ | dsimp only | (show _ = _; rfl)
    | (with_reducible first | apply Keeps.updS)

theorem fcCtrl_keeps {sc : Scope} {s0 : State} (s : State) (v : Word) (hs : Keeps sc s0 s) : Keeps sc s0 (fcCtrl s
    v) := by
  unfold fcCtrl
  iterate 40 try any_goals first
    | (with_reducible first
        | assumption | apply busErr_keeps | apply wrOk_keeps | apply modFc_keeps)
    | (show Collector.service _ = _ ∧ _; exact ⟨rfl, rfl⟩) | split | intro _ | dsimp only | (show _ = _; rfl)
    | (with_reducible first | apply Keeps.updS)

theorem fcWrite_keepsE {sc : Scope} {s0 t : State} {s : State} {off : Nat} {v : Word} (e : fcWrite s off v = some t)
    (hs : Keeps sc s0 s) : Keeps sc s0 t := by
  unfold fcWrite at e
  repeat' (first | split at e | dsimp only at e)
  all_goals first | (cases e; done) | cases e | skip
  all_goals iterate 40 try any_goals first
              | (with_reducible first
                  | assumption | apply fcCtrl_keeps | apply wrOk_keeps | apply modFc_keeps | apply busErr_keeps)
              | (show Collector.service _ = _ ∧ _; exact ⟨rfl, rfl⟩) | split | intro _ | dsimp only | (show _ = _; rfl)
              | (with_reducible first | apply Keeps.updS)

theorem fcStatusLo_keeps {sc : Scope} {s0 : State} (s : State) (m : Nat) (v : Word) (hs : Keeps sc s0 s) : Keeps sc
    s0 (fcStatusLo s m v) := by
  unfold fcStatusLo
  iterate 40 try any_goals first
    | (with_reducible first
        | assumption | apply commitPair_keeps | apply wrOk_keeps | apply modFc_keeps)
    | (show Collector.service _ = _ ∧ _; exact ⟨rfl, rfl⟩) | split | intro _ | dsimp only | (show _ = _; rfl)
    | (with_reducible first | apply Keeps.updS)

theorem fcForceLo_keeps {sc : Scope} {s0 : State} (s : State) (m : Nat) (v : Word) (hs : Keeps sc s0 s) : Keeps sc
    s0 (fcForceLo s m v) := by
  unfold fcForceLo
  iterate 40 try any_goals first
    | (with_reducible first
        | assumption | apply commitPair_keeps | apply fcForce_keeps)
    | split | intro _ | dsimp only | (show _ = _; rfl)
    | (with_reducible first | apply Keeps.updS)

theorem edSrc_keeps {sc : Scope} {s0 : State} (s : State) (m n : Nat) (v : Word) (hs : Keeps sc s0 s) : Keeps sc s0
    (edSrc s m n v) := by
  unfold edSrc
  iterate 40 try any_goals first
    | (with_reducible first
        | assumption | apply busErr_keeps | apply wrOk_keeps | apply putSrc_keeps)
    | split | intro _ | dsimp only | (show _ = _; rfl)
    | (with_reducible first | apply Keeps.updS)

theorem edFire_keeps {sc : Scope} {s0 : State} (s : State) (hs : Keeps sc s0 s) : Keeps sc s0 (edFire s) := by
  unfold edFire
  iterate 40 try any_goals first
    | (with_reducible first
        | assumption | apply pulse_keeps)
    | split | intro _ | dsimp only | (show _ = _; rfl)
    | (with_reducible first | apply Keeps.updS)

theorem edWrite_keepsE {sc : Scope} {s0 t : State} {s : State} {m off : Nat} {v : Word} (e : edWrite s m off v =
    some t) (hs : Keeps sc s0 s) : Keeps sc s0 t := by
  unfold edWrite at e
  repeat' (first | split at e | dsimp only at e)
  all_goals first | (cases e; done) | cases e | skip
  all_goals iterate 40 try any_goals first
              | (with_reducible first
                  | assumption | apply wrOk_keeps | apply edFire_keeps | apply edSrc_keeps)
              | split | intro _ | dsimp only | (show _ = _; rfl)
              | (with_reducible first | apply Keeps.updS)

theorem listedPulses_keeps {sc : Scope} {s0 : State} (s : State) (ps : List Pulse) (hs : Keeps sc s0 s) : Keeps sc
    s0 (listedPulses s ps) := by
  unfold listedPulses
  iterate 40 try any_goals first
    | (with_reducible first
        | assumption | apply pulses_keeps)
    | split | intro _ | dsimp only | (show _ = _; rfl)
    | (with_reducible first | apply Keeps.updS)

theorem execFaultPulse_keeps {sc : Scope} {s0 : State} (ps : List Pulse) (s : State) (hs : Keeps sc s0 s) : KeepsOut
    sc s0 (execFaultPulse ps s) := by
  unfold execFaultPulse
  iterate 40 try any_goals first
    | (with_reducible first
        | assumption | apply KeepsOut.next | apply listedPulses_keeps)
    | split | intro _ | dsimp only | (show _ = _; rfl)
    | (with_reducible first | apply Keeps.updS)

theorem execFcStatusClear_keeps {sc : Scope} {s0 : State} (master : Nat) (hi : Bool) (value : Word) (ps : List
    Pulse) (s : State) (hs : Keeps sc s0 s) : KeepsOut sc s0 (execFcStatusClear master hi value s ps) := by
  unfold execFcStatusClear
  iterate 40 try any_goals first
    | (with_reducible first
        | assumption | apply KeepsOut.next | apply listedPulses_keeps | apply writeAs_keeps | apply wrOk_keeps
        | apply holdHi_keeps | apply fcStatusLo_keeps)
    | split | intro _ | dsimp only | (show _ = _; rfl)
    | (with_reducible first | apply Keeps.updS)

theorem execFcCaptureRelease_keeps {sc : Scope} {s0 : State} (master : Nat) (s : State) (hs : Keeps sc s0 s) :
    KeepsOut sc s0 (execFcCaptureRelease master s) := by
  unfold execFcCaptureRelease
  iterate 40 try any_goals first
    | (with_reducible first
        | assumption | apply KeepsOut.next | apply writeAs_keeps | apply wrOk_keeps | apply modFc_keeps)
    | (show Collector.service _ = _ ∧ _; exact ⟨rfl, rfl⟩) | split | intro _ | dsimp only | (show _ = _; rfl)
    | (with_reducible first | apply Keeps.updS)

theorem execFcForce_keeps {sc : Scope} {s0 : State} (master : Nat) (hi lo : Word) (s : State) (hs : Keeps sc s0 s) :
    KeepsOut sc s0 (execFcForce master hi lo s) := by
  unfold execFcForce
  iterate 40 try any_goals first
    | (with_reducible first
        | assumption | apply KeepsOut.next | apply writeAs_keeps | apply fcForceLo_keeps | apply holdHi_keeps)
    | split | intro _ | dsimp only | (show _ = _; rfl)
    | (with_reducible first | apply Keeps.updS)

theorem execFcCtrlWrite_keeps {sc : Scope} {s0 : State} (master : Nat) (value : Word) (s : State)
    (hs : Keeps sc s0 s) : KeepsOut sc s0 (execFcCtrlWrite master value s) := by
  unfold execFcCtrlWrite
  iterate 40 try any_goals first
    | (with_reducible first
        | assumption | apply KeepsOut.next | apply writeAs_keeps | apply fcCtrl_keeps)
    | split | intro _ | dsimp only | (show _ = _; rfl)
    | (with_reducible first | apply Keeps.updS)

theorem execHandleLimitExpiry_keeps {sc : Scope} {s0 : State} (s : State) (hs : Keeps sc s0 s) : KeepsOut sc s0
    (execHandleLimitExpiry s) := by
  unfold execHandleLimitExpiry
  iterate 40 try any_goals first
    | (with_reducible first
        | assumption | apply KeepsOut.next | apply pulse_keeps)
    | split | intro _ | dsimp only | (show _ = _; rfl)
    | (with_reducible first | apply Keeps.updS)

theorem execCollectorSelfFault_keeps {sc : Scope} {s0 : State} (c : SelfCause) (s : State) (hs : Keeps sc s0 s) :
    KeepsOut sc s0 (execCollectorSelfFault c s) := by
  unfold execCollectorSelfFault
  iterate 40 try any_goals first
    | (with_reducible first
        | assumption | apply KeepsOut.next | apply enterSafe_keeps | apply modFc_keeps)
    | (show Collector.service _ = _ ∧ _; exact ⟨rfl, rfl⟩) | split | intro _ | dsimp only | (show _ = _; rfl)
    | (with_reducible first | apply Keeps.updS)

theorem execEdSrcWrite_keeps {sc : Scope} {s0 : State} (master n : Nat) (value : Word) (s : State)
    (hs : Keeps sc s0 s) : KeepsOut sc s0 (execEdSrcWrite master n value s) := by
  unfold execEdSrcWrite
  iterate 40 try any_goals first
    | (with_reducible first
        | assumption | apply KeepsOut.next | apply edSrc_keeps)
    | split | intro _ | dsimp only | (show _ = _; rfl)
    | (with_reducible first | apply Keeps.updS)

theorem ackSrc_keeps {sc : Scope} {s0 : State} (s : State) (master n : Nat) (hs : Keeps sc s0 s) : Keeps sc s0
    (ackSrc s master n) := by
  unfold ackSrc
  iterate 40 try any_goals first
    | (with_reducible first
        | assumption | apply busErr_keeps | apply wrOk_keeps | apply putSrc_keeps)
    | split | intro _ | dsimp only | (show _ = _; rfl)
    | (with_reducible first | apply Keeps.updS)

theorem execEdAck_keeps {sc : Scope} {s0 : State} (master n : Nat) (event : Bool) (s : State) (hs : Keeps sc s0 s) :
    KeepsOut sc s0 (execEdAck master n s event) := by
  unfold execEdAck
  iterate 40 try any_goals first
    | (with_reducible first
        | assumption | apply KeepsOut.next | apply raise_keeps | apply ackSrc_keeps)
    | split | intro _ | dsimp only | (show _ = _; rfl)
    | (with_reducible first | apply Keeps.updS)

theorem execDoorbellSet_keeps {sc : Scope} {s0 : State} (master n : Nat) (s : State) (hs : Keeps sc s0 s) : KeepsOut
    sc s0 (execDoorbellSet master n s) := by
  unfold execDoorbellSet
  iterate 40 try any_goals first
    | (with_reducible first
        | assumption | apply KeepsOut.next | apply busErr_keeps | apply wrOk_keeps | apply raise_keeps)
    | split | intro _ | dsimp only | (show _ = _; rfl)
    | (with_reducible first | apply Keeps.updS)

theorem execEdErrForce_keeps {sc : Scope} {s0 : State} (master : Nat) (value : Word) (s : State)
    (hs : Keeps sc s0 s) : KeepsOut sc s0 (execEdErrForce master value s) := by
  unfold execEdErrForce
  iterate 40 try any_goals first
    | (with_reducible first
        | assumption | apply KeepsOut.next | apply writeAs_keeps | apply wrOk_keeps | apply edFire_keeps)
    | split | intro _ | dsimp only | (show _ = _; rfl)
    | (with_reducible first | apply Keeps.updS)

theorem execTimerEvent_keeps {sc : Scope} {s0 : State} (n : Nat) (s : State) (hs : Keeps sc s0 s) : KeepsOut sc s0
    (execTimerEvent n s) := by
  unfold execTimerEvent
  iterate 40 try any_goals first
    | (with_reducible first
        | assumption | apply KeepsOut.next | apply raise_keeps)
    | split | intro _ | dsimp only | (show _ = _; rfl)
    | (with_reducible first | apply Keeps.updS)

theorem modDu_keeps {sc : Scope} {s0 : State} (s : State) (f : Digest → Digest) (hs : Keeps sc s0 s) : Keeps sc s0
    (modDu s f) := by
  unfold modDu
  iterate 40 try any_goals first
    | (with_reducible first
        | assumption)
    | split | intro _ | dsimp only | (show _ = _; rfl)
    | (with_reducible first | apply Keeps.updS)

theorem duOpen__keeps {sc : Scope} {s0 : State} (s : State) (hi v : Word) (hs : Keeps sc s0 s) : Keeps sc s0
    (duOpen_ s hi v) := by
  unfold duOpen_
  iterate 40 try any_goals first
    | (with_reducible first
        | assumption | apply useFree_keeps | apply wrOk_keeps)
    | split | intro _ | dsimp only | (show _ = _; rfl)
    | (with_reducible first | apply Keeps.updS)

theorem duLenLo_keeps {sc : Scope} {s0 : State} (s : State) (m : Nat) (v : Word) (hs : Keeps sc s0 s) : Keeps sc s0
    (duLenLo s m v) := by
  unfold duLenLo
  iterate 40 try any_goals first
    | (with_reducible first
        | assumption | apply commitPair_keeps | apply busErr_keeps | apply modDu_keeps | apply duOpen__keeps)
    | split | intro _ | dsimp only | (show _ = _; rfl)
    | (with_reducible first | apply Keeps.updS)

theorem duData_keeps {sc : Scope} {s0 : State} (s : State) (v : Word) (hs : Keeps sc s0 s) : Keeps sc s0 (duData s
    v) := by
  unfold duData
  iterate 40 try any_goals first
    | (with_reducible first
        | assumption | apply busErr_keeps | apply modDu_keeps | apply wrOk_keeps)
    | split | intro _ | dsimp only | (show _ = _; rfl)
    | (with_reducible first | apply Keeps.updS)

theorem duLast_keeps {sc : Scope} {s0 : State} (s : State) (v : Word) (hs : Keeps sc s0 s) : Keeps sc s0 (duLast s
    v) := by
  unfold duLast
  iterate 40 try any_goals first
    | (with_reducible first
        | assumption | apply busErr_keeps | apply modDu_keeps | apply wrOk_keeps)
    | split | intro _ | dsimp only | (show _ = _; rfl)
    | (with_reducible first | apply Keeps.updS)

theorem duAbort_keeps {sc : Scope} {s0 : State} (s : State) (hs : Keeps sc s0 s) : Keeps sc s0 (duAbort s) := by
  unfold duAbort
  iterate 40 try any_goals first
    | (with_reducible first
        | assumption | apply modDu_keeps)
    | split | intro _ | dsimp only | (show _ = _; rfl)
    | (with_reducible first | apply Keeps.updS)

theorem duCtrl_keeps {sc : Scope} {s0 : State} (s : State) (m : Nat) (v : Word) (hs : Keeps sc s0 s) : Keeps sc s0
    (duCtrl s m v) := by
  unfold duCtrl
  iterate 40 try any_goals first
    | (with_reducible first
        | assumption | apply duAbort_keeps | apply staticErr_keeps | apply wrOk_keeps | apply modDu_keeps)
    | split | intro _ | dsimp only | (show _ = _; rfl)
    | (with_reducible first | apply Keeps.updS)

theorem duStatic_keeps {sc : Scope} {s0 : State} (s : State) (m addr : Nat) (f : Digest → Digest)
    (hs : Keeps sc s0 s) : Keeps sc s0 (duStatic s m addr f) := by
  unfold duStatic
  iterate 40 try any_goals first
    | (with_reducible first
        | assumption | apply staticErr_keeps | apply wrOk_keeps | apply modDu_keeps)
    | split | intro _ | dsimp only | (show _ = _; rfl)
    | (with_reducible first | apply Keeps.updS)

theorem duParity_keeps {sc : Scope} {s0 : State} (s : State) (hs : Keeps sc s0 s) : Keeps sc s0 (duParity s) := by
  unfold duParity
  iterate 40 try any_goals first
    | (with_reducible first
        | assumption | apply modDu_keeps | apply pulse_keeps)
    | split | intro _ | dsimp only | (show _ = _; rfl)
    | (with_reducible first | apply Keeps.updS)

theorem duCmp_keeps {sc : Scope} {s0 : State} (s : State) (hs : Keeps sc s0 s) : Keeps sc s0 (duCmp s) := by
  unfold duCmp
  iterate 40 try any_goals first
    | (with_reducible first
        | assumption | apply pulse_keeps | apply modDu_keeps)
    | split | intro _ | dsimp only | (show _ = _; rfl)
    | (with_reducible first | apply Keeps.updS)

theorem duCompare_keeps {sc : Scope} {s0 : State} (s : State) (pair : Option (Nat × Nat)) (hs : Keeps sc s0 s) :
    Keeps sc s0 (duCompare s pair) := by
  unfold duCompare
  iterate 40 try any_goals first
    | (with_reducible first
        | assumption | apply duCmp_keeps | apply modDu_keeps)
    | split | intro _ | dsimp only | (show _ = _; rfl)
    | (with_reducible first | apply Keeps.updS)

theorem duExpect_keeps {sc : Scope} {s0 : State} (s : State) (n : Nat) (v : Word) (pair : Option (Nat × Nat))
    (hs : Keeps sc s0 s) : Keeps sc s0 (duExpect s n v pair) := by
  unfold duExpect
  iterate 40 try any_goals first
    | (with_reducible first
        | assumption | apply wrOk_keeps | apply duCompare_keeps | apply modDu_keeps)
    | split | intro _ | dsimp only | (show _ = _; rfl)
    | (with_reducible first | apply Keeps.updS)

theorem duForce_keeps {sc : Scope} {s0 : State} (s : State) (v : Word) (hs : Keeps sc s0 s) : Keeps sc s0 (duForce s
    v) := by
  unfold duForce
  iterate 40 try any_goals first
    | (with_reducible first
        | assumption | apply modDu_keeps | apply duCmp_keeps | apply wrOk_keeps | apply duParity_keeps)
    | split | intro _ | dsimp only | (show _ = _; rfl)
    | (with_reducible first | apply Keeps.updS)

theorem duWrite_keepsE {sc : Scope} {s0 t : State} {s : State} {m off : Nat} {v : Word} (e : duWrite s m off v =
    some t) (hs : Keeps sc s0 s) : Keeps sc s0 t := by
  unfold duWrite at e
  dsimp only at e
  revert e
  repeat' (with_reducible apply Keeps.ite_imp)
  all_goals intro e
  all_goals first | (cases e; done) | cases e
  all_goals iterate 40 try any_goals first
              | (with_reducible first
                  | assumption | apply duCtrl_keeps | apply duLenLo_keeps | apply wrOk_keeps | apply holdHi_keeps
                  | apply duData_keeps | apply modDu_keeps | apply duLast_keeps | apply duStatic_keeps
                  | apply duExpect_keeps | apply duForce_keeps)
              | split | intro _ | dsimp only | (show _ = _; rfl)
              | (with_reducible first | apply Keeps.updS)

theorem execDuLenLoWrite_keeps {sc : Scope} {s0 : State} (master : Nat) (value : Word) (s : State)
    (hs : Keeps sc s0 s) : KeepsOut sc s0 (execDuLenLoWrite master value s) := by
  unfold execDuLenLoWrite
  iterate 40 try any_goals first
    | (with_reducible first
        | assumption | apply KeepsOut.next | apply writeAs_keeps | apply duLenLo_keeps)
    | split | intro _ | dsimp only | (show _ = _; rfl)
    | (with_reducible first | apply Keeps.updS)

theorem execDuDataWrite_keeps {sc : Scope} {s0 : State} (master : Nat) (value : Word) (s : State)
    (hs : Keeps sc s0 s) : KeepsOut sc s0 (execDuDataWrite master value s) := by
  unfold execDuDataWrite
  iterate 40 try any_goals first
    | (with_reducible first
        | assumption | apply KeepsOut.next | apply writeAs_keeps | apply duData_keeps)
    | split | intro _ | dsimp only | (show _ = _; rfl)
    | (with_reducible first | apply Keeps.updS)

theorem execDuLastWrite_keeps {sc : Scope} {s0 : State} (master : Nat) (value : Word) (s : State)
    (hs : Keeps sc s0 s) : KeepsOut sc s0 (execDuLastWrite master value s) := by
  unfold execDuLastWrite
  iterate 40 try any_goals first
    | (with_reducible first
        | assumption | apply KeepsOut.next | apply writeAs_keeps | apply duLast_keeps)
    | split | intro _ | dsimp only | (show _ = _; rfl)
    | (with_reducible first | apply Keeps.updS)

theorem execDuAbort_keeps {sc : Scope} {s0 : State} (master : Nat) (word : Option Word) (s : State)
    (hs : Keeps sc s0 s) : KeepsOut sc s0 (execDuAbort master s word) := by
  unfold execDuAbort
  iterate 40 try any_goals first
    | (with_reducible first
        | assumption | apply KeepsOut.next | apply writeAs_keeps | apply wrOk_keeps | apply duAbort_keeps)
    | split | intro _ | dsimp only | (show _ = _; rfl)
    | (with_reducible first | apply Keeps.updS)

theorem execDuBlockCompressed_keeps {sc : Scope} {s0 : State} (s : State) (hs : Keeps sc s0 s) : KeepsOut sc s0
    (execDuBlockCompressed s) := by
  unfold execDuBlockCompressed
  iterate 40 try any_goals first
    | (with_reducible first
        | assumption | apply KeepsOut.next | apply modDu_keeps)
    | split | intro _ | dsimp only | (show _ = _; rfl)
    | (with_reducible first | apply Keeps.updS)

theorem execDuFinalDone_keeps {sc : Scope} {s0 : State} (pair : Option (Nat × Nat)) (s : State) (hs : Keeps sc s0 s)
    : KeepsOut sc s0 (execDuFinalDone s pair) := by
  unfold execDuFinalDone
  iterate 40 try any_goals first
    | (with_reducible first
        | assumption | apply KeepsOut.next | apply duCompare_keeps | apply modDu_keeps)
    | split | intro _ | dsimp only | (show _ = _; rfl)
    | (with_reducible first | apply Keeps.updS)

theorem execDuExpectWrite_keeps {sc : Scope} {s0 : State} (master n : Nat) (value : Word) (pair : Option (Nat ×
    Nat)) (s : State) (hs : Keeps sc s0 s) : KeepsOut sc s0 (execDuExpectWrite master n value s pair) := by
  unfold execDuExpectWrite
  iterate 40 try any_goals first
    | (with_reducible first
        | assumption | apply KeepsOut.next | apply writeAs_keeps | apply duExpect_keeps)
    | split | intro _ | dsimp only | (show _ = _; rfl)
    | (with_reducible first | apply Keeps.updS)

theorem execDuErrForce_keeps {sc : Scope} {s0 : State} (master : Nat) (value : Word) (s : State)
    (hs : Keeps sc s0 s) : KeepsOut sc s0 (execDuErrForce master value s) := by
  unfold execDuErrForce
  iterate 40 try any_goals first
    | (with_reducible first
        | assumption | apply KeepsOut.next | apply writeAs_keeps | apply duForce_keeps)
    | split | intro _ | dsimp only | (show _ = _; rfl)
    | (with_reducible first | apply Keeps.updS)

theorem execDuParityFire_keeps {sc : Scope} {s0 : State} (s : State) (hs : Keeps sc s0 s) : KeepsOut sc s0
    (execDuParityFire s) := by
  unfold execDuParityFire
  iterate 40 try any_goals first
    | (with_reducible first
        | assumption | apply KeepsOut.next | apply duParity_keeps)
    | split | intro _ | dsimp only | (show _ = _; rfl)
    | (with_reducible first | apply Keeps.updS)

theorem modTamp_keeps {sc : Scope} {s0 : State} (s : State) (f : Tamper → Tamper) (hs : Keeps sc s0 s) : Keeps sc s0
    (modTamp s f) := by
  unfold modTamp
  iterate 40 try any_goals first
    | (with_reducible first
        | assumption)
    | split | intro _ | dsimp only | (show _ = _; rfl)
    | (with_reducible first | apply Keeps.updS)

theorem bbChange_keeps {sc : Scope} {s0 : State} (s : State) (f : Battery → Battery) (hs : Keeps sc s0 s) : Keeps sc
    s0 (bbChange s f) := by
  unfold bbChange
  iterate 40 try any_goals first
    | (with_reducible first
        | assumption)
    | split | intro _ | dsimp only | (show _ = _; rfl)
    | (with_reducible first | apply Keeps.updS)

theorem tampErr_keeps {sc : Scope} {s0 : State} (s : State) (i : Nat) (hs : Keeps sc s0 s) : Keeps sc s0 (tampErr s
    i) := by
  unfold tampErr
  iterate 40 try any_goals first
    | (with_reducible first
        | assumption | apply modTamp_keeps | apply raise_keeps | apply pulse_keeps)
    | split | intro _ | dsimp only | (show _ = _; rfl)
    | (with_reducible first | apply Keeps.updS)

theorem commitFlag_keeps {sc : Scope} {s0 : State} (s : State) (i bad : Nat) (hs : Keeps sc s0 s)
    (hco : sc.otp = true := by assumption) : Keeps sc s0 (commitFlag s i bad) := by
  unfold commitFlag
  split
  · exact Keeps.upd hs rfl rfl rfl rfl rfl rfl rfl rfl rfl
  · split
    · rename_i e
      refine Keeps.updO hs hco (fun h => ?_) rfl rfl rfl rfl rfl rfl
      exact ⟨h, { OtpKept.refl s.otp with evidence := burnEvidence_keeps e }⟩
    · exact tampErr_keeps _ _ hs

theorem clearVolatile_keeps {sc : Scope} {s0 : State} (s : State) (hs : Keeps sc s0 s)
    (hcm : sc.mem = true := by assumption) : Keeps sc s0 (clearVolatile s) :=
  Keeps.updM hs hcm (fun hw => hallsWf_mk hw (Mem.wf_zero _ _) (Mem.wf_zero _ _) id) rfl rfl rfl rfl rfl rfl

theorem eraseNow_keeps {sc : Scope} {s0 : State} (s : State) (hs : Keeps sc s0 s)
    (hcm : sc.mem = true := by assumption) : Keeps sc s0 (eraseNow s) := by
  unfold eraseNow
  iterate 40 try any_goals first
    | (with_reducible first
        | assumption | apply clearVolatile_keeps | apply pulse_keeps)
    | split | intro _ | dsimp only | (show _ = _; rfl)
    | (with_reducible first | apply Keeps.updS)

theorem safeNow_keeps {sc : Scope} {s0 : State} (s : State) (hs : Keeps sc s0 s) : Keeps sc s0 (safeNow s) := by
  unfold safeNow
  iterate 40 try any_goals first
    | (with_reducible first
        | assumption | apply pulse_keeps)
    | split | intro _ | dsimp only | (show _ = _; rfl)
    | (with_reducible first | apply Keeps.updS)

theorem cellErase_keeps {sc : Scope} {s0 : State} (s : State) (hs : Keeps sc s0 s) : Keeps sc s0 (cellErase s) := by
  unfold cellErase
  iterate 40 try any_goals first
    | (with_reducible first
        | assumption | apply bbChange_keeps)
    | split | intro _ | dsimp only | (show _ = _; rfl)
    | (with_reducible first | apply Keeps.updS)

theorem tampCause_keeps {sc : Scope} {s0 : State} (s : State) (i : Nat) (hs : Keeps sc s0 s) : Keeps sc s0
    (tampCause s i) := by
  unfold tampCause
  iterate 40 try any_goals first
    | (with_reducible first
        | assumption | apply modTamp_keeps)
    | split | intro _ | dsimp only | (show _ = _; rfl)
    | (with_reducible first | apply Keeps.updS)

theorem alarm_keeps {sc : Scope} {s0 : State} (s : State) (cause : Nat) (erase : Bool) (hs : Keeps sc s0 s)
    (hcm : sc.mem = true := by assumption) : Keeps sc s0 (alarm s cause erase) := by
  unfold alarm
  iterate 40 try any_goals first
    | (with_reducible first
        | assumption | apply tampCause_keeps | apply eraseNow_keeps | apply safeNow_keeps | apply cellErase_keeps)
    | split | intro _ | dsimp only | (show _ = _; rfl)
    | (with_reducible first | apply Keeps.updS)

theorem softEvent_keeps {sc : Scope} {s0 : State} (s : State) (n inst : Nat) (hs : Keeps sc s0 s)
    (hcm : sc.mem = true := by assumption) : Keeps sc s0 (softEvent s n inst) := by
  unfold softEvent
  iterate 40 try any_goals first
    | (with_reducible first
        | assumption | apply modTamp_keeps | apply alarm_keeps)
    | split | intro _ | dsimp only | (show _ = _; rfl)
    | (with_reducible first | apply Keeps.updS)

theorem tampApply_keeps {sc : Scope} {s0 : State} (s : State) (hs : Keeps sc s0 s) : Keeps sc s0 (tampApply s) := by
  unfold tampApply
  iterate 40 try any_goals first
    | (with_reducible first
        | assumption | apply wrOk_keeps | apply modTamp_keeps | apply busErr_keeps)
    | split | intro _ | dsimp only | (show _ = _; rfl)
    | (with_reducible first | apply Keeps.updS)

theorem tampBist_keeps {sc : Scope} {s0 : State} (s : State) (v : Word) (hs : Keeps sc s0 s) : Keeps sc s0 (tampBist
    s v) := by
  unfold tampBist
  iterate 40 try any_goals first
    | (with_reducible first
        | assumption | apply busErr_keeps | apply wrOk_keeps | apply modTamp_keeps)
    | split | intro _ | dsimp only | (show _ = _; rfl)
    | (with_reducible first | apply Keeps.updS)

theorem markFail_keeps {sc : Scope} {s0 : State} (s : State) (mon inst : Nat) (hs : Keeps sc s0 s) : Keeps sc s0
    (markFail s mon inst) := by
  unfold markFail
  iterate 40 try any_goals first
    | (with_reducible first
        | assumption | apply tampErr_keeps | apply modTamp_keeps)
    | split | intro _ | dsimp only | (show _ = _; rfl)
    | (with_reducible first | apply Keeps.updS)

theorem nextTest_keeps {sc : Scope} {s0 : State} (s : State) (hs : Keeps sc s0 s) : Keeps sc s0 (nextTest s) := by
  unfold nextTest
  iterate 40 try any_goals first
    | (with_reducible first
        | assumption | apply modTamp_keeps)
    | split | intro _ | dsimp only | (show _ = _; rfl)
    | (with_reducible first | apply Keeps.updS)

theorem causeAlarm_keeps {sc : Scope} {s0 : State} (s : State) (i : Nat) (hs : Keeps sc s0 s)
    (hcm : sc.mem = true := by assumption) : Keeps sc s0 (causeAlarm s i) := by
  unfold causeAlarm
  iterate 40 try any_goals first
    | (with_reducible first
        | assumption | apply alarm_keeps)
    | split | intro _ | dsimp only | (show _ = _; rfl)
    | (with_reducible first | apply Keeps.updS)

theorem tampAlarmForce_keeps {sc : Scope} {s0 : State} (s : State) (v : Word) (hs : Keeps sc s0 s)
    (hcm : sc.mem = true := by assumption) : Keeps sc s0 (tampAlarmForce s v) := by
  unfold tampAlarmForce
  iterate 40 try any_goals first
    | (with_reducible first
        | assumption | apply wrOk_keeps | apply causeAlarm_keeps | apply tampCause_keeps | apply busErr_keeps
        | apply Keeps.foldl)
    | split | intro _ | dsimp only | (show _ = _; rfl)
    | (with_reducible first | apply Keeps.updS)

theorem tampForce_keeps {sc : Scope} {s0 : State} (s : State) (v : Word) (hs : Keeps sc s0 s) : Keeps sc s0
    (tampForce s v) := by
  unfold tampForce
  iterate 40 try any_goals first
    | (with_reducible first
        | assumption | apply wrOk_keeps | apply tampErr_keeps | apply Keeps.foldl)
    | split | intro _ | dsimp only | (show _ = _; rfl)
    | (with_reducible first | apply Keeps.updS)

theorem tampCtrl_keeps {sc : Scope} {s0 : State} (s : State) (v : Word) (hs : Keeps sc s0 s) : Keeps sc s0 (tampCtrl
    s v) := by
  unfold tampCtrl
  iterate 40 try any_goals first
    | (with_reducible first
        | assumption | apply modTamp_keeps | apply tampApply_keeps | apply wrOk_keeps)
    | split | intro _ | dsimp only | (show _ = _; rfl)
    | (with_reducible first | apply Keeps.updS)

theorem tampWrite_keepsE {sc : Scope} {s0 t : State} {s : State} {off : Nat} {v : Word} (e : tampWrite s off v =
    some t) (hs : Keeps sc s0 s) (hcm : sc.mem = true := by assumption) : Keeps sc s0 t := by
  unfold tampWrite at e
  repeat' (first | split at e | dsimp only at e)
  all_goals first | (cases e; done) | cases e | skip
  all_goals iterate 40 try any_goals first
              | (with_reducible first
                  | assumption | apply tampCtrl_keeps | apply wrOk_keeps | apply modTamp_keeps
                  | apply tampForce_keeps | apply tampAlarmForce_keeps | apply tampBist_keeps)
              | split | intro _ | dsimp only | (show _ = _; rfl)
              | (with_reducible first | apply Keeps.updS)

theorem execLichenTraceFail_keeps {sc : Scope} {s0 : State} (layer : Nat) (s : State) (hs : Keeps sc s0 s)
    (hcm : sc.mem = true := by assumption) : KeepsOut sc s0 (execLichenTraceFail layer s) := by
  unfold execLichenTraceFail
  iterate 40 try any_goals first
    | (with_reducible first
        | assumption | apply KeepsOut.next | apply alarm_keeps)
    | split | intro _ | dsimp only | (show _ = _; rfl)
    | (with_reducible first | apply Keeps.updS)

theorem execLightAlarm_keeps {sc : Scope} {s0 : State} (s : State) (hs : Keeps sc s0 s)
    (hcm : sc.mem = true := by assumption) : KeepsOut sc s0 (execLightAlarm s) := by
  unfold execLightAlarm
  iterate 40 try any_goals first
    | (with_reducible first
        | assumption | apply KeepsOut.next | apply alarm_keeps)
    | split | intro _ | dsimp only | (show _ = _; rfl)
    | (with_reducible first | apply Keeps.updS)

theorem execSoftMonitorEvent_keeps {sc : Scope} {s0 : State} (monitor inst : Nat) (s : State) (hs : Keeps sc s0 s)
    (hcm : sc.mem = true := by assumption) : KeepsOut sc s0 (execSoftMonitorEvent monitor inst s) := by
  unfold execSoftMonitorEvent
  iterate 40 try any_goals first
    | (with_reducible first
        | assumption | apply KeepsOut.next | apply softEvent_keeps)
    | split | intro _ | dsimp only | (show _ = _; rfl)
    | (with_reducible first | apply Keeps.updS)

theorem execCellTempSample_keeps {sc : Scope} {s0 : State} (outOfRange : Bool) (s : State) (hs : Keeps sc s0 s)
    (hcm : sc.mem = true := by assumption) : KeepsOut sc s0 (execCellTempSample outOfRange s) := by
  unfold execCellTempSample
  iterate 40 try any_goals first
    | (with_reducible first
        | assumption | apply KeepsOut.next | apply modTamp_keeps | apply alarm_keeps)
    | split | intro _ | dsimp only | (show _ = _; rfl)
    | (with_reducible first | apply Keeps.updS)

theorem execEraseComplete_keeps {sc : Scope} {s0 : State} (badBits : Nat) (s : State) (hs : Keeps sc s0 s)
    (hco : sc.otp = true := by assumption) : KeepsOut sc s0 (execEraseComplete badBits s) := by
  unfold execEraseComplete
  iterate 40 try any_goals first
    | (with_reducible first
        | assumption | apply KeepsOut.next | apply commitFlag_keeps)
    | split | intro _ | dsimp only | (show _ = _; rfl)
    | (with_reducible first | apply Keeps.updS)

theorem execBbCheckRewriteDone_keeps {sc : Scope} {s0 : State} (s : State) (hs : Keeps sc s0 s) : KeepsOut sc s0
    (execBbCheckRewriteDone s) := by
  unfold execBbCheckRewriteDone
  iterate 40 try any_goals first
    | (with_reducible first
        | assumption | apply KeepsOut.next)
    | split | intro _ | dsimp only | (show _ = _; rfl)
    | (with_reducible first | apply Keeps.updS)

theorem execTampApply_keeps {sc : Scope} {s0 : State} (master : Nat) (s : State) (hs : Keeps sc s0 s) : KeepsOut sc
    s0 (execTampApply master s) := by
  unfold execTampApply
  iterate 40 try any_goals first
    | (with_reducible first
        | assumption | apply KeepsOut.next | apply writeAs_keeps | apply tampApply_keeps)
    | split | intro _ | dsimp only | (show _ = _; rfl)
    | (with_reducible first | apply Keeps.updS)

theorem execTampBistStart_keeps {sc : Scope} {s0 : State} (master : Nat) (value : Word) (s : State)
    (hs : Keeps sc s0 s) : KeepsOut sc s0 (execTampBistStart master value s) := by
  unfold execTampBistStart
  iterate 40 try any_goals first
    | (with_reducible first
        | assumption | apply KeepsOut.next | apply writeAs_keeps | apply tampBist_keeps)
    | split | intro _ | dsimp only | (show _ = _; rfl)
    | (with_reducible first | apply Keeps.updS)

theorem execTampBistEnd_keeps {sc : Scope} {s0 : State} (reported : Bool) (s : State) (hs : Keeps sc s0 s) :
    KeepsOut sc s0 (execTampBistEnd reported s) := by
  unfold execTampBistEnd
  iterate 40 try any_goals first
    | (with_reducible first
        | assumption | apply KeepsOut.next | apply modTamp_keeps | apply nextTest_keeps | apply markFail_keeps)
    | split | intro _ | dsimp only | (show _ = _; rfl)
    | (with_reducible first | apply Keeps.updS)

theorem execTampTestInterval_keeps {sc : Scope} {s0 : State} (s : State) (hs : Keeps sc s0 s) : KeepsOut sc s0
    (execTampTestInterval s) := by
  unfold execTampTestInterval
  iterate 40 try any_goals first
    | (with_reducible first
        | assumption | apply KeepsOut.next | apply nextTest_keeps | apply modTamp_keeps)
    | split | intro _ | dsimp only | (show _ = _; rfl)
    | (with_reducible first | apply Keeps.updS)

theorem execTampErrForce_keeps {sc : Scope} {s0 : State} (master : Nat) (value : Word) (s : State)
    (hs : Keeps sc s0 s) : KeepsOut sc s0 (execTampErrForce master value s) := by
  unfold execTampErrForce
  iterate 40 try any_goals first
    | (with_reducible first
        | assumption | apply KeepsOut.next | apply writeAs_keeps | apply tampForce_keeps)
    | split | intro _ | dsimp only | (show _ = _; rfl)
    | (with_reducible first | apply Keeps.updS)

theorem execTampAlarmForce_keeps {sc : Scope} {s0 : State} (master : Nat) (value : Word) (s : State)
    (hs : Keeps sc s0 s) (hcm : sc.mem = true := by assumption) : KeepsOut sc s0 (execTampAlarmForce master value s)
    := by
  unfold execTampAlarmForce
  iterate 40 try any_goals first
    | (with_reducible first
        | assumption | apply KeepsOut.next | apply writeAs_keeps | apply tampAlarmForce_keeps)
    | split | intro _ | dsimp only | (show _ = _; rfl)
    | (with_reducible first | apply Keeps.updS)

theorem execCellLow_keeps {sc : Scope} {s0 : State} (mv : Nat) (s : State) (hs : Keeps sc s0 s) : KeepsOut sc s0
    (execCellLow mv s) := by
  unfold execCellLow
  iterate 40 try any_goals first
    | (with_reducible first
        | assumption | apply KeepsOut.next | apply pulse_keeps | apply modTamp_keeps | apply bbChange_keeps)
    | split | intro _ | dsimp only | (show _ = _; rfl)
    | (with_reducible first | apply Keeps.updS)

theorem execCellLowClear_keeps {sc : Scope} {s0 : State} (s : State) (hs : Keeps sc s0 s) : KeepsOut sc s0
    (execCellLowClear s) := by
  unfold execCellLowClear
  iterate 40 try any_goals first
    | (with_reducible first
        | assumption | apply KeepsOut.next | apply modTamp_keeps)
    | split | intro _ | dsimp only | (show _ = _; rfl)
    | (with_reducible first | apply Keeps.updS)

theorem execRetentionLatchClear_keeps {sc : Scope} {s0 : State} (s : State) (hs : Keeps sc s0 s) : KeepsOut sc s0
    (execRetentionLatchClear s) := by
  unfold execRetentionLatchClear
  iterate 40 try any_goals first
    | (with_reducible first
        | assumption | apply KeepsOut.next | apply useFree_keeps)
    | split | intro _ | dsimp only | (show _ = _; rfl)
    | (with_reducible first | apply Keeps.updS)

end Sys2Proof.Machine
end

