-- ==== Sys2Proof/Laws/KeepsUnits.lean ====
section
/-! SUPPORT. One lemma for each operation: what it keeps of the queue, the memories, one-time programmable memory and the
life-cycle state. Here: the units, random numbers, the Tally, the Stair, power and the life cycle. -/

namespace Sys2Proof.Machine

theorem capAll_keeps {sc : Scope} {s0 : State} (s : State) (hs : Keeps sc s0 s) : Keeps sc s0 (capAll s) := by
  unfold capAll
  iterate 40 try any_goals first
    | (with_reducible first
        | assumption | apply Keeps.foldl)
    | split | intro _ | dsimp only | (show _ = _; rfl)
    | (with_reducible first | apply Keeps.updS)

theorem capFall_keeps {sc : Scope} {s0 : State} (s : State) (w : Wing) (hs : Keeps sc s0 s) : Keeps sc s0 (capFall s
    w) := by
  unfold capFall
  iterate 40 try any_goals first
    | (with_reducible first
        | assumption)
    | split | intro _ | dsimp only | (show _ = _; rfl)
    | (with_reducible first | apply Keeps.updS)

theorem applyCtx_keeps {sc : Scope} {s0 : State} (s : State) (a : Nat) (r : Result) (hs : Keeps sc s0 s) : Keeps sc
    s0 (applyCtx s a r) := by
  unfold applyCtx
  iterate 40 try any_goals first
    | (with_reducible first
        | assumption | apply modAlc_keeps | apply releaseCtx_keeps)
    | split | intro _ | dsimp only | (show _ = _; rfl)
    | (with_reducible first | apply Keeps.updS)

theorem deliver_keeps {sc : Scope} {s0 : State} (s : State) (w : Nat) (r : Result) (hs : Keeps sc s0 s) : Keeps sc
    s0 (deliver s w r) := by
  unfold deliver
  iterate 40 try any_goals first
    | (with_reducible first
        | assumption | apply complete_keeps | apply applyCtx_keeps | apply modWork_keeps | apply mutateWork_keeps)
    | split | intro _ | dsimp only | (show _ = _; rfl)
    | (with_reducible first | apply Keeps.updS)

theorem ctxIdle_keeps {sc : Scope} {s0 : State} (s : State) (w a : Nat) (c : Option Nat) (r : Result)
    (hs : Keeps sc s0 s) : Keeps sc s0 (ctxIdle s w a c r) := by
  unfold ctxIdle
  iterate 40 try any_goals first
    | (with_reducible first
        | assumption | apply releaseCtx_keeps | apply modAlc_keeps)
    | split | intro _ | dsimp only | (show _ = _; rfl)
    | (with_reducible first | apply Keeps.updS)

theorem delOp_keeps {sc : Scope} {s0 : State} (s : State) (n : Nat) (hs : Keeps sc s0 s) : Keeps sc s0 (delOp s n)
    := by
  unfold delOp
  iterate 40 try any_goals first
    | (with_reducible first
        | assumption)
    | split | intro _ | dsimp only | (show _ = _; rfl)
    | (with_reducible first | apply Keeps.updS)

theorem noteSlots_keeps {sc : Scope} {s0 : State} (s : State) (w : Nat) (wing : Wing) (unit : Nat)
    (hs : Keeps sc s0 s) : Keeps sc s0 (noteSlots s w wing unit) := by
  unfold noteSlots
  iterate 40 try any_goals first
    | (with_reducible first
        | assumption | apply modWork_keeps)
    | split | intro _ | dsimp only | (show _ = _; rfl)
    | (with_reducible first | apply Keeps.updS)

theorem costAfter_keeps {sc : Scope} {s0 : State} (s : State) (w : Nat) (wing : Wing) (again : Again)
    (hs : Keeps sc s0 s) : Keeps sc s0 (costAfter s w wing again) := by
  unfold costAfter
  iterate 40 try any_goals first
    | (with_reducible first
        | assumption | apply modWork_keeps)
    | split | intro _ | dsimp only | (show _ = _; rfl)
    | (with_reducible first | apply Keeps.updS)

theorem opDone_keeps {sc : Scope} {s0 : State} (s : State) (n : Nat) (o : UnitOp) (hs : Keeps sc s0 s) : Keeps sc s0
    (opDone s n o) := by
  unfold opDone
  iterate 40 try any_goals first
    | (with_reducible first
        | assumption | apply noteSlots_keeps | apply unpinAll_keeps | apply delOp_keeps | apply deliver_keeps
        | apply costAfter_keeps)
    | split | intro _ | dsimp only | (show _ = _; rfl)
    | (with_reducible first | apply Keeps.updS)

theorem opFail_keeps {sc : Scope} {s0 : State} (s : State) (n : Nat) (o : UnitOp) (status : Nat)
    (hs : Keeps sc s0 s) : Keeps sc s0 (opFail s n o status) := by
  unfold opFail
  iterate 40 try any_goals first
    | (with_reducible first
        | assumption | apply failWork_keeps | apply ctxIdle_keeps | apply unpinAll_keeps | apply delOp_keeps
        | apply noteSlots_keeps)
    | split | intro _ | dsimp only | (show _ = _; rfl)
    | (with_reducible first | apply Keeps.updS)

theorem issueOp_keeps {sc : Scope} {s0 : State} (s : State) (w : Nat) (k : Work) (wing : Wing) (pins : List Nat)
    (ctx : Option Nat) (offset : Nat) (r : Result) (hs : Keeps sc s0 s) : Keeps sc s0 (issueOp s w k wing pins ctx
    offset r) := by
  unfold issueOp
  iterate 40 try any_goals first
    | (with_reducible first
        | assumption | apply failWork_keeps | apply ctxIdle_keeps | apply unpinAll_keeps | apply perfAdd_keeps
        | apply modWork_keeps)
    | split | intro _ | dsimp only | (show _ = _; rfl)
    | (with_reducible first | apply Keeps.updS)

theorem reissueOps_keeps {sc : Scope} {s0 : State} (s : State) (w : Wing) (u : Nat) (hs : Keeps sc s0 s) : Keeps sc
    s0 (reissueOps s w u) := by
  unfold reissueOps
  iterate 40 try any_goals first
    | (with_reducible first
        | assumption | apply modWork_keeps | apply opFail_keeps | apply Keeps.foldl)
    | split | intro _ | dsimp only | (show _ = _; rfl)
    | (with_reducible first | apply Keeps.updS)

theorem modPipe_keeps {sc : Scope} {s0 : State} (s : State) (i : Nat) (f : EngineUnit → EngineUnit)
    (hs : Keeps sc s0 s) : Keeps sc s0 (modPipe s i f) := by
  unfold modPipe
  iterate 40 try any_goals first
    | (with_reducible first
        | assumption)
    | split | intro _ | dsimp only | (show _ = _; rfl)
    | (with_reducible first | apply Keeps.updS)

theorem modLane_keeps {sc : Scope} {s0 : State} (s : State) (i : Nat) (f : EngineUnit → EngineUnit)
    (hs : Keeps sc s0 s) : Keeps sc s0 (modLane s i f) := by
  unfold modLane
  iterate 40 try any_goals first
    | (with_reducible first
        | assumption)
    | split | intro _ | dsimp only | (show _ = _; rfl)
    | (with_reducible first | apply Keeps.updS)

theorem modDrbgCore_keeps {sc : Scope} {s0 : State} (s : State) (i : Nat) (f : EngineUnit → EngineUnit)
    (hs : Keeps sc s0 s) : Keeps sc s0 (modDrbgCore s i f) := by
  unfold modDrbgCore
  iterate 40 try any_goals first
    | (with_reducible first
        | assumption)
    | split | intro _ | dsimp only | (show _ = _; rfl)
    | (with_reducible first | apply Keeps.updS)

theorem modLegacy_keeps {sc : Scope} {s0 : State} (s : State) (f : EngineUnit → EngineUnit) (hs : Keeps sc s0 s) :
    Keeps sc s0 (modLegacy s f) := by
  unfold modLegacy
  iterate 40 try any_goals first
    | (with_reducible first
        | assumption)
    | split | intro _ | dsimp only | (show _ = _; rfl)
    | (with_reducible first | apply Keeps.updS)

theorem losePipe_keeps {sc : Scope} {s0 : State} (s : State) (i : Nat) (hs : Keeps sc s0 s) : Keeps sc s0 (losePipe
    s i) := by
  unfold losePipe
  iterate 40 try any_goals first
    | (with_reducible first
        | assumption | apply reissueOps_keeps | apply capFall_keeps | apply modPipe_keeps)
    | split | intro _ | dsimp only | (show _ = _; rfl)
    | (with_reducible first | apply Keeps.updS)

theorem loseLane_keeps {sc : Scope} {s0 : State} (s : State) (i : Nat) (hs : Keeps sc s0 s) : Keeps sc s0 (loseLane
    s i) := by
  unfold loseLane
  iterate 40 try any_goals first
    | (with_reducible first
        | assumption | apply reissueOps_keeps | apply capFall_keeps | apply modLane_keeps)
    | split | intro _ | dsimp only | (show _ = _; rfl)
    | (with_reducible first | apply Keeps.updS)

theorem loseLegacy_keeps {sc : Scope} {s0 : State} (s : State) (hs : Keeps sc s0 s) : Keeps sc s0 (loseLegacy s) :=
    by
  unfold loseLegacy
  iterate 40 try any_goals first
    | (with_reducible first
        | assumption | apply reissueOps_keeps | apply capFall_keeps | apply modLegacy_keeps)
    | split | intro _ | dsimp only | (show _ = _; rfl)
    | (with_reducible first | apply Keeps.updS)

theorem loseDrbgCore_keeps {sc : Scope} {s0 : State} (s : State) (i : Nat) (hs : Keeps sc s0 s) : Keeps sc s0
    (loseDrbgCore s i) := by
  unfold loseDrbgCore
  iterate 40 try any_goals first
    | (with_reducible first
        | assumption | apply reissueOps_keeps | apply capFall_keeps | apply modDrbgCore_keeps)
    | split | intro _ | dsimp only | (show _ = _; rfl)
    | (with_reducible first | apply Keeps.updS)

theorem lostSettle_keeps {sc : Scope} {s0 : State} (s : State) (hs : Keeps sc s0 s) : Keeps sc s0 (lostSettle s) :=
    by
  unfold lostSettle
  iterate 40 try any_goals first
    | (with_reducible first
        | assumption | apply clrCause_keeps)
    | split | intro _ | dsimp only | (show _ = _; rfl)
    | (with_reducible first | apply Keeps.updS)

theorem modRng_keeps {sc : Scope} {s0 : State} (s : State) (f : Rng → Rng) (hs : Keeps sc s0 s) : Keeps sc s0
    (modRng s f) := by
  unfold modRng
  iterate 40 try any_goals first
    | (with_reducible first
        | assumption)
    | split | intro _ | dsimp only | (show _ = _; rfl)
    | (with_reducible first | apply Keeps.updS)

theorem rngBit_keeps {sc : Scope} {s0 : State} (s : State) (i : Nat) (hs : Keeps sc s0 s) : Keeps sc s0 (rngBit s i)
    := by
  unfold rngBit
  iterate 40 try any_goals first
    | (with_reducible first
        | assumption | apply modRng_keeps | apply raise_keeps)
    | split | intro _ | dsimp only | (show _ = _; rfl)
    | (with_reducible first | apply Keeps.updS)

theorem countDraw_keeps {sc : Scope} {s0 : State} (s : State) (i : Nat) (hs : Keeps sc s0 s) : Keeps sc s0
    (countDraw s i) := by
  unfold countDraw
  iterate 40 try any_goals first
    | (with_reducible first
        | assumption | apply modRng_keeps)
    | split | intro _ | dsimp only | (show _ = _; rfl)
    | (with_reducible first | apply Keeps.updS)

theorem drawFrom_keeps {sc : Scope} {s0 : State} (s : State) (i n : Nat) (hs : Keeps sc s0 s) : Keeps sc s0
    (drawFrom s i n).2 := by
  unfold drawFrom
  iterate 40 try any_goals first
    | (with_reducible first
        | assumption | apply countDraw_keeps | apply perfAdd_keeps | apply useFree_keeps)
    | split | intro _ | dsimp only | (show _ = _; rfl)
    | (with_reducible first | apply Keeps.updS)

theorem drawFrom_keepsE {sc : Scope} {s0 t : State} {s : State} {i n : Nat} {q : Bytes} (e : drawFrom s i n = (q,
    t)) (hs : Keeps sc s0 s) : Keeps sc s0 t := by
  have h := drawFrom_keeps s i n hs
  rwa [e] at h

theorem seedAlcove_keeps {sc : Scope} {s0 : State} (s : State) (a : Nat) (hs : Keeps sc s0 s) : Keeps sc s0
    (seedAlcove s a) := by
  unfold seedAlcove
  iterate 40 try any_goals first
    | (with_reducible first
        | assumption | apply modRng_keeps | apply countDraw_keeps)
    | split | intro _ | dsimp only | (show _ = _; rfl)
    | (with_reducible first | apply Keeps.updS)

theorem seedMissing_keeps {sc : Scope} {s0 : State} (s : State) (first : Bool) (hs : Keeps sc s0 s) : Keeps sc s0
    (seedMissing s first) := by
  unfold seedMissing
  iterate 40 try any_goals first
    | (with_reducible first
        | assumption | apply seedAlcove_keeps | apply Keeps.foldl)
    | split | intro _ | dsimp only | (show _ = _; rfl)
    | (with_reducible first | apply Keeps.updS)

theorem wakeRng_keeps {sc : Scope} {s0 : State} (s : State) (hs : Keeps sc s0 s) : Keeps sc s0 (wakeRng s) := by
  unfold wakeRng
  iterate 40 try any_goals first
    | (with_reducible first
        | assumption)
    | split | intro _ | dsimp only | (show _ = _; rfl)
    | (with_reducible first | apply Keeps.updS)

theorem takeSpore_keeps {sc : Scope} {s0 : State} (s : State) (i : Nat) (hs : Keeps sc s0 s) : Keeps sc s0
    (takeSpore s i) := by
  unfold takeSpore
  iterate 40 try any_goals first
    | (with_reducible first
        | assumption | apply modRng_keeps | apply wakeRng_keeps | apply seedMissing_keeps)
    | split | intro _ | dsimp only | (show _ = _; rfl)
    | (with_reducible first | apply Keeps.updS)

theorem enterHold_keeps {sc : Scope} {s0 : State} (s : State) (hs : Keeps sc s0 s) : Keeps sc s0 (enterHold s) := by
  unfold enterHold
  iterate 40 try any_goals first
    | (with_reducible first
        | assumption | apply modRng_keeps | apply rngBit_keeps | apply pulse_keeps)
    | split | intro _ | dsimp only | (show _ = _; rfl)
    | (with_reducible first | apply Keeps.updS)

theorem failDraws_keeps {sc : Scope} {s0 : State} (s : State) (hs : Keeps sc s0 s) : Keeps sc s0 (failDraws s) := by
  unfold failDraws
  iterate 40 try any_goals first
    | (with_reducible first
        | assumption | apply opFail_keeps | apply failWork_keeps | apply Keeps.foldl)
    | split | intro _ | dsimp only | (show _ = _; rfl)
    | (with_reducible first | apply Keeps.updS)

theorem enterFatal_keeps {sc : Scope} {s0 : State} (s : State) (hs : Keeps sc s0 s) : Keeps sc s0 (enterFatal s) :=
    by
  unfold enterFatal
  iterate 40 try any_goals first
    | (with_reducible first
        | assumption | apply modRng_keeps | apply rngBit_keeps | apply pulse_keeps | apply failDraws_keeps)
    | split | intro _ | dsimp only | (show _ = _; rfl)
    | (with_reducible first | apply Keeps.updS)

theorem goSource_keeps {sc : Scope} {s0 : State} (s : State) (st : RngState) (hs : Keeps sc s0 s) : Keeps sc s0
    (goSource s st) := by
  unfold goSource
  iterate 40 try any_goals first
    | (with_reducible first
        | assumption | apply enterHold_keeps | apply enterFatal_keeps | apply modRng_keeps)
    | split | intro _ | dsimp only | (show _ = _; rfl)
    | (with_reducible first | apply Keeps.updS)

theorem condition_keeps {sc : Scope} {s0 : State} (s : State) (credits : List Nat) (agree : Bool)
    (hs : Keeps sc s0 s) : Keeps sc s0 (condition s credits agree) := by
  unfold condition
  iterate 40 try any_goals first
    | (with_reducible first
        | assumption | apply modRng_keeps | apply perfAdd_keeps | apply rngBit_keeps | apply enterFatal_keeps
        | apply enterHold_keeps)
    | split | intro _ | dsimp only | (show _ = _; rfl)
    | (with_reducible first | apply Keeps.updS)

theorem bankEnd_keeps {sc : Scope} {s0 : State} (s : State) (blocks : List (BitVec 1024)) (agree : Bool)
    (hs : Keeps sc s0 s) : Keeps sc s0 (bankEnd s blocks agree) := by
  unfold bankEnd
  iterate 40 try any_goals first
    | (with_reducible first
        | assumption | apply modRng_keeps | apply pulses_keeps | apply rngBit_keeps | apply goSource_keeps
        | apply condition_keeps)
    | split | intro _ | dsimp only | (show _ = _; rfl)
    | (with_reducible first | apply Keeps.updS)

theorem aonFatal_keeps {sc : Scope} {s0 : State} (s : State) (hs : Keeps sc s0 s) : Keeps sc s0 (aonFatal s) := by
  unfold aonFatal
  iterate 40 try any_goals first
    | (with_reducible first
        | assumption | apply modRng_keeps | apply rngBit_keeps | apply pulse_keeps)
    | split | intro _ | dsimp only | (show _ = _; rfl)
    | (with_reducible first | apply Keeps.updS)

theorem rngFire_keeps {sc : Scope} {s0 : State} (s : State) (i inst : Nat) (hs : Keeps sc s0 s) : Keeps sc s0
    (rngFire s i inst) := by
  unfold rngFire
  iterate 40 try any_goals first
    | (with_reducible first
        | assumption | apply pulse_keeps | apply loseDrbgCore_keeps | apply rngBit_keeps | apply modRng_keeps
        | apply enterHold_keeps | apply enterFatal_keeps | apply aonFatal_keeps)
    | split | intro _ | dsimp only | (show _ = _; rfl)
    | (with_reducible first | apply Keeps.updS)

theorem rngForce_keeps {sc : Scope} {s0 : State} (s : State) (v : Word) (hs : Keeps sc s0 s) : Keeps sc s0 (rngForce
    s v) := by
  unfold rngForce
  iterate 40 try any_goals first
    | (with_reducible first
        | assumption | apply wrOk_keeps | apply rngFire_keeps | apply Keeps.foldl)
    | split | intro _ | dsimp only | (show _ = _; rfl)
    | (with_reducible first | apply Keeps.updS)

theorem rngWrite_keepsE {sc : Scope} {s0 t : State} {s : State} {off : Nat} {v : Word} (e : rngWrite s off v = some
    t) (hs : Keeps sc s0 s) : Keeps sc s0 t := by
  unfold rngWrite at e
  repeat' (first | split at e | dsimp only at e)
  all_goals first | (cases e; done) | cases e | skip
  all_goals iterate 40 try any_goals first
              | (with_reducible first
                  | assumption | apply wrOk_keeps | apply modRng_keeps | apply rngForce_keeps)
              | split | intro _ | dsimp only | (show _ = _; rfl)
              | (with_reducible first | apply Keeps.updS)

theorem execBankBlockEnd_keeps {sc : Scope} {s0 : State} (low high : List (BitVec 1024)) (condAgree : Bool) (s :
    State) (hs : Keeps sc s0 s) : KeepsOut sc s0 (execBankBlockEnd low high condAgree s) := by
  unfold execBankBlockEnd
  iterate 40 try any_goals first
    | (with_reducible first
        | assumption | apply KeepsOut.next | apply bankEnd_keeps)
    | split | intro _ | dsimp only | (show _ = _; rfl)
    | (with_reducible first | apply Keeps.updS)

theorem deliverSpore_keeps {sc : Scope} {s0 : State} (s : State) (hs : Keeps sc s0 s) : Keeps sc s0 (deliverSpore s)
    := by
  unfold deliverSpore
  iterate 40 try any_goals first
    | (with_reducible first
        | assumption | apply takeSpore_keeps)
    | split | intro _ | dsimp only | (show _ = _; rfl)
    | (with_reducible first | apply Keeps.updS)

theorem execDrbgGenerate_keeps {sc : Scope} {s0 : State} (inst : Nat) (s : State) (hs : Keeps sc s0 s) : KeepsOut sc
    s0 (execDrbgGenerate inst s) := by
  unfold execDrbgGenerate
  iterate 40 try any_goals first
    | (with_reducible first
        | assumption | apply KeepsOut.next | apply opDone_keeps | apply countDraw_keeps)
    | split | intro _ | dsimp only | (show _ = _; rfl)
    | (with_reducible first | apply Keeps.updS)

theorem execSmallSourceBlockEnd_keeps {sc : Scope} {s0 : State} (tally : Bool) (bank : Nat) (block : BitVec 1024) (s
    : State) (hs : Keeps sc s0 s) : KeepsOut sc s0 (execSmallSourceBlockEnd tally bank block s) := by
  unfold execSmallSourceBlockEnd
  iterate 40 try any_goals first
    | (with_reducible first
        | assumption | apply KeepsOut.next | apply modRng_keeps | apply pulse_keeps | apply aonFatal_keeps)
    | split | intro _ | dsimp only | (show _ = _; rfl)
    | (with_reducible first | apply Keeps.updS)

theorem execRngErrForce_keeps {sc : Scope} {s0 : State} (master : Nat) (value : Word) (s : State)
    (hs : Keeps sc s0 s) : KeepsOut sc s0 (execRngErrForce master value s) := by
  unfold execRngErrForce
  iterate 40 try any_goals first
    | (with_reducible first
        | assumption | apply KeepsOut.next | apply writeAs_keeps | apply rngForce_keeps)
    | split | intro _ | dsimp only | (show _ = _; rfl)
    | (with_reducible first | apply Keeps.updS)

theorem execRngErrFire_keeps {sc : Scope} {s0 : State} (source inst : Nat) (s : State) (hs : Keeps sc s0 s) :
    KeepsOut sc s0 (execRngErrFire source inst s) := by
  unfold execRngErrFire
  iterate 40 try any_goals first
    | (with_reducible first
        | assumption | apply KeepsOut.next | apply rngFire_keeps)
    | split | intro _ | dsimp only | (show _ = _; rfl)
    | (with_reducible first | apply Keeps.updS)

theorem modTally_keeps {sc : Scope} {s0 : State} (s : State) (f : Tally → Tally) (hs : Keeps sc s0 s) : Keeps sc s0
    (modTally s f) := by
  unfold modTally
  iterate 40 try any_goals first
    | (with_reducible first
        | assumption)
    | split | intro _ | dsimp only | (show _ = _; rfl)
    | (with_reducible first | apply Keeps.updS)

theorem addLog_keeps {sc : Scope} {s0 : State} (s : State) (type cnt : Nat) (oldD newD : Bytes) (detail : Nat)
    (hs : Keeps sc s0 s) : Keeps sc s0 (addLog s type cnt oldD newD detail) := by
  unfold addLog
  iterate 40 try any_goals first
    | (with_reducible first
        | assumption | apply modTally_keeps)
    | split | intro _ | dsimp only | (show _ = _; rfl)
    | (with_reducible first | apply Keeps.updS)

theorem logEvent_keeps {sc : Scope} {s0 : State} (s : State) (type : Nat) (hs : Keeps sc s0 s) : Keeps sc s0
    (logEvent s type) := by
  unfold logEvent
  iterate 40 try any_goals first
    | (with_reducible first
        | assumption | apply addLog_keeps | apply useFree_keeps)
    | split | intro _ | dsimp only | (show _ = _; rfl)
    | (with_reducible first | apply Keeps.updS)

theorem signRecords_keeps {sc : Scope} {s0 : State} (x0 : Nat) (s : State) (hs : Keeps sc s0 s) : Keeps sc s0
    (signRecords x0 s) := by
  induction x0 generalizing s with
  | zero => exact hs
  | succ n ih =>
    unfold signRecords
    iterate 40 try any_goals first
      | (with_reducible first
          | assumption | apply ih | apply modTally_keeps)
      | split | intro _ | dsimp only | (show _ = _; rfl)
      | (with_reducible first | apply Keeps.updS)

theorem serveCuts_keeps {sc : Scope} {s0 : State} (s : State) (hs : Keeps sc s0 s) : Keeps sc s0 (serveCuts s) := by
  unfold serveCuts
  iterate 40 try any_goals first
    | (with_reducible first
        | assumption | apply modTally_keeps | apply okWork_keeps | apply Keeps.foldl)
    | split | intro _ | dsimp only | (show _ = _; rfl)
    | (with_reducible first | apply Keeps.updS)

theorem signAll_keeps {sc : Scope} {s0 : State} (s : State) (hs : Keeps sc s0 s) : Keeps sc s0 (signAll s) := by
  unfold signAll
  iterate 40 try any_goals first
    | (with_reducible first
        | assumption | apply serveCuts_keeps | apply signRecords_keeps)
    | split | intro _ | dsimp only | (show _ = _; rfl)
    | (with_reducible first | apply Keeps.updS)

theorem execTallySeedDelivery_keeps {sc : Scope} {s0 : State} (seed : Bytes) (s : State) (hs : Keeps sc s0 s) :
    KeepsOut sc s0 (execTallySeedDelivery seed s) := by
  unfold execTallySeedDelivery
  iterate 40 try any_goals first
    | (with_reducible first
        | assumption | apply KeepsOut.next | apply signAll_keeps | apply modTally_keeps | apply pulse_keeps)
    | split | intro _ | dsimp only | (show _ = _; rfl)
    | (with_reducible first | apply Keeps.updS)

theorem execTallyAccumulate_keeps {sc : Scope} {s0 : State} (s : State) (hs : Keeps sc s0 s) : KeepsOut sc s0
    (execTallyAccumulate s) := by
  unfold execTallyAccumulate
  iterate 40 try any_goals first
    | (with_reducible first
        | assumption | apply KeepsOut.next | apply modTally_keeps)
    | split | intro _ | dsimp only | (show _ = _; rfl)
    | (with_reducible first | apply Keeps.updS)

theorem execTallyRecordDue_keeps {sc : Scope} {s0 : State} (s : State) (hs : Keeps sc s0 s) : KeepsOut sc s0
    (execTallyRecordDue s) := by
  unfold execTallyRecordDue
  iterate 40 try any_goals first
    | (with_reducible first
        | assumption | apply KeepsOut.next | apply signAll_keeps | apply modTally_keeps)
    | split | intro _ | dsimp only | (show _ = _; rfl)
    | (with_reducible first | apply Keeps.updS)

theorem execTallyTimePath_keeps {sc : Scope} {s0 : State} (disciplined : Bool) (s : State) (hs : Keeps sc s0 s) :
    KeepsOut sc s0 (execTallyTimePath disciplined s) := by
  unfold execTallyTimePath
  iterate 40 try any_goals first
    | (with_reducible first
        | assumption | apply KeepsOut.next | apply modTally_keeps | apply logEvent_keeps)
    | split | intro _ | dsimp only | (show _ = _; rfl)
    | (with_reducible first | apply Keeps.updS)

theorem execTallyPowerUp_keeps {sc : Scope} {s0 : State} (clockLost : Bool) (elapsed : Nat) (s : State)
    (hs : Keeps sc s0 s) : KeepsOut sc s0 (execTallyPowerUp clockLost elapsed s) := by
  unfold execTallyPowerUp
  iterate 40 try any_goals first
    | (with_reducible first
        | assumption | apply KeepsOut.next | apply modTally_keeps | apply logEvent_keeps)
    | split | intro _ | dsimp only | (show _ = _; rfl)
    | (with_reducible first | apply Keeps.updS)

theorem execTallyFault_keeps {sc : Scope} {s0 : State} (e : TallyErr) (s : State) (hs : Keeps sc s0 s) : KeepsOut sc
    s0 (execTallyFault e s) := by
  unfold execTallyFault
  iterate 40 try any_goals first
    | (with_reducible first
        | assumption | apply KeepsOut.next | apply pulse_keeps | apply logEvent_keeps | apply modTally_keeps)
    | split | intro _ | dsimp only | (show _ = _; rfl)
    | (with_reducible first | apply Keeps.updS)

theorem modPerf_keeps {sc : Scope} {s0 : State} (s : State) (f : Perf → Perf) (hs : Keeps sc s0 s) : Keeps sc s0
    (modPerf s f) := by
  unfold modPerf
  iterate 40 try any_goals first
    | (with_reducible first
        | assumption)
    | split | intro _ | dsimp only | (show _ = _; rfl)
    | (with_reducible first | apply Keeps.updS)

theorem perfTick_keeps {sc : Scope} {s0 : State} (s : State) (hs : Keeps sc s0 s) : Keeps sc s0 (perfTick s) := by
  unfold perfTick
  iterate 40 try any_goals first
    | (with_reducible first
        | assumption | apply modPerf_keeps | apply useFree_keeps | apply Keeps.foldl)
    | split | intro _ | dsimp only | (show _ = _; rfl)
    | (with_reducible first | apply Keeps.updS)

theorem strobe_keeps {sc : Scope} {s0 : State} (s : State) (hs : Keeps sc s0 s) : Keeps sc s0 (strobe s) := by
  unfold strobe
  iterate 40 try any_goals first
    | (with_reducible first
        | assumption | apply modPerf_keeps | apply useFree_keeps | apply Keeps.foldl)
    | split | intro _ | dsimp only | (show _ = _; rfl)
    | (with_reducible first | apply Keeps.updS)

theorem prFire_keeps {sc : Scope} {s0 : State} (s : State) (i : Nat) (hs : Keeps sc s0 s) : Keeps sc s0 (prFire s i)
    := by
  unfold prFire
  iterate 40 try any_goals first
    | (with_reducible first
        | assumption | apply modPerf_keeps | apply pulse_keeps)
    | split | intro _ | dsimp only | (show _ = _; rfl)
    | (with_reducible first | apply Keeps.updS)

theorem prForce_keeps {sc : Scope} {s0 : State} (s : State) (v : Word) (hs : Keeps sc s0 s) : Keeps sc s0 (prForce s
    v) := by
  unfold prForce
  iterate 40 try any_goals first
    | (with_reducible first
        | assumption | apply wrOk_keeps | apply prFire_keeps | apply Keeps.foldl)
    | split | intro _ | dsimp only | (show _ = _; rfl)
    | (with_reducible first | apply Keeps.updS)

theorem prSelect_keeps {sc : Scope} {s0 : State} (s : State) (k : Nat) (v : Word) (hs : Keeps sc s0 s) : Keeps sc s0
    (prSelect s k v) := by
  unfold prSelect
  iterate 40 try any_goals first
    | (with_reducible first
        | assumption | apply wrOk_keeps | apply modPerf_keeps | apply busErr_keeps)
    | split | intro _ | dsimp only | (show _ = _; rfl)
    | (with_reducible first | apply Keeps.updS)

theorem prWrite_keepsE {sc : Scope} {s0 t : State} {s : State} {off : Nat} {v : Word} (e : prWrite s off v = some t)
    (hs : Keeps sc s0 s) : Keeps sc s0 t := by
  unfold prWrite at e
  repeat' (first | split at e | dsimp only at e)
  all_goals first | (cases e; done) | cases e | skip
  all_goals iterate 40 try any_goals first
              | (with_reducible first
                  | assumption | apply busErr_keeps | apply wrOk_keeps | apply modPerf_keeps | apply prForce_keeps
                  | apply prSelect_keeps)
              | split | intro _ | dsimp only | (show _ = _; rfl)
              | (with_reducible first | apply Keeps.updS)

theorem execSnapshotStrobe_keeps {sc : Scope} {s0 : State} (s : State) (hs : Keeps sc s0 s) : KeepsOut sc s0
    (execSnapshotStrobe s) := by
  unfold execSnapshotStrobe
  iterate 40 try any_goals first
    | (with_reducible first
        | assumption | apply KeepsOut.next | apply strobe_keeps | apply modPerf_keeps)
    | split | intro _ | dsimp only | (show _ = _; rfl)
    | (with_reducible first | apply Keeps.updS)

theorem execPrErrForce_keeps {sc : Scope} {s0 : State} (master : Nat) (value : Word) (s : State)
    (hs : Keeps sc s0 s) : KeepsOut sc s0 (execPrErrForce master value s) := by
  unfold execPrErrForce
  iterate 40 try any_goals first
    | (with_reducible first
        | assumption | apply KeepsOut.next | apply writeAs_keeps | apply prForce_keeps)
    | split | intro _ | dsimp only | (show _ = _; rfl)
    | (with_reducible first | apply Keeps.updS)

theorem idleCycle_keeps {sc : Scope} {s0 : State} (s : State) (hs : Keeps sc s0 s) : Keeps sc s0 (idleCycle s) := by
  unfold idleCycle
  iterate 40 try any_goals first
    | (with_reducible first
        | assumption | apply perfTick_keeps)
    | split | intro _ | dsimp only | (show _ = _; rfl)
    | (with_reducible first | apply Keeps.updS)

theorem idle_keeps {sc : Scope} {s0 : State} (s : State) (hs : Keeps sc s0 s) : KeepsOut sc s0 (idle s) := by
  unfold idle
  iterate 40 try any_goals first
    | (with_reducible first
        | assumption | apply KeepsOut.next | apply idleCycle_keeps)
    | split | intro _ | dsimp only | (show _ = _; rfl)
    | (with_reducible first | apply Keeps.updS)

theorem modStair_keeps {sc : Scope} {s0 : State} (s : State) (f : Stair → Stair) (hs : Keeps sc s0 s) : Keeps sc s0
    (modStair s f) := by
  unfold modStair
  iterate 40 try any_goals first
    | (with_reducible first
        | assumption)
    | split | intro _ | dsimp only | (show _ = _; rfl)
    | (with_reducible first | apply Keeps.updS)

theorem landingZero_keeps {sc : Scope} {s0 : State} (s : State) (puf : Bytes) (hs : Keeps sc s0 s) : Keeps sc s0
    (landingZero s puf) := by
  unfold landingZero
  iterate 40 try any_goals first
    | (with_reducible first
        | assumption | apply modStair_keeps)
    | split | intro _ | dsimp only | (show _ = _; rfl)
    | (with_reducible first | apply Keeps.updS)

theorem pushCore_keeps {sc : Scope} {s0 : State} (s : State) (meas signer : Bytes) (svn : Nat) (aliasPub : Bytes)
    (hs : Keeps sc s0 s) : Keeps sc s0 (pushCore s meas signer svn aliasPub) := by
  unfold pushCore
  iterate 40 try any_goals first
    | (with_reducible first
        | assumption | apply setHead_keeps)
    | split | intro _ | dsimp only | (show _ = _; rfl)
    | (with_reducible first | apply Keeps.updS)

theorem pushExt_keeps {sc : Scope} {s0 : State} (s : State) (key ext : Bytes) (hs : Keeps sc s0 s) : Keeps sc s0
    (pushExt s key ext) := by
  unfold pushExt
  iterate 40 try any_goals first
    | (with_reducible first
        | assumption | apply writeExt_keeps)
    | split | intro _ | dsimp only | (show _ = _; rfl)
    | (with_reducible first | apply Keeps.updS)

theorem addTask_keeps {sc : Scope} {s0 : State} (s : State) (t : StairTask) (hs : Keeps sc s0 s) : Keeps sc s0
    (addTask s t) := by
  unfold addTask
  iterate 40 try any_goals first
    | (with_reducible first
        | assumption | apply modStair_keeps)
    | split | intro _ | dsimp only | (show _ = _; rfl)
    | (with_reducible first | apply Keeps.updS)

theorem askService_keeps {sc : Scope} {s0 : State} (s : State) (hs : Keeps sc s0 s) : Keeps sc s0 (askService s) :=
    by
  unfold askService
  iterate 40 try any_goals first
    | (with_reducible first
        | assumption | apply addTask_keeps)
    | split | intro _ | dsimp only | (show _ = _; rfl)
    | (with_reducible first | apply Keeps.updS)

theorem climb_keeps {sc : Scope} {s0 : State} (s : State) (n : Nat) (meas signer : Bytes) (svn : Nat)
    (hs : Keeps sc s0 s) : Keeps sc s0 (climb s n meas signer svn) := by
  unfold climb
  iterate 40 try any_goals first
    | (with_reducible first
        | assumption | apply pushCore_keeps | apply pushExt_keeps | apply modStair_keeps)
    | split | intro _ | dsimp only | (show _ = _; rfl)
    | (with_reducible first | apply Keeps.updS)

theorem stairRefuse_keeps {sc : Scope} {s0 : State} (s : State) (m : Nat) (hs : Keeps sc s0 s) : Keeps sc s0
    (stairRefuse s m) := by
  unfold stairRefuse
  iterate 40 try any_goals first
    | (with_reducible first
        | assumption | apply busErr_keeps | apply pulses_keeps)
    | split | intro _ | dsimp only | (show _ = _; rfl)
    | (with_reducible first | apply Keeps.updS)

theorem deriveAlcove_keeps {sc : Scope} {s0 : State} (s : State) (a : Nat) (hs : Keeps sc s0 s) : Keeps sc s0
    (deriveAlcove s a) := by
  unfold deriveAlcove
  iterate 40 try any_goals first
    | (with_reducible first
        | assumption | apply modAlc_keeps | apply addTask_keeps)
    | split | intro _ | dsimp only | (show _ = _; rfl)
    | (with_reducible first | apply Keeps.updS)

theorem deriveDomain_keeps {sc : Scope} {s0 : State} (s : State) (d : Nat) (hs : Keeps sc s0 s) : Keeps sc s0
    (deriveDomain s d) := by
  unfold deriveDomain
  iterate 40 try any_goals first
    | (with_reducible first
        | assumption | apply setDom_keeps | apply addTask_keeps)
    | split | intro _ | dsimp only | (show _ = _; rfl)
    | (with_reducible first | apply Keeps.updS)

theorem execStairClimb_keeps {sc : Scope} {s0 : State} (master landing : Nat) (meas signer : Bytes) (svn : Nat) (s :
    State) (hs : Keeps sc s0 s) : KeepsOut sc s0 (execStairClimb master landing meas signer svn s) := by
  unfold execStairClimb
  iterate 40 try any_goals first
    | (with_reducible first
        | assumption | apply KeepsOut.next | apply busOk_keeps | apply climb_keeps | apply stairRefuse_keeps)
    | split | intro _ | dsimp only | (show _ = _; rfl)
    | (with_reducible first | apply Keeps.updS)

theorem execStairLineageRequest_keeps {sc : Scope} {s0 : State} (master : Nat) (v : List Nat) (s : State)
    (hs : Keeps sc s0 s) : KeepsOut sc s0 (execStairLineageRequest master v s) := by
  unfold execStairLineageRequest
  iterate 40 try any_goals first
    | (with_reducible first
        | assumption | apply KeepsOut.next | apply busOk_keeps | apply modStair_keeps | apply stairRefuse_keeps)
    | split | intro _ | dsimp only | (show _ = _; rfl)
    | (with_reducible first | apply Keeps.updS)

theorem modKeys_keeps {sc : Scope} {s0 : State} (s : State) (f : Keys → Keys) (hs : Keeps sc s0 s) : Keeps sc s0
    (modKeys s f) := by
  unfold modKeys
  iterate 40 try any_goals first
    | (with_reducible first
        | assumption)
    | split | intro _ | dsimp only | (show _ = _; rfl)
    | (with_reducible first | apply Keeps.updS)

theorem journalAdd_keeps {sc : Scope} {s0 : State} (s : State) (r : JournalRec) (hs : Keeps sc s0 s) : Keeps sc s0
    (journalAdd s r) := by
  unfold journalAdd
  iterate 40 try any_goals first
    | (with_reducible first
        | assumption | apply modKeys_keeps)
    | split | intro _ | dsimp only | (show _ = _; rfl)
    | (with_reducible first | apply Keeps.updS)

theorem sequence_keeps {sc : Scope} {s0 : State} (s : State) (d : Nat) (kind : MutKind) (side : Nat) (origin :
    Option (Nat × Nat × Nat)) (body : MutBody) (hs : Keeps sc s0 s) : Keeps sc s0 (sequence s d kind side origin
    body).2 := by
  unfold sequence
  iterate 40 try any_goals first
    | (with_reducible first
        | assumption | apply emit_keeps | apply journalAdd_keeps | apply setDom_keeps)
    | split | intro _ | dsimp only | (show _ = _; rfl)
    | (with_reducible first | apply Keeps.updS)

theorem sequence_keepsE {sc : Scope} {s0 t : State} {s : State} {d : Nat} {kind : MutKind} {side : Nat} {origin :
    Option (Nat × Nat × Nat)} {body : MutBody} {q : JournalRec} (e : sequence s d kind side origin body = (q, t))
    (hs : Keeps sc s0 s) : Keeps sc s0 t := by
  have h := sequence_keeps s d kind side origin body hs
  rwa [e] at h

theorem recordAlone_keeps {sc : Scope} {s0 : State} (s : State) (d : Nat) (body : MutBody) (hs : Keeps sc s0 s) :
    Keeps sc s0 (recordAlone s d body) := by
  unfold recordAlone
  iterate 40 try any_goals first
    | (with_reducible first
        | assumption | refine sequence_keepsE (e := by assumption) ?_ | apply sequence_keeps | apply emit_keeps)
    | split | intro _ | dsimp only | (show _ = _; rfl)
    | (with_reducible first | apply Keeps.updS)

theorem beginSnap_keeps {sc : Scope} {s0 : State} (s : State) (hs : Keeps sc s0 s) : Keeps sc s0 (beginSnap s) := by
  unfold beginSnap
  iterate 40 try any_goals first
    | (with_reducible first
        | assumption | apply modKeys_keeps)
    | split | intro _ | dsimp only | (show _ = _; rfl)
    | (with_reducible first | apply Keeps.updS)

theorem persist_keeps {sc : Scope} {s0 : State} (s : State) (hs : Keeps sc s0 s) : Keeps sc s0 (persist s) := by
  unfold persist
  iterate 40 try any_goals first
    | (with_reducible first
        | assumption | apply modKeys_keeps)
    | split | intro _ | dsimp only | (show _ = _; rfl)
    | (with_reducible first | apply Keeps.updS)

theorem liftMark_keeps {sc : Scope} {s0 : State} (s : State) (m : MarkRef) (hs : Keeps sc s0 s) : Keeps sc s0
    (liftMark s m) := by
  unfold liftMark
  iterate 40 try any_goals first
    | (with_reducible first
        | assumption | apply modKeys_keeps | apply modAlc_keeps)
    | split | intro _ | dsimp only | (show _ = _; rfl)
    | (with_reducible first | apply Keeps.updS)

theorem drainAll_keeps {sc : Scope} {s0 : State} (s : State) (hs : Keeps sc s0 s) : Keeps sc s0 (drainAll s) := by
  unfold drainAll
  iterate 40 try any_goals first
    | (with_reducible first
        | assumption | apply modTally_keeps)
    | split | intro _ | dsimp only | (show _ = _; rfl)
    | (with_reducible first | apply Keeps.updS)

theorem afterReset_keeps {sc : Scope} {s0 : State} (s : State) (b : Bool) (hs : Keeps sc s0 s)
    (hcm : sc.mem = true := by assumption) (hcl : sc.life = true := by assumption) : Keeps sc s0 (afterReset s b) :=
  ⟨hs.1, fun w => hallsWf_mk (hs.2 w) (fun _ => rfl) (fun _ => rfl) id, hs.3, fun k => by simp [hcm] at k, hs.5,
    fun k => by simp [hcl] at k, fun _ => rfl⟩

theorem stopAdmit_keeps {sc : Scope} {s0 : State} (s : State) (hs : Keeps sc s0 s) : Keeps sc s0 (stopAdmit s) := by
  unfold stopAdmit
  iterate 40 try any_goals first
    | (with_reducible first
        | assumption)
    | split | intro _ | dsimp only | (show _ = _; rfl)
    | (with_reducible first | apply Keeps.updS)

theorem finishErase_keeps {sc : Scope} {s0 : State} (s : State) (hs : Keeps sc s0 s)
    (hco : sc.otp = true := by assumption) : Keeps sc s0 (finishErase s) := by
  unfold finishErase
  iterate 40 try any_goals first
    | (with_reducible first
        | assumption | apply commitFlag_keeps)
    | split | intro _ | dsimp only | (show _ = _; rfl)
    | (with_reducible first | apply Keeps.updS)

theorem resetSteps_keeps {sc : Scope} {s0 : State} (s : State) (hs : Keeps sc s0 s)
    (hcl : sc.life = true := by assumption) (hcm : sc.mem = true := by assumption)
    (hco : sc.otp = true := by assumption) : Keeps sc s0 (resetSteps s) := by
  unfold resetSteps
  iterate 40 try any_goals first
    | (with_reducible first
        | assumption | apply handoverEvery_keeps | apply failAllWork_keeps | apply stopAdmit_keeps
        | apply afterReset_keeps | apply finishErase_keeps | apply persist_keeps | apply drainAll_keeps)
    | split | intro _ | dsimp only | (show _ = _; rfl)
    | (with_reducible first | apply Keeps.updS)

theorem pcErr_keeps {sc : Scope} {s0 : State} (s : State) (i : Nat) (hs : Keeps sc s0 s) : Keeps sc s0 (pcErr s i)
    := by
  unfold pcErr
  iterate 40 try any_goals first
    | (with_reducible first
        | assumption | apply modPower_keeps)
    | (show Power.powered _ = _; rfl) | split | intro _ | dsimp only | (show _ = _; rfl)
    | (with_reducible first | apply Keeps.updS)

theorem pcFire_keeps {sc : Scope} {s0 : State} (s : State) (i : Nat) (hs : Keeps sc s0 s) : Keeps sc s0 (pcFire s i)
    := by
  unfold pcFire
  iterate 40 try any_goals first
    | (with_reducible first
        | assumption | apply pcErr_keeps | apply pulse_keeps | apply modPower_keeps)
    | (show Power.powered _ = _; rfl) | split | intro _ | dsimp only | (show _ = _; rfl)
    | (with_reducible first | apply Keeps.updS)

theorem modBlock_keeps {sc : Scope} {s0 : State} (s : State) (n : Nat) (f : HallBlock → HallBlock)
    (hs : Keeps sc s0 s) : Keeps sc s0 (modBlock s n f) := by
  unfold modBlock
  iterate 40 try any_goals first
    | (with_reducible first
        | assumption)
    | split | intro _ | dsimp only | (show _ = _; rfl)
    | (with_reducible first | apply Keeps.updS)

theorem clearBlock_keeps {sc : Scope} {s0 : State} (s : State) (n : Nat) (hs : Keeps sc s0 s) : Keeps sc s0
    (clearBlock s n) := by
  unfold clearBlock
  iterate 40 try any_goals first
    | (with_reducible first
        | assumption)
    | split | intro _ | dsimp only | (show _ = _; rfl)
    | (with_reducible first | apply Keeps.updS)

theorem gateReq_keeps {sc : Scope} {s0 : State} (s : State) (m action n : Nat) (hs : Keeps sc s0 s) : Keeps sc s0
    (gateReq s m action n) := by
  unfold gateReq
  iterate 40 try any_goals first
    | (with_reducible first
        | assumption | apply modPower_keeps | apply wrOk_keeps | apply pulses_keeps | apply modBlock_keeps
        | apply clearBlock_keeps)
    | (show Power.powered _ = _; rfl) | split | intro _ | dsimp only | (show _ = _; rfl)
    | (with_reducible first | apply Keeps.updS)

theorem pcForce_keeps {sc : Scope} {s0 : State} (s : State) (v : Word) (hs : Keeps sc s0 s) : Keeps sc s0 (pcForce s
    v) := by
  unfold pcForce
  iterate 40 try any_goals first
    | (with_reducible first
        | assumption | apply wrOk_keeps | apply pcFire_keeps | apply Keeps.foldl)
    | split | intro _ | dsimp only | (show _ = _; rfl)
    | (with_reducible first | apply Keeps.updS)

theorem pcWrite_keepsE {sc : Scope} {s0 t : State} {s : State} {m off : Nat} {v : Word} (e : pcWrite s m off v =
    some t) (hs : Keeps sc s0 s) : Keeps sc s0 t := by
  unfold pcWrite at e
  repeat' (first | split at e | dsimp only at e)
  all_goals first | (cases e; done) | cases e | skip
  all_goals iterate 40 try any_goals first
              | (with_reducible first
                  | assumption | apply wrOk_keeps | apply modPower_keeps | apply pcForce_keeps | apply gateReq_keeps)
              | (show Power.powered _ = _; rfl) | split | intro _ | dsimp only | (show _ = _; rfl)
              | (with_reducible first | apply Keeps.updS)

theorem execPllPortUnlock_keeps {sc : Scope} {s0 : State} (p : Pll) (s : State) (hs : Keeps sc s0 s) : KeepsOut sc
    s0 (execPllPortUnlock p s) := by
  unfold execPllPortUnlock
  iterate 40 try any_goals first
    | (with_reducible first
        | assumption | apply KeepsOut.next | apply modPower_keeps | apply modPort_keeps | apply pcFire_keeps)
    | (show Power.powered _ = _; rfl) | split | intro _ | dsimp only | (show _ = _; rfl)
    | (with_reducible first | apply Keeps.updS)

theorem execPllRelock_keeps {sc : Scope} {s0 : State} (p : Pll) (s : State) (hs : Keeps sc s0 s) : KeepsOut sc s0
    (execPllRelock p s) := by
  unfold execPllRelock
  iterate 40 try any_goals first
    | (with_reducible first
        | assumption | apply KeepsOut.next | apply modPower_keeps | apply modPort_keeps)
    | (show Power.powered _ = _; rfl) | split | intro _ | dsimp only | (show _ = _; rfl)
    | (with_reducible first | apply Keeps.updS)

theorem execPllCoreUnlock_keeps {sc : Scope} {s0 : State} (p : Pll) (s : State) (hs : Keeps sc s0 s) : KeepsOut sc
    s0 (execPllCoreUnlock p s) := by
  unfold execPllCoreUnlock
  iterate 40 try any_goals first
    | (with_reducible first
        | assumption | apply KeepsOut.next | apply pcFire_keeps | apply modPower_keeps)
    | (show Power.powered _ = _; rfl) | split | intro _ | dsimp only | (show _ = _; rfl)
    | (with_reducible first | apply Keeps.updS)

theorem execRailFall_keeps {sc : Scope} {s0 : State} (s : State) (hs : Keeps sc s0 s)
    (hcm : sc.mem = true := by assumption) (hcl : sc.life = true := by assumption) : KeepsOut sc s0
    (execRailFall s) := by
  refine KeepsOut.next ?_
  split
  · exact hs
  · dsimp only
    refine (fun h : Keeps sc s0 _ => ⟨h.1, h.2, h.3, h.4, h.5, h.6, fun _ => rfl⟩) (afterReset_keeps _ false ?_)
    iterate 40 try any_goals first
      | (with_reducible first
          | assumption | apply dropMutations_keeps | apply stopAdmit_keeps | apply persist_keeps
          | apply drainAll_keeps | apply modTally_keeps | apply afterReset_keeps)
      | split | intro _ | dsimp only | (show _ = _; rfl)
      | (with_reducible first | apply Keeps.updS)

theorem execRailRise_keeps {sc : Scope} {s0 : State} (mv : Nat) (s : State) (hs : Keeps sc s0 s)
    (hcm : sc.mem = true := by assumption) (hcl : sc.life = true := by assumption) : KeepsOut sc s0
    (execRailRise mv s) := by
  refine KeepsOut.next ?_
  split
  · exact hs
  · dsimp only
    refine (fun h : Keeps sc s0 _ => ⟨h.1, h.2, h.3, h.4, h.5, h.6, fun _ => rfl⟩)
      (modTally_keeps _ (fun t => { t with seed := none, core := 0 }) (afterReset_keeps _ true hs))

theorem execVinLow_keeps {sc : Scope} {s0 : State} (mv : Nat) (s : State) (hs : Keeps sc s0 s) : KeepsOut sc s0
    (execVinLow mv s) := by
  unfold execVinLow
  iterate 40 try any_goals first
    | (with_reducible first
        | assumption | apply KeepsOut.next | apply modPower_keeps | apply pcFire_keeps)
    | (show Power.powered _ = _; rfl) | split | intro _ | dsimp only | (show _ = _; rfl)
    | (with_reducible first | apply Keeps.updS)

theorem execResetNLow_keeps {sc : Scope} {s0 : State} (ns : Nat) (s : State) (hs : Keeps sc s0 s)
    (hcl : sc.life = true := by assumption) (hcm : sc.mem = true := by assumption)
    (hco : sc.otp = true := by assumption) : KeepsOut sc s0 (execResetNLow ns s) := by
  unfold execResetNLow
  iterate 40 try any_goals first
    | (with_reducible first
        | assumption | apply KeepsOut.next | apply resetSteps_keeps)
    | split | intro _ | dsimp only | (show _ = _; rfl)
    | (with_reducible first | apply Keeps.updS)

theorem execSafeRestartExpiry_keeps {sc : Scope} {s0 : State} (s : State) (hs : Keeps sc s0 s)
    (hcl : sc.life = true := by assumption) (hcm : sc.mem = true := by assumption)
    (hco : sc.otp = true := by assumption) : KeepsOut sc s0 (execSafeRestartExpiry s) := by
  unfold execSafeRestartExpiry
  iterate 40 try any_goals first
    | (with_reducible first
        | assumption | apply KeepsOut.next | apply resetSteps_keeps)
    | split | intro _ | dsimp only | (show _ = _; rfl)
    | (with_reducible first | apply Keeps.updS)

theorem execPcGateClock_keeps {sc : Scope} {s0 : State} (master block : Nat) (s : State) (hs : Keeps sc s0 s) :
    KeepsOut sc s0 (execPcGateClock master block s) := by
  unfold execPcGateClock
  iterate 40 try any_goals first
    | (with_reducible first
        | assumption | apply KeepsOut.next | apply writeAs_keeps | apply gateReq_keeps)
    | split | intro _ | dsimp only | (show _ = _; rfl)
    | (with_reducible first | apply Keeps.updS)

theorem execPcGatePower_keeps {sc : Scope} {s0 : State} (master block : Nat) (s : State) (hs : Keeps sc s0 s) :
    KeepsOut sc s0 (execPcGatePower master block s) := by
  unfold execPcGatePower
  iterate 40 try any_goals first
    | (with_reducible first
        | assumption | apply KeepsOut.next | apply writeAs_keeps | apply gateReq_keeps)
    | split | intro _ | dsimp only | (show _ = _; rfl)
    | (with_reducible first | apply Keeps.updS)

theorem execPcRestore_keeps {sc : Scope} {s0 : State} (master block : Nat) (s : State) (hs : Keeps sc s0 s) :
    KeepsOut sc s0 (execPcRestore master block s) := by
  unfold execPcRestore
  iterate 40 try any_goals first
    | (with_reducible first
        | assumption | apply KeepsOut.next | apply writeAs_keeps | apply gateReq_keeps)
    | split | intro _ | dsimp only | (show _ = _; rfl)
    | (with_reducible first | apply Keeps.updS)

theorem execPcErrForce_keeps {sc : Scope} {s0 : State} (master : Nat) (value : Word) (s : State)
    (hs : Keeps sc s0 s) : KeepsOut sc s0 (execPcErrForce master value s) := by
  unfold execPcErrForce
  iterate 40 try any_goals first
    | (with_reducible first
        | assumption | apply KeepsOut.next | apply writeAs_keeps | apply pcForce_keeps)
    | split | intro _ | dsimp only | (show _ = _; rfl)
    | (with_reducible first | apply Keeps.updS)

theorem setDebug_keeps {sc : Scope} {s0 : State} (s : State) (mask : BitVec 4) (expiry : Nat) (hs : Keeps sc s0 s) :
    Keeps sc s0 (setDebug s mask expiry) := by
  unfold setDebug
  iterate 40 try any_goals first
    | (with_reducible first
        | assumption | apply modLife_keeps)
    | (show LifeCycle.life _ = _; rfl) | split | intro _ | dsimp only | (show _ = _; rfl)
    | (with_reducible first | apply Keeps.updS)

theorem lcFire_keeps {sc : Scope} {s0 : State} (s : State) (i : Nat) (hs : Keeps sc s0 s) : Keeps sc s0 (lcFire s i)
    := by
  unfold lcFire
  iterate 40 try any_goals first
    | (with_reducible first
        | assumption | apply modLife_keeps | apply pulse_keeps)
    | (show LifeCycle.life _ = _; rfl) | split | intro _ | dsimp only | (show _ = _; rfl)
    | (with_reducible first | apply Keeps.updS)

theorem wipeStore_keeps {sc : Scope} {s0 : State} (s : State) (hs : Keeps sc s0 s) : Keeps sc s0 (wipeStore s) := by
  unfold wipeStore
  iterate 40 try any_goals first
    | (with_reducible first
        | assumption)
    | split | intro _ | dsimp only | (show _ = _; rfl)
    | (with_reducible first | apply Keeps.updS)

theorem wipeUser_keeps {sc : Scope} {s0 : State} (s : State) (hs : Keeps sc s0 s)
    (hcm : sc.mem = true := by assumption) : Keeps sc s0 (wipeUser s) := by
  unfold wipeUser
  iterate 40 try any_goals first
    | (with_reducible first
        | assumption | apply wipeStore_keeps | apply clearVolatile_keeps)
    | split | intro _ | dsimp only | (show _ = _; rfl)
    | (with_reducible first | apply Keeps.updS)

theorem wipeFull_keeps {sc : Scope} {s0 : State} (s : State) (hs : Keeps sc s0 s)
    (hcm : sc.mem = true := by assumption) : Keeps sc s0 (wipeFull s) :=
  Keeps.updM (wipeUser_keeps s hs) hcm (fun hw => hallsWf_mk hw id id (fun _ => rfl)) rfl rfl rfl rfl rfl rfl

theorem wipeOtp_keeps {sc : Scope} {s0 : State} (s : State) (hs : Keeps sc s0 s)
    (hco : sc.otp = true := by assumption) : Keeps sc s0 (wipeOtp s) := by
  refine Keeps.updO hs hco (fun h => ?_) rfl rfl rfl rfl rfl rfl
  simp only [otpShape, Bool.and_eq_true, decide_eq_true_eq] at h
  refine ⟨?_, { OtpKept.refl s.otp with trim := wordsKept_ones h.1.2, random := wordsKept_ones h.2 }⟩
  simp only [otpShape, wipeOtp, h.1.1, List.length_replicate, decide_true, Bool.and_true]

theorem wipeFor_keeps {sc : Scope} {s0 : State} (s : State) (target : Life) (hs : Keeps sc s0 s)
    (hcm : sc.mem = true := by assumption) : Keeps sc s0 (wipeFor s target) := by
  unfold wipeFor
  iterate 40 try any_goals first
    | (with_reducible first
        | assumption | apply wipeStore_keeps | apply wipeUser_keeps | apply wipeFull_keeps)
    | split | intro _ | dsimp only | (show _ = _; rfl)
    | (with_reducible first | apply Keeps.updS)

theorem endTrans_keeps {sc : Scope} {s0 : State} (s : State) (t : Transition) (status : Nat) (hs : Keeps sc s0 s) :
    Keeps sc s0 (endTrans s t status) := by
  unfold endTrans
  iterate 40 try any_goals first
    | (with_reducible first
        | assumption | apply failWork_keeps)
    | split | intro _ | dsimp only | (show _ = _; rfl)
    | (with_reducible first | apply Keeps.updS)

theorem abandonTrans_keeps {sc : Scope} {s0 : State} (s : State) (t : Transition) (status : Nat)
    (hs : Keeps sc s0 s) : Keeps sc s0 (abandonTrans s t status) := by
  unfold abandonTrans
  iterate 40 try any_goals first
    | (with_reducible first
        | assumption | apply endTrans_keeps)
    | split | intro _ | dsimp only | (show _ = _; rfl)
    | (with_reducible first | apply Keeps.updS)

theorem commission_keepsE {sc : Scope} {s0 s t : State} {k i : Bytes} (e : commission s k i = .ok t) (hs
    : Keeps sc s0 s) (hco : sc.otp = true := by assumption) : Keeps sc s0 t := by
  unfold commission at e
  dsimp only at e
  split at e
  · cases e
  · split at e
    · cases e
    · cases e
      have ho : OtpKept s.otp { s.otp with
          ownerHash := if allZero s.otp.ownerHash then Config.sha512 k else s.otp.ownerHash } := by
        refine { OtpKept.refl s.otp with ownerHash := ?_ }
        dsimp only
        split
        · rename_i z
          exact wordsKept_zero z
        · exact wordsKept_refl _
      exact ⟨hs.1, hs.2, fun w => ⟨(hs.3 w).1, (hs.3 w).2.trans ho⟩, hs.4, fun q => by simp [hco] at q, hs.6, hs.7⟩

theorem onReturn_keeps {sc : Scope} {s0 : State} (s : State) (hs : Keeps sc s0 s) : Keeps sc s0 (onReturn s) := by
  unfold onReturn
  iterate 40 try any_goals first
    | (with_reducible first
        | assumption)
    | split | intro _ | dsimp only | (show _ = _; rfl)
    | (with_reducible first | apply Keeps.updS)

theorem burnCopies_keeps {sc : Scope} {s0 : State} (s : State) (bad : List (Nat × Nat)) (old new : Nat) (hs
    : Keeps sc s0 s) (hco : sc.otp = true) :
    Keeps sc s0 { s with otp := { s.otp with copies := (burnAll bad old new s.otp.copies).1 } } := by
  refine Keeps.updO hs hco (fun h => ?_) rfl rfl rfl rfl rfl rfl
  simp only [otpShape, Bool.and_eq_true, decide_eq_true_eq] at h
  have k := burnAll_keeps bad old new s.otp.copies h.1.1
  refine ⟨?_, { OtpKept.refl s.otp with copies := k.1 }⟩
  simp [otpShape, k.2, h.1.2, h.2]

theorem burnTrans_keeps {sc : Scope} {s0 : State} (s : State) (t : Transition) (hs : Keeps sc s0 s)
    (hco : sc.otp = true := by assumption) (hcl : sc.life = true := by assumption) : Keeps sc s0
    (burnTrans s t) := by
  unfold burnTrans
  dsimp only
  have h := burnCopies_keeps s t.bad (lifeCode s.life.life) (lifeCode t.target) hs hco
  revert h
  generalize State.mk .. = u
  intro h
  iterate 40 try any_goals first
    | (with_reducible first
        | assumption | refine modLifeX_keeps _ _ ?_ hcl | apply lcFire_keeps | apply modLife_keeps
        | apply onReturn_keeps | apply wipeOtp_keeps | apply endTrans_keeps | apply abandonTrans_keeps)
    | (show LifeCycle.life _ = _; rfl) | split | intro _ | dsimp only | (show _ = _; rfl)
    | (with_reducible first | apply Keeps.updS)

theorem runTrans_keeps {sc : Scope} {s0 : State} (s : State) (t : Transition) (hs : Keeps sc s0 s)
    (hcl : sc.life = true := by assumption) (hcm : sc.mem = true := by assumption)
    (hco : sc.otp = true := by assumption) : Keeps sc s0 (runTrans s t) := by
  unfold runTrans
  iterate 40 try any_goals first
    | (with_reducible first
        | assumption | refine commission_keepsE (e := by assumption) ?_ | apply closeSession_keeps
        | apply abandonTrans_keeps | apply burnTrans_keeps | apply burnTrans_keeps | apply wipeFor_keeps
        | apply Keeps.foldl)
    | split | intro _ | dsimp only | (show _ = _; rfl)
    | (with_reducible first | apply Keeps.updS)

theorem beginTrans_keeps {sc : Scope} {s0 : State} (s : State) (t : Transition) (hs : Keeps sc s0 s)
    (hcl : sc.life = true := by assumption) (hcm : sc.mem = true := by assumption)
    (hco : sc.otp = true := by assumption) : Keeps sc s0 (beginTrans s t) := by
  unfold beginTrans
  iterate 40 try any_goals first
    | (with_reducible first
        | assumption | apply stopAdmit_keeps | apply modLife_keeps | apply runTrans_keeps)
    | (show LifeCycle.life _ = _; rfl) | split | intro _ | dsimp only | (show _ = _; rfl)
    | (with_reducible first | apply Keeps.updS)

theorem authRun_keeps {sc : Scope} {s0 : State} (s : State) (a : Bytes) (bad : List (Nat × Nat))
    (hs : Keeps sc s0 s) (hcl : sc.life = true := by assumption) (hcm : sc.mem = true := by assumption)
    (hco : sc.otp = true := by assumption) : Keeps sc s0 (authRun s a bad) := by
  unfold authRun
  iterate 40 try any_goals first
    | (with_reducible first
        | assumption | apply setDebug_keeps | apply beginTrans_keeps | apply modLife_keeps)
    | (show LifeCycle.life _ = _; rfl) | split | intro _ | dsimp only | (show _ = _; rfl)
    | (with_reducible first | apply Keeps.updS)

theorem tapSelect_keeps {sc : Scope} {s0 : State} (s : State) (code : Nat) (hs : Keeps sc s0 s) : Keeps sc s0
    (tapSelect s code) := by
  unfold tapSelect
  iterate 40 try any_goals first
    | (with_reducible first
        | assumption | apply modLife_keeps)
    | (show LifeCycle.life _ = _; rfl) | split | intro _ | dsimp only | (show _ = _; rfl)
    | (with_reducible first | apply Keeps.updS)

theorem tapDrive_keeps {sc : Scope} {s0 : State} (s : State) (code : Nat) (hs : Keeps sc s0 s) : Keeps sc s0
    (tapDrive s code) := by
  unfold tapDrive
  iterate 40 try any_goals first
    | (with_reducible first
        | assumption | apply tapSelect_keeps)
    | split | intro _ | dsimp only | (show _ = _; rfl)
    | (with_reducible first | apply Keeps.updS)

theorem lcDebug_keeps {sc : Scope} {s0 : State} (s : State) (m : Nat) (v : Word) (hs : Keeps sc s0 s) : Keeps sc s0
    (lcDebug s m v) := by
  unfold lcDebug
  iterate 40 try any_goals first
    | (with_reducible first
        | assumption | apply wrOk_keeps | apply modLife_keeps | apply busErr_keeps)
    | (show LifeCycle.life _ = _; rfl) | split | intro _ | dsimp only | (show _ = _; rfl)
    | (with_reducible first | apply Keeps.updS)

theorem lcExpiry_keeps {sc : Scope} {s0 : State} (s : State) (m hi : Nat) (v : Word) (hs : Keeps sc s0 s) : Keeps sc
    s0 (lcExpiry s m hi v) := by
  unfold lcExpiry
  iterate 40 try any_goals first
    | (with_reducible first
        | assumption | apply wrOk_keeps | apply modLife_keeps | apply busErr_keeps)
    | (show LifeCycle.life _ = _; rfl) | split | intro _ | dsimp only | (show _ = _; rfl)
    | (with_reducible first | apply Keeps.updS)

theorem lcForce_keeps {sc : Scope} {s0 : State} (s : State) (v : Word) (hs : Keeps sc s0 s) : Keeps sc s0 (lcForce s
    v) := by
  unfold lcForce
  iterate 40 try any_goals first
    | (with_reducible first
        | assumption | apply wrOk_keeps | apply lcFire_keeps | apply Keeps.foldl)
    | split | intro _ | dsimp only | (show _ = _; rfl)
    | (with_reducible first | apply Keeps.updS)

theorem lcWrite_keepsE {sc : Scope} {s0 t : State} {s : State} {m off : Nat} {v : Word} (e : lcWrite s m off v =
    some t) (hs : Keeps sc s0 s) : Keeps sc s0 t := by
  unfold lcWrite at e
  repeat' (first | split at e | dsimp only at e)
  all_goals first | (cases e; done) | cases e | skip
  all_goals iterate 40 try any_goals first
              | (with_reducible first
                  | assumption | apply lcDebug_keeps | apply wrOk_keeps | apply modLife_keeps | apply lcForce_keeps)
              | (show LifeCycle.life _ = _; rfl) | split | intro _ | dsimp only | (show _ = _; rfl)
              | (with_reducible first | apply Keeps.updS)

theorem execLcDebugWrite_keeps {sc : Scope} {s0 : State} (master : Nat) (value : Word) (s : State)
    (hs : Keeps sc s0 s) : KeepsOut sc s0 (execLcDebugWrite master value s) := by
  unfold execLcDebugWrite
  iterate 40 try any_goals first
    | (with_reducible first
        | assumption | apply KeepsOut.next | apply writeAs_keeps | apply lcDebug_keeps)
    | split | intro _ | dsimp only | (show _ = _; rfl)
    | (with_reducible first | apply Keeps.updS)

theorem execDebugExpiry_keeps {sc : Scope} {s0 : State} (s : State) (hs : Keeps sc s0 s) : KeepsOut sc s0
    (execDebugExpiry s) := by
  unfold execDebugExpiry
  iterate 40 try any_goals first
    | (with_reducible first
        | assumption | apply KeepsOut.next | apply modLife_keeps)
    | (show LifeCycle.life _ = _; rfl) | split | intro _ | dsimp only | (show _ = _; rfl)
    | (with_reducible first | apply Keeps.updS)

theorem execLcErrForce_keeps {sc : Scope} {s0 : State} (master : Nat) (value : Word) (s : State)
    (hs : Keeps sc s0 s) : KeepsOut sc s0 (execLcErrForce master value s) := by
  unfold execLcErrForce
  iterate 40 try any_goals first
    | (with_reducible first
        | assumption | apply KeepsOut.next | apply writeAs_keeps | apply lcForce_keeps)
    | split | intro _ | dsimp only | (show _ = _; rfl)
    | (with_reducible first | apply Keeps.updS)

theorem execAuthChallenge_keeps {sc : Scope} {s0 : State} (s : State) (hs : Keeps sc s0 s) : KeepsOut sc s0
    (execAuthChallenge s) := by
  unfold execAuthChallenge
  iterate 40 try any_goals first
    | (with_reducible first
        | assumption | refine drawFrom_keepsE (e := by assumption) ?_ | apply KeepsOut.next | apply tapSelect_keeps
        | apply emit_keeps | apply modLife_keeps | apply drawFrom_keeps)
    | (show LifeCycle.life _ = _; rfl) | split | intro _ | dsimp only | (show _ = _; rfl)
    | (with_reducible first | apply Keeps.updS)

theorem execAuthSubmit_keeps {sc : Scope} {s0 : State} (auth : Bytes) (badBits : List (Nat × Nat)) (s : State)
    (hs : Keeps sc s0 s) (hcl : sc.life = true := by assumption) (hcm : sc.mem = true := by assumption)
    (hco : sc.otp = true := by assumption) : KeepsOut sc s0 (execAuthSubmit auth badBits s) := by
  unfold execAuthSubmit
  iterate 40 try any_goals first
    | (with_reducible first
        | assumption | apply KeepsOut.next | apply modLife_keeps | apply tapSelect_keeps | apply authRun_keeps)
    | (show LifeCycle.life _ = _; rfl) | split | intro _ | dsimp only | (show _ = _; rfl)
    | (with_reducible first | apply Keeps.updS)

theorem execAuthStatus_keeps {sc : Scope} {s0 : State} (s : State) (hs : Keeps sc s0 s) : KeepsOut sc s0
    (execAuthStatus s) := by
  unfold execAuthStatus
  iterate 40 try any_goals first
    | (with_reducible first
        | assumption | apply KeepsOut.next | apply emit_keeps | apply tapSelect_keeps)
    | split | intro _ | dsimp only | (show _ = _; rfl)
    | (with_reducible first | apply Keeps.updS)

theorem execDap_keeps {sc : Scope} {s0 : State} (s : State) (hs : Keeps sc s0 s) : KeepsOut sc s0 (execDap s) := by
  unfold execDap
  iterate 40 try any_goals first
    | (with_reducible first
        | assumption | apply KeepsOut.next | apply tapSelect_keeps)
    | split | intro _ | dsimp only | (show _ = _; rfl)
    | (with_reducible first | apply Keeps.updS)

theorem execIdcode_keeps {sc : Scope} {s0 : State} (s : State) (hs : Keeps sc s0 s) : KeepsOut sc s0 (execIdcode s)
    := by
  unfold execIdcode
  iterate 40 try any_goals first
    | (with_reducible first
        | assumption | apply KeepsOut.next | apply emit_keeps | apply tapSelect_keeps)
    | split | intro _ | dsimp only | (show _ = _; rfl)
    | (with_reducible first | apply Keeps.updS)

theorem execSamplePreload_keeps {sc : Scope} {s0 : State} (bits : Nat) (s : State) (hs : Keeps sc s0 s) : KeepsOut
    sc s0 (execSamplePreload bits s) := by
  unfold execSamplePreload
  iterate 40 try any_goals first
    | (with_reducible first
        | assumption | apply KeepsOut.next | apply modLife_keeps | apply tapSelect_keeps)
    | (show LifeCycle.life _ = _; rfl) | split | intro _ | dsimp only | (show _ = _; rfl)
    | (with_reducible first | apply Keeps.updS)

theorem execExtest_keeps {sc : Scope} {s0 : State} (s : State) (hs : Keeps sc s0 s) : KeepsOut sc s0 (execExtest s)
    := by
  unfold execExtest
  iterate 40 try any_goals first
    | (with_reducible first
        | assumption | apply KeepsOut.next | apply tapDrive_keeps)
    | split | intro _ | dsimp only | (show _ = _; rfl)
    | (with_reducible first | apply Keeps.updS)

theorem execClamp_keeps {sc : Scope} {s0 : State} (s : State) (hs : Keeps sc s0 s) : KeepsOut sc s0 (execClamp s) :=
    by
  unfold execClamp
  iterate 40 try any_goals first
    | (with_reducible first
        | assumption | apply KeepsOut.next | apply tapDrive_keeps)
    | split | intro _ | dsimp only | (show _ = _; rfl)
    | (with_reducible first | apply Keeps.updS)

theorem execHighz_keeps {sc : Scope} {s0 : State} (s : State) (hs : Keeps sc s0 s) : KeepsOut sc s0 (execHighz s) :=
    by
  unfold execHighz
  iterate 40 try any_goals first
    | (with_reducible first
        | assumption | apply KeepsOut.next | apply tapDrive_keeps)
    | split | intro _ | dsimp only | (show _ = _; rfl)
    | (with_reducible first | apply Keeps.updS)

theorem execBypass_keeps {sc : Scope} {s0 : State} (s : State) (hs : Keeps sc s0 s) : KeepsOut sc s0 (execBypass s)
    := by
  unfold execBypass
  iterate 40 try any_goals first
    | (with_reducible first
        | assumption | apply KeepsOut.next | apply tapSelect_keeps)
    | split | intro _ | dsimp only | (show _ = _; rfl)
    | (with_reducible first | apply Keeps.updS)

theorem execTrstNLow_keeps {sc : Scope} {s0 : State} (s : State) (hs : Keeps sc s0 s) : KeepsOut sc s0 (execTrstNLow
    s) := by
  unfold execTrstNLow
  iterate 40 try any_goals first
    | (with_reducible first
        | assumption | apply KeepsOut.next | apply tapSelect_keeps)
    | split | intro _ | dsimp only | (show _ = _; rfl)
    | (with_reducible first | apply Keeps.updS)

end Sys2Proof.Machine
end

