-- ==== Sys2Proof/Laws/KeepsWings.lean ====
section
/-! SUPPORT. One lemma for each operation: what it keeps of the queue, the memories, one-time programmable memory and the
life-cycle state. Here: the halls, the wings and the admission of commands. -/

namespace Sys2Proof.Machine

theorem wmLogicWrite_keeps {sc : Scope} {s0 : State} (s : State) (m : Nat) (v : Word) (hs : Keeps sc s0 s) : Keeps
    sc s0 (wmLogicWrite s m v) := by
  unfold wmLogicWrite
  iterate 40 try any_goals first
    | (with_reducible first
        | assumption | apply busErr_keeps | apply wrOk_keeps | apply modHalls_keeps)
    | (show Halls.logicMem _ = _ ∧ _; exact ⟨rfl, rfl, rfl⟩) | split | intro _ | dsimp only | (show _ = _; rfl)
    | (with_reducible first | apply Keeps.updS)

theorem wmMezzWrite_keeps {sc : Scope} {s0 : State} (s : State) (m : Nat) (v : Word) (hs : Keeps sc s0 s) : Keeps sc
    s0 (wmMezzWrite s m v) := by
  unfold wmMezzWrite
  iterate 40 try any_goals first
    | (with_reducible first
        | assumption | apply busErr_keeps | apply wrOk_keeps | apply modHalls_keeps)
    | (show Halls.logicMem _ = _ ∧ _; exact ⟨rfl, rfl, rfl⟩) | split | intro _ | dsimp only | (show _ = _; rfl)
    | (with_reducible first | apply Keeps.updS)

theorem enclWrite_keeps {sc : Scope} {s0 : State} (s : State) (m n k : Nat) (v : Word) (hs : Keeps sc s0 s) : Keeps
    sc s0 (enclWrite s m n k v) := by
  unfold enclWrite
  iterate 40 try any_goals first
    | (with_reducible first
        | assumption | apply staticErr_keeps | apply busErr_keeps | apply wrOk_keeps | apply modHalls_keeps)
    | (show Halls.logicMem _ = _ ∧ _; exact ⟨rfl, rfl, rfl⟩) | split | intro _ | dsimp only | (show _ = _; rfl)
    | (with_reducible first | apply Keeps.updS)

theorem hcFire_keeps {sc : Scope} {s0 : State} (s : State) (i : Nat) (hs : Keeps sc s0 s) : Keeps sc s0 (hcFire s i)
    := by
  unfold hcFire
  iterate 40 try any_goals first
    | (with_reducible first
        | assumption | apply pulse_keeps | apply hcErr_keeps)
    | split | intro _ | dsimp only | (show _ = _; rfl)
    | (with_reducible first | apply Keeps.updS)

theorem hcForce_keeps {sc : Scope} {s0 : State} (s : State) (v : Word) (hs : Keeps sc s0 s) : Keeps sc s0 (hcForce s
    v) := by
  unfold hcForce
  iterate 40 try any_goals first
    | (with_reducible first
        | assumption | apply wrOk_keeps | apply hcFire_keeps | apply Keeps.foldl)
    | split | intro _ | dsimp only | (show _ = _; rfl)
    | (with_reducible first | apply Keeps.updS)

theorem handRefuse_keeps {sc : Scope} {s0 : State} (s : State) (m n : Nat) (hs : Keeps sc s0 s) : Keeps sc s0
    (handRefuse s m n) := by
  unfold handRefuse
  iterate 40 try any_goals first
    | (with_reducible first
        | assumption | apply busErr_keeps | apply noteAt_keeps | apply hcErr_keeps)
    | split | intro _ | dsimp only | (show _ = _; rfl)
    | (with_reducible first | apply Keeps.updS)

theorem handCmd_keeps {sc : Scope} {s0 : State} (s : State) (m n cmd : Nat) (hs : Keeps sc s0 s) : Keeps sc s0
    (handCmd s m n cmd) := by
  unfold handCmd
  iterate 40 try any_goals first
    | (with_reducible first
        | assumption | apply wrOk_keeps | apply modBlock_keeps | apply busErr_keeps | apply handRefuse_keeps)
    | split | intro _ | dsimp only | (show _ = _; rfl)
    | (with_reducible first | apply Keeps.updS)

theorem handDrained_keeps {sc : Scope} {s0 : State} (s : State) (n : Nat) (hs : Keeps sc s0 s) : Keeps sc s0
    (handDrained s n) := by
  unfold handDrained
  iterate 40 try any_goals first
    | (with_reducible first
        | assumption | apply modBlock_keeps | apply putSrc_keeps)
    | split | intro _ | dsimp only | (show _ = _; rfl)
    | (with_reducible first | apply Keeps.updS)

theorem dropHalves_keeps {sc : Scope} {s0 : State} (s : State) (n : Nat) (hs : Keeps sc s0 s) : Keeps sc s0
    (dropHalves s n) := by
  unfold dropHalves
  iterate 40 try any_goals first
    | (with_reducible first
        | assumption)
    | split | intro _ | dsimp only | (show _ = _; rfl)
    | (with_reducible first | apply Keeps.updS)

theorem handResetEnd_keeps {sc : Scope} {s0 : State} (s : State) (n : Nat) (hs : Keeps sc s0 s) : Keeps sc s0
    (handResetEnd s n) := by
  unfold handResetEnd
  iterate 40 try any_goals first
    | (with_reducible first
        | assumption | apply modBlock_keeps | apply dropHalves_keeps | apply clearBlock_keeps)
    | split | intro _ | dsimp only | (show _ = _; rfl)
    | (with_reducible first | apply Keeps.updS)

theorem handClaimEnd_keeps {sc : Scope} {s0 : State} (s : State) (n : Nat) (hs : Keeps sc s0 s) : Keeps sc s0
    (handClaimEnd s n) := by
  unfold handClaimEnd
  iterate 40 try any_goals first
    | (with_reducible first
        | assumption | apply modBlock_keeps | apply putSrc_keeps)
    | split | intro _ | dsimp only | (show _ = _; rfl)
    | (with_reducible first | apply Keeps.updS)

theorem modMpu_keeps {sc : Scope} {s0 : State} (s : State) (core : Nat) (f : Mpu → Mpu) (hs : Keeps sc s0 s) : Keeps
    sc s0 (modMpu s core f) := by
  unfold modMpu
  iterate 40 try any_goals first
    | (with_reducible first
        | assumption | apply modHalls_keeps)
    | (show Halls.logicMem _ = _ ∧ _; exact ⟨rfl, rfl, rfl⟩) | split | intro _ | dsimp only | (show _ = _; rfl)
    | (with_reducible first | apply Keeps.updS)

theorem mpuFault_keeps {sc : Scope} {s0 : State} (s : State) (core region : Nat) (t : Txn) (hs : Keeps sc s0 s) :
    Keeps sc s0 (mpuFault s core region t) := by
  unfold mpuFault
  iterate 40 try any_goals first
    | (with_reducible first
        | assumption | apply emit_keeps | apply modMpu_keeps | apply noteAt_keeps)
    | split | intro _ | dsimp only | (show _ = _; rfl)
    | (with_reducible first | apply Keeps.updS)

theorem mpuSwap_keeps {sc : Scope} {s0 : State} (s : State) (core : Nat) (hs : Keeps sc s0 s) : Keeps sc s0 (mpuSwap
    s core) := by
  unfold mpuSwap
  iterate 40 try any_goals first
    | (with_reducible first
        | assumption | apply busErr_keeps | apply wrOk_keeps | apply pulse_keeps | apply modMpu_keeps)
    | split | intro _ | dsimp only | (show _ = _; rfl)
    | (with_reducible first | apply Keeps.updS)

theorem mpuRelease_keeps {sc : Scope} {s0 : State} (s : State) (core : Nat) (hs : Keeps sc s0 s) : Keeps sc s0
    (mpuRelease s core) := by
  unfold mpuRelease
  iterate 40 try any_goals first
    | (with_reducible first
        | assumption | apply wrOk_keeps | apply modMpu_keeps)
    | split | intro _ | dsimp only | (show _ = _; rfl)
    | (with_reducible first | apply Keeps.updS)

theorem regionWrite_keeps {sc : Scope} {s0 : State} (s : State) (m core : Nat) (b : Bool) (n k : Nat) (v : Word)
    (hs : Keeps sc s0 s) : Keeps sc s0 (regionWrite s m core b n k v) := by
  unfold regionWrite
  iterate 40 try any_goals first
    | (with_reducible first
        | assumption | apply staticErr_keeps | apply busErr_keeps | apply wrOk_keeps | apply modMpu_keeps)
    | split | intro _ | dsimp only | (show _ = _; rfl)
    | (with_reducible first | apply Keeps.updS)

theorem mpuWrite_keepsE {sc : Scope} {s0 t s : State} {m core off : Nat} {v : Word}
    (e : mpuWrite s m core off v = some t) (hs : Keeps sc s0 s) :
    Keeps sc s0 t := by
  unfold mpuWrite at e
  revert e
  repeat' (with_reducible apply Keeps.ite_imp)
  all_goals intro e
  all_goals first | cases e | (obtain ⟨_, _, rfl⟩ := Option.map_eq_some_iff.mp e)
  all_goals iterate 40 try any_goals first
              | (with_reducible first
                  | assumption | apply mpuSwap_keeps | apply wrOk_keeps | apply modMpu_keeps | apply mpuRelease_keeps
                  | apply regionWrite_keeps)
              | split | intro _ | dsimp only | (show _ = _; rfl)
              | (with_reducible first | apply Keeps.updS)

theorem setMem_keeps {sc : Scope} {s0 : State} (s : State) (sp : Space) (m : List Host.Cell) (hs : Keeps sc s0 s)
    (hcm : sc.mem = true := by assumption)
    (hm : Mem.wf (memOf s sp) = true → Mem.wf m = true) : Keeps sc s0 (setMem s sp m) := by
  unfold setMem
  refine modMem_keeps _ _ hs hcm (fun hw => ?_)
  split
  · exact hallsWf_mk hw hm id id
  · exact hallsWf_mk hw id hm id
  · exact hallsWf_mk hw id id hm
  · exact hw

theorem answer_keeps {sc : Scope} {s0 : State} (s : State) (m : Nat) (err : Bool) (data : Bytes)
    (hs : Keeps sc s0 s) : Keeps sc s0 (answer s m err data) := by
  unfold answer
  iterate 40 try any_goals first
    | (with_reducible first
        | assumption | apply emit_keeps)
    | split | intro _ | dsimp only | (show _ = _; rfl)
    | (with_reducible first | apply Keeps.updS)

theorem answerErr_keeps {sc : Scope} {s0 : State} (s : State) (m len : Nat) (write : Bool) (hs : Keeps sc s0 s) :
    Keeps sc s0 (answerErr s m len write) := by
  unfold answerErr
  iterate 40 try any_goals first
    | (with_reducible first
        | assumption | apply answer_keeps)
    | split | intro _ | dsimp only | (show _ = _; rfl)
    | (with_reducible first | apply Keeps.updS)

theorem clearPut_keeps {sc : Scope} {s0 : State} (s : State) (a : Nat) (data : Bytes) (n : Nat) (hs : Keeps sc s0 s)
    : Keeps sc s0 (clearPut s a data n) := by
  unfold clearPut
  iterate 40 try any_goals first
    | (with_reducible first
        | assumption | apply modAlc_keeps)
    | split | intro _ | dsimp only | (show _ = _; rfl)
    | (with_reducible first | apply Keeps.updS)

theorem clearWrite_keeps {sc : Scope} {s0 : State} (s : State) (a : Nat) (data : Bytes) (hs : Keeps sc s0 s) : Keeps
    sc s0 (clearWrite s a data) := by
  unfold clearWrite
  iterate 40 try any_goals first
    | (with_reducible first
        | assumption | apply clearPut_keeps | apply Keeps.foldl)
    | split | intro _ | dsimp only | (show _ = _; rfl)
    | (with_reducible first | apply Keeps.updS)

theorem memDo_keeps {sc : Scope} {s0 : State} (s : State) (t : Txn) (hs : Keeps sc s0 s)
    (hcm : sc.mem = true := by assumption) : Keeps sc s0 (memDo s t) := by
  have h : ∀ u, Keeps sc s0 u → Keeps sc s0 (answer (setMem u t.space (Mem.write (memOf u t.space) t.addr t.data)) t.master false []) :=
    fun u hu => answer_keeps _ _ _ _ (setMem_keeps _ _ _ hu hcm (Mem.wf_write _ _))
  unfold memDo
  dsimp only
  split
  · refine h _ ?_
    iterate 40 try any_goals first
      | (with_reducible first
          | assumption | apply perfAdd_keeps | apply clearWrite_keeps | apply answer_keeps | apply setMem_keeps)
      | split | intro _ | dsimp only | (show _ = _; rfl)
      | (with_reducible first | apply Keeps.updS)
  · iterate 40 try any_goals first
      | (with_reducible first
          | assumption | apply perfAdd_keeps | apply clearWrite_keeps | apply answer_keeps | apply setMem_keeps)
      | split | intro _ | dsimp only | (show _ = _; rfl)
      | (with_reducible first | apply Keeps.updS)

theorem memTxn_keeps {sc : Scope} {s0 : State} (s : State) (t : Txn) (h : Hall) (hs : Keeps sc s0 s)
    (hcm : sc.mem = true := by assumption) : Keeps sc s0 (memTxn s t h) := by
  unfold memTxn
  iterate 40 try any_goals first
    | (with_reducible first
        | assumption | apply answerErr_keeps | apply noteAt_keeps | apply hcErr_keeps | apply perfAdd_keeps
        | apply pulses_keeps | apply memDo_keeps)
    | split | intro _ | dsimp only | (show _ = _; rfl)
    | (with_reducible first | apply Keeps.updS)

theorem hcWrite_keepsE {sc : Scope} {s0 t : State} {s : State} {m off : Nat} {v : Word} (e : hcWrite s m off v =
    some t) (hs : Keeps sc s0 s) : Keeps sc s0 t := by
  unfold hcWrite at e
  repeat' (first | split at e | dsimp only at e)
  all_goals first | (cases e; done) | cases e | skip
  all_goals iterate 40 try any_goals first
              | (with_reducible first
                  | assumption | apply wmLogicWrite_keeps | apply wmMezzWrite_keeps | apply wrOk_keeps
                  | apply modHalls_keeps | apply hcForce_keeps | apply handCmd_keeps | apply enclWrite_keeps)
              | (show Halls.logicMem _ = _ ∧ _; exact ⟨rfl, rfl, rfl⟩) | split | intro _ | dsimp only | (show _ = _; rfl)
              | (with_reducible first | apply Keeps.updS)

theorem execHcWmLogicWrite_keeps {sc : Scope} {s0 : State} (master : Nat) (value : Word) (s : State)
    (hs : Keeps sc s0 s) : KeepsOut sc s0 (execHcWmLogicWrite master value s) := by
  unfold execHcWmLogicWrite
  iterate 40 try any_goals first
    | (with_reducible first
        | assumption | apply KeepsOut.next | apply writeAs_keeps | apply wmLogicWrite_keeps)
    | split | intro _ | dsimp only | (show _ = _; rfl)
    | (with_reducible first | apply Keeps.updS)

theorem execHcWmMezzWrite_keeps {sc : Scope} {s0 : State} (master : Nat) (value : Word) (s : State)
    (hs : Keeps sc s0 s) : KeepsOut sc s0 (execHcWmMezzWrite master value s) := by
  unfold execHcWmMezzWrite
  iterate 40 try any_goals first
    | (with_reducible first
        | assumption | apply KeepsOut.next | apply writeAs_keeps | apply wmMezzWrite_keeps)
    | split | intro _ | dsimp only | (show _ = _; rfl)
    | (with_reducible first | apply Keeps.updS)

theorem execWmMoveCommit_keeps {sc : Scope} {s0 : State} (m : Bool) (s : State) (hs : Keeps sc s0 s)
    (hcm : sc.mem = true := by assumption) :
    KeepsOut sc s0 (execWmMoveCommit m s) := by
  refine KeepsOut.next (modMem_keeps _ _ hs hcm (fun hw => ?_))
  split
  · exact hallsWf_mk hw id Mem.wf_commit id
  · exact hallsWf_mk hw Mem.wf_commit id id

theorem execDrainTimeout_keeps {sc : Scope} {s0 : State} (r : DrainRef) (s : State) (hs : Keeps sc s0 s) : KeepsOut
    sc s0 (execDrainTimeout r s) := by
  unfold execDrainTimeout
  iterate 40 try any_goals first
    | (with_reducible first
        | assumption | apply KeepsOut.next | apply hcFire_keeps | apply handDrained_keeps)
    | split | intro _ | dsimp only | (show _ = _; rfl)
    | (with_reducible first | apply Keeps.updS)

theorem execHandoverReleaseInner_keeps {sc : Scope} {s0 : State} (master block : Nat) (s : State)
    (hs : Keeps sc s0 s) : KeepsOut sc s0 (execHandoverReleaseInner master block s) := by
  unfold execHandoverReleaseInner
  iterate 40 try any_goals first
    | (with_reducible first
        | assumption | apply KeepsOut.next | apply writeAs_keeps | apply handCmd_keeps)
    | split | intro _ | dsimp only | (show _ = _; rfl)
    | (with_reducible first | apply Keeps.updS)

theorem execHandoverReleaseOuter_keeps {sc : Scope} {s0 : State} (master block : Nat) (s : State)
    (hs : Keeps sc s0 s) : KeepsOut sc s0 (execHandoverReleaseOuter master block s) := by
  unfold execHandoverReleaseOuter
  iterate 40 try any_goals first
    | (with_reducible first
        | assumption | apply KeepsOut.next | apply writeAs_keeps | apply handCmd_keeps)
    | split | intro _ | dsimp only | (show _ = _; rfl)
    | (with_reducible first | apply Keeps.updS)

theorem execHandoverClaim_keeps {sc : Scope} {s0 : State} (master block : Nat) (s : State) (hs : Keeps sc s0 s) :
    KeepsOut sc s0 (execHandoverClaim master block s) := by
  unfold execHandoverClaim
  iterate 40 try any_goals first
    | (with_reducible first
        | assumption | apply KeepsOut.next | apply writeAs_keeps | apply handCmd_keeps)
    | split | intro _ | dsimp only | (show _ = _; rfl)
    | (with_reducible first | apply Keeps.updS)

theorem execHandoverDrainEnd_keeps {sc : Scope} {s0 : State} (block : Nat) (s : State) (hs : Keeps sc s0 s) :
    KeepsOut sc s0 (execHandoverDrainEnd block s) := by
  unfold execHandoverDrainEnd
  iterate 40 try any_goals first
    | (with_reducible first
        | assumption | apply KeepsOut.next | apply handDrained_keeps)
    | split | intro _ | dsimp only | (show _ = _; rfl)
    | (with_reducible first | apply Keeps.updS)

theorem execHandoverResetEnd_keeps {sc : Scope} {s0 : State} (block : Nat) (s : State) (hs : Keeps sc s0 s) :
    KeepsOut sc s0 (execHandoverResetEnd block s) := by
  unfold execHandoverResetEnd
  iterate 40 try any_goals first
    | (with_reducible first
        | assumption | apply KeepsOut.next | apply handResetEnd_keeps)
    | split | intro _ | dsimp only | (show _ = _; rfl)
    | (with_reducible first | apply Keeps.updS)

theorem execHandoverClaimCommit_keeps {sc : Scope} {s0 : State} (block : Nat) (s : State) (hs : Keeps sc s0 s) :
    KeepsOut sc s0 (execHandoverClaimCommit block s) := by
  unfold execHandoverClaimCommit
  iterate 40 try any_goals first
    | (with_reducible first
        | assumption | apply KeepsOut.next | apply handClaimEnd_keeps)
    | split | intro _ | dsimp only | (show _ = _; rfl)
    | (with_reducible first | apply Keeps.updS)

theorem execHcEncLock_keeps {sc : Scope} {s0 : State} (master : Nat) (value : Word) (s : State) (hs : Keeps sc s0 s)
    : KeepsOut sc s0 (execHcEncLock master value s) := by
  unfold execHcEncLock
  iterate 40 try any_goals first
    | (with_reducible first
        | assumption | apply KeepsOut.next | apply writeAs_keeps | apply wrOk_keeps | apply modHalls_keeps)
    | (show Halls.logicMem _ = _ ∧ _; exact ⟨rfl, rfl, rfl⟩) | split | intro _ | dsimp only | (show _ = _; rfl)
    | (with_reducible first | apply Keeps.updS)

theorem execHcErrForce_keeps {sc : Scope} {s0 : State} (master : Nat) (value : Word) (s : State)
    (hs : Keeps sc s0 s) : KeepsOut sc s0 (execHcErrForce master value s) := by
  unfold execHcErrForce
  iterate 40 try any_goals first
    | (with_reducible first
        | assumption | apply KeepsOut.next | apply writeAs_keeps | apply hcForce_keeps)
    | split | intro _ | dsimp only | (show _ = _; rfl)
    | (with_reducible first | apply Keeps.updS)

theorem execMpuSwap_keeps {sc : Scope} {s0 : State} (master core : Nat) (s : State) (hs : Keeps sc s0 s) : KeepsOut
    sc s0 (execMpuSwap master core s) := by
  unfold execMpuSwap
  iterate 40 try any_goals first
    | (with_reducible first
        | assumption | apply KeepsOut.next | apply writeAs_keeps | apply mpuSwap_keeps)
    | split | intro _ | dsimp only | (show _ = _; rfl)
    | (with_reducible first | apply Keeps.updS)

theorem execMpuSwapDrainEnd_keeps {sc : Scope} {s0 : State} (core : Nat) (s : State) (hs : Keeps sc s0 s) : KeepsOut
    sc s0 (execMpuSwapDrainEnd core s) := by
  unfold execMpuSwapDrainEnd
  iterate 40 try any_goals first
    | (with_reducible first
        | assumption | apply KeepsOut.next | apply modMpu_keeps)
    | split | intro _ | dsimp only | (show _ = _; rfl)
    | (with_reducible first | apply Keeps.updS)

theorem execMpuFaultRelease_keeps {sc : Scope} {s0 : State} (master core : Nat) (s : State) (hs : Keeps sc s0 s) :
    KeepsOut sc s0 (execMpuFaultRelease master core s) := by
  unfold execMpuFaultRelease
  iterate 40 try any_goals first
    | (with_reducible first
        | assumption | apply KeepsOut.next | apply writeAs_keeps | apply mpuRelease_keeps)
    | split | intro _ | dsimp only | (show _ = _; rfl)
    | (with_reducible first | apply Keeps.updS)

theorem retireBit_keeps {sc : Scope} {s0 : State} (s : State) (bit : Nat) (hs : Keeps sc s0 s) : Keeps sc s0
    (retireBit s bit) := by
  unfold retireBit
  iterate 40 try any_goals first
    | (with_reducible first
        | assumption | apply setCause_keeps)
    | split | intro _ | dsimp only | (show _ = _; rfl)
    | (with_reducible first | apply Keeps.updS)

theorem modBay_keeps {sc : Scope} {s0 : State} (s : State) (b : Nat) (f : BayRegs → BayRegs) (hs : Keeps sc s0 s) :
    Keeps sc s0 (modBay s b f) := by
  unfold modBay
  iterate 40 try any_goals first
    | (with_reducible first
        | assumption)
    | split | intro _ | dsimp only | (show _ = _; rfl)
    | (with_reducible first | apply Keeps.updS)

theorem modLegReg_keeps {sc : Scope} {s0 : State} (s : State) (f : BayRegs → BayRegs) (hs : Keeps sc s0 s) : Keeps
    sc s0 (modLegReg s f) := by
  unfold modLegReg
  iterate 40 try any_goals first
    | (with_reducible first
        | assumption)
    | split | intro _ | dsimp only | (show _ = _; rfl)
    | (with_reducible first | apply Keeps.updS)

theorem beginPipe_keeps {sc : Scope} {s0 : State} (s : State) (i : Nat) (hs : Keeps sc s0 s) : Keeps sc s0
    (beginPipe s i) := by
  unfold beginPipe
  iterate 40 try any_goals first
    | (with_reducible first
        | assumption | apply modPipe_keeps | apply modBay_keeps)
    | split | intro _ | dsimp only | (show _ = _; rfl)
    | (with_reducible first | apply Keeps.updS)

theorem bayBist_keeps {sc : Scope} {s0 : State} (s : State) (b : Nat) (hs : Keeps sc s0 s) : Keeps sc s0 (bayBist s
    b) := by
  unfold bayBist
  iterate 40 try any_goals first
    | (with_reducible first
        | assumption | apply busErr_keeps | apply beginPipe_keeps | apply wrOk_keeps)
    | split | intro _ | dsimp only | (show _ = _; rfl)
    | (with_reducible first | apply Keeps.updS)

theorem beginLegacy_keeps {sc : Scope} {s0 : State} (s : State) (hs : Keeps sc s0 s) : Keeps sc s0 (beginLegacy s)
    := by
  unfold beginLegacy
  iterate 40 try any_goals first
    | (with_reducible first
        | assumption | apply modLegReg_keeps | apply modLegacy_keeps)
    | split | intro _ | dsimp only | (show _ = _; rfl)
    | (with_reducible first | apply Keeps.updS)

theorem bayFire_keeps {sc : Scope} {s0 : State} (s : State) (b i : Nat) (hs : Keeps sc s0 s) : Keeps sc s0 (bayFire
    s b i) := by
  unfold bayFire
  iterate 40 try any_goals first
    | (with_reducible first
        | assumption | apply modBay_keeps | apply raise_keeps | apply losePipe_keeps | apply pulse_keeps)
    | split | intro _ | dsimp only | (show _ = _; rfl)
    | (with_reducible first | apply Keeps.updS)

theorem bayForce_keeps {sc : Scope} {s0 : State} (s : State) (b : Nat) (v : Word) (hs : Keeps sc s0 s) : Keeps sc s0
    (bayForce s b v) := by
  unfold bayForce
  iterate 40 try any_goals first
    | (with_reducible first
        | assumption | apply wrOk_keeps | apply bayFire_keeps | apply Keeps.foldl)
    | split | intro _ | dsimp only | (show _ = _; rfl)
    | (with_reducible first | apply Keeps.updS)

theorem legacyFire_keeps {sc : Scope} {s0 : State} (s : State) (i : Nat) (hs : Keeps sc s0 s) : Keeps sc s0
    (legacyFire s i) := by
  unfold legacyFire
  iterate 40 try any_goals first
    | (with_reducible first
        | assumption | apply modLegReg_keeps | apply raise_keeps | apply pulse_keeps | apply loseLegacy_keeps)
    | split | intro _ | dsimp only | (show _ = _; rfl)
    | (with_reducible first | apply Keeps.updS)

theorem legacyForce_keeps {sc : Scope} {s0 : State} (s : State) (v : Word) (hs : Keeps sc s0 s) : Keeps sc s0
    (legacyForce s v) := by
  unfold legacyForce
  iterate 40 try any_goals first
    | (with_reducible first
        | assumption | apply wrOk_keeps | apply legacyFire_keeps | apply Keeps.foldl)
    | split | intro _ | dsimp only | (show _ = _; rfl)
    | (with_reducible first | apply Keeps.updS)

theorem legacyBist_keeps {sc : Scope} {s0 : State} (s : State) (m : Nat) (hs : Keeps sc s0 s) : Keeps sc s0
    (legacyBist s m) := by
  unfold legacyBist
  iterate 40 try any_goals first
    | (with_reducible first
        | assumption | apply wrOk_keeps | apply beginLegacy_keeps | apply staticErr_keeps)
    | split | intro _ | dsimp only | (show _ = _; rfl)
    | (with_reducible first | apply Keeps.updS)

theorem loseCtx_keeps {sc : Scope} {s0 : State} (s : State) (c : Nat) (hs : Keeps sc s0 s) : Keeps sc s0 (loseCtx s
    c) := by
  unfold loseCtx
  iterate 40 try any_goals first
    | (with_reducible first
        | assumption | apply opFail_keeps | apply releaseCtx_keeps | apply Keeps.foldl)
    | split | intro _ | dsimp only | (show _ = _; rfl)
    | (with_reducible first | apply Keeps.updS)

theorem ctxFire_keeps {sc : Scope} {s0 : State} (s : State) (i : Nat) (c : Option Nat) (hs : Keeps sc s0 s) : Keeps
    sc s0 (ctxFire s i c) := by
  unfold ctxFire
  iterate 40 try any_goals first
    | (with_reducible first
        | assumption | apply pulse_keeps | apply loseCtx_keeps)
    | split | intro _ | dsimp only | (show _ = _; rfl)
    | (with_reducible first | apply Keeps.updS)

theorem ctxForce_keeps {sc : Scope} {s0 : State} (s : State) (v : Word) (hs : Keeps sc s0 s) : Keeps sc s0 (ctxForce
    s v) := by
  unfold ctxForce
  iterate 40 try any_goals first
    | (with_reducible first
        | assumption | apply wrOk_keeps | apply ctxFire_keeps | apply Keeps.foldl)
    | split | intro _ | dsimp only | (show _ = _; rfl)
    | (with_reducible first | apply Keeps.updS)

theorem cbWrite_keepsE {sc : Scope} {s0 t : State} {s : State} {m b off : Nat} {v : Word} (e : cbWrite s m b off v =
    some t) (hs : Keeps sc s0 s) : Keeps sc s0 t := by
  unfold cbWrite at e
  repeat' (first | split at e | dsimp only at e)
  all_goals first | (cases e; done) | cases e | skip
  all_goals iterate 40 try any_goals first
              | (with_reducible first
                  | assumption | apply modBay_keeps | apply bayBist_keeps | apply wrOk_keeps | apply bayForce_keeps
                  | apply ctxForce_keeps | apply modLegReg_keeps | apply legacyBist_keeps | apply legacyForce_keeps)
              | split | intro _ | dsimp only | (show _ = _; rfl)
              | (with_reducible first | apply Keeps.updS)

theorem endOp_keeps {sc : Scope} {s0 : State} (s : State) (n : Nat) (w : Wing) (hs : Keeps sc s0 s) : Keeps sc s0
    (endOp s n w) := by
  unfold endOp
  iterate 40 try any_goals first
    | (with_reducible first
        | assumption | apply opDone_keeps)
    | split | intro _ | dsimp only | (show _ = _; rfl)
    | (with_reducible first | apply Keeps.updS)

theorem execCipherOpDone_keeps {sc : Scope} {s0 : State} (op : Nat) (s : State) (hs : Keeps sc s0 s) : KeepsOut sc
    s0 (execCipherOpDone op s) := by
  unfold execCipherOpDone
  iterate 40 try any_goals first
    | (with_reducible first
        | assumption | apply KeepsOut.next | apply endOp_keeps)
    | split | intro _ | dsimp only | (show _ = _; rfl)
    | (with_reducible first | apply Keeps.updS)

theorem execHashOpDone_keeps {sc : Scope} {s0 : State} (op : Nat) (copiesAgree : Bool) (s : State)
    (hs : Keeps sc s0 s) : KeepsOut sc s0 (execHashOpDone op copiesAgree s) := by
  unfold execHashOpDone
  iterate 40 try any_goals first
    | (with_reducible first
        | assumption | apply KeepsOut.next | apply endOp_keeps | apply pulse_keeps | apply loseLane_keeps)
    | split | intro _ | dsimp only | (show _ = _; rfl)
    | (with_reducible first | apply Keeps.updS)

theorem execLegacyOpDone_keeps {sc : Scope} {s0 : State} (op : Nat) (s : State) (hs : Keeps sc s0 s) : KeepsOut sc
    s0 (execLegacyOpDone op s) := by
  unfold execLegacyOpDone
  iterate 40 try any_goals first
    | (with_reducible first
        | assumption | apply KeepsOut.next | apply endOp_keeps)
    | split | intro _ | dsimp only | (show _ = _; rfl)
    | (with_reducible first | apply Keeps.updS)

theorem execCbBistStart_keeps {sc : Scope} {s0 : State} (master bay : Nat) (s : State) (hs : Keeps sc s0 s) :
    KeepsOut sc s0 (execCbBistStart master bay s) := by
  unfold execCbBistStart
  iterate 40 try any_goals first
    | (with_reducible first
        | assumption | apply KeepsOut.next | apply writeAs_keeps | apply bayBist_keeps)
    | split | intro _ | dsimp only | (show _ = _; rfl)
    | (with_reducible first | apply Keeps.updS)

theorem execCbErrForce_keeps {sc : Scope} {s0 : State} (master bay : Nat) (value : Word) (s : State)
    (hs : Keeps sc s0 s) : KeepsOut sc s0 (execCbErrForce master bay value s) := by
  unfold execCbErrForce
  iterate 40 try any_goals first
    | (with_reducible first
        | assumption | apply KeepsOut.next | apply writeAs_keeps | apply bayForce_keeps)
    | split | intro _ | dsimp only | (show _ = _; rfl)
    | (with_reducible first | apply Keeps.updS)

theorem execCbErrFire_keeps {sc : Scope} {s0 : State} (bay source : Nat) (s : State) (hs : Keeps sc s0 s) : KeepsOut
    sc s0 (execCbErrFire bay source s) := by
  unfold execCbErrFire
  iterate 40 try any_goals first
    | (with_reducible first
        | assumption | apply KeepsOut.next | apply bayFire_keeps)
    | split | intro _ | dsimp only | (show _ = _; rfl)
    | (with_reducible first | apply Keeps.updS)

theorem execCwCtxForce_keeps {sc : Scope} {s0 : State} (master : Nat) (value : Word) (s : State)
    (hs : Keeps sc s0 s) : KeepsOut sc s0 (execCwCtxForce master value s) := by
  unfold execCwCtxForce
  iterate 40 try any_goals first
    | (with_reducible first
        | assumption | apply KeepsOut.next | apply writeAs_keeps | apply ctxForce_keeps)
    | split | intro _ | dsimp only | (show _ = _; rfl)
    | (with_reducible first | apply Keeps.updS)

theorem execCwCtxErrFire_keeps {sc : Scope} {s0 : State} (source : Nat) (ctx : Option Nat) (s : State)
    (hs : Keeps sc s0 s) : KeepsOut sc s0 (execCwCtxErrFire source ctx s) := by
  unfold execCwCtxErrFire
  iterate 40 try any_goals first
    | (with_reducible first
        | assumption | apply KeepsOut.next | apply ctxFire_keeps)
    | split | intro _ | dsimp only | (show _ = _; rfl)
    | (with_reducible first | apply Keeps.updS)

theorem execCwLegacyBistStart_keeps {sc : Scope} {s0 : State} (master : Nat) (s : State) (hs : Keeps sc s0 s) :
    KeepsOut sc s0 (execCwLegacyBistStart master s) := by
  unfold execCwLegacyBistStart
  iterate 40 try any_goals first
    | (with_reducible first
        | assumption | apply KeepsOut.next | apply writeAs_keeps | apply legacyBist_keeps)
    | split | intro _ | dsimp only | (show _ = _; rfl)
    | (with_reducible first | apply Keeps.updS)

theorem execCwLegacyForce_keeps {sc : Scope} {s0 : State} (master : Nat) (value : Word) (s : State)
    (hs : Keeps sc s0 s) : KeepsOut sc s0 (execCwLegacyForce master value s) := by
  unfold execCwLegacyForce
  iterate 40 try any_goals first
    | (with_reducible first
        | assumption | apply KeepsOut.next | apply writeAs_keeps | apply legacyForce_keeps)
    | split | intro _ | dsimp only | (show _ = _; rfl)
    | (with_reducible first | apply Keeps.updS)

theorem execCwLegacyErrFire_keeps {sc : Scope} {s0 : State} (source : Nat) (s : State) (hs : Keeps sc s0 s) :
    KeepsOut sc s0 (execCwLegacyErrFire source s) := by
  unfold execCwLegacyErrFire
  iterate 40 try any_goals first
    | (with_reducible first
        | assumption | apply KeepsOut.next | apply legacyFire_keeps)
    | split | intro _ | dsimp only | (show _ = _; rfl)
    | (with_reducible first | apply Keeps.updS)

theorem bindBay_keeps {sc : Scope} {s0 : State} (s : State) (b j : Nat) (hs : Keeps sc s0 s) : Keeps sc s0 (bindBay
    s b j) := by
  unfold bindBay
  iterate 40 try any_goals first
    | (with_reducible first
        | assumption | apply modPk_keeps)
    | split | intro _ | dsimp only | (show _ = _; rfl)
    | (with_reducible first | apply Keeps.updS)

theorem pkClocks_keeps {sc : Scope} {s0 : State} (s : State) (hs : Keeps sc s0 s) : Keeps sc s0 (pkClocks s) := by
  unfold pkClocks
  iterate 40 try any_goals first
    | (with_reducible first
        | assumption | apply modPk_keeps)
    | split | intro _ | dsimp only | (show _ = _; rfl)
    | (with_reducible first | apply Keeps.updS)

theorem coreProg_keeps {sc : Scope} {s0 : State} (s : State) (i prog : Nat) (hs : Keeps sc s0 s) : Keeps sc s0
    (coreProg s i prog) := by
  unfold coreProg
  iterate 40 try any_goals first
    | (with_reducible first
        | assumption | apply modCore_keeps)
    | split | intro _ | dsimp only | (show _ = _; rfl)
    | (with_reducible first | apply Keeps.updS)

theorem coreIdle_keeps {sc : Scope} {s0 : State} (s : State) (i : Nat) (hs : Keeps sc s0 s) : Keeps sc s0 (coreIdle
    s i) := by
  unfold coreIdle
  iterate 40 try any_goals first
    | (with_reducible first
        | assumption | apply modCore_keeps)
    | split | intro _ | dsimp only | (show _ = _; rfl)
    | (with_reducible first | apply Keeps.updS)

theorem coreZero_keeps {sc : Scope} {s0 : State} (s : State) (i : Nat) (hs : Keeps sc s0 s) : Keeps sc s0 (coreZero
    s i) := by
  unfold coreZero
  iterate 40 try any_goals first
    | (with_reducible first
        | assumption | apply modCore_keeps)
    | split | intro _ | dsimp only | (show _ = _; rfl)
    | (with_reducible first | apply Keeps.updS)

theorem endAborted_keeps {sc : Scope} {s0 : State} (s : State) (i : Option Nat) (j : Nat) (hs : Keeps sc s0 s) :
    Keeps sc s0 (endAborted s i j) := by
  unfold endAborted
  iterate 40 try any_goals first
    | (with_reducible first
        | assumption | apply removeJob_keeps | apply noteSlots_keeps | apply failWork_keeps | apply delWork_keeps
        | apply countSlots_keeps)
    | split | intro _ | dsimp only | (show _ = _; rfl)
    | (with_reducible first | apply Keeps.updS)

theorem dropJobs_keeps {sc : Scope} {s0 : State} (s : State) (l : List Nat) (hs : Keeps sc s0 s) : Keeps sc s0
    (dropJobs s l) := by
  unfold dropJobs
  iterate 40 try any_goals first
    | (with_reducible first
        | assumption | apply modJob_keeps | apply endAborted_keeps | apply Keeps.foldl)
    | split | intro _ | dsimp only | (show _ = _; rfl)
    | (with_reducible first | apply Keeps.updS)

theorem abortFellows_keeps {sc : Scope} {s0 : State} (s : State) (w : Nat) (hs : Keeps sc s0 s) : Keeps sc s0
    (abortFellows s w) := by
  unfold abortFellows
  iterate 40 try any_goals first
    | (with_reducible first
        | assumption | apply dropJobs_keeps)
    | split | intro _ | dsimp only | (show _ = _; rfl)
    | (with_reducible first | apply Keeps.updS)

theorem noEntropy_keeps {sc : Scope} {s0 : State} (s : State) (i j w : Nat) (hs : Keeps sc s0 s) : Keeps sc s0
    (noEntropy s i j w) := by
  unfold noEntropy
  iterate 40 try any_goals first
    | (with_reducible first
        | assumption | apply coreZero_keeps | apply abortFellows_keeps | apply removeJob_keeps
        | apply failWork_keeps | apply noteSlots_keeps)
    | split | intro _ | dsimp only | (show _ = _; rfl)
    | (with_reducible first | apply Keeps.updS)

theorem startProg_keeps {sc : Scope} {s0 : State} (s : State) (i j : Nat) (x : Job) (hs : Keeps sc s0 s) : Keeps sc
    s0 (startProg s i j x) := by
  unfold startProg
  iterate 40 try any_goals first
    | (with_reducible first
        | assumption | apply coreProg_keeps | apply countDraw_keeps | apply noEntropy_keeps)
    | split | intro _ | dsimp only | (show _ = _; rfl)
    | (with_reducible first | apply Keeps.updS)

theorem giveCore_keeps {sc : Scope} {s0 : State} (s : State) (i j : Nat) (hs : Keeps sc s0 s) : Keeps sc s0
    (giveCore s i j) := by
  unfold giveCore
  iterate 40 try any_goals first
    | (with_reducible first
        | assumption | apply modPk_keeps | apply modCore_keeps | apply startProg_keeps | apply perfAdd_keeps
        | apply bindBay_keeps)
    | split | intro _ | dsimp only | (show _ = _; rfl)
    | (with_reducible first | apply Keeps.updS)

theorem assignJobs_keeps {sc : Scope} {s0 : State} (x0 : Nat) (s : State) (hs : Keeps sc s0 s) : Keeps sc s0
    (assignJobs x0 s) := by
  induction x0 generalizing s with
  | zero => exact hs
  | succ n ih =>
    unfold assignJobs
    iterate 40 try any_goals first
      | (with_reducible first
          | assumption | apply ih | apply giveCore_keeps)
      | split | intro _ | dsimp only | (show _ = _; rfl)
      | (with_reducible first | apply Keeps.updS)

theorem pkSchedule_keeps {sc : Scope} {s0 : State} (s : State) (hs : Keeps sc s0 s) : Keeps sc s0 (pkSchedule s) :=
    by
  unfold pkSchedule
  iterate 40 try any_goals first
    | (with_reducible first
        | assumption | apply pkClocks_keeps | apply assignJobs_keeps)
    | split | intro _ | dsimp only | (show _ = _; rfl)
    | (with_reducible first | apply Keeps.updS)

theorem abortAlcove_keeps {sc : Scope} {s0 : State} (s : State) (a : Nat) (hs : Keeps sc s0 s) : Keeps sc s0
    (abortAlcove s a) := by
  unfold abortAlcove
  iterate 40 try any_goals first
    | (with_reducible first
        | assumption | apply dropJobs_keeps)
    | split | intro _ | dsimp only | (show _ = _; rfl)
    | (with_reducible first | apply Keeps.updS)

theorem addJobs_keeps {sc : Scope} {s0 : State} (x0 : Nat) (s : State) (x2 : Job) (hs : Keeps sc s0 s) : Keeps sc s0
    (addJobs x0 s x2) := by
  induction x0 generalizing s x2 with
  | zero => exact hs
  | succ n ih =>
    unfold addJobs
    iterate 40 try any_goals first
      | (with_reducible first
          | assumption | apply ih | apply modPk_keeps)
      | split | intro _ | dsimp only | (show _ = _; rfl)
      | (with_reducible first | apply Keeps.updS)

theorem issueJob_keeps {sc : Scope} {s0 : State} (s : State) (w : Nat) (k : Work) (prog width : Nat) (long stair :
    Bool) (pins : List Nat) (r : Result) (hs : Keeps sc s0 s) : Keeps sc s0 (issueJob s w k prog width long stair
    pins r) := by
  unfold issueJob
  iterate 40 try any_goals first
    | (with_reducible first
        | assumption | apply pkSchedule_keeps | apply modWork_keeps | apply addJobs_keeps)
    | split | intro _ | dsimp only | (show _ = _; rfl)
    | (with_reducible first | apply Keeps.updS)

theorem freshWork_keeps {sc : Scope} {s0 : State} (s : State) (w : Nat) (hs : Keeps sc s0 s) : Keeps sc s0
    (freshWork s w) := by
  unfold freshWork
  iterate 40 try any_goals first
    | (with_reducible first
        | assumption | apply modWork_keeps)
    | split | intro _ | dsimp only | (show _ = _; rfl)
    | (with_reducible first | apply Keeps.updS)

theorem rerunWork_keeps {sc : Scope} {s0 : State} (s : State) (w : Nat) (again : Bool) (hs : Keeps sc s0 s) : Keeps
    sc s0 (rerunWork s w again) := by
  unfold rerunWork
  iterate 40 try any_goals first
    | (with_reducible first
        | assumption | apply dropJobs_keeps | apply addJobs_keeps | apply freshWork_keeps)
    | split | intro _ | dsimp only | (show _ = _; rfl)
    | (with_reducible first | apply Keeps.updS)

theorem pkFail_keeps {sc : Scope} {s0 : State} (s : State) (w i status : Nat) (hs : Keeps sc s0 s) : Keeps sc s0
    (pkFail s w i status) := by
  unfold pkFail
  iterate 40 try any_goals first
    | (with_reducible first
        | assumption | apply noteSlots_keeps | apply abortFellows_keeps | apply failWork_keeps)
    | split | intro _ | dsimp only | (show _ = _; rfl)
    | (with_reducible first | apply Keeps.updS)

theorem endSlots_keeps {sc : Scope} {s0 : State} (s : State) (i : Nat) (x : Job) (hs : Keeps sc s0 s) : Keeps sc s0
    (endSlots s i x) := by
  unfold endSlots
  iterate 40 try any_goals first
    | (with_reducible first
        | assumption | apply countSlots_keeps | apply noteSlots_keeps)
    | split | intro _ | dsimp only | (show _ = _; rfl)
    | (with_reducible first | apply Keeps.updS)

theorem pkDeliver_keeps {sc : Scope} {s0 : State} (s : State) (i j : Nat) (x : Job) (hs : Keeps sc s0 s) : Keeps sc
    s0 (pkDeliver s i j x) := by
  unfold pkDeliver
  iterate 40 try any_goals first
    | (with_reducible first
        | assumption | apply deliver_keeps | apply costAfter_keeps | apply removeJob_keeps | apply endSlots_keeps)
    | split | intro _ | dsimp only | (show _ = _; rfl)
    | (with_reducible first | apply Keeps.updS)

theorem parkJob_keeps {sc : Scope} {s0 : State} (s : State) (i j : Nat) (hs : Keeps sc s0 s) : Keeps sc s0 (parkJob
    s i j) := by
  unfold parkJob
  iterate 40 try any_goals first
    | (with_reducible first
        | assumption | apply modPk_keeps | apply modJob_keeps)
    | split | intro _ | dsimp only | (show _ = _; rfl)
    | (with_reducible first | apply Keeps.updS)

theorem halfEnd_keeps {sc : Scope} {s0 : State} (s : State) (i j : Nat) (x : Job) (hs : Keeps sc s0 s) : Keeps sc s0
    (halfEnd s i j x) := by
  unfold halfEnd
  iterate 40 try any_goals first
    | (with_reducible first
        | assumption | apply coreIdle_keeps | apply modJob_keeps | apply parkJob_keeps | apply modPk_keeps
        | apply startProg_keeps)
    | split | intro _ | dsimp only | (show _ = _; rfl)
    | (with_reducible first | apply Keeps.updS)

theorem coreErr_keeps {sc : Scope} {s0 : State} (s : State) (i b : Nat) (hs : Keeps sc s0 s) : Keeps sc s0 (coreErr
    s i b) := by
  unfold coreErr
  iterate 40 try any_goals first
    | (with_reducible first
        | assumption | apply modCore_keeps | apply raise_keeps)
    | split | intro _ | dsimp only | (show _ = _; rfl)
    | (with_reducible first | apply Keeps.updS)

theorem loseCore_keeps {sc : Scope} {s0 : State} (s : State) (i : Nat) (hs : Keeps sc s0 s) : Keeps sc s0 (loseCore
    s i) := by
  unfold loseCore
  iterate 40 try any_goals first
    | (with_reducible first
        | assumption | apply modCore_keeps | apply capFall_keeps)
    | split | intro _ | dsimp only | (show _ = _; rfl)
    | (with_reducible first | apply Keeps.updS)

theorem settleCore_keeps {sc : Scope} {s0 : State} (s : State) (i : Nat) (hs : Keeps sc s0 s) : Keeps sc s0
    (settleCore s i) := by
  unfold settleCore
  iterate 40 try any_goals first
    | (with_reducible first
        | assumption | apply lostSettle_keeps | apply retireBit_keeps | apply modCore_keeps)
    | split | intro _ | dsimp only | (show _ = _; rfl)
    | (with_reducible first | apply Keeps.updS)

theorem reissueJob_keeps {sc : Scope} {s0 : State} (s : State) (i j : Nat) (hs : Keeps sc s0 s) : Keeps sc s0
    (reissueJob s i j) := by
  unfold reissueJob
  iterate 40 try any_goals first
    | (with_reducible first
        | assumption | apply endAborted_keeps | apply rerunWork_keeps | apply pkFail_keeps)
    | split | intro _ | dsimp only | (show _ = _; rfl)
    | (with_reducible first | apply Keeps.updS)

theorem coreLost_keeps {sc : Scope} {s0 : State} (s : State) (i : Nat) (hs : Keeps sc s0 s) : Keeps sc s0 (coreLost
    s i) := by
  unfold coreLost
  iterate 40 try any_goals first
    | (with_reducible first
        | assumption | apply loseCore_keeps | apply reissueJob_keeps)
    | split | intro _ | dsimp only | (show _ = _; rfl)
    | (with_reducible first | apply Keeps.updS)

theorem checkFailed_keeps {sc : Scope} {s0 : State} (s : State) (i : Nat) (hs : Keeps sc s0 s) : Keeps sc s0
    (checkFailed s i) := by
  unfold checkFailed
  iterate 40 try any_goals first
    | (with_reducible first
        | assumption | apply loseCore_keeps | apply coreErr_keeps | apply endAborted_keeps | apply rerunWork_keeps
        | apply noteSlots_keeps | apply pkFail_keeps | apply reissueJob_keeps | apply pkSchedule_keeps
        | apply settleCore_keeps | apply pulse_keeps)
    | split | intro _ | dsimp only | (show _ = _; rfl)
    | (with_reducible first | apply Keeps.updS)

theorem pkFire_keeps {sc : Scope} {s0 : State} (s : State) (i b : Nat) (hs : Keeps sc s0 s) : Keeps sc s0 (pkFire s
    i b) := by
  unfold pkFire
  iterate 40 try any_goals first
    | (with_reducible first
        | assumption | apply checkFailed_keeps | apply coreLost_keeps | apply coreErr_keeps | apply pkSchedule_keeps
        | apply settleCore_keeps | apply pulse_keeps | apply Keeps.foldl)
    | split | intro _ | dsimp only | (show _ = _; rfl)
    | (with_reducible first | apply Keeps.updS)

theorem pkForce_keeps {sc : Scope} {s0 : State} (s : State) (i : Nat) (v : Word) (hs : Keeps sc s0 s) : Keeps sc s0
    (pkForce s i v) := by
  unfold pkForce
  iterate 40 try any_goals first
    | (with_reducible first
        | assumption | apply wrOk_keeps | apply pkFire_keeps | apply Keeps.foldl)
    | split | intro _ | dsimp only | (show _ = _; rfl)
    | (with_reducible first | apply Keeps.updS)

theorem yieldPoint_keeps {sc : Scope} {s0 : State} (s : State) (i : Nat) (same : List Nat) (hs : Keeps sc s0 s) :
    Keeps sc s0 (yieldPoint s i same) := by
  unfold yieldPoint
  iterate 40 try any_goals first
    | (with_reducible first
        | assumption | apply modJob_keeps | apply perfAdd_keeps | apply pkSchedule_keeps | apply coreZero_keeps
        | apply endAborted_keeps | apply noteSlots_keeps | apply abortFellows_keeps | apply removeJob_keeps
        | apply failWork_keeps | apply modCore_keeps)
    | split | intro _ | dsimp only | (show _ = _; rfl)
    | (with_reducible first | apply Keeps.updS)

theorem parkMoved_keeps {sc : Scope} {s0 : State} (s : State) (i : Nat) (hs : Keeps sc s0 s) : Keeps sc s0
    (parkMoved s i) := by
  unfold parkMoved
  iterate 40 try any_goals first
    | (with_reducible first
        | assumption | apply modCore_keeps | apply perfAdd_keeps | apply parkJob_keeps | apply coreIdle_keeps
        | apply pkSchedule_keeps | apply endAborted_keeps | apply coreProg_keeps | apply modJob_keeps)
    | split | intro _ | dsimp only | (show _ = _; rfl)
    | (with_reducible first | apply Keeps.updS)

theorem jobEnd_keeps {sc : Scope} {s0 : State} (s : State) (i : Nat) (ok : Bool) (hs : Keeps sc s0 s) : Keeps sc s0
    (jobEnd s i ok) := by
  unfold jobEnd
  iterate 40 try any_goals first
    | (with_reducible first
        | assumption | apply useFree_keeps | apply checkFailed_keeps | apply pkSchedule_keeps | apply coreZero_keeps
        | apply endAborted_keeps | apply halfEnd_keeps | apply coreIdle_keeps | apply pkDeliver_keeps)
    | split | intro _ | dsimp only | (show _ = _; rfl)
    | (with_reducible first | apply Keeps.updS)

theorem unitTested_keeps {sc : Scope} {s0 : State} (s : State) (k : UnitKind) (index sub : Nat) (ok : Bool)
    (hs : Keeps sc s0 s) : Keeps sc s0 (unitTested s k index sub ok) := by
  unfold unitTested
  iterate 40 try any_goals first
    | (with_reducible first
        | assumption | apply modPipe_keeps | apply lostSettle_keeps | apply retireBit_keeps | apply modCore_keeps
        | apply modLane_keeps | apply modLegacy_keeps)
    | split | intro _ | dsimp only | (show _ = _; rfl)
    | (with_reducible first | apply Keeps.updS)

theorem unitBegin_keeps {sc : Scope} {s0 : State} (s : State) (k : UnitKind) (i : Nat) (hs : Keeps sc s0 s) : Keeps
    sc s0 (unitBegin s k i) := by
  unfold unitBegin
  iterate 40 try any_goals first
    | (with_reducible first
        | assumption | apply beginPipe_keeps | apply modCore_keeps | apply modLane_keeps | apply beginLegacy_keeps)
    | split | intro _ | dsimp only | (show _ = _; rfl)
    | (with_reducible first | apply Keeps.updS)

theorem testBits_keeps {sc : Scope} {s0 : State} (s : State) (k : UnitKind) (index sub : Nat) (bist kat : Bool)
    (hs : Keeps sc s0 s) : Keeps sc s0 (testBits s k index sub bist kat) := by
  unfold testBits
  iterate 40 try any_goals first
    | (with_reducible first
        | assumption | apply modBay_keeps | apply coreProg_keeps | apply modCore_keeps | apply modLegReg_keeps)
    | split | intro _ | dsimp only | (show _ = _; rfl)
    | (with_reducible first | apply Keeps.updS)

theorem selfReturn_keeps {sc : Scope} {s0 : State} (s : State) (i : Nat) (pass : Bool) (hs : Keeps sc s0 s) : Keeps
    sc s0 (selfReturn s i pass) := by
  unfold selfReturn
  iterate 40 try any_goals first
    | (with_reducible first
        | assumption | apply coreProg_keeps | apply modCore_keeps | apply lostSettle_keeps | apply retireBit_keeps)
    | split | intro _ | dsimp only | (show _ = _; rfl)
    | (with_reducible first | apply Keeps.updS)

theorem parkFire_keeps {sc : Scope} {s0 : State} (s : State) (b : Nat) (slot : Option Nat) (hs : Keeps sc s0 s) :
    Keeps sc s0 (parkFire s b slot) := by
  unfold parkFire
  iterate 40 try any_goals first
    | (with_reducible first
        | assumption | apply modPk_keeps | apply pulse_keeps | apply pkSchedule_keeps | apply endAborted_keeps
        | apply rerunWork_keeps | apply removeJob_keeps | apply pkFail_keeps)
    | split | intro _ | dsimp only | (show _ = _; rfl)
    | (with_reducible first | apply Keeps.updS)

theorem parkForce_keeps {sc : Scope} {s0 : State} (s : State) (v : Word) (hs : Keeps sc s0 s) : Keeps sc s0
    (parkForce s v) := by
  unfold parkForce
  iterate 40 try any_goals first
    | (with_reducible first
        | assumption | apply wrOk_keeps | apply parkFire_keeps | apply Keeps.foldl)
    | split | intro _ | dsimp only | (show _ = _; rfl)
    | (with_reducible first | apply Keeps.updS)

theorem omAddr_keeps {sc : Scope} {s0 : State} (s : State) (i : Nat) (v : Word) (hs : Keeps sc s0 s) : Keeps sc s0
    (omAddr s i v) := by
  unfold omAddr
  iterate 40 try any_goals first
    | (with_reducible first
        | assumption | apply wrOk_keeps | apply modCore_keeps | apply busErr_keeps)
    | split | intro _ | dsimp only | (show _ = _; rfl)
    | (with_reducible first | apply Keeps.updS)

theorem omData_keeps {sc : Scope} {s0 : State} (s : State) (i n : Nat) (v : Word) (hs : Keeps sc s0 s) : Keeps sc s0
    (omData s i n v) := by
  unfold omData
  iterate 40 try any_goals first
    | (with_reducible first
        | assumption | apply wrOk_keeps | apply modCore_keeps | apply busErr_keeps)
    | split | intro _ | dsimp only | (show _ = _; rfl)
    | (with_reducible first | apply Keeps.updS)

theorem coreBist_keeps {sc : Scope} {s0 : State} (s : State) (m i : Nat) (hs : Keeps sc s0 s) : Keeps sc s0
    (coreBist s m i) := by
  unfold coreBist
  iterate 40 try any_goals first
    | (with_reducible first
        | assumption | apply wrOk_keeps | apply unitBegin_keeps | apply staticErr_keeps)
    | split | intro _ | dsimp only | (show _ = _; rfl)
    | (with_reducible first | apply Keeps.updS)

theorem pkWrite_keepsE {sc : Scope} {s0 t : State} {s : State} {m b n off : Nat} {v : Word} (e : pkWrite s m b n off
    v = some t) (hs : Keeps sc s0 s) : Keeps sc s0 t := by
  unfold pkWrite at e
  repeat' (first | split at e | dsimp only at e)
  all_goals first | (cases e; done) | cases e | skip
  all_goals iterate 40 try any_goals first
              | (with_reducible first
                  | assumption | apply modCore_keeps | apply coreBist_keeps | apply wrOk_keeps | apply pkForce_keeps
                  | apply omAddr_keeps | apply omData_keeps | apply modPk_keeps | apply parkForce_keeps)
              | split | intro _ | dsimp only | (show _ = _; rfl)
              | (with_reducible first | apply Keeps.updS)

theorem execPkYieldPoint_keeps {sc : Scope} {s0 : State} (bay core : Nat) (same : List Nat) (s : State)
    (hs : Keeps sc s0 s) : KeepsOut sc s0 (execPkYieldPoint bay core same s) := by
  unfold execPkYieldPoint
  iterate 40 try any_goals first
    | (with_reducible first
        | assumption | apply KeepsOut.next | apply yieldPoint_keeps)
    | split | intro _ | dsimp only | (show _ = _; rfl)
    | (with_reducible first | apply Keeps.updS)

theorem execPkParkMoveDone_keeps {sc : Scope} {s0 : State} (bay core : Nat) (s : State) (hs : Keeps sc s0 s) :
    KeepsOut sc s0 (execPkParkMoveDone bay core s) := by
  unfold execPkParkMoveDone
  iterate 40 try any_goals first
    | (with_reducible first
        | assumption | apply KeepsOut.next | apply parkMoved_keeps)
    | split | intro _ | dsimp only | (show _ = _; rfl)
    | (with_reducible first | apply Keeps.updS)

theorem execPkJobEnd_keeps {sc : Scope} {s0 : State} (bay core : Nat) (checkOk : Bool) (s : State)
    (hs : Keeps sc s0 s) : KeepsOut sc s0 (execPkJobEnd bay core checkOk s) := by
  unfold execPkJobEnd
  iterate 40 try any_goals first
    | (with_reducible first
        | assumption | apply KeepsOut.next | apply jobEnd_keeps)
    | split | intro _ | dsimp only | (show _ = _; rfl)
    | (with_reducible first | apply Keeps.updS)

theorem execPkZeroiseDone_keeps {sc : Scope} {s0 : State} (bay core : Nat) (clean : Bool) (s : State)
    (hs : Keeps sc s0 s) : KeepsOut sc s0 (execPkZeroiseDone bay core clean s) := by
  unfold execPkZeroiseDone
  iterate 40 try any_goals first
    | (with_reducible first
        | assumption | apply KeepsOut.next | apply modCore_keeps | apply coreProg_keeps | apply pkFire_keeps
        | apply pkSchedule_keeps)
    | split | intro _ | dsimp only | (show _ = _; rfl)
    | (with_reducible first | apply Keeps.updS)

theorem execPkCoreSelfReturn_keeps {sc : Scope} {s0 : State} (bay core : Nat) (pass : Bool) (s : State)
    (hs : Keeps sc s0 s) : KeepsOut sc s0 (execPkCoreSelfReturn bay core pass s) := by
  unfold execPkCoreSelfReturn
  iterate 40 try any_goals first
    | (with_reducible first
        | assumption | apply KeepsOut.next | apply selfReturn_keeps)
    | split | intro _ | dsimp only | (show _ = _; rfl)
    | (with_reducible first | apply Keeps.updS)

theorem execUnitBistDone_keeps {sc : Scope} {s0 : State} (k : UnitKind) (index sub : Nat) (bistPass katPass : Bool)
    (s : State) (hs : Keeps sc s0 s) : KeepsOut sc s0 (execUnitBistDone k index sub bistPass katPass s) := by
  unfold execUnitBistDone
  iterate 40 try any_goals first
    | (with_reducible first
        | assumption | apply KeepsOut.next | apply unitTested_keeps | apply testBits_keeps)
    | split | intro _ | dsimp only | (show _ = _; rfl)
    | (with_reducible first | apply Keeps.updS)

theorem execPkBistStart_keeps {sc : Scope} {s0 : State} (master bay core : Nat) (s : State) (hs : Keeps sc s0 s) :
    KeepsOut sc s0 (execPkBistStart master bay core s) := by
  unfold execPkBistStart
  iterate 40 try any_goals first
    | (with_reducible first
        | assumption | apply KeepsOut.next | apply writeAs_keeps | apply coreBist_keeps)
    | split | intro _ | dsimp only | (show _ = _; rfl)
    | (with_reducible first | apply Keeps.updS)

theorem execPkErrForce_keeps {sc : Scope} {s0 : State} (master bay core : Nat) (value : Word) (s : State)
    (hs : Keeps sc s0 s) : KeepsOut sc s0 (execPkErrForce master bay core value s) := by
  unfold execPkErrForce
  iterate 40 try any_goals first
    | (with_reducible first
        | assumption | apply KeepsOut.next | apply writeAs_keeps | apply pkForce_keeps)
    | split | intro _ | dsimp only | (show _ = _; rfl)
    | (with_reducible first | apply Keeps.updS)

theorem execPkErrFire_keeps {sc : Scope} {s0 : State} (bay core source : Nat) (s : State) (hs : Keeps sc s0 s) :
    KeepsOut sc s0 (execPkErrFire bay core source s) := by
  unfold execPkErrFire
  iterate 40 try any_goals first
    | (with_reducible first
        | assumption | apply KeepsOut.next | apply pkFire_keeps)
    | split | intro _ | dsimp only | (show _ = _; rfl)
    | (with_reducible first | apply Keeps.updS)

theorem execPkOmAddrWrite_keeps {sc : Scope} {s0 : State} (master bay core : Nat) (value : Word) (s : State)
    (hs : Keeps sc s0 s) : KeepsOut sc s0 (execPkOmAddrWrite master bay core value s) := by
  unfold execPkOmAddrWrite
  iterate 40 try any_goals first
    | (with_reducible first
        | assumption | apply KeepsOut.next | apply writeAs_keeps | apply omAddr_keeps)
    | split | intro _ | dsimp only | (show _ = _; rfl)
    | (with_reducible first | apply Keeps.updS)

theorem execPkOmData3Write_keeps {sc : Scope} {s0 : State} (master bay core : Nat) (value : Word) (s : State)
    (hs : Keeps sc s0 s) : KeepsOut sc s0 (execPkOmData3Write master bay core value s) := by
  unfold execPkOmData3Write
  iterate 40 try any_goals first
    | (with_reducible first
        | assumption | apply KeepsOut.next | apply writeAs_keeps | apply omData_keeps)
    | split | intro _ | dsimp only | (show _ = _; rfl)
    | (with_reducible first | apply Keeps.updS)

theorem execPwParkForce_keeps {sc : Scope} {s0 : State} (master : Nat) (value : Word) (s : State)
    (hs : Keeps sc s0 s) : KeepsOut sc s0 (execPwParkForce master value s) := by
  unfold execPwParkForce
  iterate 40 try any_goals first
    | (with_reducible first
        | assumption | apply KeepsOut.next | apply writeAs_keeps | apply parkForce_keeps)
    | split | intro _ | dsimp only | (show _ = _; rfl)
    | (with_reducible first | apply Keeps.updS)

theorem execPwParkErrFire_keeps {sc : Scope} {s0 : State} (source slot : Nat) (s : State) (hs : Keeps sc s0 s) :
    KeepsOut sc s0 (execPwParkErrFire source slot s) := by
  unfold execPwParkErrFire
  iterate 40 try any_goals first
    | (with_reducible first
        | assumption | apply KeepsOut.next | apply parkFire_keeps)
    | split | intro _ | dsimp only | (show _ = _; rfl)
    | (with_reducible first | apply Keeps.updS)

theorem endTicket_keeps {sc : Scope} {s0 : State} (s : State) (d : Nat) (id : Bytes) (hs : Keeps sc s0 s) : Keeps sc
    s0 (endTicket s d id) := by
  unfold endTicket
  iterate 40 try any_goals first
    | (with_reducible first
        | assumption | apply setDom_keeps)
    | split | intro _ | dsimp only | (show _ = _; rfl)
    | (with_reducible first | apply Keeps.updS)

theorem failTicket_keeps {sc : Scope} {s0 : State} (s : State) (d : Nat) (id : Bytes) (hs : Keeps sc s0 s) : Keeps
    sc s0 (failTicket s d id) := by
  unfold failTicket
  iterate 40 try any_goals first
    | (with_reducible first
        | assumption | apply setDom_keeps)
    | split | intro _ | dsimp only | (show _ = _; rfl)
    | (with_reducible first | apply Keeps.updS)

theorem quorumPass_keeps {sc : Scope} {s0 : State} (s : State) (d op : Nat) (body : Bytes) (a : Approval) (mutates :
    Bool) (hs : Keeps sc s0 s) : Keeps sc s0 (quorumPass s d op body a mutates).2 := by
  unfold quorumPass
  iterate 40 try any_goals first
    | (with_reducible first
        | assumption | apply endTicket_keeps | apply failTicket_keeps)
    | split | intro _ | dsimp only | (show _ = _; rfl)
    | (with_reducible first | apply Keeps.updS)

theorem quorumPass_keepsE {sc : Scope} {s0 t : State} {s : State} {d op : Nat} {body : Bytes} {a : Approval}
    {mutates : Bool} {q : Bool} (e : quorumPass s d op body a mutates = (q, t)) (hs : Keeps sc s0 s) : Keeps sc s0 t
    := by
  have h := quorumPass_keeps s d op body a mutates hs
  rwa [e] at h

theorem execTicketExpiry_keeps {sc : Scope} {s0 : State} (domain : Nat) (ticket : Bytes) (s : State)
    (hs : Keeps sc s0 s) : KeepsOut sc s0 (execTicketExpiry domain ticket s) := by
  unfold execTicketExpiry
  iterate 40 try any_goals first
    | (with_reducible first
        | assumption | apply KeepsOut.next | apply endTicket_keeps)
    | split | intro _ | dsimp only | (show _ = _; rfl)
    | (with_reducible first | apply Keeps.updS)

theorem takeTokens_keeps {sc : Scope} {s0 : State} (s : State) (d i n : Nat) (hs : Keeps sc s0 s) : Keeps sc s0
    (takeTokens s d i n) := by
  unfold takeTokens
  iterate 40 try any_goals first
    | (with_reducible first
        | assumption | apply setDom_keeps)
    | split | intro _ | dsimp only | (show _ = _; rfl)
    | (with_reducible first | apply Keeps.updS)

theorem countRefusal_keeps {sc : Scope} {s0 : State} (s : State) (a st : Nat) (hs : Keeps sc s0 s) : Keeps sc s0
    (countRefusal s a st) := by
  unfold countRefusal
  iterate 40 try any_goals first
    | (with_reducible first
        | assumption | apply perfAdd_keeps | apply alcCount_keeps)
    | split | intro _ | dsimp only | (show _ = _; rfl)
    | (with_reducible first | apply Keeps.updS)

theorem refuseCmd_keeps {sc : Scope} {s0 : State} (s : State) (x : Session) (o : Offer) (st : Nat)
    (hs : Keeps sc s0 s) : Keeps sc s0 (refuseCmd s x o st) := by
  unfold refuseCmd
  iterate 40 try any_goals first
    | (with_reducible first
        | assumption | apply modSess_keeps | apply countRefusal_keeps | apply addComp_keeps)
    | split | intro _ | dsimp only | (show _ = _; rfl)
    | (with_reducible first | apply Keeps.updS)

theorem mirrorAccept_keeps {sc : Scope} {s0 : State} (s : State) (o : Offer) (pl : Plan) (hs : Keeps sc s0 s) :
    Keeps sc s0 (mirrorAccept s o pl) := by
  unfold mirrorAccept
  iterate 40 try any_goals first
    | (with_reducible first
        | assumption | apply emit_keeps)
    | split | intro _ | dsimp only | (show _ = _; rfl)
    | (with_reducible first | apply Keeps.updS)

theorem firmwareEvent_keeps {sc : Scope} {s0 : State} (s : State) (o : Offer) (pl : Plan) (hs : Keeps sc s0 s) :
    Keeps sc s0 (firmwareEvent s o pl) := by
  unfold firmwareEvent
  iterate 40 try any_goals first
    | (with_reducible first
        | assumption | apply raise_keeps)
    | split | intro _ | dsimp only | (show _ = _; rfl)
    | (with_reducible first | apply Keeps.updS)

theorem acceptCmd_keeps {sc : Scope} {s0 : State} (s : State) (x : Session) (o : Offer) (pl : Plan) (costs : List
    Cost) (hs : Keeps sc s0 s) : Keeps sc s0 (acceptCmd s x o pl costs) := by
  unfold acceptCmd
  iterate 40 try any_goals first
    | (with_reducible first
        | assumption | apply firmwareEvent_keeps | apply mirrorAccept_keeps | apply modSess_keeps
        | apply perfAdd_keeps | apply alcCount_keeps)
    | split | intro _ | dsimp only | (show _ = _; rfl)
    | (with_reducible first | apply Keeps.updS)

theorem admitCmd_keeps {sc : Scope} {s0 : State} (s : State) (x : Session) (o : Offer) (hs : Keeps sc s0 s) : Keeps
    sc s0 (admitCmd s x o) := by
  unfold admitCmd
  iterate 40 try any_goals first
    | (with_reducible first
        | assumption | apply refuseCmd_keeps | apply acceptCmd_keeps | apply takeTokens_keeps)
    | split | intro _ | dsimp only | (show _ = _; rfl)
    | (with_reducible first | apply Keeps.updS)

theorem startSign_keeps {sc : Scope} {s0 : State} (s : State) (sid a : Nat) (cls : DClass) (till link prio : Nat)
    (costs : List Cost) (t : StairTask) (hs : Keeps sc s0 s) : Keeps sc s0 (startSign s sid a cls till link prio
    costs t) := by
  unfold startSign
  iterate 40 try any_goals first
    | (with_reducible first
        | assumption | apply issueJob_keeps)
    | split | intro _ | dsimp only | (show _ = _; rfl)
    | (with_reducible first | apply Keeps.updS)

theorem admitTask_keeps {sc : Scope} {s0 : State} (s : State) (t : StairTask) (hs : Keeps sc s0 s) : Keeps sc s0
    (admitTask s t) := by
  unfold admitTask
  iterate 40 try any_goals first
    | (with_reducible first
        | assumption | apply startSign_keeps)
    | split | intro _ | dsimp only | (show _ = _; rfl)
    | (with_reducible first | apply Keeps.updS)

theorem admitTasks_keeps {sc : Scope} {s0 : State} (s : State) (hs : Keeps sc s0 s) : Keeps sc s0 (admitTasks s) :=
    by
  unfold admitTasks
  iterate 40 try any_goals first
    | (with_reducible first
        | assumption | apply admitTask_keeps | apply Keeps.foldl)
    | split | intro _ | dsimp only | (show _ = _; rfl)
    | (with_reducible first | apply Keeps.updS)

theorem putUnit_keeps {sc : Scope} {s0 : State} (s : State) (k : UnitKind) (i : Nat) (st : UState) (leave : Bool)
    (hs : Keeps sc s0 s) : Keeps sc s0 (putUnit s k i st leave) := by
  unfold putUnit
  iterate 40 try any_goals first
    | (with_reducible first
        | assumption | apply modPipe_keeps | apply modCore_keeps | apply modLane_keeps | apply modLegacy_keeps)
    | split | intro _ | dsimp only | (show _ = _; rfl)
    | (with_reducible first | apply Keeps.updS)

theorem settleOut_keeps {sc : Scope} {s0 : State} (s : State) (hs : Keeps sc s0 s) : Keeps sc s0 (settleOut s) := by
  unfold settleOut
  iterate 40 try any_goals first
    | (with_reducible first
        | assumption | apply okWork_keeps | apply Keeps.foldl)
    | split | intro _ | dsimp only | (show _ = _; rfl)
    | (with_reducible first | apply Keeps.updS)

theorem execUnitOutDone_keeps {sc : Scope} {s0 : State} (k : UnitKind) (index : Nat) (s : State)
    (hs : Keeps sc s0 s) : KeepsOut sc s0 (execUnitOutDone k index s) := by
  unfold execUnitOutDone
  iterate 40 try any_goals first
    | (with_reducible first
        | assumption | apply KeepsOut.next | apply settleOut_keeps | apply putUnit_keeps | apply Keeps.foldl)
    | split | intro _ | dsimp only | (show _ = _; rfl)
    | (with_reducible first | apply Keeps.updS)

theorem stepUnits_keeps {sc : Scope} {s0 : State} (s : State) (hs : Keeps sc s0 s) : Keeps sc s0 (stepUnits s) := by
  unfold stepUnits
  iterate 40 try any_goals first
    | (with_reducible first
        | assumption)
    | split | intro _ | dsimp only | (show _ = _; rfl)
    | (with_reducible first | apply Keeps.updS)

theorem settleReturn_keeps {sc : Scope} {s0 : State} (s : State) (hs : Keeps sc s0 s) : Keeps sc s0 (settleReturn s)
    := by
  unfold settleReturn
  iterate 40 try any_goals first
    | (with_reducible first
        | assumption | apply okWork_keeps | apply failWork_keeps | apply Keeps.foldl)
    | split | intro _ | dsimp only | (show _ = _; rfl)
    | (with_reducible first | apply Keeps.updS)

theorem epoch_keeps {sc : Scope} {s0 : State} (s : State) (hs : Keeps sc s0 s) : Keeps sc s0 (epoch s) := by
  unfold epoch
  iterate 40 try any_goals first
    | (with_reducible first
        | assumption | apply stepUnits_keeps | apply raise_keeps | apply perfAdd_keeps | apply admitTasks_keeps
        | apply settleReturn_keeps | apply lostSettle_keeps | apply pkSchedule_keeps | apply capAll_keeps)
    | split | intro _ | dsimp only | (show _ = _; rfl)
    | (with_reducible first | apply Keeps.updS)

theorem onWork_keeps {sc : Scope} {s0 : State} (s : State) (w op : Nat) (f : Work → State) (hs : Keeps sc s0 s) (h_f
    : ∀ y0, Keeps sc s0 (f y0)) : Keeps sc s0 (onWork s w op f) := by
  unfold onWork
  iterate 40 try any_goals first
    | (with_reducible first
        | assumption | apply h_f)
    | split | intro _ | dsimp only | (show _ = _; rfl)
    | (with_reducible first | apply Keeps.updS)

theorem withFace_keeps {sc : Scope} {s0 : State} (s : State) (w : Nat) (k : Work) (h : Nat) (pay : Bool) (ok :
    Secret → Face → Bool) (f : Nat → Nat → Secret → Face → State) (hs : Keeps sc s0 s) (h_f : ∀ y0 y1 y2 y3, Keeps
    sc s0 (f y0 y1 y2 y3)) : Keeps sc s0 (withFace s w k h pay ok f) := by
  unfold withFace
  iterate 40 try any_goals first
    | (with_reducible first
        | assumption | apply h_f | apply failWork_keeps)
    | split | intro _ | dsimp only | (show _ = _; rfl)
    | (with_reducible first | apply Keeps.updS)

theorem withQuorum_keeps {sc : Scope} {s0 : State} (s : State) (w : Nat) (d op : Nat) (body : Bytes) (a : Option
    Approval) (mutates : Bool) (f : State → Approval → State) (hs : Keeps sc s0 s) (h_f : ∀ y0 y1, Keeps sc s0 y0 →
    Keeps sc s0 (f y0 y1)) : Keeps sc s0 (withQuorum s w d op body a mutates f) := by
  unfold withQuorum
  iterate 40 try any_goals first
    | (with_reducible first
        | assumption | refine quorumPass_keepsE (e := by assumption) ?_ | apply h_f | apply failWork_keeps
        | apply quorumPass_keeps)
    | split | intro _ | dsimp only | (show _ = _; rfl)
    | (with_reducible first | apply Keeps.updS)

theorem issueSym_keeps {sc : Scope} {s0 : State} (s : State) (w : Nat) (k : Work) (op : Nat) (f : Fam) (q : Prm) (d
    : Bytes) (slot n : Nat) (sec : Secret) (face : Face) (offset : Nat) (reply : Bytes → Bytes → Bytes)
    (hs : Keeps sc s0 s) : Keeps sc s0 (issueSym s w k op f q d slot n sec face offset reply) := by
  unfold issueSym
  iterate 40 try any_goals first
    | (with_reducible first
        | assumption | apply failWork_keeps | apply drawInv_keeps | apply issueFace_keeps | apply issueOp_keeps)
    | split | intro _ | dsimp only | (show _ = _; rfl)
    | (with_reducible first | apply Keeps.updS)

theorem runSym_keeps {sc : Scope} {s0 : State} (s : State) (w op : Nat) (k : Work) (hs : Keeps sc s0 s) : Keeps sc
    s0 (runSym s w op k) := by
  unfold runSym
  iterate 40 try any_goals first
    | (with_reducible first
        | assumption | apply failWork_keeps | apply withFace_keeps | apply issueSym_keeps)
    | split | intro _ | dsimp only | (show _ = _; rfl)
    | (with_reducible first | apply Keeps.updS)

end Sys2Proof.Machine
end

