-- ==== Sys2Proof/Laws/KeepsCommands.lean ====
section
/-! SUPPORT. One lemma for each operation: what it keeps of the queue, the memories, one-time programmable memory and the
life-cycle state. Here: the commands of clients and stewards and what arrives from the network. -/

namespace Sys2Proof.Machine

theorem execEncrypt_keeps {sc : Scope} {s0 : State} (w : Nat) (s : State) (hs : Keeps sc s0 s) : KeepsOut sc s0
    (execEncrypt w s) := by
  unfold execEncrypt
  iterate 40 try any_goals first
    | (with_reducible first
        | assumption | apply KeepsOut.next | apply onWork_keeps | apply runSym_keeps)
    | split | intro _ | dsimp only | (show _ = _; rfl)
    | (with_reducible first | apply Keeps.updS)

theorem execDecrypt_keeps {sc : Scope} {s0 : State} (w : Nat) (s : State) (hs : Keeps sc s0 s) : KeepsOut sc s0
    (execDecrypt w s) := by
  unfold execDecrypt
  iterate 40 try any_goals first
    | (with_reducible first
        | assumption | apply KeepsOut.next | apply onWork_keeps | apply runSym_keeps)
    | split | intro _ | dsimp only | (show _ = _; rfl)
    | (with_reducible first | apply Keeps.updS)

theorem execMacGenerate_keeps {sc : Scope} {s0 : State} (w : Nat) (s : State) (hs : Keeps sc s0 s) : KeepsOut sc s0
    (execMacGenerate w s) := by
  unfold execMacGenerate
  iterate 40 try any_goals first
    | (with_reducible first
        | assumption | apply KeepsOut.next | apply onWork_keeps | apply runSym_keeps)
    | split | intro _ | dsimp only | (show _ = _; rfl)
    | (with_reducible first | apply Keeps.updS)

theorem execMacVerify_keeps {sc : Scope} {s0 : State} (w : Nat) (s : State) (hs : Keeps sc s0 s) : KeepsOut sc s0
    (execMacVerify w s) := by
  unfold execMacVerify
  iterate 40 try any_goals first
    | (with_reducible first
        | assumption | apply KeepsOut.next | apply onWork_keeps | apply runSym_keeps)
    | split | intro _ | dsimp only | (show _ = _; rfl)
    | (with_reducible first | apply Keeps.updS)

theorem execDigest_keeps {sc : Scope} {s0 : State} (w : Nat) (s : State) (hs : Keeps sc s0 s) : KeepsOut sc s0
    (execDigest w s) := by
  unfold execDigest
  iterate 40 try any_goals first
    | (with_reducible first
        | assumption | apply KeepsOut.next | apply onWork_keeps | apply failWork_keeps | apply issueOp_keeps)
    | split | intro _ | dsimp only | (show _ = _; rfl)
    | (with_reducible first | apply Keeps.updS)

theorem withDraw_keeps {sc : Scope} {s0 : State} (s : State) (w : Nat) (k : Work) (n : Nat) (f : State → Bytes →
    State) (hs : Keeps sc s0 s) (h_f : ∀ y0 y1, Keeps sc s0 y0 → Keeps sc s0 (f y0 y1)) : Keeps sc s0 (withDraw s w
    k n f) := by
  unfold withDraw
  iterate 40 try any_goals first
    | (with_reducible first
        | assumption | refine drawFrom_keepsE (e := by assumption) ?_ | apply h_f | apply drawFrom_keeps
        | apply modWork_keeps | apply failWork_keeps)
    | split | intro _ | dsimp only | (show _ = _; rfl)
    | (with_reducible first | apply Keeps.updS)

theorem execRandom_keeps {sc : Scope} {s0 : State} (w : Nat) (s : State) (hs : Keeps sc s0 s) : KeepsOut sc s0
    (execRandom w s) := by
  unfold execRandom
  iterate 40 try any_goals first
    | (with_reducible first
        | assumption | apply KeepsOut.next | apply onWork_keeps | apply withDraw_keeps | apply issueOp_keeps)
    | split | intro _ | dsimp only | (show _ = _; rfl)
    | (with_reducible first | apply Keeps.updS)

theorem modCtx_keeps {sc : Scope} {s0 : State} (s : State) (a i : Nat) (f : Context → Context) (hs : Keeps sc s0 s)
    : Keeps sc s0 (modCtx s a i f) := by
  unfold modCtx
  iterate 40 try any_goals first
    | (with_reducible first
        | assumption | apply modAlc_keeps)
    | split | intro _ | dsimp only | (show _ = _; rfl)
    | (with_reducible first | apply Keeps.updS)

theorem spillIdle_keeps {sc : Scope} {s0 : State} (s : State) (hs : Keeps sc s0 s) : Keeps sc s0 (spillIdle s) := by
  unfold spillIdle
  iterate 40 try any_goals first
    | (with_reducible first
        | assumption | apply perfAdd_keeps | apply modCtx_keeps)
    | split | intro _ | dsimp only | (show _ = _; rfl)
    | (with_reducible first | apply Keeps.updS)

theorem makeLive_keeps {sc : Scope} {s0 : State} (s : State) (a id : Nat) (hs : Keeps sc s0 s) : Keeps sc s0
    (makeLive s a id) := by
  unfold makeLive
  iterate 40 try any_goals first
    | (with_reducible first
        | assumption | apply modCtx_keeps | apply idle_keeps | apply spillIdle_keeps | apply perfAdd_keeps)
    | split | intro _ | dsimp only | (show _ = _; rfl)
    | (with_reducible first | apply Keeps.updS)

theorem runOpen_keeps {sc : Scope} {s0 : State} (s : State) (w : Nat) (k : Work) (hs : Keeps sc s0 s) : Keeps sc s0
    (runOpen s w k) := by
  unfold runOpen
  iterate 40 try any_goals first
    | (with_reducible first
        | assumption | apply withFace_keeps | apply failWork_keeps | apply drawInv_keeps | apply issueFace_keeps
        | apply makeLive_keeps | apply modAlc_keeps | apply issueOp_keeps)
    | split | intro _ | dsimp only | (show _ = _; rfl)
    | (with_reducible first | apply Keeps.updS)

theorem execContextOpen_keeps {sc : Scope} {s0 : State} (w : Nat) (s : State) (hs : Keeps sc s0 s) : KeepsOut sc s0
    (execContextOpen w s) := by
  unfold execContextOpen
  iterate 40 try any_goals first
    | (with_reducible first
        | assumption | apply KeepsOut.next | apply onWork_keeps | apply runOpen_keeps)
    | split | intro _ | dsimp only | (show _ = _; rfl)
    | (with_reducible first | apply Keeps.updS)

theorem ctxRefuse_keeps {sc : Scope} {s0 : State} (s : State) (w a id st : Nat) (final : Bool) (hs : Keeps sc s0 s)
    : Keeps sc s0 (ctxRefuse s w a id st final) := by
  unfold ctxRefuse
  iterate 40 try any_goals first
    | (with_reducible first
        | assumption | apply failWork_keeps | apply releaseCtx_keeps)
    | split | intro _ | dsimp only | (show _ = _; rfl)
    | (with_reducible first | apply Keeps.updS)

theorem runData_keeps {sc : Scope} {s0 : State} (s : State) (w : Nat) (final : Bool) (k : Work) (hs : Keeps sc s0 s)
    : Keeps sc s0 (runData s w final k) := by
  unfold runData
  iterate 40 try any_goals first
    | (with_reducible first
        | assumption | apply failWork_keeps | apply ctxRefuse_keeps | apply makeLive_keeps | apply issueFace_keeps
        | apply issueOp_keeps)
    | split | intro _ | dsimp only | (show _ = _; rfl)
    | (with_reducible first | apply Keeps.updS)

theorem execContextUpdate_keeps {sc : Scope} {s0 : State} (w : Nat) (s : State) (hs : Keeps sc s0 s) : KeepsOut sc
    s0 (execContextUpdate w s) := by
  unfold execContextUpdate
  iterate 40 try any_goals first
    | (with_reducible first
        | assumption | apply KeepsOut.next | apply onWork_keeps | apply runData_keeps)
    | split | intro _ | dsimp only | (show _ = _; rfl)
    | (with_reducible first | apply Keeps.updS)

theorem execContextFinal_keeps {sc : Scope} {s0 : State} (w : Nat) (s : State) (hs : Keeps sc s0 s) : KeepsOut sc s0
    (execContextFinal w s) := by
  unfold execContextFinal
  iterate 40 try any_goals first
    | (with_reducible first
        | assumption | apply KeepsOut.next | apply onWork_keeps | apply runData_keeps)
    | split | intro _ | dsimp only | (show _ = _; rfl)
    | (with_reducible first | apply Keeps.updS)

theorem runSave_keeps {sc : Scope} {s0 : State} (s : State) (w : Nat) (k : Work) (hs : Keeps sc s0 s) : Keeps sc s0
    (runSave s w k) := by
  unfold runSave
  iterate 40 try any_goals first
    | (with_reducible first
        | assumption | apply failWork_keeps | apply epoch_keeps | apply useFree_keeps | apply modAlc_keeps
        | apply modCtx_keeps | apply makeLive_keeps | apply okWork_keeps)
    | split | intro _ | dsimp only | (show _ = _; rfl)
    | (with_reducible first | apply Keeps.updS)

theorem execContextSave_keeps {sc : Scope} {s0 : State} (w : Nat) (s : State) (hs : Keeps sc s0 s) : KeepsOut sc s0
    (execContextSave w s) := by
  unfold execContextSave
  iterate 40 try any_goals first
    | (with_reducible first
        | assumption | apply KeepsOut.next | apply onWork_keeps | apply runSave_keeps)
    | split | intro _ | dsimp only | (show _ = _; rfl)
    | (with_reducible first | apply Keeps.updS)

theorem runRestore_keeps {sc : Scope} {s0 : State} (s : State) (w : Nat) (k : Work) (hs : Keeps sc s0 s) : Keeps sc
    s0 (runRestore s w k) := by
  unfold runRestore
  iterate 40 try any_goals first
    | (with_reducible first
        | assumption | apply failWork_keeps | apply epoch_keeps | apply makeLive_keeps | apply modCtx_keeps
        | apply okWork_keeps)
    | split | intro _ | dsimp only | (show _ = _; rfl)
    | (with_reducible first | apply Keeps.updS)

theorem execContextRestore_keeps {sc : Scope} {s0 : State} (w : Nat) (s : State) (hs : Keeps sc s0 s) : KeepsOut sc
    s0 (execContextRestore w s) := by
  unfold execContextRestore
  iterate 40 try any_goals first
    | (with_reducible first
        | assumption | apply KeepsOut.next | apply onWork_keeps | apply runRestore_keeps)
    | split | intro _ | dsimp only | (show _ = _; rfl)
    | (with_reducible first | apply Keeps.updS)

theorem execContextClose_keeps {sc : Scope} {s0 : State} (w : Nat) (s : State) (hs : Keeps sc s0 s) : KeepsOut sc s0
    (execContextClose w s) := by
  unfold execContextClose
  iterate 40 try any_goals first
    | (with_reducible first
        | assumption | apply KeepsOut.next | apply onWork_keeps | apply failWork_keeps | apply okWork_keeps
        | apply releaseCtx_keeps)
    | split | intro _ | dsimp only | (show _ = _; rfl)
    | (with_reducible first | apply Keeps.updS)

theorem takeInst_keeps {sc : Scope} {s0 : State} (s : State) (hs : Keeps sc s0 s) : Keeps sc s0 (takeInst s) := by
  unfold takeInst
  iterate 40 try any_goals first
    | (with_reducible first
        | assumption)
    | split | intro _ | dsimp only | (show _ = _; rfl)
    | (with_reducible first | apply Keeps.updS)

theorem pkIssue_keeps {sc : Scope} {s0 : State} (s : State) (w : Nat) (k : Work) (op : Nat) (x : Keyed) (pins : List
    Nat) (r : Result) (hs : Keeps sc s0 s) : Keeps sc s0 (pkIssue s w k op x pins r) := by
  unfold pkIssue
  iterate 40 try any_goals first
    | (with_reducible first
        | assumption | apply issueJob_keeps)
    | split | intro _ | dsimp only | (show _ = _; rfl)
    | (with_reducible first | apply Keeps.updS)

theorem pkNext_keeps {sc : Scope} {s0 : State} (s : State) (w op : Nat) (k : Work) (x : Keyed) (r : Result)
    (hs : Keeps sc s0 s) : Keeps sc s0 (pkNext s w op k x r) := by
  unfold pkNext
  iterate 40 try any_goals first
    | (with_reducible first
        | assumption | apply withFace_keeps | apply issueOp_keeps | apply pinFace_keeps | apply pkIssue_keeps)
    | split | intro _ | dsimp only | (show _ = _; rfl)
    | (with_reducible first | apply Keeps.updS)

theorem runPk_keeps {sc : Scope} {s0 : State} (s : State) (w op : Nat) (k : Work) (hs : Keeps sc s0 s) : Keeps sc s0
    (runPk s w op k) := by
  unfold runPk
  iterate 40 try any_goals first
    | (with_reducible first
        | assumption | apply failWork_keeps | apply pkNext_keeps | apply withFace_keeps | apply issueFace_keeps
        | apply useFree_keeps | apply issueOp_keeps | apply pkIssue_keeps)
    | split | intro _ | dsimp only | (show _ = _; rfl)
    | (with_reducible first | apply Keeps.updS)

theorem execSign_keeps {sc : Scope} {s0 : State} (w : Nat) (s : State) (hs : Keeps sc s0 s) : KeepsOut sc s0
    (execSign w s) := by
  unfold execSign
  iterate 40 try any_goals first
    | (with_reducible first
        | assumption | apply KeepsOut.next | apply onWork_keeps | apply runPk_keeps)
    | split | intro _ | dsimp only | (show _ = _; rfl)
    | (with_reducible first | apply Keeps.updS)

theorem execVerify_keeps {sc : Scope} {s0 : State} (w : Nat) (s : State) (hs : Keeps sc s0 s) : KeepsOut sc s0
    (execVerify w s) := by
  unfold execVerify
  iterate 40 try any_goals first
    | (with_reducible first
        | assumption | apply KeepsOut.next | apply onWork_keeps | apply runPk_keeps)
    | split | intro _ | dsimp only | (show _ = _; rfl)
    | (with_reducible first | apply Keeps.updS)

theorem execAgree_keeps {sc : Scope} {s0 : State} (w : Nat) (s : State) (hs : Keeps sc s0 s) : KeepsOut sc s0
    (execAgree w s) := by
  unfold execAgree
  iterate 40 try any_goals first
    | (with_reducible first
        | assumption | apply KeepsOut.next | apply onWork_keeps | apply runPk_keeps)
    | split | intro _ | dsimp only | (show _ = _; rfl)
    | (with_reducible first | apply Keeps.updS)

theorem execEncapsulate_keeps {sc : Scope} {s0 : State} (w : Nat) (s : State) (hs : Keeps sc s0 s) : KeepsOut sc s0
    (execEncapsulate w s) := by
  unfold execEncapsulate
  iterate 40 try any_goals first
    | (with_reducible first
        | assumption | apply KeepsOut.next | apply onWork_keeps | apply runPk_keeps)
    | split | intro _ | dsimp only | (show _ = _; rfl)
    | (with_reducible first | apply Keeps.updS)

theorem execDecapsulate_keeps {sc : Scope} {s0 : State} (w : Nat) (s : State) (hs : Keeps sc s0 s) : KeepsOut sc s0
    (execDecapsulate w s) := by
  unfold execDecapsulate
  iterate 40 try any_goals first
    | (with_reducible first
        | assumption | apply KeepsOut.next | apply onWork_keeps | apply runPk_keeps)
    | split | intro _ | dsimp only | (show _ = _; rfl)
    | (with_reducible first | apply Keeps.updS)

theorem execPkEncrypt_keeps {sc : Scope} {s0 : State} (w : Nat) (s : State) (hs : Keeps sc s0 s) : KeepsOut sc s0
    (execPkEncrypt w s) := by
  unfold execPkEncrypt
  iterate 40 try any_goals first
    | (with_reducible first
        | assumption | apply KeepsOut.next | apply onWork_keeps | apply runPk_keeps)
    | split | intro _ | dsimp only | (show _ = _; rfl)
    | (with_reducible first | apply Keeps.updS)

theorem execPkDecrypt_keeps {sc : Scope} {s0 : State} (w : Nat) (s : State) (hs : Keeps sc s0 s) : KeepsOut sc s0
    (execPkDecrypt w s) := by
  unfold execPkDecrypt
  iterate 40 try any_goals first
    | (with_reducible first
        | assumption | apply KeepsOut.next | apply onWork_keeps | apply runPk_keeps)
    | split | intro _ | dsimp only | (show _ = _; rfl)
    | (with_reducible first | apply Keeps.updS)

theorem execKeyGenerate_keeps {sc : Scope} {s0 : State} (w : Nat) (s : State) (hs : Keeps sc s0 s) : KeepsOut sc s0
    (execKeyGenerate w s) := by
  unfold execKeyGenerate
  iterate 40 try any_goals first
    | (with_reducible first
        | assumption | refine drawFrom_keepsE (e := by assumption) ?_ | apply KeepsOut.next | apply onWork_keeps
        | apply failWork_keeps | apply drawFrom_keeps | apply deliver_keeps | apply modWork_keeps)
    | split | intro _ | dsimp only | (show _ = _; rfl)
    | (with_reducible first | apply Keeps.updS)

theorem execPairGenerate_keeps {sc : Scope} {s0 : State} (w : Nat) (s : State) (hs : Keeps sc s0 s) : KeepsOut sc s0
    (execPairGenerate w s) := by
  unfold execPairGenerate
  iterate 40 try any_goals first
    | (with_reducible first
        | assumption | apply KeepsOut.next | apply onWork_keeps | apply failWork_keeps | apply issueJob_keeps
        | apply useFree_keeps)
    | split | intro _ | dsimp only | (show _ = _; rfl)
    | (with_reducible first | apply Keeps.updS)

theorem execKeyDerive_keeps {sc : Scope} {s0 : State} (w : Nat) (s : State) (hs : Keeps sc s0 s) : KeepsOut sc s0
    (execKeyDerive w s) := by
  unfold execKeyDerive
  iterate 40 try any_goals first
    | (with_reducible first
        | assumption | apply KeepsOut.next | apply onWork_keeps | apply failWork_keeps | apply withFace_keeps
        | apply issueOp_keeps | apply issueFace_keeps)
    | split | intro _ | dsimp only | (show _ = _; rfl)
    | (with_reducible first | apply Keeps.updS)

theorem pinTarget_keeps {sc : Scope} {s0 : State} (s : State) (used slot n : Nat) (hs : Keeps sc s0 s) : Keeps sc s0
    (pinTarget s used slot n) := by
  unfold pinTarget
  iterate 40 try any_goals first
    | (with_reducible first
        | assumption | apply pinFace_keeps)
    | split | intro _ | dsimp only | (show _ = _; rfl)
    | (with_reducible first | apply Keeps.updS)

theorem execKeyWrap_keeps {sc : Scope} {s0 : State} (w : Nat) (s : State) (hs : Keeps sc s0 s) : KeepsOut sc s0
    (execKeyWrap w s) := by
  unfold execKeyWrap
  iterate 40 try any_goals first
    | (with_reducible first
        | assumption | apply KeepsOut.next | apply onWork_keeps | apply withFace_keeps | apply failWork_keeps
        | apply drawInv_keeps | apply issueOp_keeps | apply pinTarget_keeps | apply issueFace_keeps)
    | split | intro _ | dsimp only | (show _ = _; rfl)
    | (with_reducible first | apply Keeps.updS)

theorem flagQuorum_keeps {sc : Scope} {s0 : State} (s : State) (k : Work) (r : UnwrapReq) (flagged : Bool)
    (hs : Keeps sc s0 s) : Keeps sc s0 (flagQuorum s k r flagged).2.2 := by
  unfold flagQuorum
  iterate 40 try any_goals first
    | (with_reducible first
        | assumption | refine quorumPass_keepsE (e := by assumption) ?_ | apply quorumPass_keeps)
    | split | intro _ | dsimp only | (show _ = _; rfl)
    | (with_reducible first | apply Keeps.updS)

theorem execKeyUnwrap_keeps {sc : Scope} {s0 : State} (w : Nat) (s : State) (hs : Keeps sc s0 s) : KeepsOut sc s0
    (execKeyUnwrap w s) := by
  unfold execKeyUnwrap
  iterate 40 try any_goals first
    | (with_reducible first
        | assumption | apply KeepsOut.next | apply onWork_keeps | apply failWork_keeps | apply issueJob_keeps
        | apply withFace_keeps | apply flagQuorum_keeps | apply issueOp_keeps | apply issueFace_keeps)
    | split | intro _ | dsimp only | (show _ = _; rfl)
    | (with_reducible first | apply Keeps.updS)

theorem changeFace_keeps {sc : Scope} {s0 : State} (s : State) (w op : Nat) (k : Work) (hs : Keeps sc s0 s) : Keeps
    sc s0 (changeFace s w op k) := by
  unfold changeFace
  iterate 40 try any_goals first
    | (with_reducible first
        | assumption | apply failWork_keeps | apply mutateWork_keeps)
    | split | intro _ | dsimp only | (show _ = _; rfl)
    | (with_reducible first | apply Keeps.updS)

theorem execFaceDestroy_keeps {sc : Scope} {s0 : State} (w : Nat) (s : State) (hs : Keeps sc s0 s) : KeepsOut sc s0
    (execFaceDestroy w s) := by
  unfold execFaceDestroy
  iterate 40 try any_goals first
    | (with_reducible first
        | assumption | apply KeepsOut.next | apply onWork_keeps | apply changeFace_keeps)
    | split | intro _ | dsimp only | (show _ = _; rfl)
    | (with_reducible first | apply Keeps.updS)

theorem execKeyDestroy_keeps {sc : Scope} {s0 : State} (w : Nat) (s : State) (hs : Keeps sc s0 s) : KeepsOut sc s0
    (execKeyDestroy w s) := by
  unfold execKeyDestroy
  iterate 40 try any_goals first
    | (with_reducible first
        | assumption | apply KeepsOut.next | apply onWork_keeps | apply changeFace_keeps)
    | split | intro _ | dsimp only | (show _ = _; rfl)
    | (with_reducible first | apply Keeps.updS)

theorem execFaceRestrict_keeps {sc : Scope} {s0 : State} (w : Nat) (s : State) (hs : Keeps sc s0 s) : KeepsOut sc s0
    (execFaceRestrict w s) := by
  unfold execFaceRestrict
  iterate 40 try any_goals first
    | (with_reducible first
        | assumption | apply KeepsOut.next | apply onWork_keeps | apply changeFace_keeps)
    | split | intro _ | dsimp only | (show _ = _; rfl)
    | (with_reducible first | apply Keeps.updS)

theorem execFaceShare_keeps {sc : Scope} {s0 : State} (w : Nat) (s : State) (hs : Keeps sc s0 s) : KeepsOut sc s0
    (execFaceShare w s) := by
  unfold execFaceShare
  iterate 40 try any_goals first
    | (with_reducible first
        | assumption | apply KeepsOut.next | apply onWork_keeps | apply changeFace_keeps)
    | split | intro _ | dsimp only | (show _ = _; rfl)
    | (with_reducible first | apply Keeps.updS)

theorem execFaceQuery_keeps {sc : Scope} {s0 : State} (w : Nat) (s : State) (hs : Keeps sc s0 s) : KeepsOut sc s0
    (execFaceQuery w s) := by
  unfold execFaceQuery
  iterate 40 try any_goals first
    | (with_reducible first
        | assumption | apply KeepsOut.next | apply onWork_keeps | apply failWork_keeps | apply okWork_keeps)
    | split | intro _ | dsimp only | (show _ = _; rfl)
    | (with_reducible first | apply Keeps.updS)

theorem execPublicExport_keeps {sc : Scope} {s0 : State} (w : Nat) (s : State) (hs : Keeps sc s0 s) : KeepsOut sc s0
    (execPublicExport w s) := by
  unfold execPublicExport
  iterate 40 try any_goals first
    | (with_reducible first
        | assumption | apply KeepsOut.next | apply onWork_keeps | apply failWork_keeps | apply okWork_keeps)
    | split | intro _ | dsimp only | (show _ = _; rfl)
    | (with_reducible first | apply Keeps.updS)

theorem withFill_keeps {sc : Scope} {s0 : State} (s : State) (w : Nat) (k : Work) (fmt : Nat) (f : State → Bytes →
    State) (hs : Keeps sc s0 s) (h_f : ∀ y0 y1, Keeps sc s0 y0 → Keeps sc s0 (f y0 y1)) : Keeps sc s0 (withFill s w
    k fmt f) := by
  unfold withFill
  iterate 40 try any_goals first
    | (with_reducible first
        | assumption | apply h_f | apply withDraw_keeps)
    | split | intro _ | dsimp only | (show _ = _; rfl)
    | (with_reducible first | apply Keeps.updS)

theorem pinFirst_keeps {sc : Scope} {s0 : State} (s : State) (w : Nat) (k : Work) (fi fo : Nat) (pins : List Nat) (r
    : Result) (hs : Keeps sc s0 s) : Keeps sc s0 (pinFirst s w k fi fo pins r) := by
  unfold pinFirst
  iterate 40 try any_goals first
    | (with_reducible first
        | assumption | apply issueOp_keeps)
    | split | intro _ | dsimp only | (show _ = _; rfl)
    | (with_reducible first | apply Keeps.updS)

theorem execPinTranslate_keeps {sc : Scope} {s0 : State} (w : Nat) (s : State) (hs : Keeps sc s0 s) : KeepsOut sc s0
    (execPinTranslate w s) := by
  unfold execPinTranslate
  iterate 40 try any_goals first
    | (with_reducible first
        | assumption | apply KeepsOut.next | apply onWork_keeps | apply withFace_keeps | apply failWork_keeps
        | apply issueOp_keeps | apply issueFace_keeps | apply withFill_keeps | apply pinFirst_keeps)
    | split | intro _ | dsimp only | (show _ = _; rfl)
    | (with_reducible first | apply Keeps.updS)

theorem execKeyblockExport_keeps {sc : Scope} {s0 : State} (w : Nat) (s : State) (hs : Keeps sc s0 s) : KeepsOut sc
    s0 (execKeyblockExport w s) := by
  unfold execKeyblockExport
  iterate 40 try any_goals first
    | (with_reducible first
        | assumption | apply KeepsOut.next | apply onWork_keeps | apply withFace_keeps | apply failWork_keeps
        | apply pinTarget_keeps | apply issueFace_keeps | apply useFree_keeps | apply issueOp_keeps)
    | split | intro _ | dsimp only | (show _ = _; rfl)
    | (with_reducible first | apply Keeps.updS)

theorem execKeyblockImport_keeps {sc : Scope} {s0 : State} (w : Nat) (s : State) (hs : Keeps sc s0 s) : KeepsOut sc
    s0 (execKeyblockImport w s) := by
  unfold execKeyblockImport
  iterate 40 try any_goals first
    | (with_reducible first
        | assumption | apply KeepsOut.next | apply onWork_keeps | apply failWork_keeps | apply withFace_keeps
        | apply issueOp_keeps | apply issueFace_keeps)
    | split | intro _ | dsimp only | (show _ = _; rfl)
    | (with_reducible first | apply Keeps.updS)

theorem execInfo_keeps {sc : Scope} {s0 : State} (w : Nat) (s : State) (hs : Keeps sc s0 s) : KeepsOut sc s0
    (execInfo w s) := by
  unfold execInfo
  iterate 40 try any_goals first
    | (with_reducible first
        | assumption | apply KeepsOut.next | apply onWork_keeps | apply okWork_keeps)
    | split | intro _ | dsimp only | (show _ = _; rfl)
    | (with_reducible first | apply Keeps.updS)

theorem execTimeQuery_keeps {sc : Scope} {s0 : State} (w : Nat) (s : State) (hs : Keeps sc s0 s) : KeepsOut sc s0
    (execTimeQuery w s) := by
  unfold execTimeQuery
  iterate 40 try any_goals first
    | (with_reducible first
        | assumption | apply KeepsOut.next | apply onWork_keeps | apply okWork_keeps)
    | split | intro _ | dsimp only | (show _ = _; rfl)
    | (with_reducible first | apply Keeps.updS)

theorem execCertsGet_keeps {sc : Scope} {s0 : State} (w : Nat) (s : State) (hs : Keeps sc s0 s) : KeepsOut sc s0
    (execCertsGet w s) := by
  unfold execCertsGet
  iterate 40 try any_goals first
    | (with_reducible first
        | assumption | apply KeepsOut.next | apply onWork_keeps | apply okWork_keeps | apply failWork_keeps)
    | split | intro _ | dsimp only | (show _ = _; rfl)
    | (with_reducible first | apply Keeps.updS)

theorem execStatement_keeps {sc : Scope} {s0 : State} (w : Nat) (s : State) (hs : Keeps sc s0 s) : KeepsOut sc s0
    (execStatement w s) := by
  unfold execStatement
  iterate 40 try any_goals first
    | (with_reducible first
        | assumption | apply KeepsOut.next | apply onWork_keeps | apply issueJob_keeps)
    | split | intro _ | dsimp only | (show _ = _; rfl)
    | (with_reducible first | apply Keeps.updS)

theorem execProveChallenge_keeps {sc : Scope} {s0 : State} (w : Nat) (s : State) (hs : Keeps sc s0 s) : KeepsOut sc
    s0 (execProveChallenge w s) := by
  unfold execProveChallenge
  iterate 40 try any_goals first
    | (with_reducible first
        | assumption | apply KeepsOut.next | apply onWork_keeps | apply failWork_keeps | apply okWork_keeps)
    | split | intro _ | dsimp only | (show _ = _; rfl)
    | (with_reducible first | apply Keeps.updS)

theorem execProveSetSecret_keeps {sc : Scope} {s0 : State} (w : Nat) (s : State) (hs : Keeps sc s0 s) : KeepsOut sc
    s0 (execProveSetSecret w s) := by
  unfold execProveSetSecret
  iterate 40 try any_goals first
    | (with_reducible first
        | assumption | apply KeepsOut.next | apply onWork_keeps | apply failWork_keeps | apply mutateWork_keeps)
    | split | intro _ | dsimp only | (show _ = _; rfl)
    | (with_reducible first | apply Keeps.updS)

theorem execLedgerRead_keeps {sc : Scope} {s0 : State} (w : Nat) (s : State) (hs : Keeps sc s0 s) : KeepsOut sc s0
    (execLedgerRead w s) := by
  unfold execLedgerRead
  iterate 40 try any_goals first
    | (with_reducible first
        | assumption | apply KeepsOut.next | apply onWork_keeps | apply failWork_keeps | apply okWork_keeps)
    | split | intro _ | dsimp only | (show _ = _; rfl)
    | (with_reducible first | apply Keeps.updS)

theorem execWitness_keeps {sc : Scope} {s0 : State} (w : Nat) (s : State) (hs : Keeps sc s0 s) : KeepsOut sc s0
    (execWitness w s) := by
  unfold execWitness
  iterate 40 try any_goals first
    | (with_reducible first
        | assumption | apply KeepsOut.next | apply onWork_keeps | apply failWork_keeps | apply issueJob_keeps
        | apply setDom_keeps)
    | split | intro _ | dsimp only | (show _ = _; rfl)
    | (with_reducible first | apply Keeps.updS)

theorem whenInst_keeps {sc : Scope} {s0 : State} (s : State) (w i : Nat) (f : Bool → State) (hs : Keeps sc s0 s)
    (h_f : ∀ y0, Keeps sc s0 (f y0)) : Keeps sc s0 (whenInst s w i f) := by
  unfold whenInst
  iterate 40 try any_goals first
    | (with_reducible first
        | assumption | apply h_f | apply modWork_keeps)
    | split | intro _ | dsimp only | (show _ = _; rfl)
    | (with_reducible first | apply Keeps.updS)

theorem execQuorumPrepare_keeps {sc : Scope} {s0 : State} (w : Nat) (s : State) (hs : Keeps sc s0 s) : KeepsOut sc
    s0 (execQuorumPrepare w s) := by
  unfold execQuorumPrepare
  iterate 40 try any_goals first
    | (with_reducible first
        | assumption | refine drawFrom_keepsE (e := by assumption) ?_ | apply KeepsOut.next | apply onWork_keeps
        | apply failWork_keeps | apply whenInst_keeps | apply drawFrom_keeps | apply okWork_keeps
        | apply setDom_keeps)
    | split | intro _ | dsimp only | (show _ = _; rfl)
    | (with_reducible first | apply Keeps.updS)

theorem execRootCreate_keeps {sc : Scope} {s0 : State} (w : Nat) (s : State) (hs : Keeps sc s0 s) : KeepsOut sc s0
    (execRootCreate w s) := by
  unfold execRootCreate
  iterate 40 try any_goals first
    | (with_reducible first
        | assumption | refine drawFrom_keepsE (e := by assumption) ?_ | apply KeepsOut.next | apply onWork_keeps
        | apply failWork_keeps | apply whenInst_keeps | apply withQuorum_keeps | apply drawFrom_keeps
        | apply mutateWork_keeps)
    | split | intro _ | dsimp only | (show _ = _; rfl)
    | (with_reducible first | apply Keeps.updS)

theorem execRootRestore_keeps {sc : Scope} {s0 : State} (w : Nat) (s : State) (hs : Keeps sc s0 s) : KeepsOut sc s0
    (execRootRestore w s) := by
  unfold execRootRestore
  iterate 40 try any_goals first
    | (with_reducible first
        | assumption | apply KeepsOut.next | apply onWork_keeps | apply failWork_keeps | apply withQuorum_keeps
        | apply mutateWork_keeps)
    | split | intro _ | dsimp only | (show _ = _; rfl)
    | (with_reducible first | apply Keeps.updS)

theorem execSharesExport_keeps {sc : Scope} {s0 : State} (w : Nat) (s : State) (hs : Keeps sc s0 s) : KeepsOut sc s0
    (execSharesExport w s) := by
  unfold execSharesExport
  iterate 40 try any_goals first
    | (with_reducible first
        | assumption | refine drawFrom_keepsE (e := by assumption) ?_ | apply KeepsOut.next | apply onWork_keeps
        | apply failWork_keeps | apply whenInst_keeps | apply withQuorum_keeps | apply drawFrom_keeps
        | apply okWork_keeps)
    | split | intro _ | dsimp only | (show _ = _; rfl)
    | (with_reducible first | apply Keeps.updS)

theorem execQuotaSet_keeps {sc : Scope} {s0 : State} (w : Nat) (s : State) (hs : Keeps sc s0 s) : KeepsOut sc s0
    (execQuotaSet w s) := by
  unfold execQuotaSet
  iterate 40 try any_goals first
    | (with_reducible first
        | assumption | apply KeepsOut.next | apply onWork_keeps | apply withQuorum_keeps | apply mutateWork_keeps)
    | split | intro _ | dsimp only | (show _ = _; rfl)
    | (with_reducible first | apply Keeps.updS)

theorem execCustodiansSet_keeps {sc : Scope} {s0 : State} (w : Nat) (s : State) (hs : Keeps sc s0 s) : KeepsOut sc
    s0 (execCustodiansSet w s) := by
  unfold execCustodiansSet
  iterate 40 try any_goals first
    | (with_reducible first
        | assumption | apply KeepsOut.next | apply onWork_keeps | apply withQuorum_keeps | apply failWork_keeps
        | apply mutateWork_keeps | apply epoch_keeps)
    | split | intro _ | dsimp only | (show _ = _; rfl)
    | (with_reducible first | apply Keeps.updS)

theorem mirrorAlcove_keeps {sc : Scope} {s0 : State} (s : State) (a : Nat) (hs : Keeps sc s0 s) : Keeps sc s0
    (mirrorAlcove s a) := by
  unfold mirrorAlcove
  iterate 40 try any_goals first
    | (with_reducible first
        | assumption | apply emit_keeps)
    | split | intro _ | dsimp only | (show _ = _; rfl)
    | (with_reducible first | apply Keeps.updS)

theorem putSlice_keeps {sc : Scope} {s0 : State} (s : State) (w a : Nat) (r : SliceReq) (hs : Keeps sc s0 s) : Keeps
    sc s0 (putSlice s w a r) := by
  unfold putSlice
  iterate 40 try any_goals first
    | (with_reducible first
        | assumption | apply failWork_keeps | apply okWork_keeps | apply mirrorAlcove_keeps)
    | split | intro _ | dsimp only | (show _ = _; rfl)
    | (with_reducible first | apply Keeps.updS)

theorem runSlice_keeps {sc : Scope} {s0 : State} (s : State) (w : Nat) (modify : Bool) (k : Work)
    (hs : Keeps sc s0 s) : Keeps sc s0 (runSlice s w modify k) := by
  unfold runSlice
  iterate 40 try any_goals first
    | (with_reducible first
        | assumption | apply failWork_keeps | apply putSlice_keeps)
    | split | intro _ | dsimp only | (show _ = _; rfl)
    | (with_reducible first | apply Keeps.updS)

theorem execSliceCreate_keeps {sc : Scope} {s0 : State} (w : Nat) (s : State) (hs : Keeps sc s0 s) : KeepsOut sc s0
    (execSliceCreate w s) := by
  unfold execSliceCreate
  iterate 40 try any_goals first
    | (with_reducible first
        | assumption | apply KeepsOut.next | apply onWork_keeps | apply runSlice_keeps)
    | split | intro _ | dsimp only | (show _ = _; rfl)
    | (with_reducible first | apply Keeps.updS)

theorem execSliceModify_keeps {sc : Scope} {s0 : State} (w : Nat) (s : State) (hs : Keeps sc s0 s) : KeepsOut sc s0
    (execSliceModify w s) := by
  unfold execSliceModify
  iterate 40 try any_goals first
    | (with_reducible first
        | assumption | apply KeepsOut.next | apply onWork_keeps | apply runSlice_keeps)
    | split | intro _ | dsimp only | (show _ = _; rfl)
    | (with_reducible first | apply Keeps.updS)

theorem execSliceRemove_keeps {sc : Scope} {s0 : State} (w : Nat) (s : State) (hs : Keeps sc s0 s) : KeepsOut sc s0
    (execSliceRemove w s) := by
  unfold execSliceRemove
  iterate 40 try any_goals first
    | (with_reducible first
        | assumption | apply KeepsOut.next | apply onWork_keeps | apply okWork_keeps | apply mirrorAlcove_keeps
        | apply failWork_keeps)
    | split | intro _ | dsimp only | (show _ = _; rfl)
    | (with_reducible first | apply Keeps.updS)

theorem execQpConnect_keeps {sc : Scope} {s0 : State} (w : Nat) (s : State) (hs : Keeps sc s0 s) : KeepsOut sc s0
    (execQpConnect w s) := by
  unfold execQpConnect
  iterate 40 try any_goals first
    | (with_reducible first
        | assumption | refine drawFrom_keepsE (e := by assumption) ?_ | apply KeepsOut.next | apply onWork_keeps
        | apply failWork_keeps | apply whenInst_keeps | apply drawFrom_keeps | apply okWork_keeps
        | apply mirrorAlcove_keeps)
    | split | intro _ | dsimp only | (show _ = _; rfl)
    | (with_reducible first | apply Keeps.updS)

theorem liftSlices_keeps {sc : Scope} {s0 : State} (s : State) (q : Nat) (hs : Keeps sc s0 s) : Keeps sc s0
    (liftSlices s q) := by
  unfold liftSlices
  iterate 40 try any_goals first
    | (with_reducible first
        | assumption)
    | split | intro _ | dsimp only | (show _ = _; rfl)
    | (with_reducible first | apply Keeps.updS)

theorem execQpReset_keeps {sc : Scope} {s0 : State} (w : Nat) (s : State) (hs : Keeps sc s0 s) : KeepsOut sc s0
    (execQpReset w s) := by
  unfold execQpReset
  iterate 40 try any_goals first
    | (with_reducible first
        | assumption | apply KeepsOut.next | apply onWork_keeps | apply failWork_keeps | apply okWork_keeps
        | apply mirrorAlcove_keeps | apply liftSlices_keeps)
    | split | intro _ | dsimp only | (show _ = _; rfl)
    | (with_reducible first | apply Keeps.updS)

theorem execDirtyEnable_keeps {sc : Scope} {s0 : State} (w : Nat) (s : State) (hs : Keeps sc s0 s) : KeepsOut sc s0
    (execDirtyEnable w s) := by
  unfold execDirtyEnable
  iterate 40 try any_goals first
    | (with_reducible first
        | assumption | apply KeepsOut.next | apply onWork_keeps | apply failWork_keeps | apply okWork_keeps)
    | split | intro _ | dsimp only | (show _ = _; rfl)
    | (with_reducible first | apply Keeps.updS)

theorem execDirtyReadClear_keeps {sc : Scope} {s0 : State} (w : Nat) (s : State) (hs : Keeps sc s0 s) : KeepsOut sc
    s0 (execDirtyReadClear w s) := by
  unfold execDirtyReadClear
  iterate 40 try any_goals first
    | (with_reducible first
        | assumption | apply KeepsOut.next | apply onWork_keeps | apply failWork_keeps | apply okWork_keeps)
    | split | intro _ | dsimp only | (show _ = _; rfl)
    | (with_reducible first | apply Keeps.updS)

theorem execEventSessionSet_keeps {sc : Scope} {s0 : State} (w : Nat) (s : State) (hs : Keeps sc s0 s) : KeepsOut sc
    s0 (execEventSessionSet w s) := by
  unfold execEventSessionSet
  iterate 40 try any_goals first
    | (with_reducible first
        | assumption | apply KeepsOut.next | apply onWork_keeps | apply okWork_keeps | apply modAlc_keeps
        | apply flushAll_keeps | apply failWork_keeps)
    | split | intro _ | dsimp only | (show _ = _; rfl)
    | (with_reducible first | apply Keeps.updS)

theorem execAlcoveReset_keeps {sc : Scope} {s0 : State} (w : Nat) (s : State) (hs : Keeps sc s0 s) : KeepsOut sc s0
    (execAlcoveReset w s) := by
  unfold execAlcoveReset
  iterate 40 try any_goals first
    | (with_reducible first
        | assumption | apply KeepsOut.next | apply onWork_keeps | apply mutateWork_keeps)
    | split | intro _ | dsimp only | (show _ = _; rfl)
    | (with_reducible first | apply Keeps.updS)

theorem execCountersRead_keeps {sc : Scope} {s0 : State} (w : Nat) (s : State) (hs : Keeps sc s0 s) : KeepsOut sc s0
    (execCountersRead w s) := by
  unfold execCountersRead
  iterate 40 try any_goals first
    | (with_reducible first
        | assumption | apply KeepsOut.next | apply onWork_keeps | apply okWork_keeps | apply failWork_keeps)
    | split | intro _ | dsimp only | (show _ = _; rfl)
    | (with_reducible first | apply Keeps.updS)

theorem execClientKeySet_keeps {sc : Scope} {s0 : State} (w : Nat) (s : State) (hs : Keeps sc s0 s) : KeepsOut sc s0
    (execClientKeySet w s) := by
  unfold execClientKeySet
  iterate 40 try any_goals first
    | (with_reducible first
        | assumption | apply KeepsOut.next | apply onWork_keeps | apply failWork_keeps | apply mutateWork_keeps)
    | split | intro _ | dsimp only | (show _ = _; rfl)
    | (with_reducible first | apply Keeps.updS)

theorem putAlc_keeps {sc : Scope} {s0 : State} (s : State) (a : Nat) (x : Alcove) (hs : Keeps sc s0 s) : Keeps sc s0
    (putAlc s a x) := by
  unfold putAlc
  iterate 40 try any_goals first
    | (with_reducible first
        | assumption)
    | split | intro _ | dsimp only | (show _ = _; rfl)
    | (with_reducible first | apply Keeps.updS)

theorem resumeEpoch_keeps {sc : Scope} {s0 : State} (s : State) (a : Nat) (hs : Keeps sc s0 s) : Keeps sc s0
    (resumeEpoch s a) := by
  unfold resumeEpoch
  iterate 40 try any_goals first
    | (with_reducible first
        | assumption | apply epoch_keeps | apply modAlc_keeps)
    | split | intro _ | dsimp only | (show _ = _; rfl)
    | (with_reducible first | apply Keeps.updS)

theorem openAlcove_keeps {sc : Scope} {s0 : State} (s : State) (a : Nat) (hs : Keeps sc s0 s) : Keeps sc s0
    (openAlcove s a) := by
  unfold openAlcove
  iterate 40 try any_goals first
    | (with_reducible first
        | assumption | apply admitTasks_keeps | apply deriveAlcove_keeps | apply resumeEpoch_keeps
        | apply modAlc_keeps | apply seedAlcove_keeps)
    | split | intro _ | dsimp only | (show _ = _; rfl)
    | (with_reducible first | apply Keeps.updS)

theorem closeKeys_keeps {sc : Scope} {s0 : State} (s : State) (a : Nat) (gone : List Bytes) (hs : Keeps sc s0 s) :
    Keeps sc s0 (closeKeys s a gone) := by
  unfold closeKeys
  iterate 40 try any_goals first
    | (with_reducible first
        | assumption | apply finishClosing_keeps | apply modSess_keeps | apply Keeps.foldl)
    | split | intro _ | dsimp only | (show _ = _; rfl)
    | (with_reducible first | apply Keeps.updS)

theorem putKeys_keeps {sc : Scope} {s0 : State} (s : State) (a : Nat) (l : List (Bytes × Role)) (hs : Keeps sc s0 s)
    : Keeps sc s0 (putKeys s a l) := by
  unfold putKeys
  iterate 40 try any_goals first
    | (with_reducible first
        | assumption | apply closeKeys_keeps | apply modAlc_keeps)
    | split | intro _ | dsimp only | (show _ = _; rfl)
    | (with_reducible first | apply Keeps.updS)

theorem putStewards_keeps {sc : Scope} {s0 : State} (s : State) (a : Nat) (l : List Bytes) (hs : Keeps sc s0 s) :
    Keeps sc s0 (putStewards s a l) := by
  unfold putStewards
  iterate 40 try any_goals first
    | (with_reducible first
        | assumption | apply putKeys_keeps)
    | split | intro _ | dsimp only | (show _ = _; rfl)
    | (with_reducible first | apply Keeps.updS)

theorem dropIdleWork_keeps {sc : Scope} {s0 : State} (s : State) (a : Nat) (except : Option Nat)
    (hs : Keeps sc s0 s) : Keeps sc s0 (dropIdleWork s a except) := by
  unfold dropIdleWork
  iterate 40 try any_goals first
    | (with_reducible first
        | assumption | apply delWork_keeps | apply countSlots_keeps | apply Keeps.foldl)
    | split | intro _ | dsimp only | (show _ = _; rfl)
    | (with_reducible first | apply Keeps.updS)

theorem dropAlcMutations_keeps {sc : Scope} {s0 : State} (s : State) (a : Nat) (except : Option Nat)
    (hs : Keeps sc s0 s) : Keeps sc s0 (dropAlcMutations s a except) := by
  unfold dropAlcMutations
  iterate 40 try any_goals first
    | (with_reducible first
        | assumption)
    | split | intro _ | dsimp only | (show _ = _; rfl)
    | (with_reducible first | apply Keeps.updS)

theorem freezeQps_keeps {sc : Scope} {s0 : State} (s : State) (a : Nat) (hs : Keeps sc s0 s) : Keeps sc s0
    (freezeQps s a) := by
  unfold freezeQps
  iterate 40 try any_goals first
    | (with_reducible first
        | assumption)
    | split | intro _ | dsimp only | (show _ = _; rfl)
    | (with_reducible first | apply Keeps.updS)

theorem resetPoint_keeps {sc : Scope} {s0 : State} (s : State) (a : Nat) (w : Option Nat) (hs : Keeps sc s0 s) :
    Keeps sc s0 (resetPoint s a w) := by
  unfold resetPoint
  iterate 40 try any_goals first
    | (with_reducible first
        | assumption | apply dropIdleWork_keeps | apply dropAlcMutations_keeps | apply releaseAll_keeps
        | apply freezeQps_keeps | apply abortAlcove_keeps | apply modAlc_keeps | apply modWork_keeps
        | apply mirrorAlcove_keeps)
    | split | intro _ | dsimp only | (show _ = _; rfl)
    | (with_reducible first | apply Keeps.updS)

theorem resetAlcove_keeps {sc : Scope} {s0 : State} (s : State) (a : Nat) (w : Option Nat) (hs : Keeps sc s0 s) :
    Keeps sc s0 (resetAlcove s a w) := by
  unfold resetAlcove
  iterate 40 try any_goals first
    | (with_reducible first
        | assumption | apply modAlc_keeps | apply resetPoint_keeps)
    | split | intro _ | dsimp only | (show _ = _; rfl)
    | (with_reducible first | apply Keeps.updS)

theorem dropOldComps_keeps {sc : Scope} {s0 : State} (s : State) (a : Nat) (hs : Keeps sc s0 s) : Keeps sc s0
    (dropOldComps s a) := by
  unfold dropOldComps
  iterate 40 try any_goals first
    | (with_reducible first
        | assumption | apply dropComp_keeps | apply slotsOf_keeps | apply Keeps.foldl)
    | split | intro _ | dsimp only | (show _ = _; rfl)
    | (with_reducible first | apply Keeps.updS)

theorem thawQps_keeps {sc : Scope} {s0 : State} (s : State) (a : Nat) (hs : Keeps sc s0 s) : Keeps sc s0 (thawQps s
    a) := by
  unfold thawQps
  iterate 40 try any_goals first
    | (with_reducible first
        | assumption | apply liftSlices_keeps | apply Keeps.foldl)
    | split | intro _ | dsimp only | (show _ = _; rfl)
    | (with_reducible first | apply Keeps.updS)

theorem wakeAlcove_keeps {sc : Scope} {s0 : State} (s : State) (a : Nat) (hs : Keeps sc s0 s) : Keeps sc s0
    (wakeAlcove s a) := by
  unfold wakeAlcove
  iterate 40 try any_goals first
    | (with_reducible first
        | assumption | apply okWork_keeps | apply Keeps.foldl)
    | split | intro _ | dsimp only | (show _ = _; rfl)
    | (with_reducible first | apply Keeps.updS)

theorem endReset_keeps {sc : Scope} {s0 : State} (s : State) (w : Option Nat) (hs : Keeps sc s0 s) : Keeps sc s0
    (endReset s w) := by
  unfold endReset
  iterate 40 try any_goals first
    | (with_reducible first
        | assumption | apply modWork_keeps | apply addComp_keeps)
    | split | intro _ | dsimp only | (show _ = _; rfl)
    | (with_reducible first | apply Keeps.updS)

theorem removeAlcove_keeps {sc : Scope} {s0 : State} (s : State) (a : Nat) (hs : Keeps sc s0 s) : Keeps sc s0
    (removeAlcove s a) := by
  unfold removeAlcove
  iterate 40 try any_goals first
    | (with_reducible first
        | assumption | apply wakeAlcove_keeps)
    | split | intro _ | dsimp only | (show _ = _; rfl)
    | (with_reducible first | apply Keeps.updS)

theorem beginRemove_keeps {sc : Scope} {s0 : State} (s : State) (a : Nat) (hs : Keeps sc s0 s) : Keeps sc s0
    (beginRemove s a) := by
  unfold beginRemove
  iterate 40 try any_goals first
    | (with_reducible first
        | assumption | apply resetAlcove_keeps | apply modAlc_keeps)
    | split | intro _ | dsimp only | (show _ = _; rfl)
    | (with_reducible first | apply Keeps.updS)

theorem execAlcoveResetDone_keeps {sc : Scope} {s0 : State} (alcove : Nat) (s : State) (hs : Keeps sc s0 s) :
    KeepsOut sc s0 (execAlcoveResetDone alcove s) := by
  unfold execAlcoveResetDone
  iterate 40 try any_goals first
    | (with_reducible first
        | assumption | apply KeepsOut.next | apply modAlc_keeps | apply dropOldComps_keeps | apply endReset_keeps
        | apply postEvent_keeps | apply thawQps_keeps | apply resetPoint_keeps | apply removeAlcove_keeps
        | apply wakeAlcove_keeps)
    | split | intro _ | dsimp only | (show _ = _; rfl)
    | (with_reducible first | apply Keeps.updS)

theorem dropFrame_keeps {sc : Scope} {s0 : State} (s : State) (sublink why : Nat) (hs : Keeps sc s0 s) : Keeps sc s0
    (dropFrame s sublink why) := by
  unfold dropFrame
  iterate 40 try any_goals first
    | (with_reducible first
        | assumption | apply perfAdd_keeps | apply countDrop_keeps)
    | split | intro _ | dsimp only | (show _ = _; rfl)
    | (with_reducible first | apply Keeps.updS)

theorem dropSeg_keeps {sc : Scope} {s0 : State} (s : State) (why : Nat) (hs : Keeps sc s0 s) : Keeps sc s0 (dropSeg
    s why) := by
  unfold dropSeg
  iterate 40 try any_goals first
    | (with_reducible first
        | assumption | apply perfAdd_keeps | apply countDrop_keeps)
    | split | intro _ | dsimp only | (show _ = _; rfl)
    | (with_reducible first | apply Keeps.updS)

theorem deliverTo_keepsE {sc : Scope} {s0 s t : State} {d : Datagram} (e : deliverTo s d = .error t) (hs
    : Keeps sc s0 s) : Keeps sc s0 t := by
  unfold deliverTo at e
  repeat' split at e
  all_goals cases e
  all_goals exact dropFrame_keeps _ _ _ hs

theorem mirrorCli_keeps {sc : Scope} {s0 : State} (s : State) (a i : Nat) (hs : Keeps sc s0 s) : Keeps sc s0
    (mirrorCli s a i) := by
  unfold mirrorCli
  iterate 40 try any_goals first
    | (with_reducible first
        | assumption | apply emit_keeps | apply modSess_keeps)
    | split | intro _ | dsimp only | (show _ = _; rfl)
    | (with_reducible first | apply Keeps.updS)

theorem authFrame_keepsE {sc : Scope} {s0 s t : State} {d : Datagram} (e : authFrame s d = .error t) (hs
    : Keeps sc s0 s) : Keeps sc s0 t := by
  unfold authFrame at e
  dsimp only at e
  repeat' split at e
  all_goals cases e
  all_goals iterate 40 try any_goals first
              | (with_reducible first
                  | assumption | refine deliverTo_keepsE (e := by assumption) ?_ | apply perfAdd_keeps
                  | apply dropFrame_keeps | apply alcCount_keeps | apply closeSession_keeps | apply mirrorCli_keeps
                  | apply putSess_keeps)
              | split | intro _ | dsimp only | (show _ = _; rfl)
              | (with_reducible first | apply Keeps.updS)

theorem authFrame_keepsE2 {sc : Scope} {s0 s t : State} {d : Datagram} {a : Nat} {x : Session}
    (e : authFrame s d = .ok (a, x, t))
    (hs : Keeps sc s0 s) : Keeps sc s0 t := by
  unfold authFrame at e
  dsimp only at e
  repeat' split at e
  all_goals cases e
  all_goals iterate 40 try any_goals first
              | (with_reducible first
                  | assumption | refine deliverTo_keepsE (e := by assumption) ?_ | apply perfAdd_keeps
                  | apply dropFrame_keeps | apply alcCount_keeps | apply closeSession_keeps | apply mirrorCli_keeps
                  | apply putSess_keeps)
              | split | intro _ | dsimp only | (show _ = _; rfl)
              | (with_reducible first | apply Keeps.updS)

theorem mirrorSeq_keeps {sc : Scope} {s0 : State} (s : State) (a i seq : Nat) (hs : Keeps sc s0 s) : Keeps sc s0
    (mirrorSeq s a i seq) := by
  unfold mirrorSeq
  iterate 40 try any_goals first
    | (with_reducible first
        | assumption | apply emit_keeps | apply modSess_keeps)
    | split | intro _ | dsimp only | (show _ = _; rfl)
    | (with_reducible first | apply Keeps.updS)

theorem assembled_keeps {sc : Scope} {s0 : State} (s : State) (a : Nat) (x : Session) (o : Offer)
    (hs : Keeps sc s0 s) : Keeps sc s0 (assembled s a x o) := by
  unfold assembled
  iterate 40 try any_goals first
    | (with_reducible first
        | assumption | apply admitCmd_keeps | apply perfAdd_keeps | apply mirrorSeq_keeps)
    | split | intro _ | dsimp only | (show _ = _; rfl)
    | (with_reducible first | apply Keeps.updS)

theorem segArrives_keeps {sc : Scope} {s0 : State} (s : State) (a : Nat) (x : Session) (d : Datagram) (held : Option
    Assembly) (hs : Keeps sc s0 s) : Keeps sc s0 (segArrives s a x d held) := by
  unfold segArrives
  iterate 40 try any_goals first
    | (with_reducible first
        | assumption | apply dropSeg_keeps | apply alcCount_keeps | apply refuseCmd_keeps | apply assembled_keeps
        | apply modSess_keeps)
    | split | intro _ | dsimp only | (show _ = _; rfl)
    | (with_reducible first | apply Keeps.updS)

theorem oldComp_keeps {sc : Scope} {s0 : State} (s : State) (a : Nat) (x : Session) (d : Datagram) (status : Nat)
    (declLen : Nat) (p : Option Bytes) (queue : Nat) (replay : Bool) (hs : Keeps sc s0 s) : Keeps sc s0 (oldComp s a
    x d status declLen p queue replay) := by
  unfold oldComp
  iterate 40 try any_goals first
    | (with_reducible first
        | assumption | apply addComp_keeps)
    | split | intro _ | dsimp only | (show _ = _; rfl)
    | (with_reducible first | apply Keeps.updS)

theorem segment_keeps {sc : Scope} {s0 : State} (s : State) (a : Nat) (x : Session) (d : Datagram)
    (hs : Keeps sc s0 s) : Keeps sc s0 (segment s a x d) := by
  unfold segment
  iterate 40 try any_goals first
    | (with_reducible first
        | assumption | apply dropSeg_keeps | apply putSess_keeps | apply perfAdd_keeps | apply oldComp_keeps
        | apply segArrives_keeps)
    | split | intro _ | dsimp only | (show _ = _; rfl)
    | (with_reducible first | apply Keeps.updS)

theorem sendPause_keeps {sc : Scope} {s0 : State} (s : State) (port prio : Nat) (on : Bool) (hs : Keeps sc s0 s) :
    Keeps sc s0 (sendPause s port prio on) := by
  unfold sendPause
  iterate 40 try any_goals first
    | (with_reducible first
        | assumption | apply modPort_keeps | apply emit_keeps | apply perfAdd_keeps)
    | split | intro _ | dsimp only | (show _ = _; rfl)
    | (with_reducible first | apply Keeps.updS)

theorem regionFills_keeps {sc : Scope} {s0 : State} (s : State) (d : Datagram) (hs : Keeps sc s0 s) : Keeps sc s0
    (regionFills s d) := by
  unfold regionFills
  iterate 40 try any_goals first
    | (with_reducible first
        | assumption | apply modPort_keeps | apply sendPause_keeps)
    | split | intro _ | dsimp only | (show _ = _; rfl)
    | (with_reducible first | apply Keeps.updS)

theorem execCommandSegment_keeps {sc : Scope} {s0 : State} (d : Datagram) (s : State) (hs : Keeps sc s0 s) :
    KeepsOut sc s0 (execCommandSegment d s) := by
  unfold execCommandSegment
  iterate 40 try any_goals first
    | (with_reducible first
        | assumption | refine authFrame_keepsE (e := by assumption) ?_
        | refine authFrame_keepsE2 (e := by assumption) ?_ | apply KeepsOut.next | apply regionFills_keeps
        | apply segment_keeps)
    | split | intro _ | dsimp only | (show _ = _; rfl)
    | (with_reducible first | apply Keeps.updS)

theorem execAssemblyTimerExpiry_keeps {sc : Scope} {s0 : State} (alcove session seq : Nat) (s : State)
    (hs : Keeps sc s0 s) : KeepsOut sc s0 (execAssemblyTimerExpiry alcove session seq s) := by
  unfold execAssemblyTimerExpiry
  iterate 40 try any_goals first
    | (with_reducible first
        | assumption | apply KeepsOut.next | apply refuseCmd_keeps)
    | split | intro _ | dsimp only | (show _ = _; rfl)
    | (with_reducible first | apply Keeps.updS)

theorem execAck_keeps {sc : Scope} {s0 : State} (d : Datagram) (s : State) (hs : Keeps sc s0 s) : KeepsOut sc s0
    (execAck d s) := by
  unfold execAck
  iterate 40 try any_goals first
    | (with_reducible first
        | assumption | refine authFrame_keepsE (e := by assumption) ?_
        | refine authFrame_keepsE2 (e := by assumption) ?_ | apply KeepsOut.next)
    | split | intro _ | dsimp only | (show _ = _; rfl)
    | (with_reducible first | apply Keeps.updS)

theorem execClose_keeps {sc : Scope} {s0 : State} (d : Datagram) (s : State) (hs : Keeps sc s0 s) : KeepsOut sc s0
    (execClose d s) := by
  unfold execClose
  iterate 40 try any_goals first
    | (with_reducible first
        | assumption | refine authFrame_keepsE (e := by assumption) ?_
        | refine authFrame_keepsE2 (e := by assumption) ?_ | apply KeepsOut.next | apply finishClosing_keeps
        | apply modSess_keeps)
    | split | intro _ | dsimp only | (show _ = _; rfl)
    | (with_reducible first | apply Keeps.updS)

theorem execSessionIdleTimeout_keeps {sc : Scope} {s0 : State} (alcove session : Nat) (s : State)
    (hs : Keeps sc s0 s) : KeepsOut sc s0 (execSessionIdleTimeout alcove session s) := by
  unfold execSessionIdleTimeout
  iterate 40 try any_goals first
    | (with_reducible first
        | assumption | apply KeepsOut.next | apply closeSession_keeps)
    | split | intro _ | dsimp only | (show _ = _; rfl)
    | (with_reducible first | apply Keeps.updS)

theorem execCompletionHandover_keeps {sc : Scope} {s0 : State} (c : Nat) (s : State) (hs : Keeps sc s0 s) : KeepsOut
    sc s0 (execCompletionHandover c s) := by
  unfold execCompletionHandover
  iterate 40 try any_goals first
    | (with_reducible first
        | assumption | apply KeepsOut.next | apply handover_keeps)
    | split | intro _ | dsimp only | (show _ = _; rfl)
    | (with_reducible first | apply Keeps.updS)

theorem execEventModerationExpiry_keeps {sc : Scope} {s0 : State} (alcove : Nat) (s : State) (hs : Keeps sc s0 s) :
    KeepsOut sc s0 (execEventModerationExpiry alcove s) := by
  unfold execEventModerationExpiry
  iterate 40 try any_goals first
    | (with_reducible first
        | assumption | apply KeepsOut.next | apply flushAll_keeps)
    | split | intro _ | dsimp only | (show _ = _; rfl)
    | (with_reducible first | apply Keeps.updS)

theorem failIssued_keeps {sc : Scope} {s0 : State} (s : State) (w status : Nat) (hs : Keeps sc s0 s) : Keeps sc s0
    (failIssued s w status) := by
  unfold failIssued
  iterate 40 try any_goals first
    | (with_reducible first
        | assumption | apply opFail_keeps | apply pkSchedule_keeps | apply abortFellows_keeps | apply failWork_keeps
        | apply Keeps.foldl)
    | split | intro _ | dsimp only | (show _ = _; rfl)
    | (with_reducible first | apply Keeps.updS)

theorem dropWork_keeps {sc : Scope} {s0 : State} (s : State) (w : Nat) (hs : Keeps sc s0 s) : Keeps sc s0 (dropWork
    s w) := by
  unfold dropWork
  iterate 40 try any_goals first
    | (with_reducible first
        | assumption)
    | split | intro _ | dsimp only | (show _ = _; rfl)
    | (with_reducible first | apply Keeps.updS)

theorem failLate_keeps {sc : Scope} {s0 : State} (s : State) (w : Nat) (k : Work) (hs : Keeps sc s0 s) : Keeps sc s0
    (failLate s w k) := by
  unfold failLate
  iterate 40 try any_goals first
    | (with_reducible first
        | assumption | apply failWork_keeps | apply failIssued_keeps | apply dropWork_keeps | apply modTally_keeps)
    | split | intro _ | dsimp only | (show _ = _; rfl)
    | (with_reducible first | apply Keeps.updS)

theorem execPromiseDeadline_keeps {sc : Scope} {s0 : State} (w : Nat) (s : State) (hs : Keeps sc s0 s) : KeepsOut sc
    s0 (execPromiseDeadline w s) := by
  unfold execPromiseDeadline
  iterate 40 try any_goals first
    | (with_reducible first
        | assumption | apply KeepsOut.next | apply failLate_keeps)
    | split | intro _ | dsimp only | (show _ = _; rfl)
    | (with_reducible first | apply Keeps.updS)

theorem reject_keeps {sc : Scope} {s0 : State} (s : State) (d : Datagram) (a i st : Nat) (hs : Keeps sc s0 s) :
    Keeps sc s0 (reject s d a i st) := by
  unfold reject
  iterate 40 try any_goals first
    | (with_reducible first
        | assumption | apply sendPlain_keeps)
    | split | intro _ | dsimp only | (show _ = _; rfl)
    | (with_reducible first | apply Keeps.updS)

theorem putHalf_keeps {sc : Scope} {s0 : State} (s : State) (a i : Nat) (x : Session) (hs : Keeps sc s0 s) : Keeps
    sc s0 (putHalf s a i x) := by
  unfold putHalf
  iterate 40 try any_goals first
    | (with_reducible first
        | assumption | apply putSess_keeps)
    | split | intro _ | dsimp only | (show _ = _; rfl)
    | (with_reducible first | apply Keeps.updS)

theorem helloReply_keeps {sc : Scope} {s0 : State} (s : State) (a i till : Nat) (d : Datagram) (hs : Keeps sc s0 s)
    : Keeps sc s0 (helloReply s a i till d) := by
  unfold helloReply
  iterate 40 try any_goals first
    | (with_reducible first
        | assumption | refine drawFrom_keepsE (e := by assumption) ?_ | apply drawFrom_keeps | apply putHalf_keeps
        | apply startSign_keeps)
    | split | intro _ | dsimp only | (show _ = _; rfl)
    | (with_reducible first | apply Keeps.updS)

theorem helloWaits_keeps {sc : Scope} {s0 : State} (s : State) (a i : Nat) (d : Datagram) (hs : Keeps sc s0 s) :
    Keeps sc s0 (helloWaits s a i d) := by
  unfold helloWaits
  iterate 40 try any_goals first
    | (with_reducible first
        | assumption | apply putHalf_keeps)
    | split | intro _ | dsimp only | (show _ = _; rfl)
    | (with_reducible first | apply Keeps.updS)

theorem helloGoes_keeps {sc : Scope} {s0 : State} (s : State) (a : Nat) (d : Datagram) (hs : Keeps sc s0 s) : Keeps
    sc s0 (helloGoes s a d) := by
  unfold helloGoes
  iterate 40 try any_goals first
    | (with_reducible first
        | assumption | apply helloReply_keeps | apply helloWaits_keeps)
    | split | intro _ | dsimp only | (show _ = _; rfl)
    | (with_reducible first | apply Keeps.updS)

theorem endWait_keeps {sc : Scope} {s0 : State} (s : State) (h : HelloWait) (hs : Keeps sc s0 s) : Keeps sc s0
    (endWait s h) := by
  unfold endWait
  iterate 40 try any_goals first
    | (with_reducible first
        | assumption | apply delSess_keeps)
    | split | intro _ | dsimp only | (show _ = _; rfl)
    | (with_reducible first | apply Keeps.updS)

theorem wakeHello_keeps {sc : Scope} {s0 : State} (s : State) (h : HelloWait) (hs : Keeps sc s0 s) : Keeps sc s0
    (wakeHello s h) := by
  unfold wakeHello
  iterate 40 try any_goals first
    | (with_reducible first
        | assumption | apply reject_keeps | apply endWait_keeps | apply helloReply_keeps)
    | split | intro _ | dsimp only | (show _ = _; rfl)
    | (with_reducible first | apply Keeps.updS)

theorem execSporeDelivery_keeps {sc : Scope} {s0 : State} (s : State) (hs : Keeps sc s0 s) : KeepsOut sc s0
    (execSporeDelivery s) := by
  unfold execSporeDelivery
  iterate 40 try any_goals first
    | (with_reducible first
        | assumption | apply KeepsOut.next | apply wakeHello_keeps | apply deliverSpore_keeps | apply Keeps.foldl)
    | split | intro _ | dsimp only | (show _ = _; rfl)
    | (with_reducible first | apply Keeps.updS)

theorem execHalfOpenTimeout_keeps {sc : Scope} {s0 : State} (alcove session : Nat) (s : State) (hs : Keeps sc s0 s)
    : KeepsOut sc s0 (execHalfOpenTimeout alcove session s) := by
  unfold execHalfOpenTimeout
  iterate 40 try any_goals first
    | (with_reducible first
        | assumption | apply KeepsOut.next | apply reject_keeps | apply endWait_keeps | apply delSess_keeps)
    | split | intro _ | dsimp only | (show _ = _; rfl)
    | (with_reducible first | apply Keeps.updS)

theorem execHello_keeps {sc : Scope} {s0 : State} (d : Datagram) (s : State) (hs : Keeps sc s0 s) : KeepsOut sc s0
    (execHello d s) := by
  unfold execHello
  iterate 40 try any_goals first
    | (with_reducible first
        | assumption | refine deliverTo_keepsE (e := by assumption) ?_ | apply KeepsOut.next | apply perfAdd_keeps
        | apply reject_keeps | apply helloGoes_keeps)
    | split | intro _ | dsimp only | (show _ = _; rfl)
    | (with_reducible first | apply Keeps.updS)

theorem mirrorSession_keeps {sc : Scope} {s0 : State} (s : State) (a i : Nat) (x : Session) (hs : Keeps sc s0 s) :
    Keeps sc s0 (mirrorSession s a i x) := by
  unfold mirrorSession
  iterate 40 try any_goals first
    | (with_reducible first
        | assumption | apply emit_keeps)
    | split | intro _ | dsimp only | (show _ = _; rfl)
    | (with_reducible first | apply Keeps.updS)

theorem sendReady_keeps {sc : Scope} {s0 : State} (s : State) (a i : Nat) (x : Session) (d : Datagram)
    (hs : Keeps sc s0 s) : Keeps sc s0 (sendReady s a i x d) := by
  unfold sendReady
  iterate 40 try any_goals first
    | (with_reducible first
        | assumption | apply mirrorSession_keeps | apply putSess_keeps | apply sendProt_keeps)
    | split | intro _ | dsimp only | (show _ = _; rfl)
    | (with_reducible first | apply Keeps.updS)

theorem finishProbe_keeps {sc : Scope} {s0 : State} (s : State) (a : Nat) (d : Datagram) (hs : Keeps sc s0 s) :
    Keeps sc s0 (finishProbe s a d) := by
  unfold finishProbe
  iterate 40 try any_goals first
    | (with_reducible first
        | assumption | apply reject_keeps)
    | split | intro _ | dsimp only | (show _ = _; rfl)
    | (with_reducible first | apply Keeps.updS)

theorem execFinish_keeps {sc : Scope} {s0 : State} (d : Datagram) (s : State) (hs : Keeps sc s0 s) : KeepsOut sc s0
    (execFinish d s) := by
  unfold execFinish
  iterate 40 try any_goals first
    | (with_reducible first
        | assumption | refine deliverTo_keepsE (e := by assumption) ?_ | apply KeepsOut.next | apply perfAdd_keeps
        | apply dropFrame_keeps | apply finishProbe_keeps | apply delSess_keeps | apply reject_keeps
        | apply sendReady_keeps)
    | split | intro _ | dsimp only | (show _ = _; rfl)
    | (with_reducible first | apply Keeps.updS)

theorem suspendSlices_keeps {sc : Scope} {s0 : State} (s : State) (q : Nat) (hs : Keeps sc s0 s) : Keeps sc s0
    (suspendSlices s q) := by
  unfold suspendSlices
  iterate 40 try any_goals first
    | (with_reducible first
        | assumption | apply postEvent_keeps | apply Keeps.foldl)
    | split | intro _ | dsimp only | (show _ = _; rfl)
    | (with_reducible first | apply Keeps.updS)

theorem qpError_keeps {sc : Scope} {s0 : State} (s : State) (q : Nat) (x : Qp) (hs : Keeps sc s0 s) : Keeps sc s0
    (qpError s q x) := by
  unfold qpError
  iterate 40 try any_goals first
    | (with_reducible first
        | assumption | apply modQp_keeps | apply postEvent_keeps | apply perfAdd_keeps | apply suspendSlices_keeps)
    | split | intro _ | dsimp only | (show _ = _; rfl)
    | (with_reducible first | apply Keeps.updS)

theorem resendAll_keeps {sc : Scope} {s0 : State} (s : State) (q : Nat) (x : Qp) (hs : Keeps sc s0 s) : Keeps sc s0
    (resendAll s q x) := by
  unfold resendAll
  iterate 40 try any_goals first
    | (with_reducible first
        | assumption | apply modQp_keeps | apply perfAdd_keeps | apply sendPacket_keeps | apply Keeps.foldl)
    | split | intro _ | dsimp only | (show _ = _; rfl)
    | (with_reducible first | apply Keeps.updS)

theorem execRoceAck_keeps {sc : Scope} {s0 : State} (qp psn : Nat) (s : State) (hs : Keeps sc s0 s) : KeepsOut sc s0
    (execRoceAck qp psn s) := by
  unfold execRoceAck
  iterate 40 try any_goals first
    | (with_reducible first
        | assumption | apply KeepsOut.next | apply modQp_keeps)
    | split | intro _ | dsimp only | (show _ = _; rfl)
    | (with_reducible first | apply Keeps.updS)

theorem execRoceNak_keeps {sc : Scope} {s0 : State} (qp : Nat) (k : NakKind) (s : State) (hs : Keeps sc s0 s) :
    KeepsOut sc s0 (execRoceNak qp k s) := by
  unfold execRoceNak
  iterate 40 try any_goals first
    | (with_reducible first
        | assumption | apply KeepsOut.next | apply qpError_keeps | apply resendAll_keeps | apply modQp_keeps)
    | split | intro _ | dsimp only | (show _ = _; rfl)
    | (with_reducible first | apply Keeps.updS)

theorem execQpAckTimeout_keeps {sc : Scope} {s0 : State} (qp : Nat) (s : State) (hs : Keeps sc s0 s) : KeepsOut sc
    s0 (execQpAckTimeout qp s) := by
  unfold execQpAckTimeout
  iterate 40 try any_goals first
    | (with_reducible first
        | assumption | apply KeepsOut.next | apply qpError_keeps | apply resendAll_keeps | apply modQp_keeps)
    | split | intro _ | dsimp only | (show _ = _; rfl)
    | (with_reducible first | apply Keeps.updS)

theorem execCnpReceived_keeps {sc : Scope} {s0 : State} (qp : Nat) (s : State) (hs : Keeps sc s0 s) : KeepsOut sc s0
    (execCnpReceived qp s) := by
  unfold execCnpReceived
  iterate 40 try any_goals first
    | (with_reducible first
        | assumption | apply KeepsOut.next | apply perfAdd_keeps | apply modQp_keeps)
    | split | intro _ | dsimp only | (show _ = _; rfl)
    | (with_reducible first | apply Keeps.updS)

theorem execRateIncreaseTick_keeps {sc : Scope} {s0 : State} (qp : Nat) (s : State) (hs : Keeps sc s0 s) : KeepsOut
    sc s0 (execRateIncreaseTick qp s) := by
  unfold execRateIncreaseTick
  iterate 40 try any_goals first
    | (with_reducible first
        | assumption | apply KeepsOut.next | apply modQp_keeps)
    | split | intro _ | dsimp only | (show _ = _; rfl)
    | (with_reducible first | apply Keeps.updS)

theorem execRoceRequestDropped_keeps {sc : Scope} {s0 : State} (qp : Nat) (s : State) (hs : Keeps sc s0 s) :
    KeepsOut sc s0 (execRoceRequestDropped qp s) := by
  unfold execRoceRequestDropped
  iterate 40 try any_goals first
    | (with_reducible first
        | assumption | apply KeepsOut.next | apply countDrop_keeps)
    | split | intro _ | dsimp only | (show _ = _; rfl)
    | (with_reducible first | apply Keeps.updS)

theorem refuseStream_keeps {sc : Scope} {s0 : State} (s : State) (a : Nat) (x : Session) (d : Datagram) (st : Nat)
    (hs : Keeps sc s0 s) : Keeps sc s0 (refuseStream s a x d st) := by
  unfold refuseStream
  iterate 40 try any_goals first
    | (with_reducible first
        | assumption | apply addComp_keeps | apply countRefusal_keeps)
    | split | intro _ | dsimp only | (show _ = _; rfl)
    | (with_reducible first | apply Keeps.updS)

theorem runStream_keeps {sc : Scope} {s0 : State} (s : State) (w : Nat) (hs : Keeps sc s0 s) : Keeps sc s0
    (runStream s w) := by
  unfold runStream
  iterate 40 try any_goals first
    | (with_reducible first
        | assumption | apply failWork_keeps | apply issueOp_keeps | apply withFace_keeps | apply issueSym_keeps)
    | split | intro _ | dsimp only | (show _ = _; rfl)
    | (with_reducible first | apply Keeps.updS)

theorem rerunStreams_keeps {sc : Scope} {s0 : State} (s : State) (hs : Keeps sc s0 s) : Keeps sc s0 (rerunStreams s)
    := by
  unfold rerunStreams
  iterate 40 try any_goals first
    | (with_reducible first
        | assumption | apply runStream_keeps | apply Keeps.foldl)
    | split | intro _ | dsimp only | (show _ = _; rfl)
    | (with_reducible first | apply Keeps.updS)

theorem acceptStream_keeps {sc : Scope} {s0 : State} (s : State) (a : Nat) (x : Session) (d : Datagram) (r :
    StreamReq) (hs : Keeps sc s0 s) : Keeps sc s0 (acceptStream s a x d r) := by
  unfold acceptStream
  iterate 40 try any_goals first
    | (with_reducible first
        | assumption | apply takeTokens_keeps | apply runStream_keeps | apply perfAdd_keeps | apply alcCount_keeps)
    | split | intro _ | dsimp only | (show _ = _; rfl)
    | (with_reducible first | apply Keeps.updS)

theorem streamFrame_keeps {sc : Scope} {s0 : State} (s : State) (a : Nat) (x : Session) (d : Datagram)
    (hs : Keeps sc s0 s) : Keeps sc s0 (streamFrame s a x d) := by
  unfold streamFrame
  iterate 40 try any_goals first
    | (with_reducible first
        | assumption | apply refuseStream_keeps | apply acceptStream_keeps)
    | split | intro _ | dsimp only | (show _ = _; rfl)
    | (with_reducible first | apply Keeps.updS)

theorem execStream_keeps {sc : Scope} {s0 : State} (d : Datagram) (s : State) (hs : Keeps sc s0 s) : KeepsOut sc s0
    (execStream d s) := by
  unfold execStream
  iterate 40 try any_goals first
    | (with_reducible first
        | assumption | refine authFrame_keepsE (e := by assumption) ?_
        | refine authFrame_keepsE2 (e := by assumption) ?_ | apply KeepsOut.next | apply regionFills_keeps
        | apply streamFrame_keeps)
    | split | intro _ | dsimp only | (show _ = _; rfl)
    | (with_reducible first | apply Keeps.updS)

theorem execStreamResultReady_keeps {sc : Scope} {s0 : State} (op : Nat) (s : State) (hs : Keeps sc s0 s) : KeepsOut
    sc s0 (execStreamResultReady op s) := by
  unfold execStreamResultReady
  iterate 40 try any_goals first
    | (with_reducible first
        | assumption | apply KeepsOut.next | apply streamReady_keeps)
    | split | intro _ | dsimp only | (show _ = _; rfl)
    | (with_reducible first | apply Keeps.updS)

end Sys2Proof.Machine
end

