-- ==== Sys2Proof/Laws/KeepsManager.lean ====
section
/-! SUPPORT. One lemma for each operation: what it keeps of the queue, the memories, one-time programmable memory and the
life-cycle state. Here: the commands of managers, the registers, mutations, starts and twins. -/

namespace Sys2Proof.Machine

theorem createAlcove_keeps {sc : Scope} {s0 : State} (s : State) (set : AlcoveSettings) (keys : List (Bytes × Role))
    (cmd : Bool) (hs : Keeps sc s0 s) : Keeps sc s0 (createAlcove s set keys cmd) := by
  unfold createAlcove
  iterate 40 try any_goals first
    | (with_reducible first
        | assumption | apply mirrorAlcove_keeps | apply openAlcove_keeps | apply putAlc_keeps)
    | split | intro _ | dsimp only | (show _ = _; rfl)
    | (with_reducible first | apply Keeps.updS)

theorem changeAlcove_keeps {sc : Scope} {s0 : State} (s : State) (a : Nat) (x : Alcove) (set : AlcoveSettings) (cmd
    : Bool) (hs : Keeps sc s0 s) : Keeps sc s0 (changeAlcove s a x set cmd).1 := by
  unfold changeAlcove
  iterate 40 try any_goals first
    | (with_reducible first
        | assumption | apply modAlc_keeps | apply resetAlcove_keeps)
    | split | intro _ | dsimp only | (show _ = _; rfl)
    | (with_reducible first | apply Keeps.updS)

theorem changeAlcove_keepsE {sc : Scope} {s0 t : State} {s : State} {a : Nat} {x : Alcove} {set : AlcoveSettings}
    {cmd : Bool} {q : Bool} (e : changeAlcove s a x set cmd = (t, q)) (hs : Keeps sc s0 s) : Keeps sc s0 t := by
  have h := changeAlcove_keeps s a x set cmd hs
  rwa [e] at h

theorem applyBreakout_keeps {sc : Scope} {s0 : State} (s : State) (l : List (Nat × Bytes)) (hs : Keeps sc s0 s) :
    Keeps sc s0 (applyBreakout s l) := by
  unfold applyBreakout
  iterate 40 try any_goals first
    | (with_reducible first
        | assumption | apply modPort_keeps)
    | split | intro _ | dsimp only | (show _ = _; rfl)
    | (with_reducible first | apply Keeps.updS)

theorem takePorts_keeps {sc : Scope} {s0 : State} (s : State) (l : List (Nat × Bytes)) (hs : Keeps sc s0 s) : Keeps
    sc s0 (takePorts s l) := by
  unfold takePorts
  iterate 40 try any_goals first
    | (with_reducible first
        | assumption)
    | split | intro _ | dsimp only | (show _ = _; rfl)
    | (with_reducible first | apply Keeps.updS)

theorem loadAlcove_keeps {sc : Scope} {s0 : State} (c : Config8) (r : Applied) (set : AlcoveSettings)
    (hs : Keeps sc s0 r.1) : Keeps sc s0 (loadAlcove c r set).1 := by
  unfold loadAlcove
  iterate 40 try any_goals first
    | (with_reducible first
        | assumption | refine changeAlcove_keepsE (e := by assumption) ?_ | apply createAlcove_keeps
        | apply changeAlcove_keeps | apply putKeys_keeps)
    | split | intro _ | dsimp only | (show _ = _; rfl)
    | (with_reducible first | apply Keeps.updS)
theorem loadAlcoves_keeps {sc : Scope} {s0 : State} (c : Config8) (l : List AlcoveSettings) (r : Applied)
    (hs : Keeps sc s0 r.1) : Keeps sc s0 (l.foldl (loadAlcove c) r).1 := by
  induction l generalizing r with
  | nil => exact hs
  | cons a l ih => exact ih _ (loadAlcove_keeps c r a hs)

theorem applyAlcoves_keeps {sc : Scope} {s0 : State} (s : State) (c : Config8) (hs : Keeps sc s0 s) : Keeps sc s0
    (applyAlcoves s c).1 := by
  unfold applyAlcoves
  iterate 40 try any_goals first
    | (with_reducible first
        | assumption | apply loadAlcoves_keeps | apply recordAlone_keeps | apply beginRemove_keeps
        | apply loadAlcove_keeps | apply Keeps.foldl)
    | split | intro _ | dsimp only | (show _ = _; rfl)
    | (with_reducible first | apply Keeps.updS)

theorem applyAlcoves_keepsE {sc : Scope} {s0 t : State} {s : State} {c : Config8} {q : List Nat} (e : applyAlcoves s
    c = (t, q)) (hs : Keeps sc s0 s) : Keeps sc s0 t := by
  have h := applyAlcoves_keeps s c hs
  rwa [e] at h

theorem takeSet_keeps {sc : Scope} {s0 : State} (s : State) (v : Bytes) (hs : Keeps sc s0 s) : Keeps sc s0 (takeSet
    s v) := by
  unfold takeSet
  iterate 40 try any_goals first
    | (with_reducible first
        | assumption | apply setDom_keeps | apply epoch_keeps)
    | split | intro _ | dsimp only | (show _ = _; rfl)
    | (with_reducible first | apply Keeps.updS)

theorem applyDomain_keeps {sc : Scope} {s0 : State} (s : State) (v : Bytes) (hs : Keeps sc s0 s) : Keeps sc s0
    (applyDomain s v) := by
  unfold applyDomain
  iterate 40 try any_goals first
    | (with_reducible first
        | assumption | apply takeSet_keeps | apply mutateAlone_keeps)
    | split | intro _ | dsimp only | (show _ = _; rfl)
    | (with_reducible first | apply Keeps.updS)

theorem takePool_keeps {sc : Scope} {s0 : State} (s : State) (l : List (Nat × Bytes)) (hs : Keeps sc s0 s) : Keeps
    sc s0 (takePool s l) := by
  unfold takePool
  iterate 40 try any_goals first
    | (with_reducible first
        | assumption | apply modPort_keeps)
    | split | intro _ | dsimp only | (show _ = _; rfl)
    | (with_reducible first | apply Keeps.updS)

theorem takeTamper_keeps {sc : Scope} {s0 : State} (s : State) (l : List (Nat × Bytes)) (hs : Keeps sc s0 s) : Keeps
    sc s0 (takeTamper s l) := by
  unfold takeTamper
  iterate 40 try any_goals first
    | (with_reducible first
        | assumption)
    | split | intro _ | dsimp only | (show _ = _; rfl)
    | (with_reducible first | apply Keeps.updS)

theorem takeTwin_keeps {sc : Scope} {s0 : State} (s : State) (l : List (Nat × Bytes)) (hs : Keeps sc s0 s) : Keeps
    sc s0 (takeTwin s l) := by
  unfold takeTwin
  iterate 40 try any_goals first
    | (with_reducible first
        | assumption)
    | split | intro _ | dsimp only | (show _ = _; rfl)
    | (with_reducible first | apply Keeps.updS)

theorem applySection_keeps {sc : Scope} {s0 : State} (c : Config8) (r : Applied) (n : Nat) (hs : Keeps sc s0 r.1) :
    Keeps sc s0 (applySection c r n).1 := by
  unfold applySection
  iterate 40 try any_goals first
    | (with_reducible first
        | assumption | refine applyAlcoves_keepsE (e := by assumption) ?_
        | refine changeAlcove_keepsE (e := by assumption) ?_ | apply applyBreakout_keeps | apply applyAlcoves_keeps
        | apply applyDomain_keeps | apply takePool_keeps | apply takeTamper_keeps | apply takeTwin_keeps
        | apply changeAlcove_keeps | apply modPerf_keeps | apply Keeps.foldl)
    | split | intro _ | dsimp only | (show _ = _; rfl)
    | (with_reducible first | apply Keeps.updS)

theorem applySection_keepsE {sc : Scope} {s0 t : State} {c : Config8} {r : Applied} {n : Nat} {q : List Nat} (e :
    applySection c r n = (t, q)) (hs : Keeps sc s0 r.1) : Keeps sc s0 t := by
  have h := applySection_keeps c r n hs
  rwa [e] at h

theorem applySections_keeps {sc : Scope} {s0 : State} (s : State) (l : List Nat) (hs : Keeps sc s0 s) :
    Keeps sc s0 (applySections s l).1 := by
  unfold applySections
  generalize cfgSlot s = c
  have : Keeps sc s0 ((s, []) : Applied).1 := hs
  generalize ((s, []) : Applied) = r at this ⊢
  induction l generalizing r with
  | nil => exact this
  | cons a l ih => exact ih _ (applySection_keeps c r a this)

theorem takeWaiting_keeps {sc : Scope} {s0 : State} (s : State) (hs : Keeps sc s0 s) : Keeps sc s0 (takeWaiting s)
    := by
  unfold takeWaiting
  iterate 40 try any_goals first
    | (with_reducible first
        | assumption | apply takePorts_keeps)
    | split | intro _ | dsimp only | (show _ = _; rfl)
    | (with_reducible first | apply Keeps.updS)

theorem settleLoads_keeps {sc : Scope} {s0 : State} (s : State) (hs : Keeps sc s0 s) : Keeps sc s0 (settleLoads s)
    := by
  unfold settleLoads
  iterate 40 try any_goals first
    | (with_reducible first
        | assumption | apply okWork_keeps | apply Keeps.foldl)
    | split | intro _ | dsimp only | (show _ = _; rfl)
    | (with_reducible first | apply Keeps.updS)

theorem runAlcove_keeps {sc : Scope} {s0 : State} (s : State) (w : Nat) (new : Bool) (k : Work) (hs : Keeps sc s0 s)
    : Keeps sc s0 (runAlcove s w new k) := by
  unfold runAlcove
  iterate 40 try any_goals first
    | (with_reducible first
        | assumption | apply failWork_keeps | apply mutateWork_keeps)
    | split | intro _ | dsimp only | (show _ = _; rfl)
    | (with_reducible first | apply Keeps.updS)

theorem execAlcoveCreate_keeps {sc : Scope} {s0 : State} (w : Nat) (s : State) (hs : Keeps sc s0 s) : KeepsOut sc s0
    (execAlcoveCreate w s) := by
  unfold execAlcoveCreate
  iterate 40 try any_goals first
    | (with_reducible first
        | assumption | apply KeepsOut.next | apply onWork_keeps | apply runAlcove_keeps)
    | split | intro _ | dsimp only | (show _ = _; rfl)
    | (with_reducible first | apply Keeps.updS)

theorem execAlcoveConfigure_keeps {sc : Scope} {s0 : State} (w : Nat) (s : State) (hs : Keeps sc s0 s) : KeepsOut sc
    s0 (execAlcoveConfigure w s) := by
  unfold execAlcoveConfigure
  iterate 40 try any_goals first
    | (with_reducible first
        | assumption | apply KeepsOut.next | apply onWork_keeps | apply runAlcove_keeps)
    | split | intro _ | dsimp only | (show _ = _; rfl)
    | (with_reducible first | apply Keeps.updS)

theorem execAlcoveRemove_keeps {sc : Scope} {s0 : State} (w : Nat) (s : State) (hs : Keeps sc s0 s) : KeepsOut sc s0
    (execAlcoveRemove w s) := by
  unfold execAlcoveRemove
  iterate 40 try any_goals first
    | (with_reducible first
        | assumption | apply KeepsOut.next | apply onWork_keeps | apply failWork_keeps | apply mutateWork_keeps)
    | split | intro _ | dsimp only | (show _ = _; rfl)
    | (with_reducible first | apply Keeps.updS)

theorem stageConfig_keeps {sc : Scope} {s0 : State} (s : State) (head : Bytes) (bodies : List (Nat × Bytes))
    (hs : Keeps sc s0 s) : Keeps sc s0 (stageConfig s head bodies) := by
  unfold stageConfig
  iterate 40 try any_goals first
    | (with_reducible first
        | assumption)
    | split | intro _ | dsimp only | (show _ = _; rfl)
    | (with_reducible first | apply Keeps.updS)

theorem flipPrefer_keeps {sc : Scope} {s0 : State} (s : State) (i : Nat) (hs : Keeps sc s0 s) : Keeps sc s0
    (flipPrefer s i) := by
  unfold flipPrefer
  iterate 40 try any_goals first
    | (with_reducible first
        | assumption)
    | split | intro _ | dsimp only | (show _ = _; rfl)
    | (with_reducible first | apply Keeps.updS)

theorem commitLoad_keeps {sc : Scope} {s0 : State} (s : State) (w : Nat) (head : Bytes) (bodies : List (Nat ×
    Bytes)) (hs : Keeps sc s0 s) : Keeps sc s0 (commitLoad s w head bodies) := by
  unfold commitLoad
  iterate 40 try any_goals first
    | (with_reducible first
        | assumption | apply stageConfig_keeps | apply emit_keeps | apply flipPrefer_keeps
        | apply applySections_keeps | apply settleLoads_keeps | apply modWork_keeps)
    | split | intro _ | dsimp only | (show _ = _; rfl)
    | (with_reducible first | apply Keeps.updS)

theorem execSectionLoad_keeps {sc : Scope} {s0 : State} (w : Nat) (s : State) (hs : Keeps sc s0 s) : KeepsOut sc s0
    (execSectionLoad w s) := by
  unfold execSectionLoad
  iterate 40 try any_goals first
    | (with_reducible first
        | assumption | apply KeepsOut.next | apply onWork_keeps | apply failWork_keeps | apply commitLoad_keeps
        | apply withQuorum_keeps)
    | split | intro _ | dsimp only | (show _ = _; rfl)
    | (with_reducible first | apply Keeps.updS)

theorem imageCustodians_keepsE {sc : Scope} {s0 s t : State} {i : Bytes} (e : imageCustodians s i = some t) (hs
    : Keeps sc s0 s) : Keeps sc s0 t := by
  unfold imageCustodians at e
  dsimp only at e
  split at e
  · cases e
  · obtain ⟨v, _, rfl⟩ := Option.map_eq_some_iff.mp e
    iterate 40 try any_goals first
      | (with_reducible first
          | assumption | apply setDom_keeps | apply epoch_keeps)
      | split | intro _ | dsimp only | (show _ = _; rfl)
      | (with_reducible first | apply Keeps.updS)

theorem execLifeCycleSet_keeps {sc : Scope} {s0 : State} (w : Nat) (badBits : List (Nat × Nat)) (s : State)
    (hs : Keeps sc s0 s) (hcl : sc.life = true := by assumption) (hcm : sc.mem = true := by assumption)
    (hco : sc.otp = true := by assumption) : KeepsOut sc s0 (execLifeCycleSet w badBits s) := by
  unfold execLifeCycleSet
  iterate 40 try any_goals first
    | (with_reducible first
        | assumption | apply KeepsOut.next | apply onWork_keeps | apply failWork_keeps | apply failTicket_keeps
        | apply endTicket_keeps | apply modWork_keeps | apply beginTrans_keeps)
    | split | intro _ | dsimp only | (show _ = _; rfl)
    | (with_reducible first | apply Keeps.updS)

theorem execDebugEnable_keeps {sc : Scope} {s0 : State} (w : Nat) (s : State) (hs : Keeps sc s0 s) : KeepsOut sc s0
    (execDebugEnable w s) := by
  unfold execDebugEnable
  iterate 40 try any_goals first
    | (with_reducible first
        | assumption | apply KeepsOut.next | apply onWork_keeps | apply withQuorum_keeps | apply failWork_keeps
        | apply okWork_keeps | apply setDebug_keeps)
    | split | intro _ | dsimp only | (show _ = _; rfl)
    | (with_reducible first | apply Keeps.updS)

theorem execUnitOut_keeps {sc : Scope} {s0 : State} (w : Nat) (s : State) (hs : Keeps sc s0 s) : KeepsOut sc s0
    (execUnitOut w s) := by
  unfold execUnitOut
  iterate 40 try any_goals first
    | (with_reducible first
        | assumption | apply KeepsOut.next | apply onWork_keeps | apply failWork_keeps | apply putUnit_keeps
        | apply modWork_keeps | apply Keeps.foldl)
    | split | intro _ | dsimp only | (show _ = _; rfl)
    | (with_reducible first | apply Keeps.updS)

theorem execUnitReturn_keeps {sc : Scope} {s0 : State} (w : Nat) (s : State) (hs : Keeps sc s0 s) : KeepsOut sc s0
    (execUnitReturn w s) := by
  unfold execUnitReturn
  iterate 40 try any_goals first
    | (with_reducible first
        | assumption | apply KeepsOut.next | apply onWork_keeps | apply failWork_keeps | apply unitBegin_keeps
        | apply modWork_keeps | apply Keeps.foldl)
    | split | intro _ | dsimp only | (show _ = _; rfl)
    | (with_reducible first | apply Keeps.updS)

theorem setFwOther_keeps {sc : Scope} {s0 : State} (s : State) (t : Tab Bytes) (hs : Keeps sc s0 s) : Keeps sc s0
    (setFwOther s t) := by
  unfold setFwOther
  iterate 40 try any_goals first
    | (with_reducible first
        | assumption)
    | split | intro _ | dsimp only | (show _ = _; rfl)
    | (with_reducible first | apply Keeps.updS)

theorem setUcOther_keeps {sc : Scope} {s0 : State} (s : State) (b : Bytes) (hs : Keeps sc s0 s) : Keeps sc s0
    (setUcOther s b) := by
  unfold setUcOther
  iterate 40 try any_goals first
    | (with_reducible first
        | assumption)
    | split | intro _ | dsimp only | (show _ = _; rfl)
    | (with_reducible first | apply Keeps.updS)

theorem stageImage_keeps {sc : Scope} {s0 : State} (s : State) (c : Nat) (img : Bytes) (hs : Keeps sc s0 s) : Keeps
    sc s0 (stageImage s c img) := by
  unfold stageImage
  iterate 40 try any_goals first
    | (with_reducible first
        | assumption | apply setUcOther_keeps | apply setFwOther_keeps)
    | split | intro _ | dsimp only | (show _ = _; rfl)
    | (with_reducible first | apply Keeps.updS)

theorem activate_keeps {sc : Scope} {s0 : State} (s : State) (hs : Keeps sc s0 s) : Keeps sc s0 (activate s) := by
  unfold activate
  iterate 40 try any_goals first
    | (with_reducible first
        | assumption | apply flipPrefer_keeps)
    | split | intro _ | dsimp only | (show _ = _; rfl)
    | (with_reducible first | apply Keeps.updS)

theorem runRestart_keeps {sc : Scope} {s0 : State} (s : State) (w : Nat) (resp : Bytes) (hs : Keeps sc s0 s) : Keeps
    sc s0 (runRestart s w resp) := by
  unfold runRestart
  iterate 40 try any_goals first
    | (with_reducible first
        | assumption | apply closeSession_keeps | apply okWork_keeps | apply Keeps.foldl)
    | split | intro _ | dsimp only | (show _ = _; rfl)
    | (with_reducible first | apply Keeps.updS)

theorem settleRestart_keeps {sc : Scope} {s0 : State} (s : State) (hs : Keeps sc s0 s) : Keeps sc s0 (settleRestart
    s) := by
  unfold settleRestart
  iterate 40 try any_goals first
    | (with_reducible first
        | assumption | apply runRestart_keeps | apply Keeps.foldl)
    | split | intro _ | dsimp only | (show _ = _; rfl)
    | (with_reducible first | apply Keeps.updS)

theorem endUpdate_keeps {sc : Scope} {s0 : State} (s : State) (w c flags : Nat) (hs : Keeps sc s0 s) : Keeps sc s0
    (endUpdate s w c flags) := by
  unfold endUpdate
  iterate 40 try any_goals first
    | (with_reducible first
        | assumption | apply activate_keeps | apply settleRestart_keeps | apply modWork_keeps
        | apply stopAdmit_keeps | apply okWork_keeps)
    | split | intro _ | dsimp only | (show _ = _; rfl)
    | (with_reducible first | apply Keeps.updS)

theorem execFirmwareUpdate_keeps {sc : Scope} {s0 : State} (w : Nat) (s : State) (hs : Keeps sc s0 s) : KeepsOut sc
    s0 (execFirmwareUpdate w s) := by
  unfold execFirmwareUpdate
  iterate 40 try any_goals first
    | (with_reducible first
        | assumption | apply KeepsOut.next | apply onWork_keeps | apply withQuorum_keeps | apply failWork_keeps
        | apply endUpdate_keeps | apply stageImage_keeps)
    | split | intro _ | dsimp only | (show _ = _; rfl)
    | (with_reducible first | apply Keeps.updS)

theorem execArchiveSnapshot_keeps {sc : Scope} {s0 : State} (w : Nat) (s : State) (hs : Keeps sc s0 s) : KeepsOut sc
    s0 (execArchiveSnapshot w s) := by
  unfold execArchiveSnapshot
  iterate 40 try any_goals first
    | (with_reducible first
        | assumption | apply KeepsOut.next | apply onWork_keeps | apply modWork_keeps | apply beginSnap_keeps)
    | split | intro _ | dsimp only | (show _ = _; rfl)
    | (with_reducible first | apply Keeps.updS)

theorem onRecord_keeps {sc : Scope} {s0 : State} (s : State) (w f : Nat) (g : Work → State) (hs : Keeps sc s0 s)
    (h_g : ∀ y0, Keeps sc s0 (g y0)) : Keeps sc s0 (onRecord s w f g) := by
  unfold onRecord
  iterate 40 try any_goals first
    | (with_reducible first
        | assumption | apply h_g | apply onWork_keeps)
    | split | intro _ | dsimp only | (show _ = _; rfl)
    | (with_reducible first | apply Keeps.updS)

theorem execTallyRecordRead_keeps {sc : Scope} {s0 : State} (w : Nat) (s : State) (hs : Keeps sc s0 s) : KeepsOut sc
    s0 (execTallyRecordRead w s) := by
  unfold execTallyRecordRead
  iterate 40 try any_goals first
    | (with_reducible first
        | assumption | apply KeepsOut.next | apply onRecord_keeps | apply failWork_keeps | apply okWork_keeps)
    | split | intro _ | dsimp only | (show _ = _; rfl)
    | (with_reducible first | apply Keeps.updS)

theorem execTallyCut_keeps {sc : Scope} {s0 : State} (w : Nat) (s : State) (hs : Keeps sc s0 s) : KeepsOut sc s0
    (execTallyCut w s) := by
  unfold execTallyCut
  iterate 40 try any_goals first
    | (with_reducible first
        | assumption | apply KeepsOut.next | apply onRecord_keeps | apply okWork_keeps | apply modWork_keeps
        | apply modTally_keeps)
    | split | intro _ | dsimp only | (show _ = _; rfl)
    | (with_reducible first | apply Keeps.updS)

theorem execTallyLogRead_keeps {sc : Scope} {s0 : State} (w : Nat) (s : State) (hs : Keeps sc s0 s) : KeepsOut sc s0
    (execTallyLogRead w s) := by
  unfold execTallyLogRead
  iterate 40 try any_goals first
    | (with_reducible first
        | assumption | apply KeepsOut.next | apply onRecord_keeps | apply okWork_keeps)
    | split | intro _ | dsimp only | (show _ = _; rfl)
    | (with_reducible first | apply Keeps.updS)

theorem execTallyIdentity_keeps {sc : Scope} {s0 : State} (w : Nat) (s : State) (hs : Keeps sc s0 s) : KeepsOut sc
    s0 (execTallyIdentity w s) := by
  unfold execTallyIdentity
  iterate 40 try any_goals first
    | (with_reducible first
        | assumption | apply KeepsOut.next | apply onRecord_keeps | apply okWork_keeps)
    | split | intro _ | dsimp only | (show _ = _; rfl)
    | (with_reducible first | apply Keeps.updS)

theorem resealLog_keeps {sc : Scope} {s0 : State} (s : State) (f : Nat) (newSec newFw : Bytes) (hs : Keeps sc s0 s)
    : Keeps sc s0 (resealLog s f newSec newFw) := by
  unfold resealLog
  iterate 40 try any_goals first
    | (with_reducible first
        | assumption | apply useFree_keeps | apply addLog_keeps)
    | split | intro _ | dsimp only | (show _ = _; rfl)
    | (with_reducible first | apply Keeps.updS)

theorem burnSealBit_keeps {sc : Scope} {s0 s : State} {b : BitVec 64} {bad : Nat}
    (e : burnSeal s.otp.sealBits bad = some b)
    (hs : Keeps sc s0 s) (hco : sc.otp = true := by assumption) : Keeps sc s0 { s with otp := { s.otp with sealBits := b } } := by
  refine Keeps.updO hs hco (fun h => ?_) rfl rfl rfl rfl rfl rfl
  exact ⟨h, { OtpKept.refl s.otp with sealBits := burnSeal_keeps e }⟩

theorem runReseal_keeps {sc : Scope} {s0 : State} (s : State) (w : Nat) (p : Bytes) (bad : Nat) (hs : Keeps sc s0 s)
    (hco : sc.otp = true := by assumption) :
    Keeps sc s0 (runReseal s w p bad) := by
  have key : ∀ u, Keeps sc s0 u → Keeps sc s0 (match burnSeal u.otp.sealBits bad with
      | none => failWork (pulse (modTally u (fun t => { t with err := setBit t.err 3 })) 38 .degrade) w stFaultDetected
      | some b =>
        okWork (if bitOf (fld p 0 1) 0 then flipPrefer (modTally { u with otp := { u.otp with sealBits := b } } finishReseal) 2
          else modTally { u with otp := { u.otp with sealBits := b } } finishReseal) w []) := by
    intro u hu
    iterate 40 try any_goals first
      | (with_reducible first
          | assumption | apply stageConfig_keeps | apply modTally_keeps | apply resealLog_keeps | apply failWork_keeps
          | apply pulse_keeps | apply okWork_keeps | apply flipPrefer_keeps)
      | (refine burnSealBit_keeps (by assumption) ?_) | split | intro _ | dsimp only | (show _ = _; rfl)
      | (with_reducible first | apply Keeps.updS)
  refine key _ ?_
  iterate 40 try any_goals first
    | (with_reducible first
        | assumption | apply stageConfig_keeps | apply modTally_keeps | apply resealLog_keeps | apply failWork_keeps
        | apply pulse_keeps | apply okWork_keeps | apply flipPrefer_keeps)
    | split | intro _ | dsimp only | (show _ = _; rfl)
    | (with_reducible first | apply Keeps.updS)

theorem execTallyReseal_keeps {sc : Scope} {s0 : State} (w badBits : Nat) (s : State) (hs : Keeps sc s0 s)
    (hco : sc.otp = true := by assumption) : KeepsOut sc s0 (execTallyReseal w badBits s) := by
  unfold execTallyReseal
  iterate 40 try any_goals first
    | (with_reducible first
        | assumption | apply KeepsOut.next | apply onWork_keeps | apply withQuorum_keeps | apply failWork_keeps
        | apply runReseal_keeps | apply runReseal_keeps)
    | split | intro _ | dsimp only | (show _ = _; rfl)
    | (with_reducible first | apply Keeps.updS)

theorem execGapAck_keeps {sc : Scope} {s0 : State} (w : Nat) (s : State) (hs : Keeps sc s0 s) : KeepsOut sc s0
    (execGapAck w s) := by
  unfold execGapAck
  iterate 40 try any_goals first
    | (with_reducible first
        | assumption | apply KeepsOut.next | apply onWork_keeps | apply withQuorum_keeps | apply failWork_keeps
        | apply mutateWork_keeps)
    | split | intro _ | dsimp only | (show _ = _; rfl)
    | (with_reducible first | apply Keeps.updS)

theorem modTwin_keeps {sc : Scope} {s0 : State} (s : State) (f : Twin → Twin) (hs : Keeps sc s0 s) : Keeps sc s0
    (modTwin s f) := by
  unfold modTwin
  iterate 40 try any_goals first
    | (with_reducible first
        | assumption)
    | split | intro _ | dsimp only | (show _ = _; rfl)
    | (with_reducible first | apply Keeps.updS)

theorem beginPresence_keeps {sc : Scope} {s0 : State} (s : State) (hs : Keeps sc s0 s) : Keeps sc s0 (beginPresence
    s) := by
  unfold beginPresence
  iterate 40 try any_goals first
    | (with_reducible first
        | assumption | apply modTwin_keeps)
    | split | intro _ | dsimp only | (show _ = _; rfl)
    | (with_reducible first | apply Keeps.updS)

theorem linkLost_keeps {sc : Scope} {s0 : State} (s : State) (hs : Keeps sc s0 s) : Keeps sc s0 (linkLost s) := by
  unfold linkLost
  iterate 40 try any_goals first
    | (with_reducible first
        | assumption | apply beginPresence_keeps | apply modTwin_keeps)
    | split | intro _ | dsimp only | (show _ = _; rfl)
    | (with_reducible first | apply Keeps.updS)

theorem ibRespond_keeps {sc : Scope} {s0 : State} (s : State) (i : Nat) (hs : Keeps sc s0 s) : Keeps sc s0
    (ibRespond s i) := by
  unfold ibRespond
  iterate 40 try any_goals first
    | (with_reducible first
        | assumption | apply linkLost_keeps | apply modTwin_keeps)
    | split | intro _ | dsimp only | (show _ = _; rfl)
    | (with_reducible first | apply Keeps.updS)

theorem ibFire_keeps {sc : Scope} {s0 : State} (s : State) (i : Nat) (hs : Keeps sc s0 s) : Keeps sc s0 (ibFire s i)
    := by
  unfold ibFire
  iterate 40 try any_goals first
    | (with_reducible first
        | assumption | apply ibRespond_keeps | apply pulse_keeps | apply modTwin_keeps)
    | split | intro _ | dsimp only | (show _ = _; rfl)
    | (with_reducible first | apply Keeps.updS)

theorem ibForce_keeps {sc : Scope} {s0 : State} (s : State) (v : Word) (hs : Keeps sc s0 s) : Keeps sc s0 (ibForce s
    v) := by
  unfold ibForce
  iterate 40 try any_goals first
    | (with_reducible first
        | assumption | apply wrOk_keeps | apply ibFire_keeps | apply Keeps.foldl)
    | split | intro _ | dsimp only | (show _ = _; rfl)
    | (with_reducible first | apply Keeps.updS)

theorem ibWrite_keepsE {sc : Scope} {s0 t : State} {s : State} {off : Nat} {v : Word} (e : ibWrite s off v = some t)
    (hs : Keeps sc s0 s) : Keeps sc s0 t := by
  unfold ibWrite at e
  repeat' (first | split at e | dsimp only at e)
  all_goals first | (cases e; done) | cases e | skip
  all_goals iterate 40 try any_goals first
              | (with_reducible first
                  | assumption | apply wrOk_keeps | apply modTwin_keeps | apply ibForce_keeps)
              | split | intro _ | dsimp only | (show _ = _; rfl)
              | (with_reducible first | apply Keeps.updS)

theorem execIbErrForce_keeps {sc : Scope} {s0 : State} (master : Nat) (value : Word) (s : State)
    (hs : Keeps sc s0 s) : KeepsOut sc s0 (execIbErrForce master value s) := by
  unfold execIbErrForce
  iterate 40 try any_goals first
    | (with_reducible first
        | assumption | apply KeepsOut.next | apply writeAs_keeps | apply ibForce_keeps)
    | split | intro _ | dsimp only | (show _ = _; rfl)
    | (with_reducible first | apply Keeps.updS)

theorem writeRaw_keepsE {sc : Scope} {s0 t : State} {s : State} {m : Nat} {w : Win} {off : Nat} {v : Word} (e :
    writeRaw s m w off v = some t) (hs : Keeps sc s0 s) (hcm : sc.mem = true := by assumption) : Keeps sc s0 t := by
  unfold writeRaw at e
  repeat' (first | split at e | dsimp only at e)
  all_goals first | (cases e; done) | cases e | skip
  all_goals iterate 40 try any_goals first
              | (with_reducible first
                  | assumption | refine lcWrite_keepsE (e := by assumption) ?_
                  | refine fcWrite_keepsE (e := by assumption) ?_ | refine edWrite_keepsE (e := by assumption) ?_
                  | refine duWrite_keepsE (e := by assumption) ?_ | refine rngWrite_keepsE (e := by assumption) ?_
                  | refine tampWrite_keepsE (e := by assumption) ?_ | refine hcWrite_keepsE (e := by assumption) ?_
                  | refine mpuWrite_keepsE (e := by assumption) ?_ | refine prWrite_keepsE (e := by assumption) ?_
                  | refine pcWrite_keepsE (e := by assumption) ?_ | refine cbWrite_keepsE (e := by assumption) ?_
                  | refine pkWrite_keepsE (e := by assumption) ?_ | refine ibWrite_keepsE (e := by assumption) ?_)
              | split | intro _ | dsimp only | (show _ = _; rfl)
              | (with_reducible first | apply Keeps.updS)

theorem readWin_keeps {sc : Scope} {s0 : State} (s : State) (m addr : Nat) (w : Win) (off : Nat)
    (hs : Keeps sc s0 s) : Keeps sc s0 (readWin s m addr w off) := by
  unfold readWin
  iterate 40 try any_goals first
    | (with_reducible first
        | assumption | apply busErr_keeps | apply useFree_keeps | apply busOk_keeps | apply captureHi_keeps)
    | split | intro _ | dsimp only | (show _ = _; rfl)
    | (with_reducible first | apply Keeps.updS)

theorem writeRegPair_keepsE {sc : Scope} {s0 t : State} {s : State} {m : Nat} {w : Win} {off : Nat} {v : Word} (e :
    writeRegPair s m w off v = some t) (hs : Keeps sc s0 s) : Keeps sc s0 t := by
  unfold writeRegPair at e
  repeat' (first | split at e | dsimp only at e)
  all_goals first | (cases e; done) | cases e | skip
  all_goals iterate 40 try any_goals first
              | (with_reducible first
                  | assumption | apply fcStatusLo_keeps | apply fcForceLo_keeps | apply wrOk_keeps
                  | apply holdHi_keeps | apply commitPair_keeps | apply lcExpiry_keeps)
              | split | intro _ | dsimp only | (show _ = _; rfl)
              | (with_reducible first | apply Keeps.updS)

theorem writeWin_keeps {sc : Scope} {s0 : State} (s : State) (m : Nat) (w : Win) (off : Nat) (v : Word)
    (hs : Keeps sc s0 s) (hcm : sc.mem = true := by assumption) : Keeps sc s0 (writeWin s m w off v) := by
  unfold writeWin
  iterate 40 try any_goals first
    | (with_reducible first
        | assumption | refine writeRegPair_keepsE (e := by assumption) ?_
        | refine writeRaw_keepsE (e := by assumption) ?_ | refine Keeps.getD (fun _ e => writeRaw_keepsE e ?_) ?_
        | apply busErr_keeps)
    | split | intro _ | dsimp only | (show _ = _; rfl)
    | (with_reducible first | apply Keeps.updS)

theorem regGet_keeps {sc : Scope} {s0 : State} (s : State) (m addr : Nat) (hs : Keeps sc s0 s) : Keeps sc s0 (regGet
    s m addr) := by
  unfold regGet
  iterate 40 try any_goals first
    | (with_reducible first
        | assumption | apply busErr_keeps | apply readWin_keeps | apply refuse_keeps)
    | split | intro _ | dsimp only | (show _ = _; rfl)
    | (with_reducible first | apply Keeps.updS)

theorem regPut_keeps {sc : Scope} {s0 : State} (s : State) (m addr : Nat) (v : Word) (hs : Keeps sc s0 s)
    (hcm : sc.mem = true := by assumption) : Keeps sc s0 (regPut s m addr v) := by
  unfold regPut
  iterate 40 try any_goals first
    | (with_reducible first
        | assumption | apply writeAs_keeps | apply writeWin_keeps | apply busErr_keeps)
    | split | intro _ | dsimp only | (show _ = _; rfl)
    | (with_reducible first | apply Keeps.updS)

theorem hwSets_keeps {sc : Scope} {s0 : State} (s : State) (m : Nat) (w : Win) (off bits : Nat) (hs : Keeps sc s0 s)
    (hcm : sc.mem = true := by assumption) : Keeps sc s0 (hwSets s m w off bits) := by
  unfold hwSets
  iterate 40 try any_goals first
    | (with_reducible first
        | assumption | refine writeRaw_keepsE (e := by assumption) ?_
        | refine Keeps.getD (fun _ e => writeRaw_keepsE e ?_) ?_ | apply causeAlarm_keeps | apply raise_keeps
        | apply Keeps.foldl)
    | split | intro _ | dsimp only | (show _ = _; rfl)
    | (with_reducible first | apply Keeps.updS)

theorem execRegisterWrite_keeps {sc : Scope} {s0 : State} (master addr : Nat) (value : Word) (sets : Nat) (s :
    State) (hs : Keeps sc s0 s) (hcm : sc.mem = true := by assumption) : KeepsOut sc s0 (execRegisterWrite master
    addr value s sets) := by
  unfold execRegisterWrite
  iterate 40 try any_goals first
    | (with_reducible first
        | assumption | apply KeepsOut.next | apply regPut_keeps | apply hwSets_keeps)
    | split | intro _ | dsimp only | (show _ = _; rfl)
    | (with_reducible first | apply Keeps.updS)

theorem execRegPairLoRead_keeps {sc : Scope} {s0 : State} (master addr : Nat) (s : State) (hs : Keeps sc s0 s) :
    KeepsOut sc s0 (execRegPairLoRead master addr s) := by
  unfold execRegPairLoRead
  iterate 40 try any_goals first
    | (with_reducible first
        | assumption | apply KeepsOut.next | apply regGet_keeps)
    | split | intro _ | dsimp only | (show _ = _; rfl)
    | (with_reducible first | apply Keeps.updS)

theorem execRegPairHiWrite_keeps {sc : Scope} {s0 : State} (master addr : Nat) (value : Word) (s : State)
    (hs : Keeps sc s0 s) (hcm : sc.mem = true := by assumption) : KeepsOut sc s0 (execRegPairHiWrite master addr
    value s) := by
  unfold execRegPairHiWrite
  iterate 40 try any_goals first
    | (with_reducible first
        | assumption | apply KeepsOut.next | apply regPut_keeps)
    | split | intro _ | dsimp only | (show _ = _; rfl)
    | (with_reducible first | apply Keeps.updS)

theorem readList_keeps {sc : Scope} {s0 : State} (l : List Nat) (i m : Nat) (o : Bytes) (s : State) (hs
    : Keeps sc s0 s) :
    Keeps sc s0 (readList l i m o s).2.2 := by
  induction l generalizing i m o s with
  | nil => exact hs
  | cons a l ih => exact ih _ _ _ _ (regGet_keeps _ _ _ hs)

theorem execRegRead_keeps {sc : Scope} {s0 : State} (w : Nat) (s : State) (hs : Keeps sc s0 s) : KeepsOut sc s0
    (execRegRead w s) := by
  unfold execRegRead
  iterate 40 try any_goals first
    | (with_reducible first
        | assumption | apply KeepsOut.next | apply onWork_keeps | apply readList_keeps | apply okWork_keeps)
    | split | intro _ | dsimp only | (show _ = _; rfl)
    | (with_reducible first | apply Keeps.updS)

theorem writeList_keeps {sc : Scope} {s0 : State} (l : List (Nat × Word × Word)) (i : Nat) (s : State) (hs
    : Keeps sc s0 s) (hcm : sc.mem = true := by assumption) :
    Keeps sc s0 (writeList l i s).2 := by
  induction l generalizing i s with
  | nil => exact hs
  | cons a l ih =>
    unfold writeList
    iterate 40 try any_goals first
      | (with_reducible first
          | assumption | apply ih | apply regGet_keeps | apply regPut_keeps)
      | split | intro _ | dsimp only | (show _ = _; rfl)
      | (with_reducible first | apply Keeps.updS)

theorem writeList_keepsE {sc : Scope} {s0 s t : State} {l : List (Nat × Word × Word)} {i : Nat} {o : Option Nat}
    (e : writeList l i s = (o, t)) (hs : Keeps sc s0 s) (hcm : sc.mem = true := by assumption) : Keeps sc s0 t := by
  have h := writeList_keeps l i s hs
  rwa [e] at h

theorem execRegWrite_keeps {sc : Scope} {s0 : State} (w : Nat) (s : State) (hs : Keeps sc s0 s)
    (hcm : sc.mem = true := by assumption) : KeepsOut sc s0 (execRegWrite w s) := by
  unfold execRegWrite
  iterate 40 try any_goals first
    | (with_reducible first
        | assumption | refine writeList_keepsE (e := by assumption) ?_ | apply KeepsOut.next | apply onWork_keeps
        | apply failWork_keeps | apply withQuorum_keeps | apply writeList_keeps | apply okWork_keeps
        | apply complete_keeps)
    | split | intro _ | dsimp only | (show _ = _; rfl)
    | (with_reducible first | apply Keeps.updS)

theorem regTxn_keeps {sc : Scope} {s0 : State} (s : State) (t : Txn) (hs : Keeps sc s0 s)
    (hcm : sc.mem = true := by assumption) : Keeps sc s0 (regTxn s t) := by
  unfold regTxn
  iterate 40 try any_goals first
    | (with_reducible first
        | assumption | apply emit_keeps | apply refuse_keeps | apply answerErr_keeps | apply writeWin_keeps
        | apply readWin_keeps)
    | split | intro _ | dsimp only | (show _ = _; rfl)
    | (with_reducible first | apply Keeps.updS)

theorem fabricDo_keeps {sc : Scope} {s0 : State} (s : State) (t : Txn) (h : Hall) (hs : Keeps sc s0 s)
    (hcm : sc.mem = true := by assumption) : Keeps sc s0 (fabricDo s t h) := by
  unfold fabricDo
  iterate 40 try any_goals first
    | (with_reducible first
        | assumption | apply perfAdd_keeps | apply regTxn_keeps | apply memTxn_keeps)
    | split | intro _ | dsimp only | (show _ = _; rfl)
    | (with_reducible first | apply Keeps.updS)

theorem execFabricTransaction_keeps {sc : Scope} {s0 : State} (t : Txn) (s : State) (hs : Keeps sc s0 s)
    (hcm : sc.mem = true := by assumption) : KeepsOut sc s0 (execFabricTransaction t s) := by
  unfold execFabricTransaction
  iterate 40 try any_goals first
    | (with_reducible first
        | assumption | apply KeepsOut.next | apply fabricDo_keeps | apply mpuFault_keeps)
    | split | intro _ | dsimp only | (show _ = _; rfl)
    | (with_reducible first | apply Keeps.updS)

theorem debugDo_keeps {sc : Scope} {s0 : State} (s : State) (sp : Space) (write : Bool) (a v : Nat)
    (hs : Keeps sc s0 s) (hcm : sc.mem = true := by assumption) : Keeps sc s0 (debugDo s sp write a v) := by
  unfold debugDo
  iterate 40 try any_goals first
    | (with_reducible first
        | assumption | apply writeWin_keeps | apply readWin_keeps | apply emit_keeps | apply answerErr_keeps
        | apply memDo_keeps)
    | split | intro _ | dsimp only | (show _ = _; rfl)
    | (with_reducible first | apply Keeps.updS)

theorem execDebugAccess_keeps {sc : Scope} {s0 : State} (r : DebugReq) (s : State) (hs : Keeps sc s0 s)
    (hcm : sc.mem = true := by assumption) : KeepsOut sc s0 (execDebugAccess r s) := by
  unfold execDebugAccess
  iterate 40 try any_goals first
    | (with_reducible first
        | assumption | apply KeepsOut.next | apply emit_keeps | apply noteAt_keeps | apply answerErr_keeps
        | apply debugDo_keeps)
    | split | intro _ | dsimp only | (show _ = _; rfl)
    | (with_reducible first | apply Keeps.updS)

theorem resumeWitness_keeps {sc : Scope} {s0 : State} (s : State) (d : Nat) (hs : Keeps sc s0 s) : Keeps sc s0
    (resumeWitness s d) := by
  unfold resumeWitness
  iterate 40 try any_goals first
    | (with_reducible first
        | assumption | apply setDom_keeps)
    | split | intro _ | dsimp only | (show _ = _; rfl)
    | (with_reducible first | apply Keeps.updS)

theorem resumeProof_keeps {sc : Scope} {s0 : State} (s : State) (hs : Keeps sc s0 s) : Keeps sc s0 (resumeProof s)
    := by
  unfold resumeProof
  iterate 40 try any_goals first
    | (with_reducible first
        | assumption)
    | split | intro _ | dsimp only | (show _ = _; rfl)
    | (with_reducible first | apply Keeps.updS)

theorem loadDomain_keeps {sc : Scope} {s0 : State} (s : State) (d : Nat) (hs : Keeps sc s0 s) : Keeps sc s0
    (loadDomain s d) := by
  unfold loadDomain
  iterate 40 try any_goals first
    | (with_reducible first
        | assumption | apply setDom_keeps | apply deriveDomain_keeps | apply resumeWitness_keeps | apply Keeps.foldl)
    | split | intro _ | dsimp only | (show _ = _; rfl)
    | (with_reducible first | apply Keeps.updS)

theorem loadSlots_keeps {sc : Scope} {s0 : State} (s : State) (hs : Keeps sc s0 s) : Keeps sc s0 (loadSlots s) := by
  unfold loadSlots
  iterate 40 try any_goals first
    | (with_reducible first
        | assumption)
    | split | intro _ | dsimp only | (show _ = _; rfl)
    | (with_reducible first | apply Keeps.updS)

theorem emptyStore_keeps {sc : Scope} {s0 : State} (s : State) (hs : Keeps sc s0 s) : Keeps sc s0 (emptyStore s) :=
    by
  unfold emptyStore
  iterate 40 try any_goals first
    | (with_reducible first
        | assumption | apply beginSnap_keeps | apply modKeys_keeps)
    | split | intro _ | dsimp only | (show _ = _; rfl)
    | (with_reducible first | apply Keeps.updS)

theorem loadArchive_keeps {sc : Scope} {s0 : State} (s : State) (readable : Bool) (torn : List (Nat × Nat)) (only0 :
    Bool) (hs : Keeps sc s0 s) : Keeps sc s0 (loadArchive s readable torn only0) := by
  unfold loadArchive
  iterate 40 try any_goals first
    | (with_reducible first
        | assumption | apply stairRefuse_keeps | apply modKeys_keeps | apply loadDomain_keeps
        | apply loadSlots_keeps | apply resumeProof_keeps | apply beginSnap_keeps | apply emptyStore_keeps
        | apply Keeps.foldl)
    | split | intro _ | dsimp only | (show _ = _; rfl)
    | (with_reducible first | apply Keeps.updS)

theorem takeDomains_keeps {sc : Scope} {s0 : State} (s : State) (c : Config8) (only0 : Bool) (hs : Keeps sc s0 s) :
    Keeps sc s0 (takeDomains s c only0) := by
  unfold takeDomains
  iterate 40 try any_goals first
    | (with_reducible first
        | assumption | apply takeSet_keeps | apply setDom_keeps | apply Keeps.foldl)
    | split | intro _ | dsimp only | (show _ = _; rfl)
    | (with_reducible first | apply Keeps.updS)

theorem joinAlcove_keeps {sc : Scope} {s0 : State} (s : State) (a : Nat) (x : Alcove) (hs : Keeps sc s0 s) : Keeps
    sc s0 (joinAlcove s a x) := by
  unfold joinAlcove
  iterate 40 try any_goals first
    | (with_reducible first
        | assumption | apply openAlcove_keeps | apply putAlc_keeps)
    | split | intro _ | dsimp only | (show _ = _; rfl)
    | (with_reducible first | apply Keeps.updS)

theorem openSet_keeps {sc : Scope} {s0 : State} (s : State) (which : Nat → Bool) (hs : Keeps sc s0 s) : Keeps sc s0
    (openSet s which) := by
  unfold openSet
  iterate 40 try any_goals first
    | (with_reducible first
        | assumption | apply joinAlcove_keeps | apply Keeps.foldl)
    | split | intro _ | dsimp only | (show _ = _; rfl)
    | (with_reducible first | apply Keeps.updS)

theorem endSeal_keeps {sc : Scope} {s0 : State} (s : State) (hs : Keeps sc s0 s) : Keeps sc s0 (endSeal s) := by
  unfold endSeal
  iterate 40 try any_goals first
    | (with_reducible first
        | assumption | apply loadDomain_keeps | apply clrCause_keeps | apply openSet_keeps | apply takeDomains_keeps
        | apply Keeps.foldl)
    | split | intro _ | dsimp only | (show _ = _; rfl)
    | (with_reducible first | apply Keeps.updS)

theorem quorumAgain_keeps {sc : Scope} {s0 : State} (s : State) (m : Mutation) (hs : Keeps sc s0 s) : Keeps sc s0
    (quorumAgain s m).2 := by
  unfold quorumAgain
  iterate 40 try any_goals first
    | (with_reducible first
        | assumption | apply endTicket_keeps | apply failTicket_keeps)
    | split | intro _ | dsimp only | (show _ = _; rfl)
    | (with_reducible first | apply Keeps.updS)

theorem quorumAgain_keepsE {sc : Scope} {s0 t : State} {s : State} {m : Mutation} {q : Bool} (e : quorumAgain s m =
    (q, t)) (hs : Keeps sc s0 s) : Keeps sc s0 t := by
  have h := quorumAgain_keeps s m hs
  rwa [e] at h

theorem giveInst_keeps {sc : Scope} {s0 : State} (s : State) (hs : Keeps sc s0 s) : Keeps sc s0 (giveInst s) := by
  unfold giveInst
  iterate 40 try any_goals first
    | (with_reducible first
        | assumption | apply takeInst_keeps | apply recordAlone_keeps)
    | split | intro _ | dsimp only | (show _ = _; rfl)
    | (with_reducible first | apply Keeps.updS)

theorem numberFace_keeps {sc : Scope} {s0 : State} (s : State) (algo : Nat) (x0 : Option Face) (hs : Keeps sc s0 s)
    : Keeps sc s0 (numberFace s algo x0).1 := by
  unfold numberFace
  iterate 40 try any_goals first
    | (with_reducible first
        | assumption | apply giveInst_keeps)
    | split | intro _ | dsimp only | (show _ = _; rfl)
    | (with_reducible first | apply Keeps.updS)

theorem numberFace_keepsE {sc : Scope} {s0 t : State} {s : State} {algo : Nat} {x0 : Option Face} {q : Option Face}
    (e : numberFace s algo x0 = (t, q)) (hs : Keeps sc s0 s) : Keeps sc s0 t := by
  have h := numberFace_keeps s algo x0 hs
  rwa [e] at h

theorem placeNew_keepsE {sc : Scope} {s0 s t : State} {sec x : Secret} {h : Nat} (e : placeNew s sec = some (t, h, x))
    (hs : Keeps sc s0 s) : Keeps sc s0 t := by
  unfold placeNew at e
  split at e
  · cases e
    iterate 40 try any_goals first
      | (with_reducible first
          | assumption | apply numberFace_keeps | apply modKeys_keeps)
      | split | intro _ | dsimp only | (show _ = _; rfl)
      | (with_reducible first | apply Keeps.updS)
  · cases e

theorem placeBody_keeps {sc : Scope} {s0 : State} (s : State) (d : Nat) (x0 : MutBody) (hs : Keeps sc s0 s) : Keeps
    sc s0 (placeBody s d x0).1 := by
  unfold placeBody
  iterate 40 try any_goals first
    | (with_reducible first
        | assumption | refine placeNew_keepsE (e := by assumption) ?_ | apply modKeys_keeps | apply epoch_keeps)
    | split | intro _ | dsimp only | (show _ = _; rfl)
    | (with_reducible first | apply Keeps.updS)

theorem placeBody_keepsE {sc : Scope} {s0 t : State} {s : State} {d : Nat} {x0 : MutBody} {q : MutBody} (e :
    placeBody s d x0 = (t, q)) (hs : Keeps sc s0 s) : Keeps sc s0 t := by
  have h := placeBody_keeps s d x0 hs
  rwa [e] at h

theorem install_keeps {sc : Scope} {s0 : State} (s : State) (slot check : Nat) (sec : Secret) (hs : Keeps sc s0 s) :
    Keeps sc s0 (install s slot check sec) := by
  unfold install
  iterate 40 try any_goals first
    | (with_reducible first
        | assumption | apply modKeys_keeps)
    | split | intro _ | dsimp only | (show _ = _; rfl)
    | (with_reducible first | apply Keeps.updS)

theorem dropRefs_keeps {sc : Scope} {s0 : State} (s : State) (slot n : Nat) (hs : Keeps sc s0 s) : Keeps sc s0
    (dropRefs s slot n) := by
  unfold dropRefs
  iterate 40 try any_goals first
    | (with_reducible first
        | assumption | apply modKeys_keeps | apply splitPins_keeps)
    | split | intro _ | dsimp only | (show _ = _; rfl)
    | (with_reducible first | apply Keeps.updS)

theorem wipeSecret_keeps {sc : Scope} {s0 : State} (s : State) (slot : Nat) (hs : Keeps sc s0 s) : Keeps sc s0
    (wipeSecret s slot) := by
  unfold wipeSecret
  iterate 40 try any_goals first
    | (with_reducible first
        | assumption | apply modKeys_keeps | apply dropRefs_keeps)
    | split | intro _ | dsimp only | (show _ = _; rfl)
    | (with_reducible first | apply Keeps.updS)

theorem wipeFace_keeps {sc : Scope} {s0 : State} (s : State) (slot n : Nat) (hs : Keeps sc s0 s) : Keeps sc s0
    (wipeFace s slot n) := by
  unfold wipeFace
  iterate 40 try any_goals first
    | (with_reducible first
        | assumption | apply modKeys_keeps | apply dropRefs_keeps)
    | split | intro _ | dsimp only | (show _ = _; rfl)
    | (with_reducible first | apply Keeps.updS)

theorem takeRoot_keeps {sc : Scope} {s0 : State} (s : State) (d : Nat) (hs : Keeps sc s0 s) : Keeps sc s0 (takeRoot
    s d) := by
  unfold takeRoot
  iterate 40 try any_goals first
    | (with_reducible first
        | assumption | apply setDom_keeps | apply admitTasks_keeps | apply deriveDomain_keeps
        | apply resumeWitness_keeps)
    | split | intro _ | dsimp only | (show _ = _; rfl)
    | (with_reducible first | apply Keeps.updS)

theorem modMirrorKeys_keeps {sc : Scope} {s0 : State} (s : State) (a : Nat) (f : List (Bytes × Role) → List (Bytes ×
    Role)) (hs : Keeps sc s0 s) : Keeps sc s0 (modMirrorKeys s a f) := by
  unfold modMirrorKeys
  iterate 40 try any_goals first
    | (with_reducible first
        | assumption | apply modTwin_keeps)
    | split | intro _ | dsimp only | (show _ = _; rfl)
    | (with_reducible first | apply Keeps.updS)

theorem setClients_keeps {sc : Scope} {s0 : State} (s : State) (a : Nat) (adds removes : List Bytes)
    (hs : Keeps sc s0 s) : Keeps sc s0 (setClients s a adds removes) := by
  unfold setClients
  iterate 40 try any_goals first
    | (with_reducible first
        | assumption | apply putKeys_keeps | apply modMirrorKeys_keeps)
    | split | intro _ | dsimp only | (show _ = _; rfl)
    | (with_reducible first | apply Keeps.updS)

theorem setProof_keeps {sc : Scope} {s0 : State} (s : State) (a : Nat) (v : Bytes) (hs : Keeps sc s0 s) : Keeps sc
    s0 (setProof s a v) := by
  unfold setProof
  iterate 40 try any_goals first
    | (with_reducible first
        | assumption | apply modAlc_keeps | apply modTwin_keeps)
    | split | intro _ | dsimp only | (show _ = _; rfl)
    | (with_reducible first | apply Keeps.updS)

theorem setAlcove_keeps {sc : Scope} {s0 : State} (s : State) (x : AlcoveSettings) (keys : List Bytes) (new : Bool)
    (hs : Keeps sc s0 s) : Keeps sc s0 (setAlcove s x keys new).1 := by
  unfold setAlcove
  iterate 40 try any_goals first
    | (with_reducible first
        | assumption | refine changeAlcove_keepsE (e := by assumption) ?_ | apply createAlcove_keeps
        | apply changeAlcove_keeps | apply putStewards_keeps | apply modMirrorKeys_keeps | apply modTwin_keeps)
    | split | intro _ | dsimp only | (show _ = _; rfl)
    | (with_reducible first | apply Keeps.updS)

theorem setAlcove_keepsE {sc : Scope} {s0 t : State} {s : State} {x : AlcoveSettings} {keys : List Bytes} {new :
    Bool} {q : Bool} (e : setAlcove s x keys new = (t, q)) (hs : Keeps sc s0 s) : Keeps sc s0 t := by
  have h := setAlcove_keeps s x keys new hs
  rwa [e] at h

theorem dropAlcove_keeps {sc : Scope} {s0 : State} (s : State) (a : Nat) (hs : Keeps sc s0 s) : Keeps sc s0
    (dropAlcove s a).1 := by
  unfold dropAlcove
  iterate 40 try any_goals first
    | (with_reducible first
        | assumption | apply beginRemove_keeps | apply modTwin_keeps)
    | split | intro _ | dsimp only | (show _ = _; rfl)
    | (with_reducible first | apply Keeps.updS)

theorem dropAlcove_keepsE {sc : Scope} {s0 t : State} {s : State} {a : Nat} {q : Bool} (e : dropAlcove s a = (t, q))
    (hs : Keeps sc s0 s) : Keeps sc s0 t := by
  have h := dropAlcove_keeps s a hs
  rwa [e] at h

theorem mapHandleOf_keeps {sc : Scope} {s0 : State} (s : State) (a old new : Nat) (hs : Keeps sc s0 s) : Keeps sc s0
    (mapHandleOf s a old new) := by
  unfold mapHandleOf
  iterate 40 try any_goals first
    | (with_reducible first
        | assumption | apply modAlc_keeps)
    | split | intro _ | dsimp only | (show _ = _; rfl)
    | (with_reducible first | apply Keeps.updS)

theorem applyBody_keeps {sc : Scope} {s0 : State} (s : State) (d : Nat) (w : Option Nat) (b : MutBody)
    (hs : Keeps sc s0 s) : Keeps sc s0 (applyBody s d w b).1 := by
  unfold applyBody
  iterate 40 try any_goals first
    | (with_reducible first
        | assumption | refine setAlcove_keepsE (e := by assumption) ?_
        | refine dropAlcove_keepsE (e := by assumption) ?_ | apply modKeys_keeps | apply wipeFace_keeps
        | apply wipeSecret_keeps | apply splitPins_keeps | apply resetAlcove_keeps | apply takeRoot_keeps
        | apply setProof_keeps | apply setClients_keeps | apply setAlcove_keeps | apply dropAlcove_keeps
        | apply endSeal_keeps | apply mapHandleOf_keeps)
    | split | intro _ | dsimp only | (show _ = _; rfl)
    | (with_reducible first | apply Keeps.updS)

theorem applyBody_keepsE {sc : Scope} {s0 t : State} {s : State} {d : Nat} {w : Option Nat} {b : MutBody} {q :
    Option Nat} (e : applyBody s d w b = (t, q)) (hs : Keeps sc s0 s) : Keeps sc s0 t := by
  have h := applyBody_keeps s d w b hs
  rwa [e] at h

theorem restartSeq_keeps {sc : Scope} {s0 : State} (s : State) (d : Nat) (b : MutBody) (hs : Keeps sc s0 s) : Keeps
    sc s0 (restartSeq s d b) := by
  unfold restartSeq
  iterate 40 try any_goals first
    | (with_reducible first
        | assumption | apply setDom_keeps)
    | split | intro _ | dsimp only | (show _ = _; rfl)
    | (with_reducible first | apply Keeps.updS)

theorem endMutation_keeps {sc : Scope} {s0 : State} (s : State) (m : Mutation) (handles : Bytes) (wait : Option Nat)
    (hs : Keeps sc s0 s) : Keeps sc s0 (endMutation s m handles wait) := by
  unfold endMutation
  iterate 40 try any_goals first
    | (with_reducible first
        | assumption | apply modWork_keeps | apply complete_keeps | apply Keeps.elim)
    | split | intro _ | dsimp only | (show _ = _; rfl)
    | (with_reducible first | apply Keeps.updS)

theorem popMut_keeps {sc : Scope} {s0 : State} (s : State) (d : Nat) (hs : Keeps sc s0 s) : Keeps sc s0 (popMut s d)
    := by
  unfold popMut
  iterate 40 try any_goals first
    | (with_reducible first
        | assumption | apply setDom_keeps)
    | split | intro _ | dsimp only | (show _ = _; rfl)
    | (with_reducible first | apply Keeps.updS)

theorem placeHead_keeps {sc : Scope} {s0 : State} (s : State) (d : Nat) (m : Mutation) (hs : Keeps sc s0 s) : Keeps
    sc s0 (placeHead s d m).1 := by
  unfold placeHead
  iterate 40 try any_goals first
    | (with_reducible first
        | assumption | refine quorumAgain_keepsE (e := by assumption) ?_
        | refine placeBody_keepsE (e := by assumption) ?_ | refine sequence_keepsE (e := by assumption) ?_
        | apply quorumAgain_keeps | apply popMut_keeps | apply failWork_keeps | apply placeBody_keeps
        | apply sequence_keeps | apply restartSeq_keeps | apply setDom_keeps | apply Keeps.elim)
    | split | intro _ | dsimp only | (show _ = _; rfl)
    | (with_reducible first | apply Keeps.updS)

theorem placeHead_keepsE {sc : Scope} {s0 t : State} {s : State} {d : Nat} {m : Mutation} {q : Option JournalRec} (e
    : placeHead s d m = (t, q)) (hs : Keeps sc s0 s) : Keeps sc s0 t := by
  have h := placeHead_keeps s d m hs
  rwa [e] at h

theorem applyHead_keeps {sc : Scope} {s0 : State} (s : State) (d : Nat) (m : Mutation) (r : JournalRec)
    (hs : Keeps sc s0 s) : Keeps sc s0 (applyHead s d m r) := by
  unfold applyHead
  iterate 40 try any_goals first
    | (with_reducible first
        | assumption | refine applyBody_keepsE (e := by assumption) ?_ | apply applyBody_keeps | apply popMut_keeps
        | apply endMutation_keeps)
    | split | intro _ | dsimp only | (show _ = _; rfl)
    | (with_reducible first | apply Keeps.updS)

theorem commitHere_keeps {sc : Scope} {s0 : State} (s : State) (d : Nat) (m : Mutation) (hs : Keeps sc s0 s) : Keeps
    sc s0 (commitHere s d m) := by
  unfold commitHere
  iterate 40 try any_goals first
    | (with_reducible first
        | assumption | refine placeHead_keepsE (e := by assumption) ?_ | apply applyHead_keeps
        | apply placeHead_keeps)
    | split | intro _ | dsimp only | (show _ = _; rfl)
    | (with_reducible first | apply Keeps.updS)

theorem forwardHead_keeps {sc : Scope} {s0 : State} (s : State) (d : Nat) (m : Mutation) (hs : Keeps sc s0 s) :
    Keeps sc s0 (forwardHead s d m) := by
  unfold forwardHead
  iterate 40 try any_goals first
    | (with_reducible first
        | assumption | refine quorumAgain_keepsE (e := by assumption) ?_ | apply quorumAgain_keeps
        | apply popMut_keeps | apply failWork_keeps | apply emit_keeps | apply setDom_keeps | apply epoch_keeps
        | apply Keeps.elim)
    | split | intro _ | dsimp only | (show _ = _; rfl)
    | (with_reducible first | apply Keeps.updS)

theorem partnerUse_keeps {sc : Scope} {s0 : State} (s : State) (r : JournalRec) (hs : Keeps sc s0 s) : Keeps sc s0
    (partnerUse s r) := by
  unfold partnerUse
  iterate 40 try any_goals first
    | (with_reducible first
        | assumption | apply modTwin_keeps)
    | split | intro _ | dsimp only | (show _ = _; rfl)
    | (with_reducible first | apply Keeps.updS)

theorem ownMark_keeps {sc : Scope} {s0 : State} (s : State) (r : JournalRec) (hs : Keeps sc s0 s) : Keeps sc s0
    (ownMark s r) := by
  unfold ownMark
  iterate 40 try any_goals first
    | (with_reducible first
        | assumption | apply liftMark_keeps | apply modTwin_keeps)
    | split | intro _ | dsimp only | (show _ = _; rfl)
    | (with_reducible first | apply Keeps.updS)

theorem noteApplied_keeps {sc : Scope} {s0 : State} (s : State) (r : JournalRec) (handles : Bytes)
    (hs : Keeps sc s0 s) : Keeps sc s0 (noteApplied s r handles) := by
  unfold noteApplied
  iterate 40 try any_goals first
    | (with_reducible first
        | assumption | apply modTwin_keeps)
    | split | intro _ | dsimp only | (show _ = _; rfl)
    | (with_reducible first | apply Keeps.updS)

theorem applyRecord_keeps {sc : Scope} {s0 : State} (s : State) (r : JournalRec) (hs : Keeps sc s0 s) : Keeps sc s0
    (applyRecord s r) := by
  unfold applyRecord
  iterate 40 try any_goals first
    | (with_reducible first
        | assumption | refine applyBody_keepsE (e := by assumption) ?_ | apply modTwin_keeps | apply popMut_keeps
        | apply ownMark_keeps | apply partnerUse_keeps | apply applyBody_keeps | apply journalAdd_keeps
        | apply setDom_keeps | apply endMutation_keeps | apply noteApplied_keeps)
    | split | intro _ | dsimp only | (show _ = _; rfl)
    | (with_reducible first | apply Keeps.updS)

theorem commitStep_keeps {sc : Scope} {s0 : State} (s : State) (d : Nat) (hs : Keeps sc s0 s) : Keeps sc s0
    (commitStep s d) := by
  unfold commitStep
  iterate 40 try any_goals first
    | (with_reducible first
        | assumption | apply commitHere_keeps | apply applyRecord_keeps | apply forwardHead_keeps
        | apply popMut_keeps | apply failWork_keeps | apply Keeps.elim)
    | split | intro _ | dsimp only | (show _ = _; rfl)
    | (with_reducible first | apply Keeps.updS)

theorem execMutationCommit_keeps {sc : Scope} {s0 : State} (domain : Nat) (s : State) (hs : Keeps sc s0 s) :
    KeepsOut sc s0 (execMutationCommit domain s) := by
  unfold execMutationCommit
  iterate 40 try any_goals first
    | (with_reducible first
        | assumption | apply KeepsOut.next | apply commitStep_keeps)
    | split | intro _ | dsimp only | (show _ = _; rfl)
    | (with_reducible first | apply Keeps.updS)

theorem execInvocationMarkCommit_keeps {sc : Scope} {s0 : State} (r : MarkRef) (s : State) (hs : Keeps sc s0 s) :
    KeepsOut sc s0 (execInvocationMarkCommit r s) := by
  unfold execInvocationMarkCommit
  iterate 40 try any_goals first
    | (with_reducible first
        | assumption | apply KeepsOut.next | apply rerunStreams_keeps | apply liftMark_keeps
        | apply recordAlone_keeps | apply modTwin_keeps)
    | split | intro _ | dsimp only | (show _ = _; rfl)
    | (with_reducible first | apply Keeps.updS)

theorem wakeSnapshot_keeps {sc : Scope} {s0 : State} (s : State) (hs : Keeps sc s0 s) : Keeps sc s0 (wakeSnapshot s)
    := by
  unfold wakeSnapshot
  iterate 40 try any_goals first
    | (with_reducible first
        | assumption | apply okWork_keeps | apply Keeps.foldl)
    | split | intro _ | dsimp only | (show _ = _; rfl)
    | (with_reducible first | apply Keeps.updS)

theorem execSnapshotComplete_keeps {sc : Scope} {s0 : State} (s : State) (hs : Keeps sc s0 s) : KeepsOut sc s0
    (execSnapshotComplete s) := by
  unfold execSnapshotComplete
  iterate 40 try any_goals first
    | (with_reducible first
        | assumption | apply KeepsOut.next | apply modKeys_keeps | apply wakeSnapshot_keeps)
    | split | intro _ | dsimp only | (show _ = _; rfl)
    | (with_reducible first | apply Keeps.updS)

theorem execArchiveJournalWrite_keeps {sc : Scope} {s0 : State} (records : Nat) (s : State) (hs : Keeps sc s0 s) :
    KeepsOut sc s0 (execArchiveJournalWrite records s) := by
  unfold execArchiveJournalWrite
  iterate 40 try any_goals first
    | (with_reducible first
        | assumption | apply KeepsOut.next | apply modKeys_keeps | apply beginSnap_keeps)
    | split | intro _ | dsimp only | (show _ = _; rfl)
    | (with_reducible first | apply Keeps.updS)

theorem execArchiveRefreshDue_keeps {sc : Scope} {s0 : State} (block : Nat) (hottest coolest : BitVec 16) (s :
    State) (hs : Keeps sc s0 s) : KeepsOut sc s0 (execArchiveRefreshDue block s hottest coolest) := by
  unfold execArchiveRefreshDue
  iterate 40 try any_goals first
    | (with_reducible first
        | assumption | apply KeepsOut.next | apply modPower_keeps | apply modKeys_keeps)
    | (show Power.powered _ = _; rfl) | split | intro _ | dsimp only | (show _ = _; rfl)
    | (with_reducible first | apply Keeps.updS)

theorem execGrantExpiry_keeps {sc : Scope} {s0 : State} (slot : Nat) (s : State) (hs : Keeps sc s0 s) : KeepsOut sc
    s0 (execGrantExpiry slot s) := by
  unfold execGrantExpiry
  iterate 40 try any_goals first
    | (with_reducible first
        | assumption | apply KeepsOut.next | apply mutateAlone_keeps | apply Keeps.foldl)
    | split | intro _ | dsimp only | (show _ = _; rfl)
    | (with_reducible first | apply Keeps.updS)

theorem execAdmissionEpoch_keeps {sc : Scope} {s0 : State} (s : State) (hs : Keeps sc s0 s) : KeepsOut sc s0
    (execAdmissionEpoch s) := by
  unfold execAdmissionEpoch
  iterate 40 try any_goals first
    | (with_reducible first
        | assumption | apply KeepsOut.next | apply settleLoads_keeps | apply takeWaiting_keeps | apply epoch_keeps)
    | split | intro _ | dsimp only | (show _ = _; rfl)
    | (with_reducible first | apply Keeps.updS)

theorem execSequencerMove_keeps {sc : Scope} {s0 : State} (domain : Nat) (s : State) (hs : Keeps sc s0 s) : KeepsOut
    sc s0 (execSequencerMove domain s) := by
  unfold execSequencerMove
  iterate 40 try any_goals first
    | (with_reducible first
        | assumption | apply KeepsOut.next | apply setDom_keeps)
    | split | intro _ | dsimp only | (show _ = _; rfl)
    | (with_reducible first | apply Keeps.updS)

theorem announce_keeps {sc : Scope} {s0 : State} (s : State) (a : Nat) (hs : Keeps sc s0 s) : Keeps sc s0 (announce
    s a) := by
  unfold announce
  iterate 40 try any_goals first
    | (with_reducible first
        | assumption | apply sendOut_keeps | apply Keeps.foldl)
    | split | intro _ | dsimp only | (show _ = _; rfl)
    | (with_reducible first | apply Keeps.updS)

theorem announceFirst_keeps {sc : Scope} {s0 : State} (s : State) (a : Nat) (hs : Keeps sc s0 s) : Keeps sc s0
    (announceFirst s a) := by
  unfold announceFirst
  iterate 40 try any_goals first
    | (with_reducible first
        | assumption | apply modTwin_keeps | apply announce_keeps)
    | split | intro _ | dsimp only | (show _ = _; rfl)
    | (with_reducible first | apply Keeps.updS)

theorem addressMoved_keeps {sc : Scope} {s0 : State} (s : State) (a : Nat) (hs : Keeps sc s0 s) : Keeps sc s0
    (addressMoved s a) := by
  unfold addressMoved
  iterate 40 try any_goals first
    | (with_reducible first
        | assumption | apply postEvent_keeps)
    | split | intro _ | dsimp only | (show _ = _; rfl)
    | (with_reducible first | apply Keeps.updS)

theorem serveRecord_keeps {sc : Scope} {s0 : State} (s : State) (r : AlcoveRecord) (keys : List (Bytes × Role))
    (proof : Option Bytes) (hs : Keeps sc s0 s) : Keeps sc s0 (serveRecord s r keys proof) := by
  unfold serveRecord
  iterate 40 try any_goals first
    | (with_reducible first
        | assumption | apply openAlcove_keeps | apply putAlc_keeps | apply Keeps.foldl)
    | split | intro _ | dsimp only | (show _ = _; rfl)
    | (with_reducible first | apply Keeps.updS)

theorem openRecord_keeps {sc : Scope} {s0 : State} (s : State) (a : Nat) (hs : Keeps sc s0 s) : Keeps sc s0
    (openRecord s a) := by
  unfold openRecord
  iterate 40 try any_goals first
    | (with_reducible first
        | assumption | apply serveRecord_keeps | apply modTwin_keeps)
    | split | intro _ | dsimp only | (show _ = _; rfl)
    | (with_reducible first | apply Keeps.updS)

theorem handAway_keeps {sc : Scope} {s0 : State} (s : State) (a : Nat) (hs : Keeps sc s0 s) : Keeps sc s0 (handAway
    s a) := by
  unfold handAway
  iterate 40 try any_goals first
    | (with_reducible first
        | assumption)
    | split | intro _ | dsimp only | (show _ = _; rfl)
    | (with_reducible first | apply Keeps.updS)

theorem adoptSession_keeps {sc : Scope} {s0 : State} (s : State) (a i : Nat) (f : Nat → Session)
    (hs : Keeps sc s0 s) : Keeps sc s0 (adoptSession s a i f) := by
  unfold adoptSession
  iterate 40 try any_goals first
    | (with_reducible first
        | assumption | apply putSess_keeps)
    | split | intro _ | dsimp only | (show _ = _; rfl)
    | (with_reducible first | apply Keeps.updS)

theorem adoptMoved_keeps {sc : Scope} {s0 : State} (s : State) (a : Nat) (l : List MovedSession)
    (hs : Keeps sc s0 s) : Keeps sc s0 (adoptMoved s a l) := by
  unfold adoptMoved
  iterate 40 try any_goals first
    | (with_reducible first
        | assumption | apply adoptSession_keeps | apply Keeps.foldl)
    | split | intro _ | dsimp only | (show _ = _; rfl)
    | (with_reducible first | apply Keeps.updS)

theorem writePair_keeps {sc : Scope} {s0 : State} (s : State) (f : PairRec → PairRec) (hs : Keeps sc s0 s) : Keeps
    sc s0 (writePair s f) := by
  unfold writePair
  iterate 40 try any_goals first
    | (with_reducible first
        | assumption | apply modTwin_keeps)
    | split | intro _ | dsimp only | (show _ = _; rfl)
    | (with_reducible first | apply Keeps.updS)

theorem onPair_keeps {sc : Scope} {s0 : State} (s : State) (w f : Nat) (g : State → Work → State)
    (hs : Keeps sc s0 s) (h_g : ∀ y0 y1, Keeps sc s0 y0 → Keeps sc s0 (g y0 y1)) : Keeps sc s0 (onPair s w f g) :=
    by
  unfold onPair
  iterate 40 try any_goals first
    | (with_reducible first
        | assumption | apply h_g | apply onWork_keeps | apply withQuorum_keeps)
    | split | intro _ | dsimp only | (show _ = _; rfl)
    | (with_reducible first | apply Keeps.updS)

theorem execTwinPair_keeps {sc : Scope} {s0 : State} (w : Nat) (s : State) (hs : Keeps sc s0 s) : KeepsOut sc s0
    (execTwinPair w s) := by
  unfold execTwinPair
  iterate 40 try any_goals first
    | (with_reducible first
        | assumption | apply KeepsOut.next | apply onPair_keeps | apply failWork_keeps | apply writePair_keeps
        | apply epoch_keeps | apply okWork_keeps | apply modTwin_keeps)
    | split | intro _ | dsimp only | (show _ = _; rfl)
    | (with_reducible first | apply Keeps.updS)

theorem dropPartnerHomes_keeps {sc : Scope} {s0 : State} (s : State) (hs : Keeps sc s0 s) : Keeps sc s0
    (dropPartnerHomes s) := by
  unfold dropPartnerHomes
  iterate 40 try any_goals first
    | (with_reducible first
        | assumption | apply beginRemove_keeps | apply recordAlone_keeps | apply modTwin_keeps | apply Keeps.foldl)
    | split | intro _ | dsimp only | (show _ = _; rfl)
    | (with_reducible first | apply Keeps.updS)

theorem execTwinUnpair_keeps {sc : Scope} {s0 : State} (w : Nat) (s : State) (hs : Keeps sc s0 s) : KeepsOut sc s0
    (execTwinUnpair w s) := by
  unfold execTwinUnpair
  iterate 40 try any_goals first
    | (with_reducible first
        | assumption | apply KeepsOut.next | apply onPair_keeps | apply dropPartnerHomes_keeps
        | apply writePair_keeps | apply okWork_keeps | apply modTwin_keeps)
    | split | intro _ | dsimp only | (show _ = _; rfl)
    | (with_reducible first | apply Keeps.updS)

theorem surviveAll_keeps {sc : Scope} {s0 : State} (s : State) (hs : Keeps sc s0 s) : Keeps sc s0 (surviveAll s) :=
    by
  unfold surviveAll
  iterate 40 try any_goals first
    | (with_reducible first
        | assumption | apply writePair_keeps | apply epoch_keeps | apply modTwin_keeps | apply modKeys_keeps)
    | split | intro _ | dsimp only | (show _ = _; rfl)
    | (with_reducible first | apply Keeps.updS)

theorem execTwinSolo_keeps {sc : Scope} {s0 : State} (w : Nat) (s : State) (hs : Keeps sc s0 s) : KeepsOut sc s0
    (execTwinSolo w s) := by
  unfold execTwinSolo
  iterate 40 try any_goals first
    | (with_reducible first
        | assumption | apply KeepsOut.next | apply onPair_keeps | apply openRecord_keeps | apply surviveAll_keeps
        | apply okWork_keeps | apply openSet_keeps | apply failWork_keeps | apply Keeps.foldl)
    | split | intro _ | dsimp only | (show _ = _; rfl)
    | (with_reducible first | apply Keeps.updS)

theorem onGrant_keeps {sc : Scope} {s0 : State} (s : State) (w f : Nat) (g : Work → State) (hs : Keeps sc s0 s) (h_g
    : ∀ y0, Keeps sc s0 (g y0)) : Keeps sc s0 (onGrant s w f g) := by
  unfold onGrant
  iterate 40 try any_goals first
    | (with_reducible first
        | assumption | apply h_g | apply onWork_keeps)
    | split | intro _ | dsimp only | (show _ = _; rfl)
    | (with_reducible first | apply Keeps.updS)

theorem addBlock_keeps {sc : Scope} {s0 : State} (s : State) (base : Nat) (hs : Keeps sc s0 s) : Keeps sc s0
    (addBlock s base) := by
  unfold addBlock
  iterate 40 try any_goals first
    | (with_reducible first
        | assumption | apply modKeys_keeps)
    | split | intro _ | dsimp only | (show _ = _; rfl)
    | (with_reducible first | apply Keeps.updS)

theorem execReceiveKey_keeps {sc : Scope} {s0 : State} (w : Nat) (s : State) (hs : Keeps sc s0 s) : KeepsOut sc s0
    (execReceiveKey w s) := by
  unfold execReceiveKey
  iterate 40 try any_goals first
    | (with_reducible first
        | assumption | apply KeepsOut.next | apply onGrant_keeps | apply okWork_keeps)
    | split | intro _ | dsimp only | (show _ = _; rfl)
    | (with_reducible first | apply Keeps.updS)

theorem execJoin_keeps {sc : Scope} {s0 : State} (w : Nat) (s : State) (hs : Keeps sc s0 s) : KeepsOut sc s0
    (execJoin w s) := by
  unfold execJoin
  iterate 40 try any_goals first
    | (with_reducible first
        | assumption | apply KeepsOut.next | apply onGrant_keeps | apply failWork_keeps | apply addBlock_keeps
        | apply okWork_keeps)
    | split | intro _ | dsimp only | (show _ = _; rfl)
    | (with_reducible first | apply Keeps.updS)

theorem execInstanceBlock_keeps {sc : Scope} {s0 : State} (w : Nat) (s : State) (hs : Keeps sc s0 s) : KeepsOut sc
    s0 (execInstanceBlock w s) := by
  unfold execInstanceBlock
  iterate 40 try any_goals first
    | (with_reducible first
        | assumption | apply KeepsOut.next | apply onGrant_keeps | apply addBlock_keeps | apply okWork_keeps)
    | split | intro _ | dsimp only | (show _ = _; rfl)
    | (with_reducible first | apply Keeps.updS)

theorem execGrantKey_keeps {sc : Scope} {s0 : State} (w : Nat) (s : State) (hs : Keeps sc s0 s) : KeepsOut sc s0
    (execGrantKey w s) := by
  unfold execGrantKey
  iterate 40 try any_goals first
    | (with_reducible first
        | assumption | apply KeepsOut.next | apply onGrant_keeps | apply failWork_keeps | apply okWork_keeps
        | apply setDom_keeps)
    | split | intro _ | dsimp only | (show _ = _; rfl)
    | (with_reducible first | apply Keeps.updS)

theorem mutateOn_keeps {sc : Scope} {s0 : State} (s : State) (w d : Nat) (k : Work) (body : MutBody) (resp : Bytes)
    (hs : Keeps sc s0 s) : Keeps sc s0 (mutateOn s w d k body resp) := by
  unfold mutateOn
  iterate 40 try any_goals first
    | (with_reducible first
        | assumption | apply queueMut_keeps | apply epoch_keeps | apply modWork_keeps)
    | split | intro _ | dsimp only | (show _ = _; rfl)
    | (with_reducible first | apply Keeps.updS)

theorem execGrant_keeps {sc : Scope} {s0 : State} (w : Nat) (s : State) (hs : Keeps sc s0 s) : KeepsOut sc s0
    (execGrant w s) := by
  unfold execGrant
  iterate 40 try any_goals first
    | (with_reducible first
        | assumption | apply KeepsOut.next | apply onGrant_keeps | apply failWork_keeps | apply mutateOn_keeps)
    | split | intro _ | dsimp only | (show _ = _; rfl)
    | (with_reducible first | apply Keeps.updS)

theorem execRevoke_keeps {sc : Scope} {s0 : State} (w : Nat) (s : State) (hs : Keeps sc s0 s) : KeepsOut sc s0
    (execRevoke w s) := by
  unfold execRevoke
  iterate 40 try any_goals first
    | (with_reducible first
        | assumption | apply KeepsOut.next | apply onGrant_keeps | apply failWork_keeps | apply mutateOn_keeps)
    | split | intro _ | dsimp only | (show _ = _; rfl)
    | (with_reducible first | apply Keeps.updS)

theorem onMigrate_keeps {sc : Scope} {s0 : State} (s : State) (w op ph : Nat) (g : Work → State)
    (hs : Keeps sc s0 s) (h_g : ∀ y0, Keeps sc s0 (g y0)) : Keeps sc s0 (onMigrate s w op ph g) := by
  unfold onMigrate
  iterate 40 try any_goals first
    | (with_reducible first
        | assumption | apply h_g | apply onWork_keeps | apply failWork_keeps)
    | split | intro _ | dsimp only | (show _ = _; rfl)
    | (with_reducible first | apply Keeps.updS)

theorem sendChunk_keeps {sc : Scope} {s0 : State} (s : State) (w a : Nat) (x : Alcove) (m : Migration) (final :
    Bool) (live : Bytes) (hs : Keeps sc s0 s) : Keeps sc s0 (sendChunk s w a x m final live) := by
  unfold sendChunk
  iterate 40 try any_goals first
    | (with_reducible first
        | assumption | apply okWork_keeps | apply modAlc_keeps | apply Keeps.foldl)
    | split | intro _ | dsimp only | (show _ = _; rfl)
    | (with_reducible first | apply Keeps.updS)

theorem execMigrateOutBegin_keeps {sc : Scope} {s0 : State} (w : Nat) (s : State) (hs : Keeps sc s0 s) : KeepsOut sc
    s0 (execMigrateOutBegin w s) := by
  unfold execMigrateOutBegin
  iterate 40 try any_goals first
    | (with_reducible first
        | assumption | apply KeepsOut.next | apply onMigrate_keeps | apply failWork_keeps | apply sendChunk_keeps)
    | split | intro _ | dsimp only | (show _ = _; rfl)
    | (with_reducible first | apply Keeps.updS)

theorem execMigrateOutNext_keeps {sc : Scope} {s0 : State} (w : Nat) (s : State) (hs : Keeps sc s0 s) : KeepsOut sc
    s0 (execMigrateOutNext w s) := by
  unfold execMigrateOutNext
  iterate 40 try any_goals first
    | (with_reducible first
        | assumption | apply KeepsOut.next | apply onMigrate_keeps | apply failWork_keeps | apply sendChunk_keeps)
    | split | intro _ | dsimp only | (show _ = _; rfl)
    | (with_reducible first | apply Keeps.updS)

theorem quiesce_keeps {sc : Scope} {s0 : State} (s : State) (a : Nat) (hs : Keeps sc s0 s) : Keeps sc s0 (quiesce s
    a) := by
  unfold quiesce
  iterate 40 try any_goals first
    | (with_reducible first
        | assumption | apply modAlc_keeps)
    | split | intro _ | dsimp only | (show _ = _; rfl)
    | (with_reducible first | apply Keeps.updS)

theorem execMigrateOutStop_keeps {sc : Scope} {s0 : State} (w : Nat) (s : State) (hs : Keeps sc s0 s) : KeepsOut sc
    s0 (execMigrateOutStop w s) := by
  unfold execMigrateOutStop
  iterate 40 try any_goals first
    | (with_reducible first
        | assumption | apply KeepsOut.next | apply onMigrate_keeps | apply failWork_keeps | apply modAlc_keeps
        | apply quiesce_keeps | apply sendChunk_keeps)
    | split | intro _ | dsimp only | (show _ = _; rfl)
    | (with_reducible first | apply Keeps.updS)

theorem destroyOwn_keeps {sc : Scope} {s0 : State} (s : State) (a : Nat) (hs : Keeps sc s0 s) : Keeps sc s0
    (destroyOwn s a) := by
  unfold destroyOwn
  iterate 40 try any_goals first
    | (with_reducible first
        | assumption | apply mutateAlone_keeps | apply Keeps.foldl)
    | split | intro _ | dsimp only | (show _ = _; rfl)
    | (with_reducible first | apply Keeps.updS)

theorem execMigrateOutDone_keeps {sc : Scope} {s0 : State} (w : Nat) (s : State) (hs : Keeps sc s0 s) : KeepsOut sc
    s0 (execMigrateOutDone w s) := by
  unfold execMigrateOutDone
  iterate 40 try any_goals first
    | (with_reducible first
        | assumption | apply KeepsOut.next | apply onMigrate_keeps | apply failWork_keeps | apply recordAlone_keeps
        | apply beginRemove_keeps | apply modWork_keeps | apply destroyOwn_keeps)
    | split | intro _ | dsimp only | (show _ = _; rfl)
    | (with_reducible first | apply Keeps.updS)

theorem execMigrateInPrepare_keeps {sc : Scope} {s0 : State} (w : Nat) (s : State) (hs : Keeps sc s0 s) : KeepsOut
    sc s0 (execMigrateInPrepare w s) := by
  unfold execMigrateInPrepare
  iterate 40 try any_goals first
    | (with_reducible first
        | assumption | apply KeepsOut.next | apply onMigrate_keeps | apply failWork_keeps | apply okWork_keeps)
    | split | intro _ | dsimp only | (show _ = _; rfl)
    | (with_reducible first | apply Keeps.updS)

theorem movedFace_keeps {sc : Scope} {s0 : State} (s : State) (algo : Nat) (x0 : Option Face) (hs : Keeps sc s0 s) :
    Keeps sc s0 (movedFace s algo x0).1 := by
  unfold movedFace
  iterate 40 try any_goals first
    | (with_reducible first
        | assumption | apply giveInst_keeps)
    | split | intro _ | dsimp only | (show _ = _; rfl)
    | (with_reducible first | apply Keeps.updS)

theorem movedFace_keepsE {sc : Scope} {s0 t : State} {s : State} {algo : Nat} {x0 : Option Face} {q : Option Face}
    (e : movedFace s algo x0 = (t, q)) (hs : Keeps sc s0 s) : Keeps sc s0 t := by
  have h := movedFace_keeps s algo x0 hs
  rwa [e] at h

theorem takeSecret_keepsE {sc : Scope} {s0 s t : State} {a : Nat} {m n : Migration} {h0 h1 : Nat} {x : Secret}
    (e : takeSecret s a m h0 h1 x = .ok (t, n)) (hs : Keeps sc s0 s) : Keeps sc s0 t := by
  unfold takeSecret at e
  repeat' (first | split at e | dsimp only at e)
  all_goals first | (cases e; done) | cases e | skip
  all_goals iterate 40 try any_goals first
              | (with_reducible first
                  | assumption | refine movedFace_keepsE (e := by assumption) ?_ | apply install_keeps
                  | apply recordAlone_keeps | apply movedFace_keeps | apply modKeys_keeps | apply Keeps.foldl)
              | split | intro _ | dsimp only | (show _ = _; rfl)
              | (with_reducible first | apply Keeps.updS)

theorem takeSecrets_keepsE {sc : Scope} {s0 s t : State} {a k : Nat} {m n : Migration} {b c : Bytes}
    (e : takeSecrets a k s m b = .ok (t, n, c)) (hs : Keeps sc s0 s) : Keeps sc s0 t := by
  induction k generalizing s m b with
  | zero => cases e; exact hs
  | succ k ih =>
    unfold takeSecrets at e
    repeat' split at e
    all_goals first | (cases e; done) | skip
    exact ih e (takeSecret_keepsE (by assumption) hs)

theorem takeChunk_keepsE {sc : Scope} {s0 s t : State} {a : Nat} {m n : Migration} {b c : Bytes} {f : Bool}
    (e : takeChunk s a m b f = .ok (t, n, c)) (hs : Keeps sc s0 s) : Keeps sc s0 t := by
  unfold takeChunk at e
  repeat' (first | split at e | dsimp only at e)
  all_goals first | (cases e; done) | skip
  exact takeSecrets_keepsE e hs

theorem execMigrateInPages_keeps {sc : Scope} {s0 : State} (w : Nat) (s : State) (hs : Keeps sc s0 s) : KeepsOut sc
    s0 (execMigrateInPages w s) := by
  unfold execMigrateInPages
  iterate 40 try any_goals first
    | (with_reducible first
        | assumption | refine takeChunk_keepsE (e := by assumption) ?_ | apply KeepsOut.next | apply onMigrate_keeps
        | apply failWork_keeps | apply okWork_keeps)
    | split | intro _ | dsimp only | (show _ = _; rfl)
    | (with_reducible first | apply Keeps.updS)

theorem recordMigrated_keeps {sc : Scope} {s0 : State} (s : State) (r : AlcoveRecord) (keys : List (Bytes × Role))
    (proof : Option Bytes) (hs : Keeps sc s0 s) : Keeps sc s0 (recordMigrated s r keys proof) := by
  unfold recordMigrated
  iterate 40 try any_goals first
    | (with_reducible first
        | assumption | apply recordAlone_keeps | apply Keeps.foldl)
    | split | intro _ | dsimp only | (show _ = _; rfl)
    | (with_reducible first | apply Keeps.updS)

theorem openMigrated_keeps {sc : Scope} {s0 : State} (s : State) (m : Migration) (live : Bytes) (hs : Keeps sc s0 s)
    : Keeps sc s0 (openMigrated s m live) := by
  unfold openMigrated
  iterate 40 try any_goals first
    | (with_reducible first
        | assumption | apply serveRecord_keeps | apply recordMigrated_keeps | apply modAlc_keeps
        | apply mirrorAlcove_keeps | apply addressMoved_keeps | apply announceFirst_keeps | apply adoptMoved_keeps
        | apply Keeps.foldl)
    | split | intro _ | dsimp only | (show _ = _; rfl)
    | (with_reducible first | apply Keeps.updS)

theorem execMigrateInFinal_keeps {sc : Scope} {s0 : State} (w : Nat) (s : State) (hs : Keeps sc s0 s) : KeepsOut sc
    s0 (execMigrateInFinal w s) := by
  unfold execMigrateInFinal
  iterate 40 try any_goals first
    | (with_reducible first
        | assumption | refine takeChunk_keepsE (e := by assumption) ?_ | apply KeepsOut.next | apply onMigrate_keeps
        | apply failWork_keeps | apply okWork_keeps | apply openMigrated_keeps)
    | split | intro _ | dsimp only | (show _ = _; rfl)
    | (with_reducible first | apply Keeps.updS)

theorem execMigrateAbort_keeps {sc : Scope} {s0 : State} (w : Nat) (s : State) (hs : Keeps sc s0 s) : KeepsOut sc s0
    (execMigrateAbort w s) := by
  unfold execMigrateAbort
  iterate 40 try any_goals first
    | (with_reducible first
        | assumption | apply KeepsOut.next | apply onMigrate_keeps | apply okWork_keeps | apply modAlc_keeps
        | apply failWork_keeps | apply mutateAlone_keeps | apply Keeps.foldl)
    | split | intro _ | dsimp only | (show _ = _; rfl)
    | (with_reducible first | apply Keeps.updS)

theorem modBoot_keeps {sc : Scope} {s0 : State} (s : State) (f : Boot → Boot) (hs : Keeps sc s0 s) : Keeps sc s0
    (modBoot s f) := by
  unfold modBoot
  iterate 40 try any_goals first
    | (with_reducible first
        | assumption)
    | split | intro _ | dsimp only | (show _ = _; rfl)
    | (with_reducible first | apply Keeps.updS)

theorem modAttempt_keeps {sc : Scope} {s0 : State} (s : State) (f : Attempt → Attempt) (hs : Keeps sc s0 s) : Keeps
    sc s0 (modAttempt s f) := by
  unfold modAttempt
  iterate 40 try any_goals first
    | (with_reducible first
        | assumption | apply modBoot_keeps)
    | split | intro _ | dsimp only | (show _ = _; rfl)
    | (with_reducible first | apply Keeps.updS)

theorem modNewest_keeps {sc : Scope} {s0 : State} (s : State) (f : Word → Word) (hs : Keeps sc s0 s) : Keeps sc s0
    (modNewest s f) := by
  unfold modNewest
  iterate 40 try any_goals first
    | (with_reducible first
        | assumption | apply modAttempt_keeps)
    | split | intro _ | dsimp only | (show _ = _; rfl)
    | (with_reducible first | apply Keeps.updS)

theorem newAttempt_keeps {sc : Scope} {s0 : State} (s : State) (step : Nat) (hs : Keeps sc s0 s) : Keeps sc s0
    (newAttempt s step) := by
  unfold newAttempt
  iterate 40 try any_goals first
    | (with_reducible first
        | assumption | apply modAttempt_keeps)
    | split | intro _ | dsimp only | (show _ = _; rfl)
    | (with_reducible first | apply Keeps.updS)

theorem addFail_keeps {sc : Scope} {s0 : State} (s : State) (hs : Keeps sc s0 s) : Keeps sc s0 (addFail s) := by
  unfold addFail
  iterate 40 try any_goals first
    | (with_reducible first
        | assumption | apply modAttempt_keeps)
    | split | intro _ | dsimp only | (show _ = _; rfl)
    | (with_reducible first | apply Keeps.updS)

theorem markInterrupted_keeps {sc : Scope} {s0 : State} (s : State) (hs : Keeps sc s0 s) : Keeps sc s0
    (markInterrupted s) := by
  unfold markInterrupted
  iterate 40 try any_goals first
    | (with_reducible first
        | assumption | apply addFail_keeps | apply modNewest_keeps)
    | split | intro _ | dsimp only | (show _ = _; rfl)
    | (with_reducible first | apply Keeps.updS)

theorem actOnFail_keeps {sc : Scope} {s0 : State} (s : State) (hs : Keeps sc s0 s) : Keeps sc s0 (actOnFail s) := by
  unfold actOnFail
  iterate 40 try any_goals first
    | (with_reducible first
        | assumption | apply flipPrefer_keeps | apply modAttempt_keeps)
    | split | intro _ | dsimp only | (show _ = _; rfl)
    | (with_reducible first | apply Keeps.updS)

theorem beginAttempt_keeps {sc : Scope} {s0 : State} (s : State) (hs : Keeps sc s0 s) : Keeps sc s0 (beginAttempt s)
    := by
  unfold beginAttempt
  iterate 40 try any_goals first
    | (with_reducible first
        | assumption | apply actOnFail_keeps | apply markInterrupted_keeps | apply modBoot_keeps
        | apply newAttempt_keeps)
    | split | intro _ | dsimp only | (show _ = _; rfl)
    | (with_reducible first | apply Keeps.updS)

theorem failUnit_keeps {sc : Scope} {s0 : State} (s : State) (x0 : StartFail) (hs : Keeps sc s0 s) : Keeps sc s0
    (failUnit s x0).2 := by
  unfold failUnit
  iterate 40 try any_goals first
    | (with_reducible first
        | assumption | apply modAttempt_keeps)
    | split | intro _ | dsimp only | (show _ = _; rfl)
    | (with_reducible first | apply Keeps.updS)

theorem failUnit_keepsE {sc : Scope} {s0 t : State} {s : State} {x0 : StartFail} {q : Nat} (e : failUnit s x0 = (q,
    t)) (hs : Keeps sc s0 s) : Keeps sc s0 t := by
  have h := failUnit_keeps s x0 hs
  rwa [e] at h

theorem startFail_keeps {sc : Scope} {s0 : State} (s : State) (n : Nat) (f : StartFail) (hs : Keeps sc s0 s) : Keeps
    sc s0 (startFail s n f) := by
  unfold startFail
  iterate 40 try any_goals first
    | (with_reducible first
        | assumption | refine failUnit_keepsE (e := by assumption) ?_ | apply newAttempt_keeps
        | apply failUnit_keeps | apply modNewest_keeps | apply addFail_keeps | apply modAttempt_keeps
        | apply modBoot_keeps | apply enterSafe_keeps)
    | split | intro _ | dsimp only | (show _ = _; rfl)
    | (with_reducible first | apply Keeps.updS)

theorem step1_keeps {sc : Scope} {s0 : State} (e : StartEnv) (s : State) (hs : Keeps sc s0 s) : Keeps sc s0 (step1 e
    s) := by
  unfold step1
  iterate 40 try any_goals first
    | (with_reducible first
        | assumption | apply aonFatal_keeps)
    | split | intro _ | dsimp only | (show _ = _; rfl)
    | (with_reducible first | apply Keeps.updS)

theorem repairCopy_keeps {sc : Scope} {s0 : State} (pat : Word) (s : State) (n : Nat) (hs : Keeps sc s0 s)
    (hco : sc.otp = true := by assumption) : Keeps sc s0 (repairCopy pat s n) := by
  unfold repairCopy
  dsimp only
  split
  · exact hs
  · split
    · rename_i e
      refine lcFire_keeps _ _ (Keeps.updO hs hco (fun h => ?_) rfl rfl rfl rfl rfl rfl)
      refine ⟨?_, { OtpKept.refl s.otp with copies := wordsKept_set (inside_keeps e) }⟩
      simp only [otpShape, List.length_set] at h ⊢
      exact h
    · exact lcFire_keeps _ _ hs

theorem repairCopies_keeps {sc : Scope} {s0 : State} (s : State) (hs : Keeps sc s0 s)
    (hco : sc.otp = true := by assumption) : Keeps sc s0 (repairCopies s) := by
  unfold repairCopies
  iterate 40 try any_goals first
    | (with_reducible first
        | assumption | apply repairCopy_keeps | apply Keeps.foldl)
    | split | intro _ | dsimp only | (show _ = _; rfl)
    | (with_reducible first | apply Keeps.updS)

theorem step2_keeps {sc : Scope} {s0 : State} (s : State) (hs : Keeps sc s0 s)
    (hco : sc.otp = true := by assumption) : Keeps sc s0 (step2 s) := by
  unfold step2
  iterate 40 try any_goals first
    | (with_reducible first
        | assumption | apply repairCopies_keeps | apply commitFlag_keeps | apply Keeps.foldl)
    | split | intro _ | dsimp only | (show _ = _; rfl)
    | (with_reducible first | apply Keeps.updS)

theorem step3_keeps {sc : Scope} {s0 : State} (s : State) (hs : Keeps sc s0 s)
    (hcm : sc.mem = true := by assumption) (hco : sc.otp = true := by assumption) : Keeps sc s0 (step3 s) := by
  unfold step3
  iterate 40 try any_goals first
    | (with_reducible first
        | assumption | apply modBoot_keeps | apply modLife_keeps | apply wipeOtp_keeps | apply wipeFull_keeps
        | apply beginAttempt_keeps)
    | (show LifeCycle.life _ = _; rfl) | split | intro _ | dsimp only | (show _ = _; rfl)
    | (with_reducible first | apply Keeps.updS)

theorem matchTally_keeps {sc : Scope} {s0 : State} (s : State) (hs : Keeps sc s0 s) : Keeps sc s0 (matchTally s) :=
    by
  unfold matchTally
  iterate 40 try any_goals first
    | (with_reducible first
        | assumption | apply flipPrefer_keeps)
    | split | intro _ | dsimp only | (show _ = _; rfl)
    | (with_reducible first | apply Keeps.updS)

theorem step4_keepsE {sc : Scope} {s0 t : State} {s : State} (e : step4 s = .ok t) (hs : Keeps sc s0 s) : Keeps sc
    s0 t := by
  unfold step4 at e
  repeat' (first | split at e | dsimp only at e)
  all_goals first | (cases e; done) | cases e | skip
  all_goals iterate 40 try any_goals first
              | (with_reducible first
                  | assumption | apply matchTally_keeps | apply modBoot_keeps | apply enterSafe_keeps)
              | split | intro _ | dsimp only | (show _ = _; rfl)
              | (with_reducible first | apply Keeps.updS)

theorem step4_keepsE2 {sc : Scope} {s0 : State} {r : State × StartFail} {s : State} (e : step4 s = .error r)
    (hs : Keeps sc s0 s) : Keeps sc s0 r.1 := by
  unfold step4 at e
  repeat' (first | split at e | dsimp only at e)
  all_goals first | (cases e; done) | cases e | skip
  all_goals iterate 40 try any_goals first
              | (with_reducible first
                  | assumption | apply matchTally_keeps | apply modBoot_keeps | apply enterSafe_keeps)
              | split | intro _ | dsimp only | (show _ = _; rfl)
              | (with_reducible first | apply Keeps.updS)

theorem newEraseSecret_keeps {sc : Scope} {s0 : State} (s : State) (hs : Keeps sc s0 s) : Keeps sc s0
    (newEraseSecret s) := by
  unfold newEraseSecret
  iterate 40 try any_goals first
    | (with_reducible first
        | assumption | apply useFree_keeps)
    | split | intro _ | dsimp only | (show _ = _; rfl)
    | (with_reducible first | apply Keeps.updS)

theorem seedTally_keeps {sc : Scope} {s0 : State} (s : State) (seed : Bytes) (hs : Keeps sc s0 s) : Keeps sc s0
    (seedTally s seed) := by
  unfold seedTally
  iterate 40 try any_goals first
    | (with_reducible first
        | assumption | apply signAll_keeps | apply modTally_keeps | apply pulse_keeps)
    | split | intro _ | dsimp only | (show _ = _; rfl)
    | (with_reducible first | apply Keeps.updS)

theorem climbAll_keeps {sc : Scope} {s0 : State} (s : State) (hs : Keeps sc s0 s) : Keeps sc s0 (climbAll s) := by
  unfold climbAll
  iterate 40 try any_goals first
    | (with_reducible first
        | assumption | apply climb_keeps)
    | split | intro _ | dsimp only | (show _ = _; rfl)
    | (with_reducible first | apply Keeps.updS)

theorem loadCores_keepsE {sc : Scope} {s0 t : State} {s : State} (e : loadCores s = .ok t) (hs : Keeps sc s0 s) :
    Keeps sc s0 t := by
  unfold loadCores at e
  repeat' (first | split at e | dsimp only at e)
  all_goals first | (cases e; done) | cases e | skip
  all_goals iterate 40 try any_goals first
              | (with_reducible first
                  | assumption)
              | split | intro _ | dsimp only | (show _ = _; rfl)
              | (with_reducible first | apply Keeps.updS)

theorem loadCores_keepsE2 {sc : Scope} {s0 : State} {r : State × StartFail} {s : State} (e : loadCores s = .error r)
    (hs : Keeps sc s0 s) : Keeps sc s0 r.1 := by
  unfold loadCores at e
  repeat' (first | split at e | dsimp only at e)
  all_goals first | (cases e; done) | cases e | skip
  all_goals iterate 40 try any_goals first
              | (with_reducible first
                  | assumption)
              | split | intro _ | dsimp only | (show _ = _; rfl)
              | (with_reducible first | apply Keeps.updS)

theorem stepClimb_keepsE {sc : Scope} {s0 t : State} {s : State} (e : stepClimb s = .ok t) (hs : Keeps sc s0 s) :
    Keeps sc s0 t := by
  unfold stepClimb at e
  repeat' (first | split at e | dsimp only at e)
  all_goals first | (cases e; done) | cases e | skip
  all_goals iterate 40 try any_goals first
              | (with_reducible first
                  | assumption | refine loadCores_keepsE (e := by assumption) ?_
                  | refine loadCores_keepsE2 (e := by assumption) ?_ | apply climbAll_keeps)
              | split | intro _ | dsimp only | (show _ = _; rfl)
              | (with_reducible first | apply Keeps.updS)

theorem stepClimb_keepsE2 {sc : Scope} {s0 : State} {r : State × StartFail} {s : State} (e : stepClimb s = .error r)
    (hs : Keeps sc s0 s) : Keeps sc s0 r.1 := by
  unfold stepClimb at e
  repeat' (first | split at e | dsimp only at e)
  all_goals first | (cases e; done) | cases e | skip
  all_goals iterate 40 try any_goals first
              | (with_reducible first
                  | assumption | refine loadCores_keepsE (e := by assumption) ?_
                  | refine loadCores_keepsE2 (e := by assumption) ?_ | apply climbAll_keeps)
              | split | intro _ | dsimp only | (show _ = _; rfl)
              | (with_reducible first | apply Keeps.updS)

theorem step5_keepsE {sc : Scope} {s0 t : State} {v0 : StartEnv} {s : State} (e : step5 v0 s = .ok t)
    (hs : Keeps sc s0 s) : Keeps sc s0 t := by
  unfold step5 at e
  repeat' (first | split at e | dsimp only at e)
  all_goals first | (cases e; done) | cases e | skip
  all_goals iterate 40 try any_goals first
              | (with_reducible first
                  | assumption | refine stepClimb_keepsE (e := by assumption) ?_
                  | refine stepClimb_keepsE2 (e := by assumption) ?_ | apply aonFatal_keeps
                  | apply newEraseSecret_keeps | apply pulse_keeps | apply landingZero_keeps | apply seedTally_keeps)
              | split | intro _ | dsimp only | (show _ = _; rfl)
              | (with_reducible first | apply Keeps.updS)

theorem step5_keepsE2 {sc : Scope} {s0 : State} {r : State × StartFail} {v0 : StartEnv} {s : State} (e : step5 v0 s
    = .error r) (hs : Keeps sc s0 s) : Keeps sc s0 r.1 := by
  unfold step5 at e
  repeat' (first | split at e | dsimp only at e)
  all_goals first | (cases e; done) | cases e | skip
  all_goals iterate 40 try any_goals first
              | (with_reducible first
                  | assumption | refine stepClimb_keepsE (e := by assumption) ?_
                  | refine stepClimb_keepsE2 (e := by assumption) ?_ | apply aonFatal_keeps
                  | apply newEraseSecret_keeps | apply pulse_keeps | apply landingZero_keeps | apply seedTally_keeps)
              | split | intro _ | dsimp only | (show _ = _; rfl)
              | (with_reducible first | apply Keeps.updS)

theorem step6_keeps {sc : Scope} {s0 : State} (s : State) (hs : Keeps sc s0 s) : Keeps sc s0 (step6 s) := by
  unfold step6
  iterate 40 try any_goals first
    | (with_reducible first
        | assumption | apply setCause_keeps)
    | split | intro _ | dsimp only | (show _ = _; rfl)
    | (with_reducible first | apply Keeps.updS)

theorem step8_keepsE {sc : Scope} {s0 t : State} {s : State} (e : step8 s = .ok t) (hs : Keeps sc s0 s) : Keeps sc
    s0 t := by
  unfold step8 at e
  repeat' (first | split at e | dsimp only at e)
  all_goals first | (cases e; done) | cases e | skip
  all_goals iterate 40 try any_goals first
              | (with_reducible first
                  | assumption)
              | split | intro _ | dsimp only | (show _ = _; rfl)
              | (with_reducible first | apply Keeps.updS)

theorem step8_keepsE2 {sc : Scope} {s0 : State} {r : State × StartFail} {s : State} (e : step8 s = .error r)
    (hs : Keeps sc s0 s) : Keeps sc s0 r.1 := by
  unfold step8 at e
  repeat' (first | split at e | dsimp only at e)
  all_goals first | (cases e; done) | cases e | skip
  all_goals iterate 40 try any_goals first
              | (with_reducible first
                  | assumption)
              | split | intro _ | dsimp only | (show _ = _; rfl)
              | (with_reducible first | apply Keeps.updS)

theorem takeSequencers_keeps {sc : Scope} {s0 : State} (s : State) (l : List (Nat × Bytes)) (hs : Keeps sc s0 s) :
    Keeps sc s0 (takeSequencers s l) := by
  unfold takeSequencers
  iterate 40 try any_goals first
    | (with_reducible first
        | assumption | apply setDom_keeps | apply Keeps.foldl)
    | split | intro _ | dsimp only | (show _ = _; rfl)
    | (with_reducible first | apply Keeps.updS)

theorem takeGallery_keeps {sc : Scope} {s0 : State} (s : State) (l : List (Nat × Bytes)) (hs : Keeps sc s0 s) :
    Keeps sc s0 (takeGallery s l) := by
  unfold takeGallery
  iterate 40 try any_goals first
    | (with_reducible first
        | assumption)
    | split | intro _ | dsimp only | (show _ = _; rfl)
    | (with_reducible first | apply Keeps.updS)

theorem takeSections_keeps {sc : Scope} {s0 : State} (s : State) (c : Config8) (hs : Keeps sc s0 s) : Keeps sc s0
    (takeSections s c) := by
  unfold takeSections
  iterate 40 try any_goals first
    | (with_reducible first
        | assumption | apply takeTamper_keeps | apply takePool_keeps | apply takeGallery_keeps
        | apply takeTwin_keeps)
    | split | intro _ | dsimp only | (show _ = _; rfl)
    | (with_reducible first | apply Keeps.updS)

theorem step9_keeps {sc : Scope} {s0 : State} (e : StartEnv) (s : State) (hs : Keeps sc s0 s) : Keeps sc s0 (step9 e
    s) := by
  unfold step9
  iterate 40 try any_goals first
    | (with_reducible first
        | assumption | apply takeSections_keeps | apply modBoot_keeps | apply pulse_keeps | apply loadArchive_keeps
        | apply takeDomains_keeps | apply takeSequencers_keeps)
    | split | intro _ | dsimp only | (show _ = _; rfl)
    | (with_reducible first | apply Keeps.updS)

theorem step10_keeps {sc : Scope} {s0 : State} (e : StartEnv) (s : State) (hs : Keeps sc s0 s) : Keeps sc s0 (step10
    e s) := by
  unfold step10
  iterate 40 try any_goals first
    | (with_reducible first
        | assumption | apply modTwin_keeps)
    | split | intro _ | dsimp only | (show _ = _; rfl)
    | (with_reducible first | apply Keeps.updS)

theorem bringPort_keeps {sc : Scope} {s0 : State} (s : State) (l : List (Nat × Bytes)) (p : Nat)
    (hs : Keeps sc s0 s) : Keeps sc s0 (bringPort s l p) := by
  unfold bringPort
  iterate 40 try any_goals first
    | (with_reducible first
        | assumption | apply modPort_keeps | apply emit_keeps)
    | split | intro _ | dsimp only | (show _ = _; rfl)
    | (with_reducible first | apply Keeps.updS)

theorem step11_keeps {sc : Scope} {s0 : State} (s : State) (hs : Keeps sc s0 s) : Keeps sc s0 (step11 s) := by
  unfold step11
  iterate 40 try any_goals first
    | (with_reducible first
        | assumption | apply takePorts_keeps | apply bringPort_keeps)
    | split | intro _ | dsimp only | (show _ = _; rfl)
    | (with_reducible first | apply Keeps.updS)

theorem newReceiveKey_keeps {sc : Scope} {s0 : State} (s : State) (hs : Keeps sc s0 s) : Keeps sc s0 (newReceiveKey
    s) := by
  unfold newReceiveKey
  iterate 40 try any_goals first
    | (with_reducible first
        | assumption | refine drawFrom_keepsE (e := by assumption) ?_ | apply drawFrom_keeps)
    | split | intro _ | dsimp only | (show _ = _; rfl)
    | (with_reducible first | apply Keeps.updS)

theorem putTwinKey_keeps {sc : Scope} {s0 : State} (s : State) (hs : Keeps sc s0 s) : Keeps sc s0 (putTwinKey s) :=
    by
  unfold putTwinKey
  iterate 40 try any_goals first
    | (with_reducible first
        | assumption | apply putKeys_keeps)
    | split | intro _ | dsimp only | (show _ = _; rfl)
    | (with_reducible first | apply Keeps.updS)

theorem dropTwinKey_keeps {sc : Scope} {s0 : State} (s : State) (hs : Keeps sc s0 s) : Keeps sc s0 (dropTwinKey s)
    := by
  unfold dropTwinKey
  iterate 40 try any_goals first
    | (with_reducible first
        | assumption | apply putKeys_keeps)
    | split | intro _ | dsimp only | (show _ = _; rfl)
    | (with_reducible first | apply Keeps.updS)

theorem openStart_keeps {sc : Scope} {s0 : State} (s : State) (hs : Keeps sc s0 s) : Keeps sc s0 (openStart s) := by
  unfold openStart
  iterate 40 try any_goals first
    | (with_reducible first
        | assumption | apply openAlcove_keeps | apply putAlc_keeps | apply useFree_keeps | apply openSet_keeps
        | apply newReceiveKey_keeps | apply modAttempt_keeps)
    | split | intro _ | dsimp only | (show _ = _; rfl)
    | (with_reducible first | apply Keeps.updS)

theorem serveState_keeps {sc : Scope} {s0 : State} (s : State) (hs : Keeps sc s0 s) : Keeps sc s0 (serveState s) :=
    by
  unfold serveState
  iterate 40 try any_goals first
    | (with_reducible first
        | assumption | apply setService_keeps | apply setCause_keeps)
    | split | intro _ | dsimp only | (show _ = _; rfl)
    | (with_reducible first | apply Keeps.updS)

theorem step12_keeps {sc : Scope} {s0 : State} (s : State) (hs : Keeps sc s0 s) : Keeps sc s0 (step12 s) := by
  unfold step12
  iterate 40 try any_goals first
    | (with_reducible first
        | assumption | apply serveState_keeps | apply putTwinKey_keeps | apply openStart_keeps
        | apply modNewest_keeps | apply capAll_keeps | apply modBoot_keeps | apply admitTasks_keeps
        | apply askService_keeps)
    | split | intro _ | dsimp only | (show _ = _; rfl)
    | (with_reducible first | apply Keeps.updS)

theorem stepWork_keepsE {sc : Scope} {s0 t : State} {n : Nat} {v0 : StartEnv} {s : State} (e : stepWork n v0 s = .ok
    t) (hs : Keeps sc s0 s) (hcm : sc.mem = true := by assumption) (hco : sc.otp = true := by assumption) : Keeps sc
    s0 t := by
  unfold stepWork at e
  repeat' (first | split at e | dsimp only at e)
  all_goals first | (cases e; done) | cases e | skip
  all_goals iterate 40 try any_goals first
              | (with_reducible first
                  | assumption | refine step4_keepsE (e := by assumption) ?_
                  | refine step4_keepsE2 (e := by assumption) ?_ | refine step5_keepsE (e := by assumption) ?_
                  | refine step5_keepsE2 (e := by assumption) ?_ | refine step8_keepsE (e := by assumption) ?_
                  | refine step8_keepsE2 (e := by assumption) ?_ | apply step1_keeps | apply step2_keeps
                  | apply step3_keeps | apply step6_keeps | apply step9_keeps | apply step10_keeps
                  | apply step11_keeps | apply step12_keeps)
              | split | intro _ | dsimp only | (show _ = _; rfl)
              | (with_reducible first | apply Keeps.updS)

theorem stepWork_keepsE2 {sc : Scope} {s0 : State} {r : State × StartFail} {n : Nat} {v0 : StartEnv} {s : State} (e
    : stepWork n v0 s = .error r) (hs : Keeps sc s0 s) (hcm : sc.mem = true := by assumption)
    (hco : sc.otp = true := by assumption) : Keeps sc s0 r.1 := by
  unfold stepWork at e
  repeat' (first | split at e | dsimp only at e)
  all_goals first | (cases e; done) | cases e | skip
  all_goals iterate 40 try any_goals first
              | (with_reducible first
                  | assumption | refine step4_keepsE (e := by assumption) ?_
                  | refine step4_keepsE2 (e := by assumption) ?_ | refine step5_keepsE (e := by assumption) ?_
                  | refine step5_keepsE2 (e := by assumption) ?_ | refine step8_keepsE (e := by assumption) ?_
                  | refine step8_keepsE2 (e := by assumption) ?_ | apply step1_keeps | apply step2_keeps
                  | apply step3_keeps | apply step6_keeps | apply step9_keeps | apply step10_keeps
                  | apply step11_keeps | apply step12_keeps)
              | split | intro _ | dsimp only | (show _ = _; rfl)
              | (with_reducible first | apply Keeps.updS)

theorem tolerate_keeps {sc : Scope} {s0 : State} (s : State) (x0 : StartFail) (hs : Keeps sc s0 s) : Keeps sc s0
    (tolerate s x0) := by
  unfold tolerate
  iterate 40 try any_goals first
    | (with_reducible first
        | assumption | refine failUnit_keepsE (e := by assumption) ?_ | apply modAttempt_keeps
        | apply failUnit_keeps)
    | split | intro _ | dsimp only | (show _ = _; rfl)
    | (with_reducible first | apply Keeps.updS)

theorem failEntry_keeps {sc : Scope} {s0 : State} (s : State) (f : StartFail) (hs : Keeps sc s0 s) : Keeps sc s0
    (failEntry s f) := by
  unfold failEntry
  iterate 40 try any_goals first
    | (with_reducible first
        | assumption | apply pulse_keeps | apply enterSafe_keeps | apply enterFatal_keeps | apply aonFatal_keeps
        | apply ibFire_keeps)
    | split | intro _ | dsimp only | (show _ = _; rfl)
    | (with_reducible first | apply Keeps.updS)

theorem noteStep_keeps {sc : Scope} {s0 : State} (s : State) (n : Nat) (hs : Keeps sc s0 s) : Keeps sc s0 (noteStep
    s n) := by
  unfold noteStep
  iterate 40 try any_goals first
    | (with_reducible first
        | assumption | apply modBoot_keeps | apply modNewest_keeps)
    | split | intro _ | dsimp only | (show _ = _; rfl)
    | (with_reducible first | apply Keeps.updS)

theorem afterStep_keeps {sc : Scope} {s0 : State} (s : State) (n : Nat) (hs : Keeps sc s0 s) : Keeps sc s0
    (afterStep s n).1 := by
  unfold afterStep
  iterate 40 try any_goals first
    | (with_reducible first
        | assumption | apply modBoot_keeps | apply modNewest_keeps | apply startFail_keeps | apply noteStep_keeps)
    | split | intro _ | dsimp only | (show _ = _; rfl)
    | (with_reducible first | apply Keeps.updS)

theorem afterStep_keepsE {sc : Scope} {s0 t : State} {s : State} {n : Nat} {q : Bool} (e : afterStep s n = (t, q))
    (hs : Keeps sc s0 s) : Keeps sc s0 t := by
  have h := afterStep_keeps s n hs
  rwa [e] at h

theorem oneStep_keeps {sc : Scope} {s0 : State} (n : Nat) (e : StartEnv) (s : State) (hs : Keeps sc s0 s)
    (hcm : sc.mem = true := by assumption) (hco : sc.otp = true := by assumption) : Keeps sc s0 (oneStep n e s).1 :=
    by
  unfold oneStep
  iterate 40 try any_goals first
    | (with_reducible first
        | assumption | refine stepWork_keepsE (e := by assumption) ?_
        | refine stepWork_keepsE2 (e := by assumption) ?_ | refine afterStep_keepsE (e := by assumption) ?_
        | apply startFail_keeps | apply modBoot_keeps | apply afterStep_keeps | apply tolerate_keeps
        | apply failEntry_keeps)
    | split | intro _ | dsimp only | (show _ = _; rfl)
    | (with_reducible first | apply Keeps.updS)

theorem oneStep_keepsE {sc : Scope} {s0 t : State} {n : Nat} {v0 : StartEnv} {s : State} {q : Bool} (e : oneStep n
    v0 s = (t, q)) (hs : Keeps sc s0 s) (hcm : sc.mem = true := by assumption)
    (hco : sc.otp = true := by assumption) : Keeps sc s0 t := by
  have h := oneStep_keeps n v0 s hs
  rwa [e] at h

theorem runSteps_keeps {sc : Scope} {s0 : State} (x0 : Nat) (x1 : Nat) (x2 : StartEnv) (s : State)
    (hs : Keeps sc s0 s) (hcm : sc.mem = true := by assumption) (hco : sc.otp = true := by assumption) : Keeps sc s0
    (runSteps x0 x1 x2 s) := by
  induction x0 generalizing x1 x2 s with
  | zero => exact hs
  | succ n ih =>
    unfold runSteps
    iterate 40 try any_goals first
      | (with_reducible first
          | assumption | refine oneStep_keepsE (e := by assumption) ?_ | apply ih | apply oneStep_keeps)
      | split | intro _ | dsimp only | (show _ = _; rfl)
      | (with_reducible first | apply Keeps.updS)

theorem goOn_keeps {sc : Scope} {s0 : State} (s : State) (n : Nat) (hs : Keeps sc s0 s)
    (hcm : sc.mem = true := by assumption) (hco : sc.otp = true := by assumption) : Keeps sc s0 (goOn s n) := by
  unfold goOn
  iterate 40 try any_goals first
    | (with_reducible first
        | assumption | refine afterStep_keepsE (e := by assumption) ?_ | apply afterStep_keeps | apply modBoot_keeps
        | apply runSteps_keeps)
    | split | intro _ | dsimp only | (show _ = _; rfl)
    | (with_reducible first | apply Keeps.updS)

theorem execStart_keeps {sc : Scope} {s0 : State} (e : StartEnv) (s : State) (hs : Keeps sc s0 s)
    (hcm : sc.mem = true := by assumption) (hco : sc.otp = true := by assumption) : KeepsOut sc s0 (execStart e s)
    := by
  unfold execStart
  iterate 40 try any_goals first
    | (with_reducible first
        | assumption | apply KeepsOut.next | apply runSteps_keeps)
    | split | intro _ | dsimp only | (show _ = _; rfl)
    | (with_reducible first | apply Keeps.updS)

theorem execStartStepLimit_keeps {sc : Scope} {s0 : State} (step : Nat) (s : State) (hs : Keeps sc s0 s) : KeepsOut
    sc s0 (execStartStepLimit step s) := by
  unfold execStartStepLimit
  iterate 40 try any_goals first
    | (with_reducible first
        | assumption | apply KeepsOut.next | apply startFail_keeps)
    | split | intro _ | dsimp only | (show _ = _; rfl)
    | (with_reducible first | apply Keeps.updS)

theorem execService600s_keeps {sc : Scope} {s0 : State} (s : State) (hs : Keeps sc s0 s) : KeepsOut sc s0
    (execService600s s) := by
  unfold execService600s
  iterate 40 try any_goals first
    | (with_reducible first
        | assumption | apply KeepsOut.next | apply modBoot_keeps)
    | split | intro _ | dsimp only | (show _ = _; rfl)
    | (with_reducible first | apply Keeps.updS)

theorem execSelfReset_keeps {sc : Scope} {s0 : State} (s : State) (hs : Keeps sc s0 s)
    (hcl : sc.life = true := by assumption) (hcm : sc.mem = true := by assumption)
    (hco : sc.otp = true := by assumption) : KeepsOut sc s0 (execSelfReset s) := by
  unfold execSelfReset
  iterate 40 try any_goals first
    | (with_reducible first
        | assumption | apply KeepsOut.next | apply runTrans_keeps | apply settleRestart_keeps
        | apply resetSteps_keeps)
    | split | intro _ | dsimp only | (show _ = _; rfl)
    | (with_reducible first | apply Keeps.updS)

theorem execPersoKeys_keeps {sc : Scope} {s0 : State} (s : State) (hs : Keeps sc s0 s) : KeepsOut sc s0
    (execPersoKeys s) := by
  unfold execPersoKeys
  iterate 40 try any_goals first
    | (with_reducible first
        | assumption | apply KeepsOut.next | apply emit_keeps | apply tapSelect_keeps)
    | split | intro _ | dsimp only | (show _ = _; rfl)
    | (with_reducible first | apply Keeps.updS)

theorem execPersoCert_keeps {sc : Scope} {s0 : State} (items : Bytes) (s : State) (hs : Keeps sc s0 s)
    (hcm : sc.mem = true := by assumption) (hco : sc.otp = true := by assumption) : KeepsOut sc s0 (execPersoCert
    items s) := by
  unfold execPersoCert
  iterate 40 try any_goals first
    | (with_reducible first
        | assumption | refine stepClimb_keepsE (e := by assumption) ?_
        | refine stepClimb_keepsE2 (e := by assumption) ?_ | apply KeepsOut.next | apply tapSelect_keeps
        | apply modTally_keeps | apply modStair_keeps | apply startFail_keeps | apply goOn_keeps)
    | split | intro _ | dsimp only | (show _ = _; rfl)
    | (with_reducible first | apply Keeps.updS)

theorem ibPut_keeps {sc : Scope} {s0 : State} (s : State) (f : IbFrame) (hs : Keeps sc s0 s) : Keeps sc s0 (ibPut s
    f) := by
  unfold ibPut
  iterate 40 try any_goals first
    | (with_reducible first
        | assumption | apply linkLost_keeps | apply modTwin_keeps | apply perfAdd_keeps | apply emit_keeps)
    | split | intro _ | dsimp only | (show _ = _; rfl)
    | (with_reducible first | apply Keeps.updS)

theorem ibControl_keeps {sc : Scope} {s0 : State} (s : State) (payload : Bytes) (hs : Keeps sc s0 s) : Keeps sc s0
    (ibControl s payload) := by
  unfold ibControl
  iterate 40 try any_goals first
    | (with_reducible first
        | assumption | apply ibPut_keeps | apply modTwin_keeps | apply useFree_keeps)
    | split | intro _ | dsimp only | (show _ = _; rfl)
    | (with_reducible first | apply Keeps.updS)

theorem ibAsk_keeps {sc : Scope} {s0 : State} (s : State) (hs : Keeps sc s0 s) : Keeps sc s0 (ibAsk s) := by
  unfold ibAsk
  iterate 40 try any_goals first
    | (with_reducible first
        | assumption | apply ibFire_keeps | apply emit_keeps | apply ibControl_keeps)
    | split | intro _ | dsimp only | (show _ = _; rfl)
    | (with_reducible first | apply Keeps.updS)

theorem ibAccept_keeps {sc : Scope} {s0 : State} (s : State) (f : IbFrame) (hs : Keeps sc s0 s) : Keeps sc s0
    (ibAccept s f) := by
  unfold ibAccept
  iterate 40 try any_goals first
    | (with_reducible first
        | assumption | apply modTwin_keeps)
    | split | intro _ | dsimp only | (show _ = _; rfl)
    | (with_reducible first | apply Keeps.updS)

theorem execIbveletFrame_keeps {sc : Scope} {s0 : State} (f : IbFrame) (s : State) (hs : Keeps sc s0 s) : KeepsOut
    sc s0 (execIbveletFrame f s) := by
  unfold execIbveletFrame
  iterate 40 try any_goals first
    | (with_reducible first
        | assumption | apply KeepsOut.next | apply ibFire_keeps | apply ibAsk_keeps | apply ibAccept_keeps)
    | split | intro _ | dsimp only | (show _ = _; rfl)
    | (with_reducible first | apply Keeps.updS)

theorem execIbRetransmitRequest_keeps {sc : Scope} {s0 : State} (seq : Nat) (s : State) (hs : Keeps sc s0 s) :
    KeepsOut sc s0 (execIbRetransmitRequest seq s) := by
  unfold execIbRetransmitRequest
  iterate 40 try any_goals first
    | (with_reducible first
        | assumption | apply KeepsOut.next | apply emits_keeps | apply ibFire_keeps | apply perfAdd_keeps
        | apply modTwin_keeps)
    | split | intro _ | dsimp only | (show _ = _; rfl)
    | (with_reducible first | apply Keeps.updS)

theorem execIbHeartbeatDue_keeps {sc : Scope} {s0 : State} (s : State) (hs : Keeps sc s0 s) : KeepsOut sc s0
    (execIbHeartbeatDue s) := by
  unfold execIbHeartbeatDue
  iterate 40 try any_goals first
    | (with_reducible first
        | assumption | apply KeepsOut.next | apply ibControl_keeps)
    | split | intro _ | dsimp only | (show _ = _; rfl)
    | (with_reducible first | apply Keeps.updS)

theorem execIbLinkLost_keeps {sc : Scope} {s0 : State} (l : LinkLoss) (s : State) (hs : Keeps sc s0 s) : KeepsOut sc
    s0 (execIbLinkLost l s) := by
  unfold execIbLinkLost
  iterate 40 try any_goals first
    | (with_reducible first
        | assumption | apply KeepsOut.next | apply ibFire_keeps | apply modTwin_keeps)
    | split | intro _ | dsimp only | (show _ = _; rfl)
    | (with_reducible first | apply Keeps.updS)

theorem ibKeyed_keeps {sc : Scope} {s0 : State} (s : State) (okm : Bytes) (hs : Keeps sc s0 s) : Keeps sc s0
    (ibKeyed s okm) := by
  unfold ibKeyed
  iterate 40 try any_goals first
    | (with_reducible first
        | assumption | apply modTwin_keeps | apply ibPut_keeps | apply Keeps.foldl)
    | split | intro _ | dsimp only | (show _ = _; rfl)
    | (with_reducible first | apply Keeps.updS)

theorem ibAuthFail_keeps {sc : Scope} {s0 : State} (s : State) (hs : Keeps sc s0 s) : Keeps sc s0 (ibAuthFail s) :=
    by
  unfold ibAuthFail
  iterate 40 try any_goals first
    | (with_reducible first
        | assumption | apply ibFire_keeps | apply startFail_keeps)
    | split | intro _ | dsimp only | (show _ = _; rfl)
    | (with_reducible first | apply Keeps.updS)

theorem execIbLinkHandshake_keeps {sc : Scope} {s0 : State} (p : IbPeer) (s : State) (hs : Keeps sc s0 s) : KeepsOut
    sc s0 (execIbLinkHandshake p s) := by
  unfold execIbLinkHandshake
  iterate 40 try any_goals first
    | (with_reducible first
        | assumption | refine drawFrom_keepsE (e := by assumption) ?_ | apply KeepsOut.next | apply drawFrom_keeps
        | apply emit_keeps | apply ibAuthFail_keeps | apply dropTwinKey_keeps | apply ibKeyed_keeps
        | apply putTwinKey_keeps | apply modTwin_keeps)
    | split | intro _ | dsimp only | (show _ = _; rfl)
    | (with_reducible first | apply Keeps.updS)

theorem execJournalRecordMirror_keeps {sc : Scope} {s0 : State} (r : JournalRec) (s : State) (hs : Keeps sc s0 s) :
    KeepsOut sc s0 (execJournalRecordMirror r s) := by
  unfold execJournalRecordMirror
  iterate 40 try any_goals first
    | (with_reducible first
        | assumption | apply KeepsOut.next | apply emit_keeps | apply modTwin_keeps)
    | split | intro _ | dsimp only | (show _ = _; rfl)
    | (with_reducible first | apply Keeps.updS)

theorem sequenceForward_keeps {sc : Scope} {s0 : State} (s : State) (r : JournalRec) (hs : Keeps sc s0 s) : Keeps sc
    s0 (sequenceForward s r) := by
  unfold sequenceForward
  iterate 40 try any_goals first
    | (with_reducible first
        | assumption | refine placeBody_keepsE (e := by assumption) ?_
        | refine sequence_keepsE (e := by assumption) ?_ | refine applyBody_keepsE (e := by assumption) ?_
        | apply placeBody_keeps | apply restartSeq_keeps | apply partnerUse_keeps | apply sequence_keeps
        | apply applyBody_keeps | apply emit_keeps | apply noteApplied_keeps)
    | split | intro _ | dsimp only | (show _ = _; rfl)
    | (with_reducible first | apply Keeps.updS)

theorem execForwardedMutation_keeps {sc : Scope} {s0 : State} (r : JournalRec) (epoch : Nat) (s : State)
    (hs : Keeps sc s0 s) : KeepsOut sc s0 (execForwardedMutation r epoch s) := by
  unfold execForwardedMutation
  iterate 40 try any_goals first
    | (with_reducible first
        | assumption | apply KeepsOut.next | apply epoch_keeps | apply emit_keeps | apply sequenceForward_keeps)
    | split | intro _ | dsimp only | (show _ = _; rfl)
    | (with_reducible first | apply Keeps.updS)

theorem execSessionRecord_keeps {sc : Scope} {s0 : State} (r : SessionMirror) (s : State) (hs : Keeps sc s0 s) :
    KeepsOut sc s0 (execSessionRecord r s) := by
  unfold execSessionRecord
  iterate 40 try any_goals first
    | (with_reducible first
        | assumption | apply KeepsOut.next | apply modTwin_keeps)
    | split | intro _ | dsimp only | (show _ = _; rfl)
    | (with_reducible first | apply Keeps.updS)

theorem execPacketMark_keeps {sc : Scope} {s0 : State} (alcove session : Nat) (m : MirrorMark) (s : State)
    (hs : Keeps sc s0 s) : KeepsOut sc s0 (execPacketMark alcove session m s) := by
  unfold execPacketMark
  iterate 40 try any_goals first
    | (with_reducible first
        | assumption | apply KeepsOut.next | apply modTwin_keeps)
    | split | intro _ | dsimp only | (show _ = _; rfl)
    | (with_reducible first | apply Keeps.updS)

theorem execAcceptanceRecord_keeps {sc : Scope} {s0 : State} (r : AcceptMirror) (s : State) (hs : Keeps sc s0 s) :
    KeepsOut sc s0 (execAcceptanceRecord r s) := by
  unfold execAcceptanceRecord
  iterate 40 try any_goals first
    | (with_reducible first
        | assumption | apply KeepsOut.next | apply modTwin_keeps)
    | split | intro _ | dsimp only | (show _ = _; rfl)
    | (with_reducible first | apply Keeps.updS)

theorem execAlcoveRecord_keeps {sc : Scope} {s0 : State} (r : AlcoveRecord) (s : State) (hs : Keeps sc s0 s) :
    KeepsOut sc s0 (execAlcoveRecord r s) := by
  unfold execAlcoveRecord
  iterate 40 try any_goals first
    | (with_reducible first
        | assumption | apply KeepsOut.next | apply modTwin_keeps)
    | split | intro _ | dsimp only | (show _ = _; rfl)
    | (with_reducible first | apply Keeps.updS)

theorem execSectionLoadForward_keeps {sc : Scope} {s0 : State} (head : Bytes) (bodies : List (Nat × Bytes)) (s :
    State) (hs : Keeps sc s0 s) : KeepsOut sc s0 (execSectionLoadForward head bodies s) := by
  unfold execSectionLoadForward
  iterate 40 try any_goals first
    | (with_reducible first
        | assumption | apply KeepsOut.next | apply flipPrefer_keeps | apply emit_keeps | apply stageConfig_keeps
        | apply takeSequencers_keeps | apply takeDomains_keeps | apply takeSections_keeps | apply settleLoads_keeps
        | apply applySections_keeps)
    | split | intro _ | dsimp only | (show _ = _; rfl)
    | (with_reducible first | apply Keeps.updS)

theorem modGallery_keeps {sc : Scope} {s0 : State} (s : State) (f : Gallery → Gallery) (hs : Keeps sc s0 s) : Keeps
    sc s0 (modGallery s f) := by
  unfold modGallery
  iterate 40 try any_goals first
    | (with_reducible first
        | assumption)
    | split | intro _ | dsimp only | (show _ = _; rfl)
    | (with_reducible first | apply Keeps.updS)

theorem helloOf_keepsE {sc : Scope} {s0 s t : State} {i h : Bytes} (e : helloOf s i = some (h, t)) (hs
    : Keeps sc s0 s) : Keeps sc s0 t := by
  unfold helloOf at e
  repeat' split at e
  all_goals first | (cases e; done) | cases e
  all_goals iterate 40 try any_goals first
              | (with_reducible first
                  | assumption | apply drawFrom_keeps)
              | split | intro _ | dsimp only | (show _ = _; rfl)
              | (with_reducible first | apply Keeps.updS)

theorem sendHello_keeps {sc : Scope} {s0 : State} (s : State) (i sublink : Nat) (id : Bytes) (hs : Keeps sc s0 s) :
    Keeps sc s0 (sendHello s i sublink id) := by
  unfold sendHello
  iterate 40 try any_goals first
    | (with_reducible first
        | assumption | refine helloOf_keepsE (e := by assumption) ?_ | apply modGallery_keeps | apply emit_keeps)
    | split | intro _ | dsimp only | (show _ = _; rfl)
    | (with_reducible first | apply Keeps.updS)

theorem execTwinKeepaliveDue_keeps {sc : Scope} {s0 : State} (s : State) (hs : Keeps sc s0 s) : KeepsOut sc s0
    (execTwinKeepaliveDue s) := by
  unfold execTwinKeepaliveDue
  iterate 40 try any_goals first
    | (with_reducible first
        | assumption | apply KeepsOut.next | apply modTwin_keeps | apply emit_keeps | apply sendHello_keeps)
    | split | intro _ | dsimp only | (show _ = _; rfl)
    | (with_reducible first | apply Keeps.updS)

theorem execPresenceQueryDue_keeps {sc : Scope} {s0 : State} (s : State) (hs : Keeps sc s0 s) : KeepsOut sc s0
    (execPresenceQueryDue s) := by
  unfold execPresenceQueryDue
  iterate 40 try any_goals first
    | (with_reducible first
        | assumption | apply KeepsOut.next | apply modTwin_keeps | apply emit_keeps)
    | split | intro _ | dsimp only | (show _ = _; rfl)
    | (with_reducible first | apply Keeps.updS)

theorem askWorker_keeps {sc : Scope} {s0 : State} (s : State) (i op : Nat) (p : Bytes) (hs : Keeps sc s0 s) : Keeps
    sc s0 (askWorker s i op p) := by
  unfold askWorker
  iterate 40 try any_goals first
    | (with_reducible first
        | assumption | apply emit_keeps)
    | split | intro _ | dsimp only | (show _ = _; rfl)
    | (with_reducible first | apply Keeps.updS)

theorem askReceiveKey_keeps {sc : Scope} {s0 : State} (s : State) (i : Nat) (hs : Keeps sc s0 s) : Keeps sc s0
    (askReceiveKey s i) := by
  unfold askReceiveKey
  iterate 40 try any_goals first
    | (with_reducible first
        | assumption | apply askWorker_keeps | apply modGallery_keeps)
    | split | intro _ | dsimp only | (show _ = _; rfl)
    | (with_reducible first | apply Keeps.updS)

theorem sendGrantKey_keeps {sc : Scope} {s0 : State} (i : Nat) (x ek : Bytes) (s : State) (d : Nat)
    (hs : Keeps sc s0 s) : Keeps sc s0 (sendGrantKey i x ek s d) := by
  unfold sendGrantKey
  iterate 40 try any_goals first
    | (with_reducible first
        | assumption | refine drawFrom_keepsE (e := by assumption) ?_ | apply drawFrom_keeps | apply askWorker_keeps)
    | split | intro _ | dsimp only | (show _ = _; rfl)
    | (with_reducible first | apply Keeps.updS)

theorem takeReceiveKey_keeps {sc : Scope} {s0 : State} (s : State) (i : Nat) (p : Bytes) (hs : Keeps sc s0 s) :
    Keeps sc s0 (takeReceiveKey s i p) := by
  unfold takeReceiveKey
  iterate 40 try any_goals first
    | (with_reducible first
        | assumption | apply modGallery_keeps | apply sendGrantKey_keeps | apply Keeps.foldl)
    | split | intro _ | dsimp only | (show _ = _; rfl)
    | (with_reducible first | apply Keeps.updS)

theorem execCompletionReceived_keeps {sc : Scope} {s0 : State} (m : ClientMsg) (s : State) (hs : Keeps sc s0 s) :
    KeepsOut sc s0 (execCompletionReceived m s) := by
  unfold execCompletionReceived
  iterate 40 try any_goals first
    | (with_reducible first
        | assumption | apply KeepsOut.next | apply takeReceiveKey_keeps | apply modTwin_keeps)
    | split | intro _ | dsimp only | (show _ = _; rfl)
    | (with_reducible first | apply Keeps.updS)

theorem execGalleryProbeDue_keeps {sc : Scope} {s0 : State} (s : State) (hs : Keeps sc s0 s) : KeepsOut sc s0
    (execGalleryProbeDue s) := by
  unfold execGalleryProbeDue
  iterate 40 try any_goals first
    | (with_reducible first
        | assumption | apply KeepsOut.next | apply modGallery_keeps | apply sendHello_keeps)
    | split | intro _ | dsimp only | (show _ = _; rfl)
    | (with_reducible first | apply Keeps.updS)

theorem execProbeReply_keeps {sc : Scope} {s0 : State} (payload managerKey : Bytes) (s : State) (hs : Keeps sc s0 s)
    : KeepsOut sc s0 (execProbeReply payload managerKey s) := by
  unfold execProbeReply
  iterate 40 try any_goals first
    | (with_reducible first
        | assumption | apply KeepsOut.next | apply modGallery_keeps | apply putKeys_keeps)
    | split | intro _ | dsimp only | (show _ = _; rfl)
    | (with_reducible first | apply Keeps.updS)

theorem beginClient_keeps {sc : Scope} {s0 : State} (s : State) (i : Nat) (hs : Keeps sc s0 s) : Keeps sc s0
    (beginClient s i) := by
  unfold beginClient
  iterate 40 try any_goals first
    | (with_reducible first
        | assumption | apply sendHello_keeps)
    | split | intro _ | dsimp only | (show _ = _; rfl)
    | (with_reducible first | apply Keeps.updS)

theorem execReplyReceived_keeps {sc : Scope} {s0 : State} (m : ClientMsg) (s : State) (hs : Keeps sc s0 s) :
    KeepsOut sc s0 (execReplyReceived m s) := by
  unfold execReplyReceived
  iterate 40 try any_goals first
    | (with_reducible first
        | assumption | apply KeepsOut.next | apply beginClient_keeps | apply modGallery_keeps | apply emit_keeps)
    | split | intro _ | dsimp only | (show _ = _; rfl)
    | (with_reducible first | apply Keeps.updS)

theorem execReadyReceived_keeps {sc : Scope} {s0 : State} (m : ClientMsg) (s : State) (hs : Keeps sc s0 s) :
    KeepsOut sc s0 (execReadyReceived m s) := by
  unfold execReadyReceived
  iterate 40 try any_goals first
    | (with_reducible first
        | assumption | apply KeepsOut.next | apply askReceiveKey_keeps | apply modGallery_keeps)
    | split | intro _ | dsimp only | (show _ = _; rfl)
    | (with_reducible first | apply Keeps.updS)

theorem copyDomain_keeps {sc : Scope} {s0 : State} (s : State) (r : DomainRec) (hs : Keeps sc s0 s) : Keeps sc s0
    (copyDomain s r) := by
  unfold copyDomain
  iterate 40 try any_goals first
    | (with_reducible first
        | assumption | apply setDom_keeps | apply epoch_keeps | apply admitTasks_keeps | apply deriveDomain_keeps
        | apply resumeWitness_keeps)
    | split | intro _ | dsimp only | (show _ = _; rfl)
    | (with_reducible first | apply Keeps.updS)

theorem copyAlcove_keeps {sc : Scope} {s0 : State} (s : State) (r : AlcoveRecord) (hs : Keeps sc s0 s) : Keeps sc s0
    (copyAlcove s r) := by
  unfold copyAlcove
  iterate 40 try any_goals first
    | (with_reducible first
        | assumption | apply modTwin_keeps)
    | split | intro _ | dsimp only | (show _ = _; rfl)
    | (with_reducible first | apply Keeps.updS)

theorem execBulkCopy_keeps {sc : Scope} {s0 : State} (b : BulkState) (s : State) (hs : Keeps sc s0 s) : KeepsOut sc
    s0 (execBulkCopy b s) := by
  unfold execBulkCopy
  iterate 40 try any_goals first
    | (with_reducible first
        | assumption | apply KeepsOut.next | apply modKeys_keeps | apply modTwin_keeps | apply copyAlcove_keeps
        | apply copyDomain_keeps | apply beginSnap_keeps | apply Keeps.foldl)
    | split | intro _ | dsimp only | (show _ = _; rfl)
    | (with_reducible first | apply Keeps.updS)

theorem dropAbove_keeps {sc : Scope} {s0 : State} (s : State) (j : JoinInfo) (hs : Keeps sc s0 s) : Keeps sc s0
    (dropAbove s j) := by
  unfold dropAbove
  iterate 40 try any_goals first
    | (with_reducible first
        | assumption | apply modTwin_keeps)
    | split | intro _ | dsimp only | (show _ = _; rfl)
    | (with_reducible first | apply Keeps.updS)

theorem takeRecord_keeps {sc : Scope} {s0 : State} (j : JoinInfo) (s : State) (r : JournalRec) (hs : Keeps sc s0 s)
    : Keeps sc s0 (takeRecord j s r) := by
  unfold takeRecord
  iterate 40 try any_goals first
    | (with_reducible first
        | assumption | apply applyRecord_keeps)
    | split | intro _ | dsimp only | (show _ = _; rfl)
    | (with_reducible first | apply Keeps.updS)

theorem mirrorMarks_keeps {sc : Scope} {s0 : State} (s : State) (a i : Nat) (hs : Keeps sc s0 s) : Keeps sc s0
    (mirrorMarks s a i) := by
  unfold mirrorMarks
  iterate 40 try any_goals first
    | (with_reducible first
        | assumption | apply mirrorSession_keeps | apply modSess_keeps | apply emits_keeps)
    | split | intro _ | dsimp only | (show _ = _; rfl)
    | (with_reducible first | apply Keeps.updS)

theorem mirrorServed_keeps {sc : Scope} {s0 : State} (s : State) (a : Nat) (hs : Keeps sc s0 s) : Keeps sc s0
    (mirrorServed s a) := by
  unfold mirrorServed
  iterate 40 try any_goals first
    | (with_reducible first
        | assumption | apply mirrorMarks_keeps | apply mirrorAlcove_keeps | apply Keeps.foldl)
    | split | intro _ | dsimp only | (show _ = _; rfl)
    | (with_reducible first | apply Keeps.updS)

theorem openHomes_keeps {sc : Scope} {s0 : State} (s : State) (hs : Keeps sc s0 s) : Keeps sc s0 (openHomes s) := by
  unfold openHomes
  iterate 40 try any_goals first
    | (with_reducible first
        | assumption | apply openRecord_keeps | apply Keeps.foldl)
    | split | intro _ | dsimp only | (show _ = _; rfl)
    | (with_reducible first | apply Keeps.updS)

theorem joinPair_keeps {sc : Scope} {s0 : State} (s : State) (j : JoinInfo) (hs : Keeps sc s0 s)
    (hcm : sc.mem = true := by assumption) (hco : sc.otp = true := by assumption) : Keeps sc s0 (joinPair s j) := by
  have last : ∀ u, Keeps sc s0 u → Keeps sc s0 (if (alc u 0).isSome then sendHello u partnerSession 0 (ownId u) else u) := by
    intro u hu
    split
    · exact sendHello_keeps _ _ _ _ hu
    · exact hu
  have open_ : ∀ (c : Prop) [Decidable c] u, Keeps sc s0 u → Keeps sc s0 (if c then u else openHomes u) := by
    intro c _ u hu
    split
    · exact hu
    · exact openHomes_keeps _ hu
  have go : ∀ (c : Prop) [Decidable c] u, Keeps sc s0 u → Keeps sc s0 (if c then goOn u 10 else u) := by
    intro c _ u hu
    split
    · exact goOn_keeps _ _ hu
    · exact hu
  unfold joinPair
  dsimp only
  refine last _ (open_ _ _ (go _ _ (Keeps.foldl (fun _ _ h => mirrorServed_keeps _ _ h) ?_)))
  iterate 40 try any_goals first
    | (with_reducible first
        | assumption | apply writePair_keeps | apply epoch_keeps | apply modKeys_keeps | apply modTwin_keeps
        | apply emit_keeps | apply mirrorServed_keeps | apply goOn_keeps | apply openHomes_keeps
        | apply sendHello_keeps | apply Keeps.foldl)
    | split | intro _ | dsimp only | (show _ = _; rfl)
    | (with_reducible first | apply Keeps.updS)

theorem execTwinJoin_keeps {sc : Scope} {s0 : State} (j : JoinInfo) (s : State) (hs : Keeps sc s0 s)
    (hcm : sc.mem = true := by assumption) (hco : sc.otp = true := by assumption) : KeepsOut sc s0 (execTwinJoin j
    s) := by
  unfold execTwinJoin
  iterate 40 try any_goals first
    | (with_reducible first
        | assumption | apply KeepsOut.next | apply startFail_keeps | apply emit_keeps | apply dropAbove_keeps
        | apply takeRecord_keeps | apply joinPair_keeps | apply Keeps.foldl)
    | split | intro _ | dsimp only | (show _ = _; rfl)
    | (with_reducible first | apply Keeps.updS)

theorem execTwinLinkWaitExpiry_keeps {sc : Scope} {s0 : State} (s : State) (hs : Keeps sc s0 s)
    (hcm : sc.mem = true := by assumption) (hco : sc.otp = true := by assumption) : KeepsOut sc s0
    (execTwinLinkWaitExpiry s) := by
  unfold execTwinLinkWaitExpiry
  iterate 40 try any_goals first
    | (with_reducible first
        | assumption | apply KeepsOut.next | apply goOn_keeps | apply modTwin_keeps)
    | split | intro _ | dsimp only | (show _ = _; rfl)
    | (with_reducible first | apply Keeps.updS)

theorem dropOps_keeps {sc : Scope} {s0 : State} (s : State) (a : Nat) (hs : Keeps sc s0 s) : Keeps sc s0 (dropOps s
    a) := by
  unfold dropOps
  iterate 40 try any_goals first
    | (with_reducible first
        | assumption | apply unpinAll_keeps | apply abortAlcove_keeps)
    | split | intro _ | dsimp only | (show _ = _; rfl)
    | (with_reducible first | apply Keeps.updS)

theorem yieldAlcove_keeps {sc : Scope} {s0 : State} (s : State) (a : Nat) (hs : Keeps sc s0 s) : Keeps sc s0
    (yieldAlcove s a) := by
  unfold yieldAlcove
  iterate 40 try any_goals first
    | (with_reducible first
        | assumption | apply handAway_keeps | apply dropIdleWork_keeps | apply dropAlcMutations_keeps
        | apply dropOps_keeps)
    | split | intro _ | dsimp only | (show _ = _; rfl)
    | (with_reducible first | apply Keeps.updS)

theorem endTickets_keeps {sc : Scope} {s0 : State} (s : State) (hs : Keeps sc s0 s) : Keeps sc s0 (endTickets s) :=
    by
  unfold endTickets
  iterate 40 try any_goals first
    | (with_reducible first
        | assumption | apply modKeys_keeps)
    | split | intro _ | dsimp only | (show _ = _; rfl)
    | (with_reducible first | apply Keeps.updS)

theorem yieldSide_keeps {sc : Scope} {s0 : State} (s : State) (hs : Keeps sc s0 s) : Keeps sc s0 (yieldSide s) := by
  unfold yieldSide
  iterate 40 try any_goals first
    | (with_reducible first
        | assumption | apply endTickets_keeps | apply modTwin_keeps | apply yieldAlcove_keeps | apply Keeps.foldl)
    | split | intro _ | dsimp only | (show _ = _; rfl)
    | (with_reducible first | apply Keeps.updS)

theorem dueTake_keeps {sc : Scope} {s0 : State} (s : State) (t : Nat) (hs : Keeps sc s0 s) : Keeps sc s0 (dueTake s
    t) := by
  unfold dueTake
  iterate 40 try any_goals first
    | (with_reducible first
        | assumption | apply modTwin_keeps)
    | split | intro _ | dsimp only | (show _ = _; rfl)
    | (with_reducible first | apply Keeps.updS)

theorem execPresenceCheckEnd_keeps {sc : Scope} {s0 : State} (s : State) (hs : Keeps sc s0 s) : KeepsOut sc s0
    (execPresenceCheckEnd s) := by
  unfold execPresenceCheckEnd
  iterate 40 try any_goals first
    | (with_reducible first
        | assumption | apply KeepsOut.next | apply modTwin_keeps | apply yieldSide_keeps | apply dueTake_keeps)
    | split | intro _ | dsimp only | (show _ = _; rfl)
    | (with_reducible first | apply Keeps.updS)

theorem execServiceStateNotice_keeps {sc : Scope} {s0 : State} (service : Nat) (s : State) (hs : Keeps sc s0 s) :
    KeepsOut sc s0 (execServiceStateNotice service s) := by
  unfold execServiceStateNotice
  iterate 40 try any_goals first
    | (with_reducible first
        | assumption | apply KeepsOut.next | apply modTwin_keeps | apply dueTake_keeps)
    | split | intro _ | dsimp only | (show _ = _; rfl)
    | (with_reducible first | apply Keeps.updS)

theorem adoptMirror_keeps {sc : Scope} {s0 : State} (s : State) (m : SessionMirror) (hs : Keeps sc s0 s) : Keeps sc
    s0 (adoptMirror s m) := by
  unfold adoptMirror
  iterate 40 try any_goals first
    | (with_reducible first
        | assumption | apply adoptSession_keeps)
    | split | intro _ | dsimp only | (show _ = _; rfl)
    | (with_reducible first | apply Keeps.updS)

theorem tellTaken_keeps {sc : Scope} {s0 : State} (s : State) (a : Nat) (hs : Keeps sc s0 s) : Keeps sc s0
    (tellTaken s a) := by
  unfold tellTaken
  iterate 40 try any_goals first
    | (with_reducible first
        | assumption | apply addressMoved_keeps | apply postEvent_keeps | apply perfAdd_keeps
        | apply announceFirst_keeps | apply Keeps.foldl)
    | split | intro _ | dsimp only | (show _ = _; rfl)
    | (with_reducible first | apply Keeps.updS)

theorem extendPromises_keeps {sc : Scope} {s0 : State} (s : State) (hs : Keeps sc s0 s) : Keeps sc s0
    (extendPromises s) := by
  unfold extendPromises
  iterate 40 try any_goals first
    | (with_reducible first
        | assumption)
    | split | intro _ | dsimp only | (show _ = _; rfl)
    | (with_reducible first | apply Keeps.updS)

theorem tellAccept_keeps {sc : Scope} {s0 : State} (s : State) (x : Session) (r : AcceptMirror) (status : Nat) (p :
    Bytes) (replay cut : Bool) (hs : Keeps sc s0 s) : Keeps sc s0 (tellAccept s x r status p replay cut) := by
  unfold tellAccept
  iterate 40 try any_goals first
    | (with_reducible first
        | assumption | apply modSess_keeps | apply addComp_keeps)
    | split | intro _ | dsimp only | (show _ = _; rfl)
    | (with_reducible first | apply Keeps.updS)

theorem runTaken_keeps {sc : Scope} {s0 : State} (s : State) (x : Session) (r : AcceptMirror) (p : Bytes)
    (hs : Keeps sc s0 s) : Keeps sc s0 (runTaken s x r p) := by
  unfold runTaken
  iterate 40 try any_goals first
    | (with_reducible first
        | assumption | apply tellAccept_keeps | apply modWork_keeps | apply acceptCmd_keeps)
    | split | intro _ | dsimp only | (show _ = _; rfl)
    | (with_reducible first | apply Keeps.updS)

theorem takeAccept_keeps {sc : Scope} {s0 : State} (s : State) (r : AcceptMirror) (hs : Keeps sc s0 s) : Keeps sc s0
    (takeAccept s r) := by
  unfold takeAccept
  iterate 40 try any_goals first
    | (with_reducible first
        | assumption | apply tellAccept_keeps | apply runTaken_keeps)
    | split | intro _ | dsimp only | (show _ = _; rfl)
    | (with_reducible first | apply Keeps.updS)

theorem endMirrors_keeps {sc : Scope} {s0 : State} (s : State) (hs : Keeps sc s0 s) : Keeps sc s0 (endMirrors s) :=
    by
  unfold endMirrors
  iterate 40 try any_goals first
    | (with_reducible first
        | assumption | apply modTwin_keeps)
    | split | intro _ | dsimp only | (show _ = _; rfl)
    | (with_reducible first | apply Keeps.updS)

theorem takeBack_keeps {sc : Scope} {s0 : State} (s : State) (hs : Keeps sc s0 s) : Keeps sc s0 (takeBack s) := by
  unfold takeBack
  iterate 40 try any_goals first
    | (with_reducible first
        | assumption | apply modKeys_keeps)
    | split | intro _ | dsimp only | (show _ = _; rfl)
    | (with_reducible first | apply Keeps.updS)

theorem takeOver_keeps {sc : Scope} {s0 : State} (s : State) (hs : Keeps sc s0 s) : Keeps sc s0 (takeOver s) := by
  unfold takeOver
  iterate 40 try any_goals first
    | (with_reducible first
        | assumption | apply extendPromises_keeps | apply surviveAll_keeps | apply takeBack_keeps
        | apply applyRecord_keeps | apply openRecord_keeps | apply adoptMirror_keeps | apply tellTaken_keeps
        | apply endMirrors_keeps | apply takeAccept_keeps | apply askReceiveKey_keeps | apply Keeps.foldl)
    | split | intro _ | dsimp only | (show _ = _; rfl)
    | (with_reducible first | apply Keeps.updS)

theorem execTakeover_keeps {sc : Scope} {s0 : State} (s : State) (hs : Keeps sc s0 s) : KeepsOut sc s0 (execTakeover
    s) := by
  unfold execTakeover
  iterate 40 try any_goals first
    | (with_reducible first
        | assumption | apply KeepsOut.next | apply takeOver_keeps)
    | split | intro _ | dsimp only | (show _ = _; rfl)
    | (with_reducible first | apply Keeps.updS)

theorem execAnnouncementDue_keeps {sc : Scope} {s0 : State} (s : State) (hs : Keeps sc s0 s) : KeepsOut sc s0
    (execAnnouncementDue s) := by
  unfold execAnnouncementDue
  iterate 40 try any_goals first
    | (with_reducible first
        | assumption | apply KeepsOut.next | apply announce_keeps | apply modTwin_keeps | apply Keeps.foldl)
    | split | intro _ | dsimp only | (show _ = _; rfl)
    | (with_reducible first | apply Keeps.updS)

theorem execFailbackExpiry_keeps {sc : Scope} {s0 : State} (s : State) (hs : Keeps sc s0 s) : KeepsOut sc s0
    (execFailbackExpiry s) := by
  unfold execFailbackExpiry
  iterate 40 try any_goals first
    | (with_reducible first
        | assumption | apply KeepsOut.next | apply quiesce_keeps | apply modTwin_keeps | apply Keeps.foldl)
    | split | intro _ | dsimp only | (show _ = _; rfl)
    | (with_reducible first | apply Keeps.updS)

theorem moveOut_keeps {sc : Scope} {s0 : State} (s : State) (a : Nat) (hs : Keeps sc s0 s) : Keeps sc s0 (moveOut s
    a) := by
  unfold moveOut
  iterate 40 try any_goals first
    | (with_reducible first
        | assumption | apply quiesce_keeps | apply handAway_keeps | apply emit_keeps)
    | split | intro _ | dsimp only | (show _ = _; rfl)
    | (with_reducible first | apply Keeps.updS)

theorem moveIn_keeps {sc : Scope} {s0 : State} (s : State) (a : Nat) (l : List MovedSession) (hs : Keeps sc s0 s) :
    Keeps sc s0 (moveIn s a l) := by
  unfold moveIn
  iterate 40 try any_goals first
    | (with_reducible first
        | assumption | apply adoptMoved_keeps | apply openRecord_keeps | apply modTwin_keeps
        | apply mirrorServed_keeps | apply announceFirst_keeps | apply addressMoved_keeps)
    | split | intro _ | dsimp only | (show _ = _; rfl)
    | (with_reducible first | apply Keeps.updS)

theorem execPlannedMove_keeps {sc : Scope} {s0 : State} (alcove : Nat) (sessions : List MovedSession) (s : State)
    (hs : Keeps sc s0 s) : KeepsOut sc s0 (execPlannedMove alcove sessions s) := by
  unfold execPlannedMove
  iterate 40 try any_goals first
    | (with_reducible first
        | assumption | apply KeepsOut.next | apply moveOut_keeps | apply moveIn_keeps)
    | split | intro _ | dsimp only | (show _ = _; rfl)
    | (with_reducible first | apply Keeps.updS)

theorem execPfcPauseReceived_keeps {sc : Scope} {s0 : State} (port prio time : Nat) (s : State) (hs : Keeps sc s0 s)
    : KeepsOut sc s0 (execPfcPauseReceived port prio time s) := by
  unfold execPfcPauseReceived
  iterate 40 try any_goals first
    | (with_reducible first
        | assumption | apply KeepsOut.next | apply releaseHeld_keeps | apply modPort_keeps | apply perfAdd_keeps)
    | split | intro _ | dsimp only | (show _ = _; rfl)
    | (with_reducible first | apply Keeps.updS)

theorem execPfcPauseExpiry_keeps {sc : Scope} {s0 : State} (port prio : Nat) (s : State) (hs : Keeps sc s0 s) :
    KeepsOut sc s0 (execPfcPauseExpiry port prio s) := by
  unfold execPfcPauseExpiry
  iterate 40 try any_goals first
    | (with_reducible first
        | assumption | apply KeepsOut.next | apply releaseHeld_keeps | apply modPort_keeps)
    | split | intro _ | dsimp only | (show _ = _; rfl)
    | (with_reducible first | apply Keeps.updS)

theorem execArpNdRequest_keeps {sc : Scope} {s0 : State} (sublink : Nat) (v6 : Bool) (ip : Nat) (s : State)
    (hs : Keeps sc s0 s) : KeepsOut sc s0 (execArpNdRequest sublink v6 ip s) := by
  unfold execArpNdRequest
  iterate 40 try any_goals first
    | (with_reducible first
        | assumption | apply KeepsOut.next | apply perfAdd_keeps | apply sendOut_keeps)
    | split | intro _ | dsimp only | (show _ = _; rfl)
    | (with_reducible first | apply Keeps.updS)

theorem execIcmpEcho_keeps {sc : Scope} {s0 : State} (sublink : Nat) (v6 : Bool) (ip : Nat) (s : State)
    (hs : Keeps sc s0 s) : KeepsOut sc s0 (execIcmpEcho sublink v6 ip s) := by
  unfold execIcmpEcho
  iterate 40 try any_goals first
    | (with_reducible first
        | assumption | apply KeepsOut.next | apply perfAdd_keeps | apply sendOut_keeps | apply dropFrame_keeps)
    | split | intro _ | dsimp only | (show _ = _; rfl)
    | (with_reducible first | apply Keeps.updS)

theorem execUnsupportedFrame_keeps {sc : Scope} {s0 : State} (sublink : Nat) (k : FrameKind) (s : State)
    (hs : Keeps sc s0 s) : KeepsOut sc s0 (execUnsupportedFrame sublink k s) := by
  unfold execUnsupportedFrame
  iterate 40 try any_goals first
    | (with_reducible first
        | assumption | apply KeepsOut.next | apply dropFrame_keeps | apply perfAdd_keeps)
    | split | intro _ | dsimp only | (show _ = _; rfl)
    | (with_reducible first | apply Keeps.updS)

theorem adjust_keeps {sc : Scope} {s0 : State} (s : State) (o : Int) (line : Nat) (hs : Keeps sc s0 s) : Keeps sc s0
    (adjust s o line) := by
  unfold adjust
  iterate 40 try any_goals first
    | (with_reducible first
        | assumption | apply useFree_keeps | apply noteAt_keeps | apply postEvent_keeps)
    | split | intro _ | dsimp only | (show _ = _; rfl)
    | (with_reducible first | apply Keeps.updS)

theorem modPtp_keeps {sc : Scope} {s0 : State} (s : State) (f : PtpClock → PtpClock) (hs : Keeps sc s0 s) : Keeps sc
    s0 (modPtp s f) := by
  unfold modPtp
  iterate 40 try any_goals first
    | (with_reducible first
        | assumption)
    | split | intro _ | dsimp only | (show _ = _; rfl)
    | (with_reducible first | apply Keeps.updS)

theorem ptpTake_keeps {sc : Scope} {s0 : State} (s : State) (m : PtpInfo) (hs : Keeps sc s0 s) : Keeps sc s0
    (ptpTake s m) := by
  unfold ptpTake
  iterate 40 try any_goals first
    | (with_reducible first
        | assumption | apply modPtp_keeps | apply useFree_keeps | apply sendOut_keeps | apply adjust_keeps
        | apply announce_keeps)
    | split | intro _ | dsimp only | (show _ = _; rfl)
    | (with_reducible first | apply Keeps.updS)

theorem execPtpMessage_keeps {sc : Scope} {s0 : State} (m : PtpInfo) (s : State) (hs : Keeps sc s0 s) : KeepsOut sc
    s0 (execPtpMessage m s) := by
  unfold execPtpMessage
  iterate 40 try any_goals first
    | (with_reducible first
        | assumption | apply KeepsOut.next | apply perfAdd_keeps | apply ptpTake_keeps)
    | split | intro _ | dsimp only | (show _ = _; rfl)
    | (with_reducible first | apply Keeps.updS)

theorem execPpsInEdge_keeps {sc : Scope} {s0 : State} (s : State) (hs : Keeps sc s0 s) : KeepsOut sc s0
    (execPpsInEdge s) := by
  unfold execPpsInEdge
  iterate 40 try any_goals first
    | (with_reducible first
        | assumption | apply KeepsOut.next | apply adjust_keeps)
    | split | intro _ | dsimp only | (show _ = _; rfl)
    | (with_reducible first | apply Keeps.updS)

theorem execPpsOutSecond_keeps {sc : Scope} {s0 : State} (s : State) (hs : Keeps sc s0 s) : KeepsOut sc s0
    (execPpsOutSecond s) := by
  unfold execPpsOutSecond
  iterate 40 try any_goals first
    | (with_reducible first
        | assumption | apply KeepsOut.next | apply emit_keeps)
    | split | intro _ | dsimp only | (show _ = _; rfl)
    | (with_reducible first | apply Keeps.updS)

theorem execPpsOutFall_keeps {sc : Scope} {s0 : State} (s : State) (hs : Keeps sc s0 s) : KeepsOut sc s0
    (execPpsOutFall s) := by
  unfold execPpsOutFall
  iterate 40 try any_goals first
    | (with_reducible first
        | assumption | apply KeepsOut.next | apply emit_keeps)
    | split | intro _ | dsimp only | (show _ = _; rfl)
    | (with_reducible first | apply Keeps.updS)

theorem execModuleAlarm_keeps {sc : Scope} {s0 : State} (port : Nat) (flag : ModuleFlag) (s : State)
    (hs : Keeps sc s0 s) : KeepsOut sc s0 (execModuleAlarm port s flag) := by
  unfold execModuleAlarm
  iterate 40 try any_goals first
    | (with_reducible first
        | assumption | apply KeepsOut.next | apply noteAt_keeps | apply modPort_keeps)
    | split | intro _ | dsimp only | (show _ = _; rfl)
    | (with_reducible first | apply Keeps.updS)

theorem execModulePresenceChange_keeps {sc : Scope} {s0 : State} (port : Nat) (present : Bool) (s : State)
    (hs : Keeps sc s0 s) : KeepsOut sc s0 (execModulePresenceChange port present s) := by
  unfold execModulePresenceChange
  iterate 40 try any_goals first
    | (with_reducible first
        | assumption | apply KeepsOut.next | apply modPort_keeps | apply emit_keeps)
    | split | intro _ | dsimp only | (show _ = _; rfl)
    | (with_reducible first | apply Keeps.updS)

theorem execPortLinkDown_keeps {sc : Scope} {s0 : State} (sublink : Nat) (s : State) (hs : Keeps sc s0 s) : KeepsOut
    sc s0 (execPortLinkDown sublink s) := by
  unfold execPortLinkDown
  iterate 40 try any_goals first
    | (with_reducible first
        | assumption | apply KeepsOut.next | apply modPort_keeps)
    | split | intro _ | dsimp only | (show _ = _; rfl)
    | (with_reducible first | apply Keeps.updS)

theorem takeBreak_keeps {sc : Scope} {s0 : State} (s : State) (p : Nat) (hs : Keeps sc s0 s) : Keeps sc s0
    (takeBreak s p) := by
  unfold takeBreak
  iterate 40 try any_goals first
    | (with_reducible first
        | assumption | apply settleLoads_keeps | apply modPort_keeps)
    | split | intro _ | dsimp only | (show _ = _; rfl)
    | (with_reducible first | apply Keeps.updS)

theorem execPortLinkUp_keeps {sc : Scope} {s0 : State} (sublink : Nat) (s : State) (hs : Keeps sc s0 s) : KeepsOut
    sc s0 (execPortLinkUp sublink s) := by
  unfold execPortLinkUp
  iterate 40 try any_goals first
    | (with_reducible first
        | assumption | apply KeepsOut.next | apply takeBreak_keeps | apply modPort_keeps)
    | split | intro _ | dsimp only | (show _ = _; rfl)
    | (with_reducible first | apply Keeps.updS)

end Sys2Proof.Machine
end

