-- ==== Sys2Proof/WellFormed.lean ====
section
/-! DEFINITION. Which commands the hardware can be given: every unit, port, monitor, register value and
frame field a command names is one the spec has. The step runs an ill-formed command as one that names
nothing; these checks say which commands that concerns. -/

namespace Sys2Proof

/-- The fields of a WCP header fit their widths (R46). -/
def WcpHeader.fits (h : WcpHeader) : Bool :=
  decide (h.version < 2 ^ 8) && decide (h.type < 2 ^ 8) && decide (h.flags < 2 ^ 16)
    && decide (h.alcove < 2 ^ 16) && decide (h.session < 2 ^ 8) && decide (h.queue < 2 ^ 8)
    && decide (h.pktNum < 2 ^ 64) && decide (h.seq < 2 ^ 32) && decide (h.declLen < 2 ^ 24)
    && decide (h.segOff < 2 ^ 24) && decide (h.opStatus < 2 ^ 16) && decide (h.ack < 2 ^ 32)

/-- A datagram came in on a sub-link with a priority, its header and data fit, and its region holds no more than
the largest share (R33, R46, R50, R165). -/
def Datagram.fits (d : Datagram) : Bool :=
  decide (d.sublink < 8) && decide (d.prio < 8) && decide (d.held ≤ 5242880) && d.hdr.fits && decide (d.data.length ≤ 65535)

/-- A fabric transaction is at most 64 bytes in one line of 64, and carries as many as it writes. R408 bounds a core's
so; that other masters keep to the same bound, and that a transaction is judged by its first byte, is the model's
(DESIGN CHOICE, log 98). -/
def Txn.fits (t : Txn) : Bool :=
  decide (t.master < 256) && decide (1 ≤ t.len) && decide (t.addr % 64 + t.len ≤ 64)
    && (t.access != .write || t.data.length == t.len)

/-- A bay and a core of the public-key wing (R317). -/
def pkFits (bay core : Nat) : Bool := decide (bay < 6) && decide (core < 8)

/-- Every pulse is on a line that the collector has (R483). -/
def Pulse.fits (p : Pulse) : Bool := decide (p.line < 40) && decide (p.master < 256)

/-- The checks of one command; a command without one names nothing that could be out of range. -/
def Instr.wf : Instr → Bool
  | .commandSegment d => d.fits && d.hdr.type == 1
  | .stream d => d.fits && d.hdr.type == 3
  | .ack d => d.fits && d.hdr.type == 6
  | .hello d => d.fits && d.hdr.type == 0x10
  | .finish d => d.fits && d.hdr.type == 0x12
  | .close d => d.fits && d.hdr.type == 0x15
  | .pfcPauseReceived port prio time => decide (port < 2) && decide (prio < 8) && decide (time < 65536)
  | .pfcPauseExpiry port prio => decide (port < 2) && decide (prio < 8)
  | .arpNdRequest l _ _ => decide (l < 8)
  | .icmpEcho l _ _ => decide (l < 8)
  | .unsupportedFrame l _ => decide (l < 8)
  | .portLinkDown l => decide (l < 8)
  | .portLinkUp l => decide (l < 8)
  | .moduleAlarm p _ => decide (p < 2)
  | .modulePresenceChange p _ => decide (p < 2)
  | .bankBlockEnd l h _ => l.length == 16 && h.length == 16
  | .pkYieldPoint b c _ => pkFits b c
  | .pkParkMoveDone b c => pkFits b c
  | .pkJobEnd b c _ => pkFits b c
  | .pkZeroiseDone b c _ => pkFits b c
  | .pkCoreSelfReturn b c _ => pkFits b c
  | .pkBistStart _ b c => pkFits b c
  | .pkErrForce _ b c _ => pkFits b c
  | .pkErrFire b c i => pkFits b c && decide (i < 8)
  | .pkOmAddrWrite _ b c _ => pkFits b c
  | .pkOmData3Write _ b c _ => pkFits b c
  | .stairClimb _ n _ _ _ => decide (1 ≤ n) && decide (n ≤ 4)
  | .cbBistStart _ b => decide (b < 4)
  | .cbErrForce _ b _ => decide (b < 4)
  | .cbErrFire b i => decide (b < 4) && decide (i < 8)
  | .cwCtxErrFire i _ => decide (i < 3)
  | .cwLegacyErrFire i => decide (i < 3)
  | .pwParkErrFire i n => decide (i < 2) && decide (n < 384)
  | .rngErrFire i _ => decide (i < 8)
  | .softMonitorEvent m i => decide (2 ≤ m) && decide (m ≤ 7) && decide (i < 2)
  | .lichenTraceFail l => decide (1 ≤ l) && decide (l ≤ 2)
  | .duExpectWrite _ n _ _ => decide (n < 16)
  | .handoverReleaseInner _ b => decide (b < 22)
  | .handoverReleaseOuter _ b => decide (b < 22)
  | .handoverClaim _ b => decide (b < 22)
  | .pcGateClock _ b => decide (b < 32)
  | .pcGatePower _ b => decide (b < 32)
  | .pcRestore _ b => decide (b < 32)
  | .fabricTransaction t => t.fits
  | .faultPulse ps => ps.all Pulse.fits
  | .fcStatusClear _ _ _ ps => ps.all Pulse.fits
  | .edSrcWrite _ n _ => decide (n < 1280)
  | .edAck _ n _ => decide (n < 1280)
  | .doorbellSet _ n => decide (n < 4 ∨ (16 ≤ n ∧ n < 28))
  | .timerEvent n => decide (n < 8)
  | .pllPortUnlock p => p == .pclkA || p == .pclkB || p == .lclk
  | .pllRelock p => p == .pclkA || p == .pclkB || p == .lclk
  | .pllCoreUnlock p => p == .cclk || p == .kclk || p == .hclk || p == .mclk
  | .startStepLimit n => decide (1 ≤ n) && decide (n ≤ 12)
  | _ => true

end Sys2Proof
end

