-- ==== Sys2Proof/Laws/PerInstr.lean ====
section
/-! SUPPORT. What holds of each command as a term. The family `Unspelled`: the opcode table gives the row of the
command no bits, so no word spells it, well-formed or not, and the host's words put no such command in the queue. -/

namespace Sys2Proof.Laws.Unspelled

/-- No word spells the command. -/
def Statement (i : Instr) : Prop := ∀ n w, decodeTableWord n w ≠ some i

/-- The table gives no row bits. -/
theorem of_any (i : Instr) : Statement i := fun _ _ h => by cases h

theorem commandSegment (d : Datagram) : Statement (.commandSegment d) := of_any _
theorem assemblyTimerExpiry (alcove session seq : Nat) : Statement (.assemblyTimerExpiry alcove session seq) := of_any _
theorem stream (d : Datagram) : Statement (.stream d) := of_any _
theorem ack (d : Datagram) : Statement (.ack d) := of_any _
theorem hello (d : Datagram) : Statement (.hello d) := of_any _
theorem finish (d : Datagram) : Statement (.finish d) := of_any _
theorem halfOpenTimeout (alcove session : Nat) : Statement (.halfOpenTimeout alcove session) := of_any _
theorem close (d : Datagram) : Statement (.close d) := of_any _
theorem sessionIdleTimeout (alcove session : Nat) : Statement (.sessionIdleTimeout alcove session) := of_any _
theorem completionHandover (c : Nat) : Statement (.completionHandover c) := of_any _
theorem eventModerationExpiry (alcove : Nat) : Statement (.eventModerationExpiry alcove) := of_any _
theorem pfcPauseReceived (port prio time : Nat) : Statement (.pfcPauseReceived port prio time) := of_any _
theorem arpNdRequest (sublink : Nat) (v6 : Bool) (ip : Nat) : Statement (.arpNdRequest sublink v6 ip) := of_any _
theorem icmpEcho (sublink : Nat) (v6 : Bool) (ip : Nat) : Statement (.icmpEcho sublink v6 ip) := of_any _
theorem unsupportedFrame (sublink : Nat) (k : FrameKind) : Statement (.unsupportedFrame sublink k) := of_any _
theorem ptpMessage (m : PtpInfo) : Statement (.ptpMessage m) := of_any _
theorem ppsInEdge : Statement (.ppsInEdge) := of_any _
theorem ppsOutSecond : Statement (.ppsOutSecond) := of_any _
theorem moduleAlarm (port : Nat) (flag : ModuleFlag) : Statement (.moduleAlarm port flag) := of_any _
theorem modulePresenceChange (port : Nat) (present : Bool) : Statement (.modulePresenceChange port present) := of_any _
theorem roceAck (qp psn : Nat) : Statement (.roceAck qp psn) := of_any _
theorem roceNak (qp : Nat) (k : NakKind) : Statement (.roceNak qp k) := of_any _
theorem cnpReceived (qp : Nat) : Statement (.cnpReceived qp) := of_any _
theorem rateIncreaseTick (qp : Nat) : Statement (.rateIncreaseTick qp) := of_any _
theorem qpAckTimeout (qp : Nat) : Statement (.qpAckTimeout qp) := of_any _
theorem roceRequestDropped (qp : Nat) : Statement (.roceRequestDropped qp) := of_any _
theorem streamResultReady (op : Nat) : Statement (.streamResultReady op) := of_any _
theorem alcoveResetDone (alcove : Nat) : Statement (.alcoveResetDone alcove) := of_any _
theorem info (w : Nat) : Statement (.info w) := of_any _
theorem faceQuery (w : Nat) : Statement (.faceQuery w) := of_any _
theorem timeQuery (w : Nat) : Statement (.timeQuery w) := of_any _
theorem encrypt (w : Nat) : Statement (.encrypt w) := of_any _
theorem decrypt (w : Nat) : Statement (.decrypt w) := of_any _
theorem macGenerate (w : Nat) : Statement (.macGenerate w) := of_any _
theorem macVerify (w : Nat) : Statement (.macVerify w) := of_any _
theorem digest (w : Nat) : Statement (.digest w) := of_any _
theorem contextOpen (w : Nat) : Statement (.contextOpen w) := of_any _
theorem contextUpdate (w : Nat) : Statement (.contextUpdate w) := of_any _
theorem contextFinal (w : Nat) : Statement (.contextFinal w) := of_any _
theorem contextSave (w : Nat) : Statement (.contextSave w) := of_any _
theorem contextRestore (w : Nat) : Statement (.contextRestore w) := of_any _
theorem contextClose (w : Nat) : Statement (.contextClose w) := of_any _
theorem sign (w : Nat) : Statement (.sign w) := of_any _
theorem verify (w : Nat) : Statement (.verify w) := of_any _
theorem agree (w : Nat) : Statement (.agree w) := of_any _
theorem encapsulate (w : Nat) : Statement (.encapsulate w) := of_any _
theorem decapsulate (w : Nat) : Statement (.decapsulate w) := of_any _
theorem pkEncrypt (w : Nat) : Statement (.pkEncrypt w) := of_any _
theorem pkDecrypt (w : Nat) : Statement (.pkDecrypt w) := of_any _
theorem random (w : Nat) : Statement (.random w) := of_any _
theorem keyGenerate (w : Nat) : Statement (.keyGenerate w) := of_any _
theorem pairGenerate (w : Nat) : Statement (.pairGenerate w) := of_any _
theorem keyDerive (w : Nat) : Statement (.keyDerive w) := of_any _
theorem keyWrap (w : Nat) : Statement (.keyWrap w) := of_any _
theorem keyUnwrap (w : Nat) : Statement (.keyUnwrap w) := of_any _
theorem faceDestroy (w : Nat) : Statement (.faceDestroy w) := of_any _
theorem keyDestroy (w : Nat) : Statement (.keyDestroy w) := of_any _
theorem faceRestrict (w : Nat) : Statement (.faceRestrict w) := of_any _
theorem faceShare (w : Nat) : Statement (.faceShare w) := of_any _
theorem publicExport (w : Nat) : Statement (.publicExport w) := of_any _
theorem pinTranslate (w : Nat) : Statement (.pinTranslate w) := of_any _
theorem keyblockExport (w : Nat) : Statement (.keyblockExport w) := of_any _
theorem keyblockImport (w : Nat) : Statement (.keyblockImport w) := of_any _
theorem sliceCreate (w : Nat) : Statement (.sliceCreate w) := of_any _
theorem sliceModify (w : Nat) : Statement (.sliceModify w) := of_any _
theorem sliceRemove (w : Nat) : Statement (.sliceRemove w) := of_any _
theorem qpConnect (w : Nat) : Statement (.qpConnect w) := of_any _
theorem qpReset (w : Nat) : Statement (.qpReset w) := of_any _
theorem dirtyEnable (w : Nat) : Statement (.dirtyEnable w) := of_any _
theorem dirtyReadClear (w : Nat) : Statement (.dirtyReadClear w) := of_any _
theorem eventSessionSet (w : Nat) : Statement (.eventSessionSet w) := of_any _
theorem alcoveReset (w : Nat) : Statement (.alcoveReset w) := of_any _
theorem countersRead (w : Nat) : Statement (.countersRead w) := of_any _
theorem clientKeySet (w : Nat) : Statement (.clientKeySet w) := of_any _
theorem quorumPrepare (w : Nat) : Statement (.quorumPrepare w) := of_any _
theorem rootCreate (w : Nat) : Statement (.rootCreate w) := of_any _
theorem rootRestore (w : Nat) : Statement (.rootRestore w) := of_any _
theorem sharesExport (w : Nat) : Statement (.sharesExport w) := of_any _
theorem quotaSet (w : Nat) : Statement (.quotaSet w) := of_any _
theorem custodiansSet (w : Nat) : Statement (.custodiansSet w) := of_any _
theorem certsGet (w : Nat) : Statement (.certsGet w) := of_any _
theorem proveChallenge (w : Nat) : Statement (.proveChallenge w) := of_any _
theorem proveSetSecret (w : Nat) : Statement (.proveSetSecret w) := of_any _
theorem statement (w : Nat) : Statement (.statement w) := of_any _
theorem ledgerRead (w : Nat) : Statement (.ledgerRead w) := of_any _
theorem witness (w : Nat) : Statement (.witness w) := of_any _
theorem alcoveCreate (w : Nat) : Statement (.alcoveCreate w) := of_any _
theorem alcoveConfigure (w : Nat) : Statement (.alcoveConfigure w) := of_any _
theorem alcoveRemove (w : Nat) : Statement (.alcoveRemove w) := of_any _
theorem sectionLoad (w : Nat) : Statement (.sectionLoad w) := of_any _
theorem lifeCycleSet (w : Nat) (badBits : List (Nat × Nat)) : Statement (.lifeCycleSet w badBits) := of_any _
theorem debugEnable (w : Nat) : Statement (.debugEnable w) := of_any _
theorem unitOut (w : Nat) : Statement (.unitOut w) := of_any _
theorem unitOutDone (k : UnitKind) (index : Nat) : Statement (.unitOutDone k index) := of_any _
theorem unitReturn (w : Nat) : Statement (.unitReturn w) := of_any _
theorem firmwareUpdate (w : Nat) : Statement (.firmwareUpdate w) := of_any _
theorem archiveSnapshot (w : Nat) : Statement (.archiveSnapshot w) := of_any _
theorem tallyRecordRead (w : Nat) : Statement (.tallyRecordRead w) := of_any _
theorem tallyCut (w : Nat) : Statement (.tallyCut w) := of_any _
theorem tallyLogRead (w : Nat) : Statement (.tallyLogRead w) := of_any _
theorem tallyIdentity (w : Nat) : Statement (.tallyIdentity w) := of_any _
theorem tallyReseal (w : Nat) (badBits : Nat) : Statement (.tallyReseal w badBits) := of_any _
theorem gapAck (w : Nat) : Statement (.gapAck w) := of_any _
theorem regRead (w : Nat) : Statement (.regRead w) := of_any _
theorem regWrite (w : Nat) : Statement (.regWrite w) := of_any _
theorem twinPair (w : Nat) : Statement (.twinPair w) := of_any _
theorem twinUnpair (w : Nat) : Statement (.twinUnpair w) := of_any _
theorem twinSolo (w : Nat) : Statement (.twinSolo w) := of_any _
theorem receiveKey (w : Nat) : Statement (.receiveKey w) := of_any _
theorem join (w : Nat) : Statement (.join w) := of_any _
theorem instanceBlock (w : Nat) : Statement (.instanceBlock w) := of_any _
theorem grantKey (w : Nat) : Statement (.grantKey w) := of_any _
theorem grant (w : Nat) : Statement (.grant w) := of_any _
theorem revoke (w : Nat) : Statement (.revoke w) := of_any _
theorem migrateOutBegin (w : Nat) : Statement (.migrateOutBegin w) := of_any _
theorem migrateOutNext (w : Nat) : Statement (.migrateOutNext w) := of_any _
theorem migrateOutStop (w : Nat) : Statement (.migrateOutStop w) := of_any _
theorem migrateOutDone (w : Nat) : Statement (.migrateOutDone w) := of_any _
theorem migrateInPrepare (w : Nat) : Statement (.migrateInPrepare w) := of_any _
theorem migrateInPages (w : Nat) : Statement (.migrateInPages w) := of_any _
theorem migrateInFinal (w : Nat) : Statement (.migrateInFinal w) := of_any _
theorem migrateAbort (w : Nat) : Statement (.migrateAbort w) := of_any _
theorem mutationCommit (domain : Nat) : Statement (.mutationCommit domain) := of_any _
theorem invocationMarkCommit (r : MarkRef) : Statement (.invocationMarkCommit r) := of_any _
theorem snapshotComplete : Statement (.snapshotComplete) := of_any _
theorem archiveRefreshDue (block : Nat) (hottest coolest : BitVec 16) : Statement (.archiveRefreshDue block hottest coolest) := of_any _
theorem grantExpiry (slot : Nat) : Statement (.grantExpiry slot) := of_any _
theorem admissionEpoch : Statement (.admissionEpoch) := of_any _
theorem cipherOpDone (op : Nat) : Statement (.cipherOpDone op) := of_any _
theorem hashOpDone (op : Nat) (copiesAgree : Bool) : Statement (.hashOpDone op copiesAgree) := of_any _
theorem legacyOpDone (op : Nat) : Statement (.legacyOpDone op) := of_any _
theorem pkYieldPoint (bay core : Nat) (same : List Nat) : Statement (.pkYieldPoint bay core same) := of_any _
theorem pkParkMoveDone (bay core : Nat) : Statement (.pkParkMoveDone bay core) := of_any _
theorem pkJobEnd (bay core : Nat) (checkOk : Bool) : Statement (.pkJobEnd bay core checkOk) := of_any _
theorem pkZeroiseDone (bay core : Nat) (clean : Bool) : Statement (.pkZeroiseDone bay core clean) := of_any _
theorem pkCoreSelfReturn (bay core : Nat) (pass : Bool) : Statement (.pkCoreSelfReturn bay core pass) := of_any _
theorem unitBistDone (k : UnitKind) (index sub : Nat) (bistPass katPass : Bool) : Statement (.unitBistDone k index sub bistPass katPass) := of_any _
theorem stairClimb (master landing : Nat) (meas signer : Bytes) (svn : Nat) : Statement (.stairClimb master landing meas signer svn) := of_any _
theorem stairLineageRequest (master : Nat) (v : List Nat) : Statement (.stairLineageRequest master v) := of_any _
theorem bankBlockEnd (low high : List (BitVec 1024)) (condAgree : Bool) : Statement (.bankBlockEnd low high condAgree) := of_any _
theorem sporeDelivery : Statement (.sporeDelivery) := of_any _
theorem drbgGenerate (inst : Nat) : Statement (.drbgGenerate inst) := of_any _
theorem smallSourceBlockEnd (tally : Bool) (bank : Nat) (block : BitVec 1024) : Statement (.smallSourceBlockEnd tally bank block) := of_any _
theorem duLenLoWrite (master : Nat) (value : Word) : Statement (.duLenLoWrite master value) := of_any _
theorem duDataWrite (master : Nat) (value : Word) : Statement (.duDataWrite master value) := of_any _
theorem duLastWrite (master : Nat) (value : Word) : Statement (.duLastWrite master value) := of_any _
theorem duAbort (master : Nat) (word : Option Word) : Statement (.duAbort master word) := of_any _
theorem duBlockCompressed : Statement (.duBlockCompressed) := of_any _
theorem duFinalDone (pair : Option (Nat × Nat)) : Statement (.duFinalDone pair) := of_any _
theorem duExpectWrite (master n : Nat) (value : Word) (pair : Option (Nat × Nat)) : Statement (.duExpectWrite master n value pair) := of_any _
theorem cbBistStart (master bay : Nat) : Statement (.cbBistStart master bay) := of_any _
theorem cbErrForce (master bay : Nat) (value : Word) : Statement (.cbErrForce master bay value) := of_any _
theorem cbErrFire (bay source : Nat) : Statement (.cbErrFire bay source) := of_any _
theorem cwCtxForce (master : Nat) (value : Word) : Statement (.cwCtxForce master value) := of_any _
theorem cwCtxErrFire (source : Nat) (ctx : Option Nat) : Statement (.cwCtxErrFire source ctx) := of_any _
theorem cwLegacyBistStart (master : Nat) : Statement (.cwLegacyBistStart master) := of_any _
theorem cwLegacyForce (master : Nat) (value : Word) : Statement (.cwLegacyForce master value) := of_any _
theorem cwLegacyErrFire (source : Nat) : Statement (.cwLegacyErrFire source) := of_any _
theorem pkBistStart (master bay core : Nat) : Statement (.pkBistStart master bay core) := of_any _
theorem pkErrForce (master bay core : Nat) (value : Word) : Statement (.pkErrForce master bay core value) := of_any _
theorem pkErrFire (bay core source : Nat) : Statement (.pkErrFire bay core source) := of_any _
theorem pkOmAddrWrite (master bay core : Nat) (value : Word) : Statement (.pkOmAddrWrite master bay core value) := of_any _
theorem pkOmData3Write (master bay core : Nat) (value : Word) : Statement (.pkOmData3Write master bay core value) := of_any _
theorem pwParkForce (master : Nat) (value : Word) : Statement (.pwParkForce master value) := of_any _
theorem pwParkErrFire (source slot : Nat) : Statement (.pwParkErrFire source slot) := of_any _
theorem duErrForce (master : Nat) (value : Word) : Statement (.duErrForce master value) := of_any _
theorem duParityFire : Statement (.duParityFire) := of_any _
theorem rngErrForce (master : Nat) (value : Word) : Statement (.rngErrForce master value) := of_any _
theorem rngErrFire (source inst : Nat) : Statement (.rngErrFire source inst) := of_any _
theorem hcWmLogicWrite (master : Nat) (value : Word) : Statement (.hcWmLogicWrite master value) := of_any _
theorem hcWmMezzWrite (master : Nat) (value : Word) : Statement (.hcWmMezzWrite master value) := of_any _
theorem wmMoveCommit (mezz : Bool) : Statement (.wmMoveCommit mezz) := of_any _
theorem drainTimeout (r : DrainRef) : Statement (.drainTimeout r) := of_any _
theorem handoverReleaseInner (master block : Nat) : Statement (.handoverReleaseInner master block) := of_any _
theorem handoverReleaseOuter (master block : Nat) : Statement (.handoverReleaseOuter master block) := of_any _
theorem handoverClaim (master block : Nat) : Statement (.handoverClaim master block) := of_any _
theorem handoverDrainEnd (block : Nat) : Statement (.handoverDrainEnd block) := of_any _
theorem handoverResetEnd (block : Nat) : Statement (.handoverResetEnd block) := of_any _
theorem handoverClaimCommit (block : Nat) : Statement (.handoverClaimCommit block) := of_any _
theorem hcEncLock (master : Nat) (value : Word) : Statement (.hcEncLock master value) := of_any _
theorem hcErrForce (master : Nat) (value : Word) : Statement (.hcErrForce master value) := of_any _
theorem mpuSwap (master core : Nat) : Statement (.mpuSwap master core) := of_any _
theorem mpuSwapDrainEnd (core : Nat) : Statement (.mpuSwapDrainEnd core) := of_any _
theorem mpuFaultRelease (master core : Nat) : Statement (.mpuFaultRelease master core) := of_any _
theorem fabricTransaction (t : Txn) : Statement (.fabricTransaction t) := of_any _
theorem pcGateClock (master block : Nat) : Statement (.pcGateClock master block) := of_any _
theorem pcGatePower (master block : Nat) : Statement (.pcGatePower master block) := of_any _
theorem pcRestore (master block : Nat) : Statement (.pcRestore master block) := of_any _
theorem pcErrForce (master : Nat) (value : Word) : Statement (.pcErrForce master value) := of_any _
theorem debugAccess (r : DebugReq) : Statement (.debugAccess r) := of_any _
theorem lichenTraceFail (layer : Nat) : Statement (.lichenTraceFail layer) := of_any _
theorem lightAlarm : Statement (.lightAlarm) := of_any _
theorem softMonitorEvent (monitor inst : Nat) : Statement (.softMonitorEvent monitor inst) := of_any _
theorem cellTempSample (outOfRange : Bool) : Statement (.cellTempSample outOfRange) := of_any _
theorem eraseComplete (badBits : Nat) : Statement (.eraseComplete badBits) := of_any _
theorem bbCheckRewriteDone : Statement (.bbCheckRewriteDone) := of_any _
theorem tampApply (master : Nat) : Statement (.tampApply master) := of_any _
theorem tampBistStart (master : Nat) (value : Word) : Statement (.tampBistStart master value) := of_any _
theorem tampBistEnd (reported : Bool) : Statement (.tampBistEnd reported) := of_any _
theorem tampTestInterval : Statement (.tampTestInterval) := of_any _
theorem tampErrForce (master : Nat) (value : Word) : Statement (.tampErrForce master value) := of_any _
theorem tampAlarmForce (master : Nat) (value : Word) : Statement (.tampAlarmForce master value) := of_any _
theorem cellLow (mv : Nat) : Statement (.cellLow mv) := of_any _
theorem lcDebugWrite (master : Nat) (value : Word) : Statement (.lcDebugWrite master value) := of_any _
theorem debugExpiry : Statement (.debugExpiry) := of_any _
theorem lcErrForce (master : Nat) (value : Word) : Statement (.lcErrForce master value) := of_any _
theorem authChallenge : Statement (.authChallenge) := of_any _
theorem authSubmit (auth : Bytes) (badBits : List (Nat × Nat)) : Statement (.authSubmit auth badBits) := of_any _
theorem authStatus : Statement (.authStatus) := of_any _
theorem persoKeys : Statement (.persoKeys) := of_any _
theorem persoCert (items : Bytes) : Statement (.persoCert items) := of_any _
theorem dap : Statement (.dap) := of_any _
theorem idcode : Statement (.idcode) := of_any _
theorem samplePreload (bits : Nat) : Statement (.samplePreload bits) := of_any _
theorem extest : Statement (.extest) := of_any _
theorem clamp : Statement (.clamp) := of_any _
theorem highz : Statement (.highz) := of_any _
theorem bypass : Statement (.bypass) := of_any _
theorem trstNLow : Statement (.trstNLow) := of_any _
theorem faultPulse (ps : List Pulse) : Statement (.faultPulse ps) := of_any _
theorem fcStatusClear (master : Nat) (hi : Bool) (value : Word) (ps : List Pulse) : Statement (.fcStatusClear master hi value ps) := of_any _
theorem fcCaptureRelease (master : Nat) : Statement (.fcCaptureRelease master) := of_any _
theorem fcForce (master : Nat) (hi lo : Word) : Statement (.fcForce master hi lo) := of_any _
theorem fcCtrlWrite (master : Nat) (value : Word) : Statement (.fcCtrlWrite master value) := of_any _
theorem handleLimitExpiry : Statement (.handleLimitExpiry) := of_any _
theorem collectorSelfFault (c : SelfCause) : Statement (.collectorSelfFault c) := of_any _
theorem safeRestartExpiry : Statement (.safeRestartExpiry) := of_any _
theorem edSrcWrite (master n : Nat) (value : Word) : Statement (.edSrcWrite master n value) := of_any _
theorem edAck (master n : Nat) (event : Bool) : Statement (.edAck master n event) := of_any _
theorem doorbellSet (master n : Nat) : Statement (.doorbellSet master n) := of_any _
theorem edErrForce (master : Nat) (value : Word) : Statement (.edErrForce master value) := of_any _
theorem pllPortUnlock (p : Pll) : Statement (.pllPortUnlock p) := of_any _
theorem pllRelock (p : Pll) : Statement (.pllRelock p) := of_any _
theorem pllCoreUnlock (p : Pll) : Statement (.pllCoreUnlock p) := of_any _
theorem railFall : Statement (.railFall) := of_any _
theorem railRise (mv : Nat) : Statement (.railRise mv) := of_any _
theorem vinLow (mv : Nat) : Statement (.vinLow mv) := of_any _
theorem resetNLow (ns : Nat) : Statement (.resetNLow ns) := of_any _
theorem selfReset : Statement (.selfReset) := of_any _
theorem start (e : StartEnv) : Statement (.start e) := of_any _
theorem startStepLimit (step : Nat) : Statement (.startStepLimit step) := of_any _
theorem service600s : Statement (.service600s) := of_any _
theorem ibveletFrame (f : IbFrame) : Statement (.ibveletFrame f) := of_any _
theorem ibRetransmitRequest (seq : Nat) : Statement (.ibRetransmitRequest seq) := of_any _
theorem ibHeartbeatDue : Statement (.ibHeartbeatDue) := of_any _
theorem ibLinkLost (l : LinkLoss) : Statement (.ibLinkLost l) := of_any _
theorem ibLinkHandshake (p : IbPeer) : Statement (.ibLinkHandshake p) := of_any _
theorem ibErrForce (master : Nat) (value : Word) : Statement (.ibErrForce master value) := of_any _
theorem journalRecordMirror (r : JournalRec) : Statement (.journalRecordMirror r) := of_any _
theorem forwardedMutation (r : JournalRec) (epoch : Nat) : Statement (.forwardedMutation r epoch) := of_any _
theorem sessionRecord (r : SessionMirror) : Statement (.sessionRecord r) := of_any _
theorem packetMark (alcove session : Nat) (m : MirrorMark) : Statement (.packetMark alcove session m) := of_any _
theorem acceptanceRecord (r : AcceptMirror) : Statement (.acceptanceRecord r) := of_any _
theorem alcoveRecord (r : AlcoveRecord) : Statement (.alcoveRecord r) := of_any _
theorem sectionLoadForward (head : Bytes) (bodies : List (Nat × Bytes)) : Statement (.sectionLoadForward head bodies) := of_any _
theorem serviceStateNotice (service : Nat) : Statement (.serviceStateNotice service) := of_any _
theorem bulkCopy (b : BulkState) : Statement (.bulkCopy b) := of_any _
theorem twinJoin (j : JoinInfo) : Statement (.twinJoin j) := of_any _
theorem twinLinkWaitExpiry : Statement (.twinLinkWaitExpiry) := of_any _
theorem twinKeepaliveDue : Statement (.twinKeepaliveDue) := of_any _
theorem presenceQueryDue : Statement (.presenceQueryDue) := of_any _
theorem presenceCheckEnd : Statement (.presenceCheckEnd) := of_any _
theorem takeover : Statement (.takeover) := of_any _
theorem announcementDue : Statement (.announcementDue) := of_any _
theorem failbackExpiry : Statement (.failbackExpiry) := of_any _
theorem plannedMove (alcove : Nat) (sessions : List MovedSession) : Statement (.plannedMove alcove sessions) := of_any _
theorem sequencerMove (domain : Nat) : Statement (.sequencerMove domain) := of_any _
theorem galleryProbeDue : Statement (.galleryProbeDue) := of_any _
theorem probeReply (payload : Bytes) (managerKey : Bytes) : Statement (.probeReply payload managerKey) := of_any _
theorem tallySeedDelivery (seed : Bytes) : Statement (.tallySeedDelivery seed) := of_any _
theorem tallyAccumulate : Statement (.tallyAccumulate) := of_any _
theorem tallyRecordDue : Statement (.tallyRecordDue) := of_any _
theorem tallyTimePath (disciplined : Bool) : Statement (.tallyTimePath disciplined) := of_any _
theorem tallyPowerUp (clockLost : Bool) (elapsed : Nat) : Statement (.tallyPowerUp clockLost elapsed) := of_any _
theorem tallyFault (e : TallyErr) : Statement (.tallyFault e) := of_any _
theorem snapshotStrobe : Statement (.snapshotStrobe) := of_any _
theorem prErrForce (master : Nat) (value : Word) : Statement (.prErrForce master value) := of_any _
theorem regPairLoRead (master addr : Nat) : Statement (.regPairLoRead master addr) := of_any _
theorem regPairHiWrite (master addr : Nat) (value : Word) : Statement (.regPairHiWrite master addr value) := of_any _
theorem registerWrite (master addr : Nat) (value : Word) (sets : Nat) : Statement (.registerWrite master addr value sets) := of_any _
theorem portLinkDown (sublink : Nat) : Statement (.portLinkDown sublink) := of_any _
theorem portLinkUp (sublink : Nat) : Statement (.portLinkUp sublink) := of_any _
theorem pfcPauseExpiry (port prio : Nat) : Statement (.pfcPauseExpiry port prio) := of_any _
theorem ticketExpiry (domain : Nat) (ticket : Bytes) : Statement (.ticketExpiry domain ticket) := of_any _
theorem promiseDeadline (w : Nat) : Statement (.promiseDeadline w) := of_any _
theorem timerEvent (n : Nat) : Statement (.timerEvent n) := of_any _
theorem retentionLatchClear : Statement (.retentionLatchClear) := of_any _
theorem cellLowClear : Statement (.cellLowClear) := of_any _
theorem archiveJournalWrite (records : Nat) : Statement (.archiveJournalWrite records) := of_any _
theorem replyReceived (m : ClientMsg) : Statement (.replyReceived m) := of_any _
theorem readyReceived (m : ClientMsg) : Statement (.readyReceived m) := of_any _
theorem completionReceived (m : ClientMsg) : Statement (.completionReceived m) := of_any _
theorem ppsOutFall : Statement (.ppsOutFall) := of_any _

end Sys2Proof.Laws.Unspelled
end

