-- ==== Sys2Proof/Tests/Slice0.lean ====
section
/-! SUPPORT. The model's own tests: a state and operands that meet the hypotheses of each statement (a witness for
each of its cases), an ill-formed command for each check of `Instr.wf`, and examples that the spec
and the standards work out. -/

namespace Sys2Proof.Tests

set_option maxRecDepth 100000
set_option Elab.async false
set_option linter.unusedVariables false

open Sys2Proof.Machine

/-! ### States and operands for the tests -/

/-- The Ed25519 key and signature of the tests: the neutral point with the scalar 0, for which the equation of R332 holds
whatever the message. A signer with a secret key would give other bytes; no witness depends on which. -/
def tKey : Bytes := 1 :: zeros 31
def tSig : Bytes := 1 :: zeros 63
theorem signed (m : Bytes) : Config.edVerify tKey m tSig = true := Laws.edVerify_neutral m

/-- The settings of a test alcove of a domain. -/
def tSet (a d : Nat) : AlcoveSettings :=
  { alcove := a, domain := d, mac := 2 + a, vlan := 0, udp := 4471, ipv4 := some (10 + a), ipv6a := none, ipv6b := none
    assemblyUs := 100, modUs := 20, idleS := 60, modCount := 32, retention := 262144, share := 1000, poolShare := 2097152 }

/-- An open session of a test alcove. -/
def tSess : Session :=
  { sid := 7, open_ := true, key := [1], keyId := [2], role := .steward, c2dKey := [3], d2cKey := [4], c2dSalt := [5]
    d2cSalt := [6], hello := [7], reply := [8], ephemeral := [9], kemShared := [10], highest := 5, bitmap := 0
    nextPkt := 3, replyAt := 0, lastAuth := 0, ackVal := 0, base := 0, entries := [], closing := none, link := 0
    seqMark := 1024, devMark := 1024, cliMark := 1024 }

def tAlcove (a d : Nat) : Alcove :=
  { alcoveFresh (tSet a d) with isOpen := true, proof := some [1], epochMark := 1, keys := [([1], .steward)] }

def tInst : Drbg := { ready := true, own := true, count := 0, grace := none, urgent := false }

/-- A custodian set of one, and a domain with a root secret. -/
def tCust : Custodian := { index := 1, signKey := tKey, x25519 := [2], ek := [3] }
def tDom : Domain :=
  { domainReset 1 with
    set := [tCust], threshold := 1, epoch := 3, root := some (zeros 32), quota := 1000, witSeq := 0, witMark := 1
    grantKey := be 32 9, pending := [], tickets := [] }

/-- A device in service with alcoves 0 and 1 open, session 0 of both open, and 1,000 s after its start. -/
def sOn : State :=
  { State.reset with
    time := 10 ^ 12
    net := { netReset with alcoves := [(0, tAlcove 0 0), (1, tAlcove 1 1)], sessions := [(0, tSess), (256, tSess)]
                           portA := { portReset with moduleUp := true, up := [true, true, true, true] } }
    rng := { rngReset with source := .run, inst := (List.range 20).map (fun i => (i, tInst)) ++ [(256, tInst), (257, tInst)] }
    keys := { keysReset with domains := [(0, { tDom with root := some (zeros 32) }), (1, tDom)], proofMark := 1
                             blocks := [(1, 65536)] }
    tally := { tallyReset with time := 10 ^ 12, seed := some [1] }
    life := { lifeReset with life := .inService }
    boot := { bootReset with step := 12, admitStop := false, caps := [(0, 470), (1, 70), (2, 70), (3, 10), (4, 20)] }
    fc := { collectorReset with service := .inService } }

/-- The face and the secret of a test key at slot 5, and its handle. -/
def tFace (c : UseClass) : Face :=
  { faceOf 1 { noTemplate with cls := some c } with useMark := 1, invMark := 1, wrapped := true, owners := .all }
def tSec (algo bits : Nat) (c : UseClass) : Secret :=
  { domain := 1, algo := algo, bits := bits, granted := false, material := zeros ((materialLen algo bits).getD 0)
    face0 := some (tFace c), face1 := none, chain := [] }
def tH : Bytes := be 8 (mkHandle 1 5 0 7)
def sK (x : Secret) : State :=
  { sOn with keys := { sOn.keys with secrets := [(5, x)], checks := [(5, 7)] } }

/-- An accepted command of alcove `a`, ready to execute, and a state that holds it as number 0. -/
def tWork (a op : Nat) (p : Bytes) : Work :=
  { sid := 7, alcove := a, session := 0, seq := 1, queue := 0, opcode := op, payload := p, gen := 0, cls := .d1
    accepted := 0, deadline := 0, role := .galleryManager, key := [1], event := false, sublink := 0, prio := 0
    stream := none, pktNum := 0, room := 0, costs := [], longJobs := 0, wingWork := false, waited := false, part := 0
    carry := none, slots := [], task := none, stage := .ready }
def sWork (s : State) (k : Work) : State := { s with net := { s.net with work := [(0, k)], nextWork := 1 } }
def sW (s : State) (a op : Nat) (p : Bytes) : State := sWork s (tWork a op p)

/-- What an option or a result that is there holds. -/
theorem some_of {α : Type} {o : Option α} (h : o.isSome = true) : o = some (o.get h) := by simp

def okOf {ε α : Type} : (e : Except ε α) → e.toBool = true → α
  | .ok a, _ => a
theorem ok_of {ε α : Type} {e : Except ε α} (h : e.toBool = true) : e = .ok (okOf e h) := by
  cases e with
  | ok a => rfl
  | error => cases h

/-- A datagram of alcove 1 with a type, flags, number, opcode and data. -/
def tAddr : NetAddr := { mac := 3, vlan := 0, v6 := false, ip := 11, udp := 4471 }
def tHdr (type flags seq len op : Nat) : WcpHeader :=
  { version := 1, type := type, flags := flags, alcove := 1, session := 0, queue := 0, pktNum := 9, seq := seq, declLen := len
    segOff := 0, opStatus := op, ack := 0 }
/-- A frame that leaves its region as it was, with room and no pause sent, changes no port. -/
theorem regionFills_calm (s : State) (d : Datagram) (h : tgetD (portOf s (portNo d.sublink)).recvUsed d.prio 0 = d.held)
    (hf : 163840 ≤ regionShare (portOf s (portNo d.sublink)) - d.held)
    (hp : (portOf s (portNo d.sublink)).pauseSent.contains d.prio = false) : s = regionFills s d := by
  simp only [regionFills, if_pos h, hp]
  rw [if_neg (by omega), if_neg (by simp)]

/-- The datagram with the tag that verifies under the keys of the test session. -/
def tData (h : WcpHeader) (d : Bytes) : Datagram :=
  { sublink := 0, prio := 0, held := 0, addr := tAddr, hdr := h, data := d, tag := frameTag tSess.c2dKey tSess.c2dSalt h d }

/-- Such a datagram with at most 9,000 bytes of data is one that the device serves. -/
theorem framed (h : WcpHeader) (d : Bytes) (n : d.length ≤ 9000) : frameOk (tData h d) = true := by
  have l : (frameTag tSess.c2dKey tSess.c2dSalt h d).length = 16 := by simp [frameTag]
  simp [frameOk, tData, frameLen, l, tAddr]
  omega

/-- Session 0 of alcove 1 holds the first half of a command of 128 bytes at sequence number 0. -/
def sAsm : State :=
  putSess sOn 1 0 { tSess with entries := [(0, .assembling (newAssembly 0 (tHdr 1 1 0 128 0x0101)))] }

/-- Public-key bay 0 and its core 0 in service, in the outer hall, with DRBGs of their own. -/
def sUp : State :=
  { sOn with
    pk := { pkReset with cores := tinit 48 (fun i => if i < 8 then { pkCoreReset with state := .inService } else pkCoreReset) } }

/-- A `HELLO` of the worked layout: version 1, a key identifier, and zero nonce and keys. -/
def tHello : Datagram :=
  tData { tHdr 0x10 3 0 1252 0 with session := 0xFF, pktNum := 0 } (be 2 1 ++ zeros 2 ++ ascii "0123456789abcdef" ++ zeros 1232)

/-- Session 0 of alcove 1 half-open, for the alcove's first key. -/
def sHalf : State :=
  modAlc (putSess sOn 1 0 { tSess with open_ := false, keyId := (Config.sha512 tKey).take 16, hello := zeros 36 ++ [9] }) 1
    (fun x => { x with keys := [(tKey, .steward)] })

/-- A slice of alcove 1 that hashes each frame, and one that places results through queue pair 3. -/
def tSlice : Slice :=
  { handle := 0, mech := 0x0040, frameRate := 0, byteRate := 0, frameTok := 0, byteTok := 0, tokAt := 0, qp := none
    region := none, immediate := false, logging := false, suspended := false, words := 0, dirty := [] }
def tPlaced : Slice := { tSlice with qp := some 3, region := some (4096, 8192, 9), words := 1 }
def tQp : Qp :=
  { qpFresh 1 with state := .connected, pending := [{ psn := 6, addr := 4096, data := [1], imm := none, pid := 6, prio := 0 },
      { psn := 7, addr := 4160, data := [2], imm := none, pid := 6, prio := 0 }] }
def tDone : Completion :=
  { sid := 7, alcove := 1, session := 0, seq := 1, queue := 0, opcode := 0x0101, status := 0, payload := [1, 2], gen := 0
    sublink := 0, prio := 0, event := false, replay := false, truncated := false, declLen := 0, work := some 0, meters := []
    stream := none, pktNum := 0, tagged := true }
def sSlices : State :=
  { sOn with net := { sOn.net with slices := [(sliceKey 1 5, tSlice), (sliceKey 1 6, tPlaced)], qps := [(3, tQp)] } }
/-- A stream's work and its finished operation as completion 0: of slice 5, or placed, of slice 6. -/
def sResult (pid : Nat) : State :=
  { sSlices with net := { sSlices.net with
      work := [(0, { tWork 1 0 (zeros 16) with stream := some pid, stage := .completed })]
      comps := [(0, { tDone with stream := some pid })] } }

/-- A PTP message on the port and in the domain of reset, and an exchange in which T2 is 5. -/
def tPtp (k : PtpKind) : PtpInfo := { port := 0, domain := 0, transport := .udp4, kind := k }
def sPtp (t1 t3 : Option Nat) : State := modPtp sOn (fun p => { p with seq := 7, t1 := t1, t2 := some 5, t3 := t3 })

/-- A common request (R108). -/
def tReq (h : Bytes) (mech flags keyBits : Nat) (prm data : Bytes) : Bytes :=
  h ++ be 2 mech ++ be 2 flags ++ be 4 prm.length ++ be 4 data.length ++ be 2 keyBits ++ zeros 2
    ++ prm ++ zeros (roundUp prm.length 8 - prm.length) ++ data
/-- `PARAM` of GCM and of CMAC, with a tag of 16 bytes. -/
def tGcm : Bytes := [16] ++ zeros 31
def tCmac : Bytes := [16] ++ zeros 19
/-- An open CTR context of alcove 1, and a state that holds it as context 0. -/
def tCtx : Context :=
  { alcove := 1, handle := mkHandle 1 5 0 7, mech := 2, decrypt := false, verify := false, counter := 0, width := 32
    nonce := zeros 16, aad := [], tagLen := 0, history := [], inFlight := false, spilled := false, present := true
    epoch := none, idle := 0 }
def sCtx (c : Context) (p : UseClass) : State :=
  modAlc (sK (tSec 1 256 p)) 1 (fun x => { x with contexts := [(0, c)], ctxKey := [8] })
/-- A blob of context 0 of epoch 0 and its tag. -/
def tBlob : Bytes := blobHead 2 1 0 0 (mkHandle 1 5 0 7) ++ zeros 240

theorem tBlob_tag :
    let p := tBlob ++ blobTag [8] (tBlob.take 32) (slice tBlob 32 240)
    blobTag [8] (p.take 32) (slice p 32 240) = slice p 272 16 := by
  have h : tBlob.length = 272 := by decide
  have e : ∀ t : Bytes, slice (tBlob ++ t) 272 16 = t.take 16 := fun t => by simp [slice, h]
  have f : ∀ t : Bytes, slice (tBlob ++ t) 32 240 = slice tBlob 32 240 := fun t => by
    rw [slice, slice, List.drop_append_of_le_length (by omega), List.take_append_of_le_length (by simp [h])]
  have g : ∀ t : Bytes, (tBlob ++ t).take 32 = tBlob.take 32 := fun t => List.take_append_of_le_length (by omega)
  simp [e, f, g, blobTag, Config.gcmTag, Config.fixLen, List.take_take]

/-- A template with a use class and, where a command needs it, a key type (R172, R173). -/
def tItems (cls : Nat) (key : Option (Nat × Nat)) : Bytes :=
  be 1 1 ++ be 1 1 ++ be 1 cls ++ (key.map (fun e => be 1 9 ++ be 1 4 ++ be 2 e.1 ++ be 2 e.2)).getD []
def tTmpl (cls : Nat) (key : Option (Nat × Nat)) : Bytes := be 2 (tItems cls key).length ++ tItems cls key
/-- A state with a second secret at slot 6, and its handle. -/
def tH2 : Bytes := be 8 (mkHandle 1 6 0 9)
def sK2 (x y : Secret) : State :=
  { sOn with keys := { sOn.keys with secrets := [(5, x), (6, y)], checks := [(5, 7), (6, 9)] } }
/-- A result that a first wing left. -/
def tRes : Result :=
  { status := 0, payload := [], meters := [], ctx := none, relCtx := none, body := none, quorum := none, again := .no }
def sCarry (s : State) (k : Work) : State := sWork s { k with carry := some tRes }

theorem finishes (y : Alcove) (s : State) (h : s.fc.service = .inService) (k : y.keys = [(tKey, .steward)]) :
    finishCheck s y { tSess with open_ := false, keyId := (Config.sha512 tKey).take 16, hello := zeros 36 ++ [9] }
      (zeros 4 ++ tSig) = .ok (tKey, .steward) := by
  have a : slice (zeros 36 ++ [9#8]) 36 32 = [9#8] := by decide
  have b : allZero (Config.x25519 [9#8] [9#8]) = false := by decide +kernel
  have d : (zeros 4 ++ tSig).drop 4 = tSig := rfl
  have e : (zeros 4 ++ tSig).length = 68 := rfl
  have f : zeroAt (zeros 4 ++ tSig) 1 3 = true := by decide
  simp [finishCheck, h, keyOfId, k, signed, d, e, f, tSess, a, b]

/-! ### Quorums, envelopes and certificates -/

/-- A ticket of a command body, the state that holds it, and the command with one approval (R222 to R225). -/
def tTicket (op : Nat) (body : Bytes) : Ticket :=
  { id := zeros 16, opcode := op, epoch := 3, opened := 0, expires := 2 ^ 40, digest := Config.sha512 body, opDig := []
    fails := 0, xport := some ([], []) }
def tAppr : Bytes := be 4 0x57514142 ++ [1, 1, 0, 0] ++ zeros 16 ++ be 1 1 ++ zeros 7 ++ tSig
def sT (s : State) (d op : Nat) (body : Bytes) : State :=
  setDom s d (fun x => { x with tickets := [tTicket op body] })
def sQ (s : State) (a d op : Nat) (body : Bytes) : State := sW (sT s d op body) a op (body ++ tAppr)
/-- The test device, its domain 1 without a root. -/
def sBare : State := setDom sOn 1 (fun x => { x with root := none })

/-- An approval block of the test custodian passes. -/
theorem approved (s : State) (d op : Nat) (body : Bytes) (a : Approval) (t : Ticket)
    (h : ticketOf (domD s d) a.ticket = some t) (o : t.opcode = op) (g : t.digest = Config.sha512 body)
    (e : tallySec s ≤ t.expires) (m : (domD s d).threshold ≤ a.entries.length)
    (i : a.entries.all (fun x => x.2 == tSig &&
      ((domD s d).set.find? (fun c => c.index == x.1)).any (fun c => c.signKey == tKey)) = true) :
    approvalOk s d op body a = true := by
  have j : a.entries.all (entryOk (domD s d) t.opDig) = true := by
    refine List.all_eq_true.2 fun x hx => ?_
    have k := List.all_eq_true.1 i x hx
    rw [Bool.and_eq_true] at k
    cases hf : (domD s d).set.find? (fun c => c.index == x.1) with
    | none => rw [hf] at k; simp at k
    | some c =>
      rw [hf] at k
      have l : x.2 = tSig := by simpa using k.1
      have n : c.signKey = tKey := by simpa using k.2
      simp only [entryOk, hf, l, n, signed]
  simp [approvalOk, h, o, g, e, m, j]

/-- There is an envelope of 1,192 bytes with index 1 that opens to given 48 bytes (R230). -/
theorem opened (t : String) (x y p : Bytes) (h : p.length = 48) :
    ∃ e : Bytes, e.length = 1192 ∧ e.headD 0 = 1 ∧ openHybrid t x y e = some p := by
  let a : Bytes := 1 :: zeros 1127
  let k := envelopeKey t (Config.x25519 x (zeros 32)) (Config.kemDec false y (zeros 1088)) 1 (zeros 32) (zeros 1088)
  let c := Config.gcmCrypt k.1 k.2 p
  let g := Config.gcmTag k.1 k.2 (1 :: zeros 7) c
  have la : a.length = 1128 := by decide
  have lc : c.length = 48 := by simp [c, h]
  have lg : g.length = 16 := by simp [g]
  refine ⟨a ++ (c ++ g), by simp only [List.length_append, la, lc, lg], rfl, ?_⟩
  have e1 : slice (a ++ (c ++ g)) 8 32 = zeros 32 := by
    rw [slice, List.drop_append_of_le_length (by rw [la] <;> decide), List.take_append_of_le_length (by rw [List.length_drop, la] <;> decide)]
    decide
  have e2 : slice (a ++ (c ++ g)) 40 1088 = zeros 1088 := by
    rw [slice, List.drop_append_of_le_length (by rw [la] <;> decide), List.take_append_of_le_length (by rw [List.length_drop, la] <;> decide)]
    decide +kernel
  have e3 : (a ++ (c ++ g)).length = 1192 := by simp only [List.length_append, la, lc, lg]
  have e4 : ((a ++ (c ++ g)).drop 1128).take (1192 - 1144) = c := by
    rw [List.drop_left' la, List.take_left' lc]
  have e5 : (a ++ (c ++ g)).drop (1192 - 16) = g := by
    rw [← List.append_assoc]
    exact List.drop_left' (by simp only [List.length_append, la, lc])
  have e6 : (a ++ (c ++ g)).take 8 = 1 :: zeros 7 := by
    rw [List.take_append_of_le_length (by rw [la] <;> decide)]
    decide
  show (if (a ++ (c ++ g)).drop ((a ++ (c ++ g)).length - 16) = _ then _ else _) = _
  simp only [e1, e2, e3, e4, e5, e6]
  show (if g = Config.gcmTag k.1 k.2 (1 :: zeros 7) c then some (Config.gcmCrypt k.1 k.2 c) else none) = some p
  rw [if_pos rfl, Laws.gcmCrypt_twice]

/-- An approval block after a symbolic row. -/
theorem apprAfter (h e : Bytes) : approvalAt (h ++ e ++ tAppr) (h ++ e).length = approvalAt tAppr 0 := by
  have f : ∀ o n, fld (h ++ e ++ tAppr) ((h ++ e).length + o) n = fld tAppr o n := fun o n => by
    rw [fld, fld, slice, slice, ← List.drop_drop, List.drop_left]
  have g : ∀ o n, slice (h ++ e ++ tAppr) ((h ++ e).length + o) n = slice tAppr o n := fun o n => by
    rw [slice, slice, ← List.drop_drop, List.drop_left]
  have l : (h ++ e ++ tAppr).length = (h ++ e).length + tAppr.length := List.length_append
  unfold approvalAt
  simp only [Nat.add_assoc, f, g, zeroAt, l, Nat.add_left_cancel_iff, Nat.zero_add]
  have f0 := f 0
  simp only [Nat.add_zero] at f0
  simp only [f0]

theorem apprAt (h e : Bytes) (n : Nat) (l : (h ++ e).length = n) : approvalAt (h ++ e ++ tAppr) n = approvalAt tAppr 0 :=
  l ▸ apprAfter h e

/-- The plaintext of a share of domain 1, whose root is of zeros. -/
def tShare : Bytes := [0, 1, 1] ++ zeros 5 ++ rootCheck (zeros 32) ++ zeros 32

theorem restored (e : Bytes) (l : e.length = 1192) (h : e.headD 0 = 1) (o : openHybrid "WSHR1" [] [] e = some tShare) :
    restoreRoot 1 ([], []) (restoreParts ([1] ++ zeros 7 ++ e ++ tAppr)) = .ok (interpolate [(1, zeros 32)]) := by
  have p : restoreParts ([1] ++ zeros 7 ++ e ++ tAppr) = [e] := by
    have a : fld ([1] ++ zeros 7 ++ e ++ tAppr) 0 1 = 1 := rfl
    have b : slice ([1] ++ zeros 7 ++ e ++ tAppr) 8 1192 = e := by
      have d : ([1] ++ zeros 7 ++ e ++ tAppr).drop 8 = e ++ tAppr := rfl
      rw [slice, d, List.take_left' l]
    rw [restoreParts, a]
    exact congrArg (fun x => [x]) b
  have f : fld e 0 1 = 1 := by
    cases e with
    | nil => cases l
    | cons x e =>
      have g : x = 1 := h
      rw [g]
      rfl
  have i : interpolate [(1, zeros 32)] = zeros 32 := by decide
  have c : slice tShare 8 8 = rootCheck (zeros 32) := by
    have d : tShare.drop 8 = rootCheck (zeros 32) ++ zeros 32 := rfl
    rw [slice, d, List.take_left' (by simp [rootCheck])]
  have v : slice tShare 16 32 = zeros 32 := by
    have d : tShare.drop 16 = zeros 32 := List.drop_left' (by simp [rootCheck, zeros])
    rw [slice, d]
    rfl
  have q : fld tShare 2 1 = 1 := rfl
  have r : fld tShare 0 2 = 1 := rfl
  simp only [restoreRoot, p, List.map, o, f]
  rw [if_neg (by simp [noDup, q]), if_neg (by simp [r])]
  have m : ([(1, some tShare)].filterMap (fun x => x.2)) = [tShare] := rfl
  rw [m]
  simp only [List.map, q, v, List.all_cons, List.all_nil, Bool.and_true]
  exact if_pos (by rw [c]; exact beq_iff_eq.2 (congrArg rootCheck i.symm))

theorem restoreApproved (e : Bytes) (l : e.length = 1192) (a : Approval) (h : approvalAt tAppr 0 = some a) :
    let s := sQ sBare 1 1 0x0803 ([1] ++ zeros 7 ++ e)
    approvalOk s 1 0x0803 (([1] ++ zeros 7 ++ e ++ tAppr).take 1200) a = true := by
  intro s
  have t : ([1] ++ zeros 7 ++ e ++ tAppr).take 1200 = [1] ++ zeros 7 ++ e := List.take_left' (by simp [zeros, l])
  have b : a = (approvalAt tAppr 0).get (by decide) := by simp [h]
  rw [t, b]
  have tm : tallySec sOn ≤ 2 ^ 40 := by decide
  have z : tallySec sOn = tallySec s := rfl
  have m : (domD s 1).threshold = 1 := rfl
  have y : (domD s 1).set = [tCust] := rfl
  exact approved _ _ _ _ _ _ rfl rfl rfl (z ▸ tm) (by rw [m]; decide) (by rw [y]; decide)

/-- A record of a custodian with keys that are allowed (R216, R217): the Ed25519 key has the seed 7. -/
def tPub : Bytes := be 32 0x3ee2a8a7283cb2fd728943daa127ef09e483071a8b4bc699ba4522f09b14cfde
def tCustRec : Bytes := be 1 1 ++ zeros 3 ++ tPub ++ be 1 9 ++ zeros 31 ++ zeros 1184
theorem custKeys : custKeysOk tCustRec = true := by decide +kernel
theorem custOk (s : State) (p : Bytes) (h : custPart p = [tCustRec]) : (custPart p).all custKeysOk = true := by
  rw [h]
  simp [custKeys]

/-- An `ALCOVE` value without steward keys (R521, R661). -/
def tAlc (a d : Nat) : Bytes :=
  be 2 a ++ be 2 d ++ be 6 (2 + a) ++ be 2 0 ++ be 2 4471 ++ be 1 1 ++ zeros 1 ++ be 4 (10 + a) ++ zeros 32 ++ be 2 100
    ++ be 2 20 ++ be 2 60 ++ be 1 32 ++ zeros 1 ++ be 4 262144 ++ be 2 1000 ++ zeros 2 ++ be 4 2097152 ++ zeros 8
/-- Units in service in the outer hall. -/
def tUnit : EngineUnit := { state := .inService, lost := false, leaving := false, joining := false, testAt := 0 }
def sUnits : State := { sUp with cipher := { cipherReset with pipes := tinit 8 (fun _ => tUnit) } }
/-- SHA-512 of no bytes. -/
def tEmpty : Bytes :=
  be 32 0xcf83e1357eefb8bdf1542850d66d8007d620e4050b5715dc83f4a921d36ce9ce ++
  be 32 0x47d0d13c5d85f2b0ff8318d2877eec2f63b931bd47417a81a538327af927da3e
/-- A configuration head of serial 1 with empty sections (R518). -/
def tHead : Bytes :=
  be 4 0x57434647 ++ [1, 8, 0, 0] ++ be 4 1 ++ be 2 0x0800 ++ zeros 18 ++ tKey
    ++ (List.range 8).flatMap (fun n => be 1 (n + 1) ++ zeros 15 ++ (if n = 0 then tEmpty else zeros 64)) ++ tSig

theorem keysTaken :
    let p := [1] ++ zeros 7 ++ [1, 0] ++ zeros 38
    keySetInput (sW sOn 1 0x070B p) 1 p = true := by decide +kernel

/-- The test device with the hash of its owner's key, the test key. -/
def sOwned : State := { sOn with otp := { sOn.otp with ownerHash := Config.sha512 tKey } }

theorem headOk : headSigned tHead tKey = true := by
  have e : slice tHead 704 64 = tSig := by decide
  rw [headSigned, e, signed]
theorem emptyBody : bodyMatches tHead 1 [] = true := by decide +kernel

theorem loads (s : State) (h : s.otp.ownerHash = Config.sha512 tKey) (i : imageInForce s = false)
    (e : s.tally.secDigest = zeros 64) : loadRefused s tHead [(1, [])] = none := by
  have o : headOwner tHead = tKey := by decide
  have a : ownerOk s tKey = true := by simp [ownerOk, h]
  have g : headHere s tHead = true := by
    rw [headHere]
    exact Bool.or_eq_true_iff.2 (.inl (by decide))
  have r : serialRises s tHead = true := by simp [serialRises, i]
  have u : unnamedOk s tHead [1] = true := by
    have d : dirDigest tHead 8 = zeros 64 := by decide
    simp [unnamedOk, i, e, d]
  have hr : headRefused s tHead [(1, [])] = none := by simp [headRefused, o, a, headOk, emptyBody, g, r, u]
  simp [loadRefused, hr, partnerDiffers, rootedSet, loadApart, loadQuotas]

/-- A microcode package without programs, whose digest is SHA3-512 of no bytes, and a device whose loader holds the test
key as its root. -/
def tMicro : Bytes :=
  tSig ++ (zeros 24 ++ tKey ++
    (be 32 0xa69f73cca23a9ac5c8b567dc185a756e97c982164fe25859e0d1dcc1475c80a6 ++
     be 32 0x15b2123af1f5f94c11e3e9402c3ac558f500199d95b6d3e301758586281dcd26) ++ tSig)
def sLoader : State := { sOn with boot := { sOn.boot with fwA := [(1, zeros 32 ++ tKey)] } }

theorem microcode (s : State) (h : loaderRoot s = tKey) : imageRefused s 4 tMicro = none := by
  have a : ucSigner (tMicro.drop 64) = tKey := by decide
  have b : (tMicro.drop 64).drop ((tMicro.drop 64).length - 64) = tSig := by decide
  have c : tMicro.take 64 = tSig := by decide
  have d : (Config.hash 4 (slice (tMicro.drop 64) (ucSetOff (tMicro.drop 64)) (ucSetLen (tMicro.drop 64)))
      == slice (tMicro.drop 64) 56 64) = true := by decide +kernel
  rw [imageRefused, if_pos rfl, h, ucSigned, a, b, c, d, signed, signed]
  rfl

/-- A Tally image without content. -/
def tTallyImage : Bytes := zeros 32 ++ tKey ++ tKey ++ tSig ++ tEmpty ++ tSig

theorem resealed (c : Config.tallyRootHash = Config.sha512 tKey) (s : State) (p : Bytes) (f : fld p 0 1 = 2)
    (i : resealImage p = tTallyImage) (n : sealCount s ≠ 64) (l : s.tally.logNewest < 16384) :
    resealRefused s p = none := by
  have a : bitOf 2 0 = false := by decide
  have b : bitOf 2 1 = true := by decide
  have t : tallyImageRefused tTallyImage = none := by
    have e : slice tTallyImage 32 32 = tKey := by decide
    have f : slice tTallyImage 64 32 = tKey := by decide
    have g : slice tTallyImage 96 64 = tSig := by decide
    have h : slice tTallyImage 224 64 = tSig := by decide
    have j : Config.sha512 (tTallyImage.drop 288) = slice tTallyImage 160 64 := by decide +kernel
    rw [tallyImageRefused, e, c, f, g, h, if_neg (by simp), if_pos ⟨signed _, signed _, j⟩]
  have m : ¬ 16384 ≤ s.tally.logNewest := by omega
  simp [resealRefused, f, i, a, b, t, n, m]

/-- A record of the Tally made just now. -/
def sRec : State :=
  { sOn with tally := { sOn.tally with
      records := [(0, { num := 0, time := 10 ^ 12, flags := 0, totals := [], bytes := [], signed := true })] } }

theorem written :
    let b := be 2 1 ++ zeros 2 ++ be 4 0x20008 ++ be 4 0 ++ be 4 0
    let s := endTicket (sQ sOn 0 0 0x0A11 b) 0 (zeros 16)
    writeList (writeEntries (b ++ tAppr)) 0 s = (none, (writeList (writeEntries (b ++ tAppr)) 0 s).2) := by
  intro b s
  refine Prod.ext ?_ rfl
  show (writeList _ 0 _).1 = none
  decide

/-- A certificate of a test name under another, and a chain of five that the test key signed. -/
def tName (n : Nat) : Bytes := certName (ascii "test") (be 1 n)
def tCert (n m : Nat) : Bytes :=
  certOf (derSeq [der 0xA0 (derNum 2), derNum 1, algEd, tName m, derSeq [derTime 0, derNever], tName n, spki tKey,
    der 0xA3 (derSeq (derRights (some 0) true))]) tSig
def tChain : List Bytes := [tCert 1 2, tCert 2 3, tCert 3 4, tCert 4 5, tCert 5 6]

def tSigned (c : Cert) : Bool := c.key == tKey && c.sig == tSig
theorem certSigned {c : Cert} (h : tSigned c = true) : certUnder tKey c = true := by
  have g : c.sig = tSig := by simpa using (Bool.and_eq_true_iff.1 h).2
  rw [certUnder, g, signed]

/-- Names that link, as in `certsLink`. -/
def tLinked : List Cert → Bool
  | a :: b :: l => a.issuer == b.subject && certIsCa b && tLinked (b :: l)
  | _ => true

theorem linked : ∀ l : List Cert, l.all tSigned = true → tLinked l = true → certsLink l = true
  | a :: b :: l, h, k => by
    simp only [List.all_cons, Bool.and_eq_true, tLinked] at h k
    have e : b.key = tKey := by simpa using (Bool.and_eq_true_iff.1 h.2.1).1
    have r := linked (b :: l) (by simp [h.2.1, h.2.2]) k.2
    rw [certsLink, e, certSigned h.1, k.1.1, k.1.2, r]
    rfl
  | [], _, _ => rfl
  | [_], _, _ => rfl

theorem chainHolds (l : List Bytes) (h : (readCerts l).any (fun cs => !cs.isEmpty && cs.all tSigned && tLinked cs) = true) :
    chainUnder tKey l = some tKey := by
  rw [chainUnder]
  cases hr : readCerts l with
  | none => simp [hr] at h
  | some cs =>
    simp only [hr, Option.any_some, Bool.and_eq_true] at h
    obtain ⟨⟨n, a⟩, k⟩ := h
    cases cs with
    | nil => cases n
    | cons c cs =>
      have e : c.key = tKey := by
        have t := List.all_eq_true.1 a c (by simp)
        simpa using (Bool.and_eq_true_iff.1 t).1
      have g : certUnder tKey ((c :: cs).getLast (by simp)) = true :=
        certSigned (List.all_eq_true.1 a _ (List.getLast_mem _))
      simp only [Option.bind_some, List.head?_cons, List.getLast?_eq_some_getLast (List.cons_ne_nil c cs), linked _ a k, g, e]
      rfl

theorem chainOk : chainUnder tKey tChain = some tKey := chainHolds _ (by decide +kernel)

/-- A statement, for a nonce of 32 bytes, of a partner on side 1 in service, to a device without an identity key (R263,
R546). -/
def tItemsLeft : Bytes :=
  (statementTags.drop 1).flatMap (fun e => be 2 e.1 ++ be 2 e.2
    ++ (if e.1 = 5 then be 1 4 ++ zeros 1 else if e.1 = 6 then be 1 1 ++ zeros 3 else if e.1 = 0xFF then tSig else zeros e.2))
def tStatementOf (x : Bytes) : Bytes := be 4 0x5753544D ++ [1, 0] ++ be 2 998 ++ (be 2 1 ++ be 2 32 ++ (x ++ tItemsLeft))

theorem statementItem_of (x : Bytes) (h : x.length = 32) (tag : Nat) :
    statementItem (tStatementOf x) tag
      = if tag = 1 then x else firstOf ((tlv 249 tItemsLeft).getD []) tag [] := by
  have l : (be 2 1 ++ be 2 32 ++ (x ++ tItemsLeft)).length = 998 := by
    have k : tItemsLeft.length = 962 := by decide
    simp [be, h, k]
  have d : (tStatementOf x).drop 8 = be 2 1 ++ be 2 32 ++ (x ++ tItemsLeft) := List.drop_left' rfl
  have e : ∀ n, tlv (n + 1) (be 2 1 ++ be 2 32 ++ (x ++ tItemsLeft)) = (tlv n tItemsLeft).map (fun r => (1, x) :: r) := by
    intro n
    have a : fld (be 2 1 ++ be 2 32 ++ (x ++ tItemsLeft)) 2 2 = 32 := rfl
    have b : fld (be 2 1 ++ be 2 32 ++ (x ++ tItemsLeft)) 0 2 = 1 := rfl
    have c : slice (be 2 1 ++ be 2 32 ++ (x ++ tItemsLeft)) 4 32 = x := by
      have y : (be 2 1 ++ be 2 32 ++ (x ++ tItemsLeft)).drop 4 = x ++ tItemsLeft := List.drop_left' rfl
      rw [slice, y, List.take_left' h]
    have f : (be 2 1 ++ be 2 32 ++ (x ++ tItemsLeft)).drop 36 = tItemsLeft := by
      rw [← List.append_assoc]
      exact List.drop_left' (by simp [be, h])
    have g : (be 2 1 ++ be 2 32 ++ (x ++ tItemsLeft)).isEmpty = false := rfl
    rw [tlv, g, if_neg (by decide), l, a, b, c, f]
    rfl
  have t : (tlv 249 tItemsLeft).isSome = true := by decide +kernel
  obtain ⟨r, hr⟩ := Option.isSome_iff_exists.1 t
  rw [statementItem, itemsOf, d, l, e 249, hr]
  by_cases k : tag = 1
  · simp [firstOf, tagged, k]
  · simp [firstOf, tagged, k, Ne.symm k]

def tNonce : Bytes := be 32 0x46b5c7ab8376d59434b0c308f02c6527d0dc84f5c294ffc770e5312d1abb8a67
def tStatement : Bytes := tStatementOf tNonce
theorem nonceOk : tNonce = (Config.sha512 (ascii "WTWN1" ++ deviceKeyId State.reset)).take 32 := by decide +kernel

def tPair : Bytes :=
  be 1 1 ++ zeros 3 ++ be 4 (tChain.flatMap (fun c => be 2 c.length ++ c)).length ++ tStatement ++ tChain.flatMap (fun c => be 2 c.length ++ c)
def sPartner : State := { sOn with twin := { twinReset with partnerId := some (zeros 16) } }

theorem statementHolds (st key : Bytes) (chain : List Bytes) (h : chainKey chain = some key) (l : chain.length = 5)
    (e : Config.edVerify key (ascii "WSTM1" ++ st.take 938) (statementItem st 0xFF) = true) : statementOk st chain = true := by
  rw [statementOk, h]
  simp [l, e]

theorem statementTrue (c : Config.deviceCa = tKey) (x : Bytes) (h : x.length = 32) :
    statementOk (tStatementOf x) tChain = true := by
  have e : statementItem (tStatementOf x) 0xFF = tSig := by
    rw [statementItem_of x h, if_neg (by decide)]
    decide +kernel
  exact statementHolds _ _ _ ((congrArg (chainUnder · tChain) c).trans chainOk) rfl (by rw [e, signed])

theorem pairs (c : Config.deviceCa = tKey) (s : State) (p : Bytes) (i : slice p 8 1006 = tStatement)
    (h : pairChain p = some tChain) (k : s.stair.idPub = []) (d : s.twin.side = 0)
    (q : s.twin.partnerId = some (zeros 16)) (u : s.twin.pair.paired = false) : pairRefused s p = none := by
  have a : statementItem tStatement 0x01 = tNonce := by decide +kernel
  have e : fld (statementItem tStatement 0x05) 0 1 = 4 := by decide +kernel
  have f : fld (statementItem tStatement 0x06) 0 1 = 1 := by decide +kernel
  have g : statementItem tStatement 0x02 = zeros 16 := by decide +kernel
  have o : statementOk tStatement tChain = true := statementTrue c _ rfl
  have y : deviceKeyId s = deviceKeyId State.reset := by
    have z : State.reset.stair.idPub = [] := rfl
    simp only [deviceKeyId, k, z]
  have n : (Config.sha512 (ascii "WTWN1" ++ deviceKeyId s)).take 32 = tNonce := by rw [y, ← nonceOk]
  have v : lifeCode Life.inService = 4 := rfl
  simp [pairRefused, i, h, o, a, e, f, g, d, q, u, n, v, sideOneHolds]

theorem opensKey (t : String) :
    ∃ e : Bytes, ∀ s : State, s.gallery.recvX = [] → s.gallery.recvK = [] → keyIn s t e = some (zeros 32) := by
  obtain ⟨e, _, _, o⟩ := opened t [] [] (zeros 48) rfl
  exact ⟨e, fun s h k => by rw [keyIn, h, k, o]; rfl⟩

/-- An envelope of an AES-256 secret with one face (R191). -/
def tSealed : Bytes :=
  be 4 0x57454E56 ++ [1, 1] ++ be 2 1 ++ be 2 256 ++ zeros 2 ++ be 4 32 ++ be 8 0xf9c050002d4de31a ++ zeros 16
    ++ be 1 0 ++ be 1 1 ++ zeros 2 ++ be 4 0 ++ be 4 1000 ++ be 8 (2 ^ 40) ++ zeros 4
    ++ be 32 0x549b3ea1ff35b896a5e6fea7d89e04aba150bca45ca9025d85cefd0e9bbdf027
    ++ be 16 0x51a61a76c50b504c892458b86305ace8
def tGrant : Bytes := be 1 4 ++ zeros 7 ++ be 4 1572864 ++ be 4 1 ++ be 4 1 ++ zeros 4 ++ tSealed
def sWorker : State := { sOn with gallery := { galleryReset with role := 1, member := some 1 } }
/-- A worker whose slot 1572864 holds a granted secret. -/
def sGranted : State :=
  { sWorker with keys := { sWorker.keys with
      secrets := [(1572864, { tSec 1 256 .encrypt with granted := true })], checks := [(1572864, 7)] } }

theorem envelopeOpens : openEnvelope (be 32 9) tSealed = some (zeros 32) := by decide +kernel

theorem unwraps (r : UnwrapReq) (h : r.mech = 0x50) (b : r.blob = tSealed) : unwrapped (be 32 9) r = some (zeros 32) := by
  rw [unwrapped, if_pos h, b, envelopeOpens]

theorem grantNames (s : State) (h : s.keys.domains = sOn.keys.domains) : grantDomain s tSealed = some 0 := by
  have k : wrapKid (be 32 9) = slice tSealed 16 8 := by decide +kernel
  have z : be 32 9 ≠ [] := by decide
  simp [grantDomain, h, sOn, tDom, k, z]

/-- A migration under a number, out of or into this device, at a phase. -/
def tMig (out : Bool) (phase : Nat) : Migration :=
  { number := 5, out := out, phase := phase, peer := 2, key := [], chunk := 0, pages := [], secs := [], map := [] }
def tMigrate (ph a : Nat) : Bytes := be 1 ph ++ zeros 1 ++ be 2 a ++ be 4 5 ++ be 1 2 ++ zeros 7
def sOut (ph : Nat) : State := modAlc sWorker 1 (fun x => { x with migration := some (tMig true ph) })
def sIn (m : Migration) : State := { sWorker with gallery := { sWorker.gallery with reserved := [(2, m)] } }
/-- A chunk without secrets (R579), sealed under the key and counter of the migration, and one page that holds the
alcove. -/
def tChunkHead (final : Nat) (pages : List Bytes) : Bytes :=
  be 4 0x574D4947 ++ be 4 5 ++ be 8 1 ++ be 2 pages.length ++ be 2 0 ++ be 2 final ++ zeros 2
def tChunkText (pages : List Bytes) : Bytes := pages.flatMap (fun p => zeros 8 ++ p)
def tChunk (final : Nat) (pages : List Bytes) : Bytes :=
  let ct := Config.gcmCrypt [] (zeros 4 ++ be 8 1) (tChunkText pages)
  tChunkHead final pages ++ (ct ++ Config.gcmTag [] (zeros 4 ++ be 8 1) (tChunkHead final pages) ct)
def tPage : Bytes := tAlc 2 1 ++ zeros 4016

theorem chunkOpens (m : Migration) (final : Nat) (pages : List Bytes) (n : m.number = 5) (k : m.chunk = 0) (q : m.key = [])
    (a : fld (tChunkHead final pages) 0 4 = 0x574D4947) (z : zeroAt (tChunkHead final pages) 22 2 = true)
    (f : fld (tChunkHead final pages) 20 2 < 2) (e : fld (tChunkHead final pages) 4 4 = 5)
    (g : fld (tChunkHead final pages) 8 8 = 1) (u : slice (tChunkHead final pages) 8 8 = be 8 1) :
    openChunk m (tChunk final pages) = .ok (fld (tChunkHead final pages) 16 2, fld (tChunkHead final pages) 18 2,
      fld (tChunkHead final pages) 20 2 == 1, tChunkText pages) := by
  have h : ¬ 2 ≤ fld (tChunkHead final pages) 20 2 := by omega
  have l : (tChunkHead final pages).length = 24 := by simp [tChunkHead, be, zeros]
  have t : (tChunk final pages).take 24 = tChunkHead final pages := List.take_left' l
  have d : (tChunk final pages).length = 24 + (tChunkText pages).length + 16 := by
    simp [tChunk, l, Nat.add_assoc]
  have c : ((tChunk final pages).drop 24).take (24 + (tChunkText pages).length + 16 - 40)
      = Config.gcmCrypt [] (zeros 4 ++ be 8 1) (tChunkText pages) := by
    rw [tChunk, List.drop_left' l]
    exact List.take_left' (by rw [Laws.gcmCrypt_length]; omega)
  have w : (tChunk final pages).drop (24 + (tChunkText pages).length + 16 - 16)
      = Config.gcmTag [] (zeros 4 ++ be 8 1) (tChunkHead final pages) (Config.gcmCrypt [] (zeros 4 ++ be 8 1) (tChunkText pages)) := by
    rw [tChunk, ← List.append_assoc]
    exact List.drop_left' (by simp [l])
  rw [openChunk]
  rw [t, d, c, w, q, u, a, z, e, g, n, k, if_neg (by simp [h]), if_neg (by simp), if_neg (by simp), Laws.gcmCrypt_twice]

theorem pagesTaken :
    takeChunk (sW (sIn (tMig false 1)) 0 0x0B04 (tMigrate 2 2 ++ tChunk 0 [])) 2 (tMig false 1)
        ((tMigrate 2 2 ++ tChunk 0 []).drop 16) false
      = .ok (sW (sIn (tMig false 1)) 0 0x0B04 (tMigrate 2 2 ++ tChunk 0 []), { tMig false 1 with chunk := 1 }, []) := by
  have e : (tMigrate 2 2 ++ tChunk 0 []).drop 16 = tChunk 0 [] := List.drop_left' rfl
  rw [e, takeChunk, chunkOpens _ _ _ rfl rfl rfl (by decide) (by decide) (by decide) (by decide) (by decide) (by decide)]
  rfl

theorem finalTaken :
    takeChunk (sW (sIn (tMig false 1)) 0 0x0B04 (tMigrate 3 2 ++ tChunk 1 [tPage])) 2 (tMig false 1)
        ((tMigrate 3 2 ++ tChunk 1 [tPage]).drop 16) true
      = .ok (sW (sIn (tMig false 1)) 0 0x0B04 (tMigrate 3 2 ++ tChunk 1 [tPage]),
          { tMig false 1 with chunk := 1, pages := [(0, tPage)] }, []) := by
  have e : (tMigrate 3 2 ++ tChunk 1 [tPage]).drop 16 = tChunk 1 [tPage] := List.drop_left' rfl
  rw [e, takeChunk, chunkOpens _ _ _ rfl rfl rfl (by decide) (by decide) (by decide) (by decide) (by decide) (by decide)]
  have n : fld (tChunkHead 1 [tPage]) 16 2 = 1 := by decide
  have m : fld (tChunkHead 1 [tPage]) 18 2 = 0 := by decide
  have f : (fld (tChunkHead 1 [tPage]) 20 2 == 1) = true := by decide
  have p : tChunkText [tPage] = zeros 8 ++ tPage := rfl
  have q : slice (zeros 8 ++ tPage) 8 4096 = tPage := by decide +kernel
  have r : fld (zeros 8 ++ tPage) 0 4 = 0 := by decide +kernel
  have l : (zeros 8 ++ tPage).drop 4104 = [] := by decide +kernel
  simp [n, m, f, p, takeSecrets, q, r, l, tMig, tput, List.range, List.range.loop]

/-! ### Engines -/

/-- The key store with one waiting mutation of domain 1, the destruction of the secret at slot 5. -/
def tMut : Mutation :=
  { body := .destroySecret 5, work := none, gen := 0, alcove := 1, quorum := none, epoch := 3, size := 96, side := 0, resp := []
    sent := false, placed := none }
def sMut : State := setDom (sK (tSec 1 256 .encrypt)) 1 (fun x => { x with pending := [tMut] })
def tOp (w : Wing) : UnitOp :=
  { work := 0, alcove := 1, gen := 0, wing := w, unit := 0, pins := [], stream := none, ctx := none, offset := 0, result := tRes
    at_ := 0, serial := false }
def sOp (w : Wing) : State := { sOn with cipher := { cipherReset with ops := [(0, tOp w)] } }
/-- Core 47 with a job, and a job on its way to it. -/
def tJob : Job :=
  { work := 0, alcove := 1, gen := 0, pins := [], prog := 0x38, long := false, deadline := 0, order := 0, bay := none
    width := 1, half := false, waiting := false, rerun := false, abort := false, stair := false, iters := 0, ran := 0
    since := none, om := [], result := tRes }
def sCore (c : PkCore) : State := { sOn with pk := { pkReset with cores := [(47, c)], jobs := [(0, tJob)] } }
def tCore : PkCore := { pkCoreReset with state := .inService, busy := true, job := some 0 }
def sTest : State := { sOn with cipher := { cipherReset with pipes := tinit 8 (fun _ => { tUnit with state := .testing }) } }
/-- A block of samples that alternate. -/
def tBlock : BitVec 1024 := BitVec.ofNat 1024 ((2 ^ 1024 - 1) / 3)
/-- A Stair at landing 4 whose running vector is of zeros. -/
def sStair (n : Nat) : State :=
  { sOn with stair := { stairReset with pufOk := true, ready := true, landing := n } }
/-- Core 47 out of service in the inner hall. -/
def sOut47 : State :=
  { sOn with
    pk := { pkReset with cores := [(47, { pkCoreReset with state := .out })] }
    halls := { hallsReset with blocks := [(9, { blockReset 9 with owner := .inner })] } }
/-- A digest unit with an open operation of 8 bytes. -/
def sDigest (st : DuState) : State := { sOn with digest := { digestReset with state := st, opLen := 8 } }
/-- The Logic watermark and block 0 on the move. -/
def sMoving : State :=
  { sOn with halls := { hallsReset with
      logic := { target := 0x200, cur := 0x1C0, busy := true }, mezz := { target := 0x159, cur := 0x158, busy := true } } }
def sHand (n : Nat) (st : HandState) (d : Hall) : State :=
  { sOn with halls := { hallsReset with blocks := [(n, { blockReset n with state := st, dest := d })] } }

/-! ### Tamper, tests and starts -/

/-- A start of a `VENDOR` device that waits for its certificates, whose root key is the test key. -/
def sPause : State :=
  { sOn with stair := { stairReset with pufOk := true, paused := true }, otp := { otpReset with rootHash := Config.sha512 tKey }
             life := { lifeReset with life := .vendor, challenge := some (zeros 32) } }
/-- A vendor authorisation of 60 s with no enable, and for the challenge of zeros. -/
def tAuth : Bytes := be 4 0x57564155 ++ [1, 1, 0, 0] ++ be 4 60 ++ zeros 84 ++ tKey ++ tKey ++ tSig ++ tSig

theorem rootKnown (s : State) (h : s.otp.rootHash = Config.sha512 tKey) : rootKeyOk s tKey = true := by
  have z : allZero (Config.sha512 tKey) = false := by decide +kernel
  simp [rootKeyOk, h, z]

theorem authorised :
    authCheck (modLife (tapSelect sPause 0x41) (fun l => { l with challenge := none })) tAuth (some (zeros 32)) = 0 := by
  have a : slice tAuth 96 32 = tKey := by decide
  have b : slice tAuth 128 32 = tKey := by decide
  have c : slice tAuth 160 64 = tSig := by decide
  have d : slice tAuth 224 64 = tSig := by decide
  simp only [authCheck, a, b, c, d, signed]
  rw [rootKnown _ rfl, if_neg (by decide), if_neg (by decide), if_neg (by decide), if_neg (by decide), if_neg (by decide),
    if_pos (by decide), if_pos (by decide)]

/-- The items of R246: the root key, a certificate of the authority, and the identity certificate that it issues. -/
def tIdTbs : Bytes :=
  certTbs (tName 1) (derTime 0) (subjectName ((Config.sha512 tKey).take 16) 1 0) tKey tKey (derRights (some 4) false) []
def tPerso : Bytes :=
  tKey ++ be 2 (tCert 1 1).length ++ tCert 1 1 ++ be 2 (certOf tIdTbs tSig).length ++ certOf tIdTbs tSig
def sPerso : State := { sPause with stair := { sPause.stair with idPub := tKey } }

/-- The same with every public-key core retired. -/
def sRetired : State :=
  { sPerso with boot := { sPerso.boot with attempt := { sPerso.boot.attempt with retired := BitVec.allOnes 128 } } }

theorem persoHolds (s : State) (b : Bytes) (l : b.length ≤ 2048) (k : (persoItems b).1 = tKey) (r : rootKeyOk s tKey = true)
    (h : (readCert (persoItems b).2.1).any (fun a => tSigned a && (readCert (persoItems b).2.2).any (fun c =>
      tSigned c && identityCert c s.stair.idPub a)) = true) : persoOk s b = true := by
  rw [persoOk, k, r]
  cases ha : readCert (persoItems b).2.1 with
  | none => simp [ha] at h
  | some a =>
    cases hc : readCert (persoItems b).2.2 with
    | none => simp [ha, hc] at h
    | some c =>
      simp only [ha, hc, Option.any_some, Bool.and_eq_true] at h
      have e : a.key = tKey := by simpa using (Bool.and_eq_true_iff.1 h.1).1
      simp [l, e, certSigned h.1, certSigned h.2.1, h.2.2]

theorem persoTaken : persoOk (tapSelect sPerso 0x44) tPerso = true :=
  persoHolds _ _ (by decide +kernel) (by decide +kernel) (rootKnown _ rfl) (by decide +kernel)

/-! ### Twin and clients -/

/-- Twins joined over a link that is up; side 0. -/
def sTwin : State :=
  { sOn with
    twin := { twinReset with pair := { twinReset.pair with paired := true, identity := zeros 32 }, state := .joined, link := 3 }
    gallery := { galleryReset with clients := [(128, 1)], hellos := [(128, [1])] } }
def modTw (f : Twin → Twin) : State := { sTwin with twin := f sTwin.twin }
/-- A record of the partner. -/
def tRec (b : MutBody) (k : MutKind) : JournalRec :=
  { seq := 1, domain := 1, kind := k, side := 1, origin := none, body := b }
def tAlcRec (a : Nat) : AlcoveRecord := { set := tSet a 1, gen := 0, slices := [], qps := [] }
/-- A frame of the link on channel 0, with the tag that verifies. -/
def tFrame (n : Nat) : IbFrame :=
  let f : IbFrame := { channel := 0, kind := 0, len := 0, seq := n, msgNum := 0, msgOff := 0, msgLen := 0, last := true
                       payload := [], credits := [0, 0, 0], ackSeq := 0, tag := [] }
  { f with tag := ibTag [] [] f }
theorem tagFails (f : IbFrame) : ibTag [] [] f ≠ [] := by
  intro h
  have l := congrArg List.length h
  simp [ibTag, Config.gcmTag, Config.fixLen] at l
/-- A link that is down between paired devices. -/
def sDown : State := modTw (fun t => { t with link := 1 })

/-- The partner's half of the handshake: its statement names the transcript, and the chain of its alcove 0. -/
def tHalf : IbPeer :=
  { nonce := zeros 16, x25519 := zeros 32, kem := zeros 1088, alcoveKey := tKey, statement := [], chain := tCert 0 1 :: tChain }
def tPeer (s : State) (rnd : Bytes) : IbPeer :=
  { tHalf with statement := tStatementOf ((ibHalf s tHalf rnd).2.2.2.2.take 32) }

theorem peerHolds (c : Config.deviceCa = tKey) (u : State) (y th : Bytes) (l : y.length = 32) (t : th.take 32 = y)
    (i : u.twin.pair.identity = zeros 32) (d : u.twin.side = 0) :
    ibPeerOk u { tHalf with statement := tStatementOf y } th = true := by
  have e : firstOf ((tlv 249 tItemsLeft).getD []) 0x03 [] = zeros 32 := by decide +kernel
  have f : fld (firstOf ((tlv 249 tItemsLeft).getD []) 0x06 []) 0 1 = 1 := by decide +kernel
  have o := statementTrue c y l
  have k : chainKey (tCert 0 1 :: tChain) = some tKey :=
    (congrArg (chainUnder · (tCert 0 1 :: tChain)) c).trans (chainHolds _ (by decide +kernel))
  simp only [ibPeerOk, tHalf, k, i, d, t, statementItem_of y l, List.drop_one, List.tail_cons, o]
  simp [e, f]

theorem peerProves (c : Config.deviceCa = tKey) (s u : State) (rnd : Bytes) (i : u.twin.pair.identity = zeros 32)
    (d : u.twin.side = 0) : ibPeerOk u (tPeer s rnd) (ibHalf s (tPeer s rnd) rnd).2.2.2.2 = true :=
  peerHolds c u _ _ (by simp [ibHalf]) rfl i d

/-- A `REPLY` of a manager whose chain is its identity certificate alone (R58, R59, R570). -/
def tReply : Bytes := zeros 1156 ++ be 2 (tCert 5 6).length ++ (tCert 5 6 ++ tSig)
/-- A worker side with a `HELLO` out and the manager's identity as its authority. -/
def sProbe : State :=
  { sWorker with
    gallery := { sWorker.gallery with hellos := [(5, [1]), (255, [1])], clients := [(5, 0)] }
    boot := { sOn.boot with authority := some ((Config.sha512 tKey).take 16) } }
theorem replyIdentity : chainIdentity (splitCerts (replyCerts tReply)) = some tKey := by decide +kernel
theorem proves (c : Config.deviceCa = tKey) : replyProves [1] tReply tKey = true := by
  have l : tReply.length = 1222 + fld tReply 1156 2 := by decide +kernel
  have k : chainUnder tKey (splitCerts (replyCerts tReply)) = some tKey := chainHolds _ (by decide +kernel)
  have g : tReply.drop (tReply.length - 64) = tSig := by decide +kernel
  rw [replyProves, chainKey, c, k, replySigned, g, signed, ← l]
  simp
theorem clientProves (c : Config.deviceCa = tKey) : clientKeyOk sProbe 5 tReply = true := by
  have h : tget sProbe.gallery.hellos 5 = some [1] := rfl
  have k : chainUnder tKey (splitCerts (replyCerts tReply)) = some tKey := chainHolds _ (by decide +kernel)
  simp only [clientKeyOk, h, chainKey, c, k, proves c]
  decide

/-! ### A witness for each case of each statement -/

/-- States and operands that meet the hypotheses of `Obligations.StepRunsFrontCommand`. -/
theorem witness_StepRunsFrontCommand :
    ∃ c : Instr, ∃ r : List Instr, ∃ s : State, s.pending = c :: r :=
  ⟨.moduleAlarm 0 .temperature, [], { State.reset with pending := [.moduleAlarm 0 .temperature] }, rfl⟩


/-- States and operands that meet the hypotheses of `Obligations.IdleStepsCountTime`. -/
theorem witness_IdleStepsCountTime :
    ∃ s : State, s.pending = [] :=
  ⟨State.reset, rfl⟩


/-- States and operands that meet the hypotheses of `Obligations.StepsTakeTheQueueInOrder`. -/
theorem witness_StepsTakeTheQueueInOrder :
    ∃ s t : State, step s = .next t :=
  ⟨{ State.reset with pending := [.moduleAlarm 0 .temperature] }, _, rfl⟩


/-- States and operands that meet the hypotheses of `Obligations.MemoriesStayCanonical`. -/
theorem witness_MemoriesStayCanonical :
    ∃ s t : State, memWf s = true ∧ step s = .next t :=
  ⟨{ State.reset with pending := [.moduleAlarm 0 .temperature] }, _, by decide, rfl⟩


/-- States and operands that meet the hypotheses of `Obligations.NoStepClearsAnOtpBit`. -/
theorem witness_NoStepClearsAnOtpBit :
    ∃ s t : State, otpShape s.otp = true ∧ step s = .next t :=
  ⟨{ State.reset with pending := [.moduleAlarm 0 .temperature] }, _, by decide, rfl⟩


/-- States and operands that meet the hypotheses of `Obligations.FaultPinFollowsTheServiceState`. -/
theorem witness_FaultPinFollowsTheServiceState :
    ∃ s t : State, faultFollows s = true ∧ step s = .next t :=
  ⟨{ State.reset with pending := [.moduleAlarm 0 .temperature] }, _, by decide, rfl⟩


/-- States and operands that meet the hypotheses of `Obligations.OnlyTransitionsChangeTheLifeCycleState`. -/
theorem witness_OnlyTransitionsChangeTheLifeCycleState :
    ∃ c : Instr, ∃ s t : State, mayChangeLife c = false ∧ exec c s = .next t :=
  ⟨.moduleAlarm 0 .temperature, State.reset, _, by decide, rfl⟩


/-- States and operands that meet the hypotheses of `Obligations.OnlyTheBurningCommandsWriteOtp`. -/
theorem witness_OnlyTheBurningCommandsWriteOtp :
    ∃ c : Instr, ∃ s t : State, mayBurn c = false ∧ exec c s = .next t :=
  ⟨.moduleAlarm 0 .temperature, State.reset, _, by decide, rfl⟩


/-- States and operands that meet the hypotheses of `Obligations.OnlyStoresAndErasuresChangeMemory`. -/
theorem witness_OnlyStoresAndErasuresChangeMemory :
    ∃ c : Instr, ∃ s t : State, ∃ sp : Space, ∃ a : Nat, mayChangeMemory c = false ∧ exec c s = .next t :=
  ⟨.moduleAlarm 0 .temperature, State.reset, _, .logic, 0, by decide, rfl⟩


/-- States and operands that meet each case of `Obligations.ResetIsWellFormed`. -/
theorem witness_ResetIsWellFormed :
    (∃ n, n ≤ 63) ∧
    (∃ n, 64 ≤ n) := by
  refine ⟨?_, ?_⟩
  · exact ⟨63, by decide⟩
  · exact ⟨64, by decide⟩


/-- States and operands that meet each case of `Obligations.WindowsLieWhereTheTableSays`. -/
theorem witness_WindowsLieWhereTheTableSays :
    (∃ s : State, ∃ m a : Nat, ∃ v : Word, windowOf a = none) ∧
    (∃ s : State, ∃ m a off : Nat, ∃ w : Win, ∃ v : Word, windowOf a = some (w, off) ∧ readRaw s w off = none) ∧
    (∃ s : State, ∃ m a off : Nat, ∃ w : Win, ∃ v : Word, windowOf a = some (w, off) ∧
      writeRegPair s m w off v = none ∧ writeRaw s m w off v = none) ∧
    (∃ s : State, ∃ a : Nat, a < 0x10000) ∧
    (∃ (s : State) (m : Nat) (h : Hall) (a : Nat) (v : Word), masterHall s m = some h ∧ m ≠ 0x70 ∧ a < 0x10000) := by
  refine ⟨?_, ?_, ?_, ?_, ?_⟩
  · exact ⟨sOn, 0, 0x80000 + 4 * 0x800, 0, rfl⟩
  · exact ⟨sOn, 0, 0x1FFFC, 0xFFFC, .lc, 0, rfl, rfl⟩
  · exact ⟨sOn, 0, 0x1FFFC, 0xFFFC, .lc, 0, rfl, rfl, rfl⟩
  · exact ⟨sOn, 0xFFFC, by decide⟩
  · exact ⟨sOn, 0, .inner, 0xFFFC, 0, rfl, by decide, by decide⟩


/-- States and operands that meet each case of `Obligations.CopiesDecodeAndVote`. -/
theorem witness_CopiesDecodeAndVote :
    (∃ w : Word, ∃ c : Nat, highestGroup w c ∧ (∃ g h, c < g ∧ g < h ∧ h ≤ 6 ∧ groupAny w g = true ∧
      groupAny w h = true)) ∧
    (∃ w : Word, ∃ c : Nat, highestGroup w c) := by
  refine ⟨?_, ?_⟩
  · exact ⟨lifePattern 1 + 0x300000#32 + 0x1000000#32, 1, ⟨by decide, by decide, fun g h i => by have : g = 2 ∨ g = 3 ∨ g = 4 ∨ g = 5 ∨ g = 6 := (by omega); rcases this with rfl | rfl | rfl | rfl | rfl <;> decide⟩, ⟨5, 6, by decide⟩⟩
  · exact ⟨lifePattern 6, 6, ⟨by decide, by decide, fun g h i => by omega⟩⟩


/-- States and operands that meet each case of `Obligations.PairReadsReturnTheCapture`. -/
theorem witness_PairReadsReturnTheCapture :
    (∃ s t u : State, ∃ m a off h : Nat, ∃ w : Win, ∃ v : Word, windowOf a = some (w, off) ∧
      admits s m w off false = true ∧ pairHi w off = some h ∧ readRaw s w off = some v ∧ t = regGet s m a) ∧
    (∃ s t u : State, ∃ m a off h : Nat, ∃ w : Win, ∃ v : Word, ∃ n, windowOf a = some (w, off) ∧
      admits s m w off false = true ∧ pairHi w off = some h ∧ readRaw s w off = some v ∧ t = regGet s m a ∧ n ≠ m) ∧
    (∃ s t u : State, ∃ m a off h : Nat, ∃ w : Win, ∃ v : Word, windowOf a = some (w, off) ∧
      admits s m w off false = true ∧ pairHi w off = some h ∧ readRaw s w off = some v ∧ t = regGet s m a ∧
      capturedOf u m (a + 4) = capturedOf t m (a + 4) ∧ admits u m w h false = true ∧ (readRaw u w h).isSome = true) ∧
    (∃ s : State, ∃ m a h : Nat, ∃ w : Win, ∃ v : Word, windowOf a = some (w, h) ∧ isHi w h = true ∧
      admits s m w h false = true ∧ readRaw s w h = some v ∧ capturedOf s m a = none) := by
  refine ⟨?_, ?_, ?_, ?_⟩
  · exact ⟨sOn, _, sOn, 0, 0x20000, 0x0, 4, .fc, _, rfl, by decide, rfl, rfl, rfl⟩
  · exact ⟨sOn, _, sOn, 0, 0x20000, 0x0, 4, .fc, _, 1, rfl, by decide, rfl, rfl, rfl, by decide⟩
  · exact ⟨sOn, regGet sOn 0 0x20000, regGet sOn 0 0x20000, 0, 0x20000, 0x0, 4, .fc, _, rfl, by decide, rfl, rfl, rfl,
    rfl, by decide, by decide⟩
  · exact ⟨sOn, 0, 0x20004, 4, .fc, _, rfl, by decide, by decide, rfl, rfl⟩


/-- States and operands that meet the hypotheses of `Obligations.StoresChangeOnlyTheirBytes`. -/
theorem witness_StoresChangeOnlyTheirBytes :
    ∃ s : State, ∃ t : Txn, ∃ h : Hall, memWf s = true ∧ txnHall s t = some h ∧ txnOk t = true ∧ (∀ c,
      coreOf t.master = some c → coreTxnOk t = true ∧ mpuCheck s c t = none) ∧ t.space ≠ .regs ∧
      t.addr + t.len ≤ spaceSize t.space ∧ closed s t.space t.addr = false ∧
      memAdmits s t.space h t.master t.addr (t.access == .write) = true ∧ (t.space = .logic →
      enclAdmits s t = true) :=
  ⟨State.reset,
    { master := 0x34, space := .mezz, access := .write, addr := 0x1FFFFFFC, len := 4, data := [1, 2, 3, 4], user := false, mirrored := false, from_ := 0 },
    .outer, by decide, rfl, by decide,
    (fun c h => by simp [coreOf] at h), by decide, by decide, by decide, by decide, (fun h => by cases h)⟩


/-- States and operands that meet each case of `Obligations.SessionsRun`. -/
theorem witness_SessionsRun :
    (∃ s : State, ∃ d : Datagram, ∃ a : Nat, ∃ y : Alcove, ∃ x : Session, frameAccepted s d 6 a y x) ∧
    (∃ s u : State, ∃ d : Datagram, ∃ a : Nat, ∃ y : Alcove, ∃ x z : Session, ∃ m : Assembly, u = regionFills s d ∧
      frameAccepted u d 1 a y x ∧ sess (frameTaken u d a x) a d.hdr.session = some z ∧ z.base ≤ d.hdr.seq ∧
      d.hdr.seq ≤ z.base + 4095 ∧ tget z.entries d.hdr.seq = some (.assembling m) ∧
      segDup m d.hdr.segOff d.data.length = false ∧
      shareHolds (putSess (frameTaken u d a x) a d.hdr.session z) a d.data.length = true ∧
      segRefused m d.hdr d.data.length = none ∧
      (segBytes (segAdd m d.hdr d.data) ≠ d.hdr.declLen ∨ (segAdd m d.hdr d.data).lastEnd = none)) ∧
    (∃ s : State, ∃ d : Datagram, ∃ a : Nat, ∃ y : Alcove, ∃ x : Session, frameAccepted s d 0x15 a y x) ∧
    (∃ s : State, ∃ a i n : Nat, ∃ x : Session, ∃ y : Alcove, ∃ m : Assembly, sess s a i = some x ∧ alc s a = some y ∧
      tget x.entries n = some (.assembling m) ∧ m.start + y.set.assemblyUs * 1000 ≤ s.time) ∧
    (∃ s : State, ∃ a i : Nat, ∃ x : Session, waitOver s a i = none ∧ sess s a i = some x ∧ x.open_ = false ∧
      x.reply.isEmpty = false ∧ x.replyAt + 10 ^ 8 ≤ s.time) ∧
    (∃ s : State, ∃ a i : Nat, ∃ x : Session, ∃ y : Alcove, sess s a i = some x ∧ alc s a = some y ∧ x.open_ = true ∧
      x.lastAuth + y.set.idleS * 10 ^ 9 ≤ s.time) ∧
    (∃ s : State, ∃ d : Datagram, ∃ a : Nat, ∃ y : Alcove, d.hdr.type = 0x10 ∧ reachesAlcove s d a y ∧
      helloRefused (received s d) a d = none) ∧
    (∃ s t : State, ∃ k : Work, ∃ i l : Nat, ∃ p : Bytes, ∃ x : Session, ∃ y : Alcove, alc s k.alcove = some y ∧
      y.gen = k.gen ∧ sess s k.alcove i = some x ∧ x.sid = k.sid ∧ i < 16 ∧ sendLink s k.sublink = some l ∧
      t = modSess s k.alcove i (fun x => { x with reply := p, replyAt := s.time })) ∧
    (∃ s : State, ∃ d : Datagram, ∃ a : Nat, ∃ y : Alcove, ∃ x : Session, ∃ k : Bytes × Role, d.hdr.type = 0x12 ∧
      reachesAlcove s d a y ∧ d.data ≠ [] ∧ fld d.data 0 1 ≠ 0xFF ∧ sess s a (fld d.data 0 1) = some x ∧
      x.open_ = false ∧ x.reply.isEmpty = false ∧ finishCheck (received s d) y x d.data = .ok k) := by
  refine ⟨?_, ?_, ?_, ?_, ?_, ?_, ?_, ?_, ?_⟩
  · exact ⟨sOn, tData (tHdr 6 0 0 0 0) [], 1, _, _, ⟨rfl, ⟨rfl, rfl, by decide, rfl, rfl, rfl, rfl, rfl,
    framed _ _ (by decide)⟩, rfl, rfl, rfl, rfl, by decide, by decide⟩⟩
  · exact ⟨sAsm, sAsm, tData (tHdr 1 1 0 128 0x0101) (zeros 64), 1, _, _, _, newAssembly 0 (tHdr 1 1 0 128 0x0101),
    regionFills_calm _ _ rfl (by decide) rfl, ⟨rfl, ⟨rfl, rfl, by decide, rfl, rfl, rfl, rfl, rfl,
    framed _ _ (by decide)⟩, rfl, rfl, rfl, rfl, by decide, by decide⟩, rfl, by decide, by decide, rfl, by decide,
    by decide, rfl, by decide⟩
  · exact ⟨sOn, tData (tHdr 0x15 0 0 0 0) [], 1, _, _, ⟨rfl, ⟨rfl, rfl, by decide, rfl, rfl, rfl, rfl, rfl,
    framed _ _ (by decide)⟩, rfl, rfl, rfl, rfl, by decide, by decide⟩⟩
  · exact ⟨sAsm, 1, 0, 0, _, _, newAssembly 0 (tHdr 1 1 0 128 0x0101), rfl, rfl, rfl, by decide⟩
  · exact ⟨putSess sOn 1 0 { tSess with open_ := false }, 1, 0, _, rfl, rfl, by decide, by decide, by decide⟩
  · exact ⟨sOn, 1, 0, _, _, rfl, rfl, by decide, by decide⟩
  · exact ⟨sUp, tHello, 1, _, rfl, ⟨rfl, rfl, by decide, rfl, rfl, rfl, rfl, rfl, framed _ _ (by decide)⟩,
    by decide +kernel⟩
  · exact ⟨sOn, _, tWork 1 0 [], 0, 0, [1], _, _, rfl, rfl, rfl, rfl, by decide, rfl, rfl⟩
  · exact ⟨sHalf, tData (tHdr 0x12 3 0 68 0) (zeros 4 ++ tSig), 1, _, _, (tKey, .steward), rfl, ⟨rfl, rfl, by decide,
    rfl, rfl, rfl, rfl, rfl, framed _ _ (by decide)⟩, by decide, by decide, rfl, by decide, by decide,
    finishes _ _ rfl rfl⟩


/-- States and operands that meet each case of `Obligations.StreamsAndQueuePairsRun`. -/
theorem witness_StreamsAndQueuePairsRun :
    (∃ s u : State, ∃ d : Datagram, ∃ a : Nat, ∃ y : Alcove, ∃ x z : Session, ∃ v : Slice, ∃ r : StreamReq,
      u = regionFills s d ∧ frameAccepted u d 3 a y x ∧ sess (frameTaken u d a x) a d.hdr.session = some z ∧
      streamOk d = true ∧ tget (frameTaken u d a x).net.slices (sliceKey a d.hdr.seq) = some v ∧ v.suspended = false ∧
      streamReq (frameTaken u d a x) a v d.data = some r ∧
      streamRefused (frameTaken u d a x) a d.data.length v r = none) ∧
    (∃ s : State, ∃ n q addr : Nat, ∃ c : Completion, ∃ x : Slice, ∃ y : Qp, tget s.net.comps n = some c ∧
      c.stream.isSome = true ∧ streamEarlier s c = false ∧ tagCurrent s c = true ∧ placement s c = some (x, q, addr) ∧
      qpAt s q = some y ∧ y.state = .connected ∧ y.frozen = false) ∧
    (∃ s : State, ∃ n l : Nat, ∃ c : Completion, tget s.net.comps n = some c ∧ c.stream.isSome = true ∧
      streamEarlier s c = false ∧ tagCurrent s c = true ∧ placement s c = none ∧ sendLink s c.sublink = some l ∧
      heldPrio s l c.prio = false) ∧
    (∃ s : State, ∃ q psn : Nat, ∃ x : Qp, ∃ r : List RdmaPacket, qpAt s q = some x ∧
      afterPsn psn x.pending = some r) ∧
    (∃ s : State, ∃ q : Nat, ∃ x : Qp, qpAt s q = some x ∧ x.state = .connected ∧ x.pending ≠ [] ∧ x.frozen = false) ∧
    (∃ s : State, ∃ q : Nat, ∃ x : Qp, qpAt s q = some x ∧ x.state = .connected ∧ x.pending ≠ [] ∧
      x.sentAt + 4096 * 2 ^ x.timeout ≤ s.time) ∧
    (∃ s : State, ∃ q : Nat, ∃ x : Qp, qpAt s q = some x ∧ x.lastCut + 50000 ≤ s.time) ∧
    (∃ s : State, ∃ q : Nat, ∃ x : Qp, qpAt s q = some x ∧ x.lastStep + 55000 ≤ s.time) ∧
    (∃ s : State, ∃ q : Nat, q < 4096) := by
  refine ⟨?_, ?_, ?_, ?_, ?_, ?_, ?_, ?_, ?_⟩
  · exact ⟨sSlices, sSlices, tData (tHdr 3 3 5 16 0) (zeros 16), 1, _, _, _, tSlice, _,
    regionFills_calm _ _ rfl (by decide) rfl, ⟨rfl, ⟨rfl, rfl, by decide, rfl, rfl, rfl, rfl, rfl,
    framed _ _ (by decide)⟩, rfl, rfl, rfl, rfl, by decide, by decide⟩, rfl, by decide, rfl, by decide,
    some_of (by decide), by decide⟩
  · exact ⟨sResult 6, 0, 3, 4096, _, _, _, rfl, by decide, by decide, by decide, rfl, rfl, rfl, by decide⟩
  · exact ⟨sResult 5, 0, 0, _, rfl, by decide, by decide, by decide, rfl, rfl, by decide⟩
  · exact ⟨sSlices, 3, 6, _, _, rfl, rfl⟩
  · exact ⟨sSlices, 3, _, rfl, rfl, by decide, by decide⟩
  · exact ⟨sSlices, 3, _, rfl, rfl, by decide, by decide⟩
  · exact ⟨sSlices, 3, _, rfl, by decide⟩
  · exact ⟨sSlices, 3, _, rfl, by decide⟩
  · exact ⟨sSlices, 4095, by decide⟩


/-- States and operands that meet each case of `Obligations.CompletionsEventsAndResetsEnd`. -/
theorem witness_CompletionsEventsAndResetsEnd :
    (∃ s : State, ∃ n l : Nat, ∃ c : Completion, tget s.net.comps n = some c ∧ c.stream = none ∧
      tagCurrent s c = true ∧ (compSession s c).isSome = true ∧ sendLink s c.sublink = some l ∧
      heldPrio s l c.prio = false) ∧
    (∃ s : State, ∃ a t : Nat, ∃ x : Alcove, alc s a = some x ∧ x.modStart = some t ∧
      t + x.set.modUs * 1000 ≤ s.time) ∧
    (∃ s : State, ∃ a : Nat, ∃ x : Alcove, alc s a = some x ∧ x.resetting = true ∧ oldWork s a x = false ∧
      qpsQuiet s a = true) := by
  refine ⟨?_, ?_, ?_⟩
  · exact ⟨{ sOn with net := { sOn.net with comps := [(0, tDone)] } }, 0, 0, _, rfl, rfl, by decide, by decide, rfl,
    by decide⟩
  · exact ⟨modAlc sOn 1 (fun x => { x with modStart := some 0 }), 1, 0, _, rfl, rfl, by decide⟩
  · exact ⟨modAlc sOn 1 (fun x => { x with resetting := true }), 1, _, rfl, by decide, by decide, by decide⟩


/-- States and operands that meet each case of `Obligations.PortsAndTimeRun`. -/
theorem witness_PortsAndTimeRun :
    (∃ s t : State, ∃ d : Datagram, ∃ p : Nat, d.prio < 8 ∧ d.sublink < 8 ∧ p = portNo d.sublink ∧
      t = regionFills s d) ∧
    (∃ s t : State, ∃ d : Datagram, ∃ p : Nat, d.prio < 8 ∧ d.sublink < 8 ∧ p = portNo d.sublink ∧
      t = regionFills s d ∧ regionShare (portOf s p) - d.held < 160 * 1024 ∧
      (portOf s p).pauseSent.contains d.prio = false) ∧
    (∃ s t : State, ∃ d : Datagram, ∃ p : Nat, d.prio < 8 ∧ d.sublink < 8 ∧ p = portNo d.sublink ∧
      t = regionFills s d ∧ 288 * 1024 < regionShare (portOf s p) - d.held ∧
      (portOf s p).pauseSent.contains d.prio = true) ∧
    (∃ s t : State, ∃ d : Datagram, ∃ p : Nat, d.prio < 8 ∧ d.sublink < 8 ∧ p = portNo d.sublink ∧
      t = regionFills s d ∧ 160 * 1024 ≤ regionShare (portOf s p) - d.held ∧
      regionShare (portOf s p) - d.held ≤ 288 * 1024) ∧
    (∃ s : State, ∃ p k n : Nat, p < 2 ∧ k < 8 ∧ n ≠ 0) ∧
    (∃ s : State, ∃ p k n : Nat, p < 2 ∧ tget (portOf s p).paused k = some n ∧ n ≤ s.time) ∧
    (∃ s : State, ∃ l : Nat, l < 8) ∧
    (∃ s : State, ∃ l : Nat, l < 8 ∧ (portOf s (portNo l)).moduleUp = true ∧ (portOf s (portNo l)).pllOk = true ∧
      l % 4 < subLinks (portOf s (portNo l))) ∧
    (∃ s : State, ∃ p : Nat, ∃ f : ModuleFlag, p < 2 ∧ (portOf s p).present = true) ∧
    (∃ s : State, ∃ p : Nat, p < 2 ∧ (portOf s p).present = true) ∧
    (∃ s : State, ∃ p : Nat, p < 2 ∧ (portOf s p).present = false ∧ 11 ≤ s.boot.step ∧ portServes s p = true) ∧
    (∃ s : State, ∃ l ip : Nat, ∃ v : Bool, ∃ x : Alcove, l < 8 ∧ ownerOfIp s l v ip = some x) ∧
    (∃ s : State, ∃ l ip : Nat, ∃ v : Bool, l < 8 ∧ s.net.icmp = true ∧ (ownerOfIp s l v ip).isSome = true) ∧
    (∃ s : State, ∃ l : Nat, ∃ k : FrameKind, l < 8) ∧
    ((∃ (s : State) (m : PtpInfo) (n : Nat), m.port < 2 ∧ m.port = s.net.ptpPort ∧ m.domain = s.net.ptpDomain ∧
      m.kind = .sync n)     ∧ (∃ (s : State) (m : PtpInfo) (n a b l : Nat), m.port < 2 ∧ m.port = s.net.ptpPort ∧
      m.domain = s.net.ptpDomain ∧ m.kind = .followUp n a ∧ s.net.ptp.t2 = some b ∧ s.net.ptp.t1 = none ∧
      s.net.ptp.seq = n ∧ firstUp s m.port = some l)     ∧ (∃ (s : State) (m : PtpInfo) (n a b c d : Nat),
      m.port < 2 ∧ m.port = s.net.ptpPort ∧ m.domain = s.net.ptpDomain ∧ m.kind = .delayResp n d ∧
      s.net.ptp.t1 = some a ∧ s.net.ptp.t2 = some b ∧ s.net.ptp.t3 = some c ∧ (n + 1) % 65536 = s.net.ptp.req)     ∧
      ∃ (s : State) (m : PtpInfo) (u : Int), m.port < 2 ∧ m.port = s.net.ptpPort ∧ m.domain = s.net.ptpDomain ∧
      m.kind = .announce u) ∧
    (∃ s : State, s.net.ptpHere = false ∧ s.net.ptpSource = 1) ∧
    (∃ s : State, s.power.powered = true ∧ s.net.ppsOut = false ∧ s.net.ppsRose / 10 ^ 9 < s.time / 10 ^ 9) ∧
    (∃ s : State, s.net.ppsOut = true ∧ s.net.ppsRose + 10 ^ 8 ≤ s.time) ∧
    (∃ s : State, ∃ o : Int, ∃ line : Nat, o.natAbs ≤ 100000) ∧
    (∃ s : State, ∃ o : Int, ∃ line : Nat, o.natAbs ≤ 100000 ∧ 0 < o) ∧
    (∃ s : State, ∃ o : Int, ∃ line : Nat, o.natAbs ≤ 100000 ∧ o < 0) ∧
    (∃ s : State, ∃ o : Int, ∃ line : Nat, 100000 < o.natAbs) := by
  refine ⟨?_, ?_, ?_, ?_, ?_, ?_, ?_, ?_, ?_, ?_, ?_, ?_, ?_, ?_, ?_, ?_, ?_, ?_, ?_, ?_, ?_, ?_⟩
  · exact ⟨sOn, regionFills (sOn) { tData (tHdr 3 3 5 16 0) (zeros 16) with held := 5 },
    { tData (tHdr 3 3 5 16 0) (zeros 16) with held := 5 }, 0, by decide, by decide, rfl, rfl⟩
  · exact ⟨sOn, regionFills (sOn) { tData (tHdr 3 3 5 16 0) (zeros 16) with held := 884737 },
    { tData (tHdr 3 3 5 16 0) (zeros 16) with held := 884737 }, 0, by decide, by decide, rfl, rfl, by decide,
    by decide⟩
  · exact ⟨modPort sOn 0 (fun p => { p with pauseSent := [0] }),
    regionFills (modPort sOn 0 (fun p => { p with pauseSent := [0] })) { tData (tHdr 3 3 5 16 0) (zeros 16) with held := 753663 },
    { tData (tHdr 3 3 5 16 0) (zeros 16) with held := 753663 }, 0, by decide, by decide, rfl, rfl, by decide,
    by decide⟩
  · exact ⟨sOn, regionFills (sOn) { tData (tHdr 3 3 5 16 0) (zeros 16) with held := 753664 },
    { tData (tHdr 3 3 5 16 0) (zeros 16) with held := 753664 }, 0, by decide, by decide, rfl, rfl, by decide,
    by decide⟩
  · exact ⟨sOn, 1, 7, 5, by decide, by decide, by decide⟩
  · exact ⟨modPort sOn 1 (fun p => { p with paused := [(7, 5)] }), 1, 7, 5, by decide, rfl, by decide⟩
  · exact ⟨sOn, 7, by decide⟩
  · exact ⟨sOn, 0, by decide, by decide, by decide, by decide⟩
  · exact ⟨sOn, 0, .voltage, by decide, by decide⟩
  · exact ⟨sOn, 1, by decide, by decide⟩
  · exact ⟨modPort sOn 0 (fun p => { p with present := false }), 0, by decide, by decide, by decide, by decide⟩
  · exact ⟨sOn, 7, 11, false, _, by decide, rfl⟩
  · exact ⟨{ sOn with net := { sOn.net with icmp := true } }, 7, 11, false, by decide, by decide, by decide⟩
  · exact ⟨sOn, 7, .tcp, by decide⟩
  · exact ⟨⟨sOn, tPtp (.sync 65535), 65535, by decide, rfl, rfl, rfl⟩,
        ⟨sPtp none none, tPtp (.followUp 7 100), 7, 100, 5, 0, by decide, rfl, rfl, rfl, rfl, rfl, rfl, rfl⟩,
        ⟨sPtp (some 100) (some 9), tPtp (.delayResp 65535 200), 65535, 100, 5, 9, 200, by decide, rfl, rfl, rfl, rfl,
          rfl, rfl, rfl⟩,
        ⟨sOn, tPtp (.announce (-37)), -37, by decide, rfl, rfl, rfl⟩⟩
  · exact ⟨{ sOn with net := { sOn.net with ptpSource := 1 } }, by decide, rfl⟩
  · exact ⟨sOn, by decide, by decide, by decide⟩
  · exact ⟨{ sOn with net := { sOn.net with ppsOut := true } }, by decide, by decide⟩
  · exact ⟨sOn, -100000, 0, by decide⟩
  · exact ⟨sOn, 100000, 0, by decide, by decide⟩
  · exact ⟨sOn, -100000, 0, by decide, by decide⟩
  · exact ⟨sOn, 100001, 3, by decide⟩


/-- States and operands that meet each case of `Obligations.QueriesAnswer`. -/
theorem witness_QueriesAnswer :
    (∃ s : State, ∃ w : Nat, ∃ k : Work, isReady s w 0x0101 k) ∧
    (∃ s : State, ∃ w : Nat, ∃ k : Work, isReady s w 0x0103 k) ∧
    (∃ s : State, ∃ w : Nat, ∃ k : Work, ∃ slot n : Nat, ∃ sec : Secret, ∃ f : Face, isReady s w 0x0102 k ∧
      resolve s k.alcove (fld k.payload 0 8) = some (slot, n, sec, f) ∧ f.payment = false) ∧
    (∃ s : State, ∃ w : Nat, ∃ k : Work, ∃ slot : Nat, ∃ sec : Secret, ∃ f : Face, isReady s w 0x050A k ∧
      resolve s k.alcove (fld k.payload 0 8) = some (slot, 1, sec, f) ∧ f.payment = false ∧ isAsym sec.algo = true ∧
      (f.cls = .verify ∨ f.cls = .encapsulate ∨ f.cls = .agree)) ∧
    (∃ s : State, ∃ w : Nat, ∃ k : Work, isReady s w 0x0901 k ∧ fld k.payload 0 1 = 0) ∧
    (∃ s : State, ∃ w : Nat, ∃ k : Work, isReady s w 0x0901 k ∧ fld k.payload 0 1 = 1) ∧
    (∃ s : State, ∃ w : Nat, ∃ k : Work, isReady s w 0x0901 k ∧ fld k.payload 0 1 = 2 ∧
      (domD s (domainOf s k.alcove)).root.isSome = true) ∧
    (∃ s : State, ∃ w n : Nat, ∃ k : Work, isReady s w 0x0904 k ∧ 1 ≤ fld k.payload 0 8 ∧
      fld k.payload 0 8 ≤ s.ledger.newest ∧ s.ledger.newest < fld k.payload 0 8 + 65536 ∧
      n = min (fld k.payload 8 2) (s.ledger.newest + 1 - fld k.payload 0 8)) ∧
    (∃ s : State, ∃ w : Nat, ∃ k : Work, ∃ l : List (Nat × Bytes), isReady s w 0x070A k ∧ fld k.payload 0 1 = 0 ∧
      l = (snapsOf s k.alcove).drop ((snapsOf s k.alcove).length - fld k.payload 16 2)) := by
  refine ⟨?_, ?_, ?_, ?_, ?_, ?_, ?_, ?_, ?_⟩
  · exact ⟨sW sOn 1 0x0101 (zeros 8), 0, _, ⟨rfl, rfl, rfl, rfl⟩⟩
  · exact ⟨sW sOn 1 0x0103 (zeros 8), 0, _, ⟨rfl, rfl, rfl, rfl⟩⟩
  · exact ⟨sW (sK (tSec 1 256 .encrypt)) 1 0x0102 tH, 0, _, 5, 0, _, _, ⟨rfl, rfl, rfl, rfl⟩, rfl, by decide⟩
  · exact ⟨sW (sK { tSec 0x10 256 .sign with face1 := some (tFace .verify) }) 1 0x050A (be 8 (mkHandle 1 5 1 7)), 0,
    _, 5, _, _, ⟨rfl, rfl, rfl, rfl⟩, rfl, by decide, by decide, by decide⟩
  · exact ⟨sW sOn 1 0x0901 (zeros 8), 0, _, ⟨rfl, rfl, rfl, rfl⟩, rfl⟩
  · exact ⟨sW sOn 1 0x0901 ([1] ++ zeros 7), 0, _, ⟨rfl, rfl, rfl, rfl⟩, rfl⟩
  · exact ⟨sW sOn 1 0x0901 ([2] ++ zeros 7), 0, _, ⟨rfl, rfl, rfl, rfl⟩, rfl, by decide⟩
  · exact ⟨sW { sOn with ledger := { sOn.ledger with newest := 1 } } 0 0x0904 (be 8 1 ++ be 2 8 ++ zeros 6), 0, _, _,
    ⟨rfl, rfl, rfl, rfl⟩, by decide, by decide, by decide, rfl⟩
  · exact ⟨sW sOn 1 0x070A (zeros 16 ++ be 2 8 ++ zeros 6), 0, _, _, ⟨rfl, rfl, rfl, rfl⟩, rfl, rfl⟩


/-- States and operands that meet each case of `Obligations.SymmetricAndContextCommandsRun`. -/
theorem witness_SymmetricAndContextCommandsRun :
    (∀ (c : Nat → Instr) (op : Nat), (c = .encrypt ∧ op = 0x0201) ∨ (c = .decrypt ∧ op = 0x0202) ∨ (c = .macGenerate ∧
      op = 0x0203) ∨ (c = .macVerify ∧ op = 0x0204) → ∃ s : State, ∃ t : State, ∃ w : Nat, ∃ k : Work, ∃ x : Keyed,
      ∃ slot : Nat, ∃ n : Nat, ∃ sec : Secret, ∃ face : Face, ∃ r : Nat × Bytes × Bytes, isReady s w op k ∧
      keyedOf op k.payload = some x ∧
      faceCheck s k.alcove x.req.handle false (famServes x.fam op x.req.keyBits) = .ok (slot, n, sec, face) ∧
      (drawsNonce x.fam op = true → face.nextInv < 2 ^ 64) ∧ symRefused x.fam op x.prm x.req.data = none ∧
      usesLeft s slot n face = true ∧ marksAllow face (drawsNonce x.fam op) = true ∧
      mayIssue s (symWing x.fam) w [cacheKey slot n] = true ∧
      r = symDo x.fam op x.prm sec.material (if drawsNonce x.fam op then nonceOf s face else x.prm.iv) x.req.data ∧
      t = issueFace (if drawsNonce x.fam op then drawInv s slot n else s) k.alcove slot n face) ∧
    (∃ s : State, ∃ w : Nat, ∃ k : Work, ∃ x : Keyed, ∃ r : Nat × Bytes × Bytes, isReady s w 0x0205 k ∧
      keyedOf 0x0205 k.payload = some x ∧ mayIssue s .hash w [] = true ∧
      r = symDo x.fam 0x0205 x.prm [] [] x.req.data) ∧
    (∃ s : State, ∃ w n : Nat, ∃ k : Work, isReady s w 0x0401 k ∧ n = fld k.payload 0 4 ∧
      drawState s (alcInst k.alcove) = .ok) ∧
    (∃ s t : State, ∃ w : Nat, ∃ k : Work, ∃ x : Keyed, ∃ y : Alcove, ∃ slot n id : Nat, ∃ sec : Secret,
      ∃ face : Face, ∃ c : Context, ∃ nonce : Bytes, ∃ d : Bool, isReady s w 0x0210 k ∧ openOf k.payload = some x ∧
      alc s k.alcove = some y ∧ faceCheck s k.alcove x.req.handle false (openServes x.fam) = .ok (slot, n, sec,
      face) ∧ d = openDraws x.fam face ∧ (d = true → face.nextInv < 2 ^ 64 ∧ allZero x.prm.iv = true) ∧
      usesLeft s slot n face = true ∧ marksAllow face d = true ∧ mayIssue s .cipher w [cacheKey slot n] = true ∧
      ctxRoom s k.alcove = true ∧ freshCtx y = some id ∧ nonce = (if d then nonceOf s face else x.prm.iv) ∧
      c = openCtx k x face nonce ∧
      t = makeLive (modAlc (issueFace (if d then drawInv s slot n else s) k.alcove slot n face) k.alcove (fun z => { z with contexts := tput z.contexts id c })) k.alcove id) ∧
    (∀ (e : Nat → Instr) (op : Nat) (final : Bool), (e = .contextUpdate ∧ op = 0x0211 ∧
      final = false) ∨ (e = .contextFinal ∧ op = 0x0212 ∧ final = true) → ∃ s : State, ∃ w : Nat, ∃ k : Work,
      ∃ r : CtxReq, ∃ c : Context, ∃ f : Fam, ∃ slot : Nat, ∃ n : Nat, ∃ sec : Secret, ∃ face : Face,
      isReady s w op k ∧ ctxReq k.payload = some r ∧ ctxOf s k.alcove r.id = some c ∧
      ctxClaimed s w k.alcove r.id c = false ∧ famOf c.mech = some f ∧
      faceCheck s k.alcove c.handle false (openServes f) = .ok (slot, n, sec, face) ∧ usesLeft s slot n face = true ∧
      ctxSpent c f r.data = false ∧ (final = false ∨ f = .cbc → r.data.length % 16 = 0) ∧
      marksAllow face false = true ∧ mayIssue s .cipher w [cacheKey slot n] = true) ∧
    (∃ s t : State, ∃ w id : Nat, ∃ k : Work, ∃ c : Context, ∃ x : Alcove, ∃ h b : Bytes, isReady s w 0x0213 k ∧
      id = fld k.payload 0 4 ∧ ctxOf s k.alcove id = some c ∧ alc s k.alcove = some x ∧
      (resolve s k.alcove c.handle).isSome = true ∧ ctxClaimed s w k.alcove id c = false ∧
      markedDraw s x.set.domain x.epoch x.epochMark = .ok ∧ h = blobHead c.mech k.alcove id x.epoch c.handle ∧
      b = Config.gcmCrypt x.ctxKey (zeros 4 ++ be 8 x.epoch) (drawn s 240) ∧
      t = modCtx (makeLive (modAlc (useFree s 240) k.alcove (fun y => { y with epoch := y.epoch + 1 })) k.alcove id) k.alcove id (fun c => { c with epoch := some x.epoch, inFlight := false, present := !bitOf (fld k.payload 4 1) 0 })) ∧
    (∃ s : State, ∃ w id : Nat, ∃ k : Work, ∃ c : Context, ∃ x : Alcove, isReady s w 0x0214 k ∧
      id = fld k.payload 12 4 ∧ ctxHolds s k.alcove id = some c ∧ alc s k.alcove = some x ∧
      (resolve s k.alcove c.handle).isSome = true ∧ fld k.payload 8 2 = k.alcove ∧
      blobTag x.ctxKey (k.payload.take 32) (slice k.payload 32 240) = slice k.payload 272 16 ∧
      c.epoch = some (fld k.payload 16 8) ∧ ctxClaimed s w k.alcove id c = false ∧
      (c.present = true ∨ ctxHeld s < 65536)) ∧
    (∃ s : State, ∃ w : Nat, ∃ k : Work, ∃ c : Context, isReady s w 0x0215 k ∧
      ctxHolds s k.alcove (fld k.payload 0 4) = some c ∧ ctxClaimed s w k.alcove (fld k.payload 0 4) c = false) := by
  refine ⟨?_, ?_, ?_, ?_, ?_, ?_, ?_, ?_⟩
  · rintro _ _ (⟨rfl, rfl⟩ | ⟨rfl, rfl⟩ | ⟨rfl, rfl⟩ | ⟨rfl, rfl⟩)
    · exact ⟨sW (sK (tSec 1 256 .encrypt)) 1 0x0201 (tReq tH 0x0003 0 0 (tGcm) (zeros 16)), _, 0, _, _, 5, 0, _, _, _,
      ⟨rfl, rfl, rfl, rfl⟩, some_of (by decide), rfl, by decide, rfl, by decide, by decide, by decide, rfl, rfl⟩
    · exact ⟨sW (sK (tSec 1 256 .decrypt)) 1 0x0202 (tReq tH 0x0003 0 0 (tGcm) (zeros 16)), _, 0, _, _, 5, 0, _, _, _,
      ⟨rfl, rfl, rfl, rfl⟩, some_of (by decide), rfl, by decide, rfl, by decide, by decide, by decide, rfl, rfl⟩
    · exact ⟨sW (sK (tSec 1 256 .macGenerate)) 1 0x0203 (tReq tH 0x0011 0 0 (tCmac) (zeros 16)), _, 0, _, _, 5, 0, _,
      _, _, ⟨rfl, rfl, rfl, rfl⟩, some_of (by decide), rfl, by decide, rfl, by decide, by decide, by decide, rfl, rfl⟩
    · exact ⟨sW (sK (tSec 1 256 .macVerify)) 1 0x0204 (tReq tH 0x0011 0 0 (tCmac) (zeros 16)), _, 0, _, _, 5, 0, _, _,
      _, ⟨rfl, rfl, rfl, rfl⟩, some_of (by decide), rfl, by decide, rfl, by decide, by decide, by decide, rfl, rfl⟩
  · exact ⟨sW sOn 1 0x0205 (tReq (zeros 8) 0x40 0 0 [] (zeros 16)), 0, _, _, _, ⟨rfl, rfl, rfl, rfl⟩,
    some_of (by decide), by decide, rfl⟩
  · exact ⟨sW sOn 1 0x0401 (be 4 4096 ++ zeros 4), 0, 4096, _, ⟨rfl, rfl, rfl, rfl⟩, rfl, rfl⟩
  · exact ⟨sW (sK (tSec 1 256 .encrypt)) 1 0x0210 (tReq tH 0x0003 0 0 (tGcm) ([])), _, 0, _, _, _, 5, 0, 0, _, _, _,
    _, true, ⟨rfl, rfl, rfl, rfl⟩, some_of (by decide), rfl, rfl, rfl, by decide, by decide, by decide, by decide,
    by decide, rfl, rfl, rfl, rfl⟩
  · rintro _ _ _ (⟨rfl, rfl, rfl⟩ | ⟨rfl, rfl, rfl⟩)
    · exact ⟨sW (sCtx tCtx .encrypt) 1 0x0211 (zeros 8 ++ be 4 16 ++ zeros 20 ++ zeros 16), 0, _, _, _, _, 5, 0, _, _,
      ⟨rfl, rfl, rfl, rfl⟩, some_of (by decide), rfl, by decide, rfl, rfl, by decide, by decide, by decide, by decide,
      by decide⟩
    · exact ⟨sW (sCtx tCtx .encrypt) 1 0x0212 (zeros 8 ++ be 4 16 ++ zeros 20 ++ zeros 16), 0, _, _, _, _, 5, 0, _, _,
      ⟨rfl, rfl, rfl, rfl⟩, some_of (by decide), rfl, by decide, rfl, rfl, by decide, by decide, by decide, by decide,
      by decide⟩
  · exact ⟨sW (sCtx tCtx .encrypt) 1 0x0213 (zeros 8), _, 0, 0, _, _, _, _, _, ⟨rfl, rfl, rfl, rfl⟩, rfl, rfl, rfl,
    by decide, by decide, by decide, rfl, rfl, rfl⟩
  · exact ⟨sW (sCtx { tCtx with epoch := some 0 } .encrypt) 1 0x0214 (tBlob ++
    blobTag [8] (tBlob.take 32) (slice tBlob 32 240)), 0, 0, _, _, _, ⟨rfl, rfl, rfl, rfl⟩, rfl, rfl, rfl, by decide,
    rfl, tBlob_tag, rfl, by decide, by decide⟩
  · exact ⟨sW (sCtx tCtx .encrypt) 1 0x0215 (zeros 8), 0, _, _, ⟨rfl, rfl, rfl, rfl⟩, rfl, by decide⟩


/-- States and operands that meet the hypotheses of `Obligations.PublicKeyCommandsIssue`. -/
theorem witness_PublicKeyCommandsIssue :
    ∀ (c : Nat → Instr) (op : Nat), (c = .sign ∧ op = 0x0301) ∨ (c = .verify ∧ op = 0x0302) ∨ (c = .agree ∧
      op = 0x0303) ∨ (c = .encapsulate ∧ op = 0x0304) ∨ (c = .decapsulate ∧ op = 0x0305) ∨ (c = .pkEncrypt ∧
      op = 0x0306) ∨ (c = .pkDecrypt ∧ op = 0x0307) →
    (∃ (s : State) (w slot n : Nat) (k : Work) (x : Keyed) (sec : Secret) (face : Face) (r : Result) (two : Bool),
      isReady s w op k ∧ keyedOf op k.payload = some x ∧ k.carry = some r ∧
      faceCheck s k.alcove x.req.handle false (famServes x.fam op x.req.keyBits) = .ok (slot, n, sec, face) ∧
      two = (twoPasses x op && k.part == 1) ∧ mayIssue s (if two then .hash else .pk) w [cacheKey slot n] = true)
    ∧ ∃ (s : State) (w : Nat) (k : Work) (x : Keyed) (slot n : Nat) (sec : Secret) (face child : Face),
      isReady s w op k ∧ keyedOf op k.payload = some x ∧ k.carry = none ∧
      faceCheck s k.alcove x.req.handle false (fun sec face => famServes x.fam op x.req.keyBits sec face && (op != 0x0303 || hFace (mapHandle s k.alcove x.req.handle) == 0)) = .ok (slot,
      n, sec, face) ∧ child = childFace k.alcove x.prm.tmpl face (mapHandle s k.alcove x.req.handle) ∧
      (makesFace op = true → childOk s k.alcove x.prm.tmpl child face = true ∧ instServes s ((x.prm.tmpl.key.getD (0,
      0)).1) [child] = true) ∧ usesLeft s slot n face = true ∧ marksAllow face false = true ∧
      mayIssue s (if (longHash x op).isSome then .hash else .pk) w [cacheKey slot n] = true := by
  rintro _ _ (⟨rfl, rfl⟩ | ⟨rfl, rfl⟩ | ⟨rfl, rfl⟩ | ⟨rfl, rfl⟩ | ⟨rfl, rfl⟩ | ⟨rfl, rfl⟩ | ⟨rfl, rfl⟩)
  · exact ⟨⟨sCarry (sK (tSec 0x10 256 .sign)) (tWork 1 0x0301 (tReq tH 0x0100 0 0 ([]) (zeros 16))), 0, 5, 0, _, _, _,
    _, _, _, ⟨rfl, rfl, rfl, rfl⟩, some_of (by decide), rfl, rfl, rfl, by decide⟩,
    sW (sK (tSec 0x10 256 .sign)) 1 0x0301 (tReq tH 0x0100 0 0 ([]) (zeros 16)), 0, _, _, 5, 0, _, _, _,
      ⟨rfl, rfl, rfl, rfl⟩, some_of (by decide), rfl, rfl, rfl, by decide, by decide, by decide, by decide⟩
  · exact ⟨⟨sCarry (sK (tSec 0x10 256 .verify)) (tWork 1 0x0302 (tReq tH 0x0100 0 0 (zeros 64) (zeros 16))), 0, 5, 0,
    _, _, _, _, _, _, ⟨rfl, rfl, rfl, rfl⟩, some_of (by decide), rfl, rfl, rfl, by decide⟩,
    sW (sK (tSec 0x10 256 .verify)) 1 0x0302 (tReq tH 0x0100 0 0 (zeros 64) (zeros 16)), 0, _, _, 5, 0, _, _, _,
      ⟨rfl, rfl, rfl, rfl⟩, some_of (by decide), rfl, rfl, rfl, by decide, by decide, by decide, by decide⟩
  · exact ⟨⟨sCarry (sK (tSec 0x11 256 .agree)) (tWork 1 0x0303 (tReq tH 0x0130 0 0 (tTmpl 1 (some (1,
    256))) (zeros 32))), 0, 5, 0, _, _, _, _, _, _, ⟨rfl, rfl, rfl, rfl⟩, some_of (by decide), rfl, rfl, rfl,
    by decide⟩, sW (sK (tSec 0x11 256 .agree)) 1 0x0303 (tReq tH 0x0130 0 0 (tTmpl 1 (some (1, 256))) (zeros 32)), 0,
    _, _, 5, 0, _, _, _,
      ⟨rfl, rfl, rfl, rfl⟩, some_of (by decide), rfl, rfl, rfl, by decide, by decide, by decide, by decide⟩
  · exact ⟨⟨sCarry (sK (tSec 0x30 0 .encapsulate)) (tWork 1 0x0304 (tReq tH 0x0140 0 0 (tTmpl 1 (some (1,
    256))) ([]))), 0, 5, 0, _, _, _, _, _, _, ⟨rfl, rfl, rfl, rfl⟩, some_of (by decide), rfl, rfl, rfl, by decide⟩,
    sW (sK (tSec 0x30 0 .encapsulate)) 1 0x0304 (tReq tH 0x0140 0 0 (tTmpl 1 (some (1, 256))) ([])), 0, _, _, 5, 0, _,
    _, _,
      ⟨rfl, rfl, rfl, rfl⟩, some_of (by decide), rfl, rfl, rfl, by decide, by decide, by decide, by decide⟩
  · exact ⟨⟨sCarry (sK (tSec 0x30 0 .decapsulate)) (tWork 1 0x0305 (tReq tH 0x0140 0 0 (tTmpl 1 (some (1,
    256))) (zeros 1088))), 0, 5, 0, _, _, _, _, _, _, ⟨rfl, rfl, rfl, rfl⟩, some_of (by decide), rfl, rfl, rfl,
    by decide⟩, sW (sK (tSec 0x30 0 .decapsulate)) 1 0x0305 (tReq tH 0x0140 0 0 (tTmpl 1 (some (1,
    256))) (zeros 1088)), 0, _, _, 5, 0, _, _, _,
      ⟨rfl, rfl, rfl, rfl⟩, some_of (by decide), rfl, rfl, rfl, by decide, by decide, by decide, by decide⟩
  · exact ⟨⟨sCarry (sK (tSec 0x20 2048 .encrypt)) (tWork 1 0x0306 (tReq tH 0x0112 0 2048 ([]) (zeros 16))), 0, 5, 0,
    _, _, _, _, _, _, ⟨rfl, rfl, rfl, rfl⟩, some_of (by decide), rfl, rfl, rfl, by decide⟩,
    sW (sK (tSec 0x20 2048 .encrypt)) 1 0x0306 (tReq tH 0x0112 0 2048 ([]) (zeros 16)), 0, _, _, 5, 0, _, _, _,
      ⟨rfl, rfl, rfl, rfl⟩, some_of (by decide), rfl, rfl, rfl, by decide, by decide, by decide, by decide⟩
  · exact ⟨⟨sCarry (sK (tSec 0x20 2048 .decrypt)) (tWork 1 0x0307 (tReq tH 0x0112 0 2048 ([]) (zeros 256))), 0, 5, 0,
    _, _, _, _, _, _, ⟨rfl, rfl, rfl, rfl⟩, some_of (by decide), rfl, rfl, rfl, by decide⟩,
    sW (sK (tSec 0x20 2048 .decrypt)) 1 0x0307 (tReq tH 0x0112 0 2048 ([]) (zeros 256)), 0, _, _, 5, 0, _, _, _,
      ⟨rfl, rfl, rfl, rfl⟩, some_of (by decide), rfl, rfl, rfl, by decide, by decide, by decide, by decide⟩


/-- States and operands that meet each case of `Obligations.KeysAreMadeAndChanged`. -/
theorem witness_KeysAreMadeAndChanged :
    (∃ s : State, ∃ w : Nat, ∃ k : Work, ∃ r : GenReq, ∃ x : Bytes × State, ∃ f : Option Face × Option Face,
      isReady s w 0x0501 k ∧ genReq false k.payload = some r ∧ genRefused s k.alcove r = none ∧ drawState s 3 = .ok ∧
      x = drawFrom s 3 ((materialLen r.algo r.bits).getD 0) ∧ f = genFaces k.alcove r) ∧
    (∃ s : State, ∃ w p : Nat, ∃ k : Work, ∃ r : GenReq, ∃ m : Bytes, ∃ f : Option Face × Option Face,
      isReady s w 0x0502 k ∧ genReq true k.payload = some r ∧ genRefused s k.alcove r = none ∧ p = genProg r.algo ∧
      m = pairMaterial r.algo r.bits (drawn s pkFree) ∧ f = genFaces k.alcove r) ∧
    (∃ s : State, ∃ w slot n m : Nat, ∃ k : Work, ∃ x : Keyed, ∃ sec : Secret, ∃ face child : Face,
      isReady s w 0x0503 k ∧ keyedOf 0x0503 k.payload = some x ∧
      faceCheck s k.alcove x.req.handle false (famServes x.fam 0x0503 0) = .ok (slot, n, sec, face) ∧
      child = childFace k.alcove x.prm.tmpl face (mapHandle s k.alcove x.req.handle) ∧
      childOk s k.alcove x.prm.tmpl child face = true ∧ instServes s ((x.prm.tmpl.key.getD (0, 0)).1) [child] = true ∧
      usesLeft s slot n face = true ∧ marksAllow face false = true ∧ mayIssue s .hash w [cacheKey slot n] = true ∧
      m = (x.prm.tmpl.key.bind (fun e => materialLen e.1 e.2)).getD 0) ∧
    (∃ s : State, ∃ w slot n : Nat, ∃ k : Work, ∃ a b : Nat × Nat × Secret × Face, ∃ sec : Secret, ∃ face : Face,
      ∃ blob : Bytes, ∃ d : Bool, ∃ pins : List Nat, isReady s w 0x0504 k ∧
      resolve s k.alcove (fld k.payload 0 8) = some a ∧ resolve s k.alcove (fld k.payload 8 8) = some b ∧
      faceCheck s k.alcove (fld k.payload 0 8) false (fun sec f => wrapServes (fld k.payload 16 2) .wrap sec f && b.2.2.2.wrapped && !b.2.2.2.payment) = .ok (slot,
      n, sec, face) ∧ d = (fld k.payload 16 2 == 0x50) ∧ (d = true → face.nextInv < 2 ^ 64) ∧
      wrapTakes (fld k.payload 16 2) b.2.2.1.material.length = true ∧
      pins = bothPins (cacheKey slot n) (cacheKey b.1 b.2.1) ∧ usesLeft s slot n face = true ∧
      marksAllow face d = true ∧ mayIssue s .cipher w pins = true ∧
      blob = (if d then envelope sec.material b.2.2.1 (nonceOf s face) else Config.kw (fld k.payload 16 2 == 0x31) sec.material b.2.2.1.material)) ∧
    (∃ s : State, ∃ w slot n : Nat, ∃ k : Work, ∃ r : UnwrapReq, ∃ sec : Secret, ∃ face : Face, ∃ m : Bytes,
      ∃ key : Nat × Nat, ∃ f : Option Face × Option Face, ∃ q : Bool × Option Bytes × State, isReady s w 0x0505 k ∧
      k.carry = none ∧ unwrapReq k.payload = some r ∧
      faceCheck s k.alcove r.handle false (wrapServes r.mech .unwrap) = .ok (slot, n, sec, face) ∧
      key = (unwrapKey r).getD (0, 0) ∧ f = unwrapFaces k.alcove r ∧
      birthDenied s k.alcove key.1 key.2 f.1 f.2 = false ∧ q = flagQuorum s k r ((f.1.toList ++
      f.2.toList).any (fun x => x.quorum)) ∧ q.1 = true ∧ instServes s key.1 (f.1.toList ++ f.2.toList) = true ∧
      usesLeft s slot n face = true ∧ marksAllow face false = true ∧ mayIssue s .cipher w [cacheKey slot n] = true ∧
      unwrapped sec.material r = some m) ∧
    (∃ s : State, ∃ w : Nat, ∃ k : Work, ∃ u : UnwrapReq, ∃ r : Result, isReady s w 0x0505 k ∧
      unwrapReq k.payload = some u ∧ k.carry = some r) ∧
    (∀ (c : Nat → Instr) (op : Nat), (c = .faceRestrict ∧ op = 0x0508) ∨ (c = .faceShare ∧ op = 0x0509) → ∃ s : State,
      ∃ w : Nat, ∃ k : Work, ∃ b : MutBody, isReady s w op k ∧ faceChange s k.alcove op k.payload = .ok b) ∧
    (∃ s : State, ∃ w slot n : Nat, ∃ k : Work, ∃ sec : Secret, ∃ f : Face, isReady s w 0x0506 k ∧
      resolve s k.alcove (fld k.payload 0 8) = some (slot, n, sec, f) ∧ f.payment = false) ∧
    (∃ s : State, ∃ w slot n : Nat, ∃ k : Work, ∃ sec : Secret, ∃ f : Face, isReady s w 0x0507 k ∧
      resolve s k.alcove (fld k.payload 0 8) = some (slot, n, sec, f) ∧ f.payment = false) := by
  refine ⟨?_, ?_, ?_, ?_, ?_, ?_, ?_, ?_, ?_⟩
  · exact ⟨sW sOn 1 0x0501 (be 2 1 ++ be 2 256 ++ be 1 1 ++ zeros 3 ++ tTmpl 1 none), 0, _, _, _, _, ⟨rfl, rfl, rfl,
    rfl⟩, some_of (by decide), by decide, by decide, rfl, rfl⟩
  · exact ⟨sW sOn 1 0x0502 (be 2 0x10 ++ be 2 256 ++ be 1 2 ++ zeros 3 ++ tTmpl 8 none ++ tTmpl 9 none), 0, _, _, _,
    _, _, ⟨rfl, rfl, rfl, rfl⟩, some_of (by decide), by decide, rfl, rfl, rfl⟩
  · exact ⟨sW (sK (tSec 4 256 .derive)) 1 0x0503 (tReq tH 0x0200 0 0 (tTmpl 1 (some (1, 256))) (zeros 16)), 0, 5, 0,
    _, _, _, _, _, _, ⟨rfl, rfl, rfl, rfl⟩, some_of (by decide), rfl, rfl, by decide, by decide, by decide, by decide,
    by decide, rfl⟩
  · exact ⟨sW (sK2 (tSec 1 256 .wrap) (tSec 1 256 .encrypt)) 1 0x0504 (tH ++ tH2 ++ be 2 0x50 ++ zeros 6), 0, 5, 0, _,
    _, _, _, _, _, true, _, ⟨rfl, rfl, rfl, rfl⟩, rfl, rfl, rfl, rfl, by decide, by decide, rfl, by decide, by decide,
    by decide, rfl⟩
  · exact ⟨sW (sK { tSec 1 256 .unwrap with material := be 32 9 }) 1 0x0505 (tH ++ be 2 0x50 ++ be 2 0 ++
    be 4 tSealed.length ++ tSealed), 0, 5, 0, _,
    { handle := mkHandle 1 5 0 7, mech := 0x50, tmpl := noTemplate, blob := tSealed, body := tH ++ be 2 0x50 ++ be 2 0 ++ be 4 tSealed.length ++ tSealed, appr := none },
    _, _, zeros 32, _, _, _, ⟨rfl, rfl, rfl, rfl⟩, rfl, by decide, rfl, rfl, rfl, by decide, rfl, by decide,
    by decide, by decide, by decide, by decide, unwraps _ rfl rfl⟩
  · exact ⟨sCarry (sK { tSec 1 256 .unwrap with material := be 32 9 }) (tWork 1 0x0505 (tH ++ be 2 0x50 ++ be 2 0 ++
    be 4 tSealed.length ++ tSealed)), 0, _, _, _, ⟨rfl, rfl, rfl, rfl⟩, some_of (by decide), rfl⟩
  · rintro _ _ (⟨rfl, rfl⟩ | ⟨rfl, rfl⟩)
    · exact ⟨sW (sK (tSec 1 256 .encrypt)) 1 0x0508 (tH ++ be 2 4 ++ be 1 4 ++ be 1 2 ++ be 2 1), 0, _, _, ⟨rfl, rfl,
      rfl, rfl⟩, ok_of (by decide)⟩
    · exact ⟨sW (sK (tSec 1 256 .encrypt)) 1 0x0509 (tH ++ be 2 4 ++ be 1 4 ++ be 1 2 ++ be 2 1), 0, _, _, ⟨rfl, rfl,
      rfl, rfl⟩, ok_of (by decide)⟩
  · exact ⟨sW (sK (tSec 1 256 .encrypt)) 1 0x0506 tH, 0, 5, 0, _, _, _, ⟨rfl, rfl, rfl, rfl⟩, rfl, by decide⟩
  · exact ⟨sW (sK (tSec 1 256 .encrypt)) 1 0x0507 tH, 0, 5, 0, _, _, _, ⟨rfl, rfl, rfl, rfl⟩, rfl, by decide⟩


/-- States and operands that meet each case of `Obligations.PaymentCommandsRun`. -/
theorem witness_PaymentCommandsRun :
    ((∃ s t : State, ∃ w si ni so no fi fo : Nat, ∃ k : Work, ∃ a b : Nat × Nat × Secret × Face, ∃ sec out : Secret,
      ∃ f g : Face, ∃ both : Bool, ∃ pins : List Nat, ∃ rnd : Bytes, isReady s w 0x0601 k ∧ k.carry = none ∧
      fi = fld k.payload 16 1 ∧ fo = fld k.payload 17 1 ∧ resolve s k.alcove (fld k.payload 0 8) = some a ∧
      resolve s k.alcove (fld k.payload 8 8) = some b ∧
      faceCheck s k.alcove (fld k.payload 0 8) true (pinServes fi) = .ok (si, ni, sec, f) ∧
      faceCheck s k.alcove (fld k.payload 8 8) true (pinServes fo) = .ok (so, no, out, g) ∧ (fi = 1 → fo = 1) ∧
      both = (pinWing fi == pinWing fo) ∧
      pins = (if both then bothPins (cacheKey si ni) (cacheKey so no) else [cacheKey si ni]) ∧
      usesLeft s si ni f = true ∧ usesLeft s so no g = true ∧ marksAllow f false = true ∧ marksAllow g false = true ∧
      mayIssue s (pinWing fi) w pins = true ∧ (pinFills fo = true → drawState s (alcInst k.alcove) = .ok ∧ (rnd,
      t) = drawFrom s (alcInst k.alcove) 16) ∧ (pinFills fo = false → rnd = zeros 16 ∧ t = s)) ∧ (∃ s t : State,
      ∃ w si ni so no fi fo : Nat, ∃ k : Work, ∃ a b : Nat × Nat × Secret × Face, ∃ sec out : Secret, ∃ f g : Face,
      ∃ both : Bool, ∃ pins : List Nat, ∃ rnd : Bytes, isReady s w 0x0601 k ∧ k.carry = none ∧
      fi = fld k.payload 16 1 ∧ fo = fld k.payload 17 1 ∧ resolve s k.alcove (fld k.payload 0 8) = some a ∧
      resolve s k.alcove (fld k.payload 8 8) = some b ∧
      faceCheck s k.alcove (fld k.payload 0 8) true (pinServes fi) = .ok (si, ni, sec, f) ∧
      faceCheck s k.alcove (fld k.payload 8 8) true (pinServes fo) = .ok (so, no, out, g) ∧ (fi = 1 → fo = 1) ∧
      both = (pinWing fi == pinWing fo) ∧
      pins = (if both then bothPins (cacheKey si ni) (cacheKey so no) else [cacheKey si ni]) ∧
      usesLeft s si ni f = true ∧ usesLeft s so no g = true ∧ marksAllow f false = true ∧ marksAllow g false = true ∧
      mayIssue s (pinWing fi) w pins = true ∧ (pinFills fo = true → drawState s (alcInst k.alcove) = .ok ∧ (rnd,
      t) = drawFrom s (alcInst k.alcove) 16) ∧ (pinFills fo = false → rnd = zeros 16 ∧ t = s))) ∧
    (∃ s : State, ∃ w so no fo : Nat, ∃ k : Work, ∃ out : Secret, ∃ g : Face, ∃ r : Result, isReady s w 0x0601 k ∧
      k.carry = some r ∧ fo = fld k.payload 17 1 ∧
      faceCheck s k.alcove (fld k.payload 8 8) true (pinServes fo) = .ok (so, no, out, g) ∧
      usesLeft s so no g = true ∧ marksAllow g false = true ∧ mayIssue s (pinWing fo) w [cacheKey so no] = true) ∧
    (∃ s : State, ∃ w slot n : Nat, ∃ k : Work, ∃ a t : Nat × Nat × Secret × Face, ∃ sec : Secret, ∃ face : Face,
      ∃ x : UseClass × Option UseClass, ∃ b : Bytes, ∃ td : Bool, ∃ wing : Wing, ∃ pins : List Nat,
      isReady s w 0x0602 k ∧ td = (fld k.payload 16 1 == 0x42) ∧ wing = (if td then .legacy else .cipher) ∧
      resolve s k.alcove (fld k.payload 0 8) = some a ∧ resolve s k.alcove (fld k.payload 8 8) = some t ∧
      faceCheck s k.alcove (fld k.payload 0 8) true (fun sec f => kbpkServes td .wrap sec f && targetOk td (fld k.payload 22 1) t.2.2.1 t.2.2.2) = .ok (slot,
      n, sec, face) ∧ usagePair (slice k.payload 17 2) (fld k.payload 19 1) = some x ∧
      pairMatches t.2.2.1 t.2.2.2 x = true ∧ pins = bothPins (cacheKey slot n) (cacheKey t.1 t.2.1) ∧
      usesLeft s slot n face = true ∧ marksAllow face false = true ∧ mayIssue s wing w pins = true ∧
      b = keyBlock td sec.material (if td then 0x42 else 0x44) (slice k.payload 17 2 ++
      [if t.2.2.1.algo = 3 then 0x54 else 0x41] ++ slice k.payload 19 1 ++ slice k.payload 20 2 ++
      slice k.payload 22 1 ++ ascii "0000") t.2.2.1.material (drawn s 16)) ∧
    (∃ s : State, ∃ w slot n : Nat, ∃ k : Work, ∃ t : Template, ∃ b : Bytes, ∃ td : Bool, ∃ sec : Secret,
      ∃ face : Face, ∃ x : BlockHead, ∃ f : Option Face × Option Face, ∃ wing : Wing, isReady s w 0x0603 k ∧
      keyblockIn k.payload = some (t, b) ∧ td = (fld b 0 1 == 0x42) ∧ wing = (if td then .legacy else .cipher) ∧
      faceCheck s k.alcove (fld k.payload 0 8) true (kbpkServes td .unwrap) = .ok (slot, n, sec, face) ∧
      rootMissing s (domainOf s k.alcove) = false ∧ ownersExist s k.alcove (faceOf k.alcove t).owners = true ∧
      readBlock td b = some x ∧ f = blockFaces k.alcove t x ∧ facesDenied x.algo f = false ∧
      usesLeft s slot n face = true ∧ instServes s x.algo (f.1.toList ++ f.2.toList) = true ∧
      marksAllow face false = true ∧ mayIssue s wing w [cacheKey slot n] = true) := by
  refine ⟨?_, ?_, ?_, ?_⟩
  · exact ⟨⟨sW (sK2 (tSec 3 192 .pinTranslate) (tSec 3 192 .pinTranslate)) 1 0x0601 (tH ++ tH2 ++ be 1 0 ++ be 1 0 ++
    be 1 12 ++ zeros 1 ++ zeros 6 ++ [0xFF, 0xFF, 0xFF, 0xFF] ++ zeros 2 ++ zeros 16), _, 0, 5, 0, 6, 0, _, _, _, _,
    _, _, _, _, _, _, _, _, ⟨rfl, rfl, rfl, rfl⟩, rfl, rfl, rfl, rfl, rfl, rfl, rfl, by decide, rfl, rfl, by decide,
    by decide, by decide, by decide, by decide, (fun h => absurd h (by decide)), (fun _ => ⟨rfl, rfl⟩)⟩,
    ⟨sW (sK2 (tSec 3 192 .pinTranslate) (tSec 3 192 .pinTranslate)) 1 0x0601 (tH ++ tH2 ++ be 1 0 ++ be 1 3 ++
    be 1 12 ++ zeros 1 ++ zeros 6 ++ [0xFF, 0xFF, 0xFF, 0xFF] ++ zeros 2 ++ zeros 16), _, 0, 5, 0, 6, 0, _, _, _, _,
    _, _, _, _, _, _, _, _, ⟨rfl, rfl, rfl, rfl⟩, rfl, rfl, rfl, rfl, rfl, rfl, rfl, by decide, rfl, rfl, by decide,
    by decide, by decide, by decide, by decide, (fun _ => ⟨by decide, rfl⟩), (fun h => absurd h (by decide))⟩⟩
  · exact ⟨sCarry (sK2 (tSec 3 192 .pinTranslate) (tSec 3 192 .pinTranslate)) (tWork 1 0x0601 (tH ++ tH2 ++ be 1 0 ++
    be 1 0 ++ be 1 12 ++ zeros 1 ++ zeros 6 ++ [0xFF, 0xFF, 0xFF, 0xFF] ++ zeros 2 ++ zeros 16)), 0, 6, 0, _, _, _, _,
    _, ⟨rfl, rfl, rfl, rfl⟩, rfl, rfl, rfl, by decide, by decide, by decide⟩
  · exact ⟨sW (sK2 (tSec 1 256 .wrap) (tSec 1 256 .encrypt)) 1 0x0602 (tH ++ tH2 ++ ascii "DD0E00N" ++ zeros 1), 0, 5,
    0, _, _, _, _, _, _, _, false, _, _, ⟨rfl, rfl, rfl, rfl⟩, rfl, rfl, rfl, rfl, rfl, rfl, by decide, rfl,
    by decide, by decide, by decide, rfl⟩
  · exact ⟨sW (sK (tSec 1 256 .unwrap)) 1 0x0603 (tH ++ be 2 5 ++ zeros 2 ++ be 4 112 ++ tTmpl 1 none ++
    ascii "D0112D0AB00N0000" ++ List.replicate 96 0x30), 0, 5, 0, _, _, _, false, _, _, _, _, _, ⟨rfl, rfl, rfl, rfl⟩,
    some_of (by decide), rfl, rfl, rfl, by decide, by decide, some_of (by decide), rfl, by decide, by decide,
    by decide, by decide, by decide⟩


/-- States and operands that meet each case of `Obligations.ProofsStatementsAndWitnesses`. -/
theorem witness_ProofsStatementsAndWitnesses :
    (∃ s t : State, ∃ w n : Nat, ∃ k : Work, ∃ y : Alcove, ∃ z : Bytes, isReady s w 0x0902 k ∧ fld k.payload 0 1 = 0 ∧
      alc s k.alcove = some y ∧ y.proof = some z ∧ markedDraw s 0 s.keys.proofNext s.keys.proofMark = .ok ∧
      n = s.keys.proofNext ∧ t = { s with keys := { s.keys with proofNext := n + 1 } }) ∧
    (∃ s : State, ∃ w : Nat, ∃ k : Work, isReady s w 0x0902 k ∧ fld k.payload 0 1 = 1 ∧
      rootMissing s (domainOf s k.alcove) = false) ∧
    (∃ s : State, ∃ w : Nat, ∃ k : Work, isReady s w 0x0903 k) ∧
    (∃ s : State, ∃ w d : Nat, ∃ k : Work, ∃ x : Domain, ∃ b : Bytes, isReady s w 0x0905 k ∧ d = domainOf s k.alcove ∧
      x = domD s d ∧ x.root.isSome = true ∧ markedDraw s d x.witSeq x.witMark = .ok ∧
      b = witnessBody s k d x.witSeq) := by
  refine ⟨?_, ?_, ?_, ?_⟩
  · exact ⟨sW sOn 1 0x0902 (zeros 40), _, 0, _, _, _, _, ⟨rfl, rfl, rfl, rfl⟩, rfl, rfl, rfl, by decide, rfl, rfl⟩
  · exact ⟨sW sOn 1 0x0902 ([1] ++ zeros 39), 0, _, ⟨rfl, rfl, rfl, rfl⟩, rfl, by decide⟩
  · exact ⟨sW sOn 1 0x0903 (zeros 32), 0, _, ⟨rfl, rfl, rfl, rfl⟩⟩
  · exact ⟨sW sOn 1 0x0905 (zeros 32 ++ be 4 1 ++ zeros 4 ++ [1]), 0, _, _, _, _, ⟨rfl, rfl, rfl, rfl⟩, rfl, rfl,
    by decide, by decide, rfl⟩


/-- States and operands that meet each case of `Obligations.CustodyCommandsRun`. -/
theorem witness_CustodyCommandsRun :
    (∃ s : State, ∃ w d : Nat, ∃ k : Work, ∃ r : Bytes × State, ∃ t : Ticket, isReady s w 0x0801 k ∧
      d = domainOf s k.alcove ∧ ((domD s d).set ≠ [] ∨ s.life.life = .transit) ∧ drawState s 2 = .ok ∧
      r = drawFrom s 2 112 ∧ t = newTicket r.2 d (fld k.payload 0 2) (slice k.payload 8 64) r.1) ∧
    (∃ s : State, ∃ w d : Nat, ∃ k : Work, ∃ ap : Approval, ∃ r : Bytes × State, isReady s w 0x0802 k ∧
      d = domainOf s k.alcove ∧ (domD s d).root = none ∧ drawState s 2 = .ok ∧ approvalAt k.payload 8 = some ap ∧
      approvalOk s d 0x0802 (k.payload.take 8) ap = true ∧ r = drawFrom s 2 (32 + exportRandom (domD s d))) ∧
    (∃ s : State, ∃ w d e : Nat, ∃ k : Work, ∃ ap : Approval, ∃ xp : Bytes × Bytes, ∃ root : Bytes,
      isReady s w 0x0803 k ∧ d = domainOf s k.alcove ∧ e = restoreEnd k.payload ∧ (domD s d).root = none ∧
      approvalAt k.payload e = some ap ∧ approvalOk s d 0x0803 (k.payload.take e) ap = true ∧
      (ticketOf (domD s d) ap.ticket).bind (fun t => t.xport) = some xp ∧
      restoreRoot d xp (restoreParts k.payload) = .ok root) ∧
    (∃ s t : State, ∃ w d : Nat, ∃ k : Work, ∃ root : Bytes, ∃ ap : Approval, ∃ r : Bytes × State,
      isReady s w 0x0804 k ∧ d = domainOf s k.alcove ∧ (domD s d).root = some root ∧ drawState s 2 = .ok ∧
      approvalAt k.payload 8 = some ap ∧ approvalOk s d 0x0804 (k.payload.take 8) ap = true ∧
      t = endTicket s d ap.ticket ∧ r = drawFrom t 2 (exportRandom (domD t d))) ∧
    (∃ s : State, ∃ w d : Nat, ∃ k : Work, ∃ ap : Approval, isReady s w 0x0805 k ∧ d = domainOf s k.alcove ∧
      approvalAt k.payload 64 = some ap ∧ approvalOk s d 0x0805 (k.payload.take 64) ap = true) ∧
    (∃ s : State, ∃ w d e : Nat, ∃ k : Work, ∃ ap : Approval, isReady s w 0x0806 k ∧ d = domainOf s k.alcove ∧
      e = custEnd k.payload ∧ approvalAt k.payload e = some ap ∧ approvalOk s d 0x0806 (k.payload.take e) ap = true ∧
      (custPart k.payload).all custKeysOk = true) := by
  refine ⟨?_, ?_, ?_, ?_, ?_, ?_⟩
  · exact ⟨sW sOn 1 0x0801 (be 2 0x0802 ++ zeros 70), 0, 1, _, _, _, ⟨rfl, rfl, rfl, rfl⟩, rfl, by decide, by decide,
    rfl, rfl⟩
  · exact ⟨sQ sBare 1 1 0x0802 (zeros 8), 0, 1, _, _, _, ⟨rfl, rfl, rfl, rfl⟩, rfl, rfl, by decide,
    some_of (by decide), approved _ _ _ _ _ _ rfl rfl rfl (by decide) (by decide) (by decide), rfl⟩
  · obtain ⟨e, l, h, o⟩ := opened "WSHR1" [] [] tShare (by simp [tShare, rootCheck, zeros])
    exact ⟨sQ sBare 1 1 0x0803 (([1] ++ zeros 7) ++ e), 0, 1, _, _, _, ([], []), interpolate [(1, zeros 32)], ⟨rfl,
      rfl, rfl, rfl⟩, rfl, rfl, rfl, (apprAt ([1] ++
      zeros 7) e _ (by simp [zeros, l, restoreEnd]; rfl)).trans (some_of (by decide)), restoreApproved e l _ (some_of (by decide)), rfl, restored e l h o⟩
  · exact ⟨sQ sOn 1 1 0x0804 (zeros 8), _, 0, 1, _, _, _, _, ⟨rfl, rfl, rfl, rfl⟩, rfl, rfl, by decide,
    some_of (by decide), approved _ _ _ _ _ _ rfl rfl rfl (by decide) (by decide) (by decide), rfl, rfl⟩
  · exact ⟨sQ sOn 1 1 0x0805 (be 4 1000 ++ zeros 60), 0, 1, _, _, ⟨rfl, rfl, rfl, rfl⟩, rfl, some_of (by decide),
    approved _ _ _ _ _ _ rfl rfl rfl (by decide) (by decide) (by decide)⟩
  · exact ⟨sQ sOn 1 1 0x0806 (be 1 1 ++ be 1 1 ++ zeros 2 ++ be 4 60 ++ tCustRec), 0, 1, _, _, _, ⟨rfl, rfl, rfl,
    rfl⟩, rfl, rfl, some_of (by decide), approved _ _ _ _ _ _ rfl rfl rfl (by decide) (by decide) (by decide),
    custOk sOn _ (by decide)⟩


/-- States and operands that meet each case of `Obligations.SliceAndAlcoveCommandsRun`. -/
theorem witness_SliceAndAlcoveCommandsRun :
    (∀ (c : Nat → Instr) (op : Nat) (old : Bool), (c = .sliceCreate ∧ op = 0x0701 ∧ old = false) ∨ (c = .sliceModify ∧
      op = 0x0702 ∧ old = true) → ∃ s : State, ∃ w : Nat, ∃ k : Work, ∃ r : SliceReq, isReady s w op k ∧
      sliceReq k.payload = some r ∧ sliceRefused s k.alcove r = none ∧
      thas s.net.slices (sliceKey k.alcove r.pid) = old) ∧
    (∃ s : State, ∃ w key : Nat, ∃ k : Work, isReady s w 0x0703 k ∧ key = sliceKey k.alcove (fld k.payload 0 4) ∧
      thas s.net.slices key = true) ∧
    (∃ s : State, ∃ w q : Nat, ∃ k : Work, ∃ r : Bytes × State, ∃ x : Qp, isReady s w 0x0704 k ∧
      q = fld k.payload 0 2 ∧ qpBusy s w q = false ∧
      (tget s.net.qps q).any (fun x => x.alcove != k.alcove || x.state != .reset) = false ∧ drawState s 5 = .ok ∧
      r = drawFrom s 5 3 ∧ x = qpConnected r.2 k (beNat r.1)) ∧
    (∃ s : State, ∃ w q : Nat, ∃ k : Work, ∃ x : Qp, isReady s w 0x0705 k ∧ q = fld k.payload 0 2 ∧
      qpBusy s w q = false ∧ tget s.net.qps q = some x ∧ x.alcove = k.alcove) ∧
    (∃ s : State, ∃ w key : Nat, ∃ k : Work, ∃ x : Slice, ∃ g : Nat × Nat × Nat, isReady s w 0x0706 k ∧
      key = sliceKey k.alcove (fld k.payload 0 4) ∧ tget s.net.slices key = some x ∧ x.region = some g ∧
      dirtyFits s x.words (dirtyWords g.2.1) = true) ∧
    (∃ s : State, ∃ w key i n : Nat, ∃ k : Work, ∃ x : Slice, isReady s w 0x0707 k ∧
      key = sliceKey k.alcove (fld k.payload 0 4) ∧ i = fld k.payload 4 4 ∧ n = fld k.payload 8 2 ∧
      tget s.net.slices key = some x ∧ i + n ≤ x.words) ∧
    (∃ s : State, ∃ w i : Nat, ∃ k : Work, ∃ x : Session, isReady s w 0x0708 k ∧ i = fld k.payload 0 1 ∧ i ≠ 0xFF ∧
      sess s k.alcove i = some x ∧ x.open_ = true) ∧
    (∃ s : State, ∃ w : Nat, ∃ k : Work, isReady s w 0x0708 k ∧ fld k.payload 0 1 = 0xFF) ∧
    (∃ s : State, ∃ w : Nat, ∃ k : Work, isReady s w 0x0709 k) ∧
    (∃ s : State, ∃ w : Nat, ∃ k : Work, isReady s w 0x070B k ∧ keySetInput s k.alcove k.payload = true) ∧
    (∀ (c : Nat → Instr) (op : Nat) (new : Bool), (c = .alcoveCreate ∧ op = 0x0A01 ∧
      new = true) ∨ (c = .alcoveConfigure ∧ op = 0x0A02 ∧ new = false) → ∃ s : State, ∃ w : Nat, ∃ k : Work,
      isReady s w op k ∧ alcoveRefused s new k.payload = none) ∧
    (∃ s : State, ∃ w a : Nat, ∃ k : Work, isReady s w 0x0A03 k ∧ a = fld k.payload 0 2 ∧ a ≠ 0 ∧
      (pairAlcove s a).isSome = true) := by
  refine ⟨?_, ?_, ?_, ?_, ?_, ?_, ?_, ?_, ?_, ?_, ?_, ?_⟩
  · rintro _ _ _ (⟨rfl, rfl, rfl⟩ | ⟨rfl, rfl, rfl⟩)
    · exact ⟨sW sOn 1 0x0701 (be 4 5 ++ be 2 0 ++ be 2 0x40 ++ zeros 48), 0, _, _, ⟨rfl, rfl, rfl, rfl⟩,
      some_of (by decide), by decide, by decide⟩
    · exact ⟨sW sSlices 1 0x0702 (be 4 5 ++ be 2 0 ++ be 2 0x40 ++ zeros 48), 0, _, _, ⟨rfl, rfl, rfl, rfl⟩,
      some_of (by decide), by decide, by decide⟩
  · exact ⟨sW sSlices 1 0x0703 (be 4 5 ++ zeros 4), 0, _, _, ⟨rfl, rfl, rfl, rfl⟩, rfl, by decide⟩
  · exact ⟨sW sOn 1 0x0704 (be 2 4095 ++ be 2 1024 ++ zeros 28), 0, _, _, _, _, ⟨rfl, rfl, rfl, rfl⟩, rfl, by decide,
    by decide, by decide, rfl, rfl⟩
  · exact ⟨sW sSlices 1 0x0705 (be 2 3 ++ zeros 6), 0, _, _, _, ⟨rfl, rfl, rfl, rfl⟩, rfl, by decide, rfl, rfl⟩
  · exact ⟨sW sSlices 1 0x0706 (be 4 6 ++ zeros 4), 0, 1048582, _, _, _, ⟨rfl, rfl, rfl, rfl⟩, by decide, rfl, rfl,
    by decide⟩
  · exact ⟨sW sSlices 1 0x0707 (be 4 6 ++ zeros 4 ++ be 2 1 ++ zeros 6), 0, 1048582, 0, 1, _, _, ⟨rfl, rfl, rfl, rfl⟩,
    by decide, by decide, by decide, rfl, by decide⟩
  · exact ⟨sW sOn 1 0x0708 (zeros 8), 0, 0, _, _, ⟨rfl, rfl, rfl, rfl⟩, rfl, by decide, rfl, by decide⟩
  · exact ⟨sW sOn 1 0x0708 ([0xFF] ++ zeros 7), 0, _, ⟨rfl, rfl, rfl, rfl⟩, rfl⟩
  · exact ⟨sW sOn 1 0x0709 (zeros 8), 0, _, ⟨rfl, rfl, rfl, rfl⟩⟩
  · exact ⟨sW sOn 1 0x070B ([1] ++ zeros 7 ++ [1, 0] ++ zeros 38), 0, _, ⟨rfl, rfl, rfl, rfl⟩, keysTaken⟩
  · rintro _ _ _ (⟨rfl, rfl, rfl⟩ | ⟨rfl, rfl, rfl⟩)
    · exact ⟨sW sOn 0 0x0A01 (tAlc 2 1), 0, _, ⟨rfl, rfl, rfl, rfl⟩, by decide⟩
    · exact ⟨sW sOn 0 0x0A02 (tAlc 1 1), 0, _, ⟨rfl, rfl, rfl, rfl⟩, by decide⟩
  · exact ⟨sW sOn 0 0x0A03 (be 2 1 ++ zeros 6), 0, 1, _, ⟨rfl, rfl, rfl, rfl⟩, rfl, by decide, by decide⟩


/-- States and operands that meet each case of `Obligations.ManagerAndTallyCommandsRun`. The spec gives the hash of
the Tally's root key no value; the case that needs one names that of the test key. -/
theorem witness_ManagerAndTallyCommandsRun :
    (∃ s t : State, ∃ w n : Nat, ∃ k : Work, isReady s w 0x0A04 k ∧ n = 784 + fld k.payload 4 4 ∧
      loadDenied s k.role k.key = false ∧ (if loadNeedsQuorum s k.payload then ∃ ap,
      approvalAt k.payload n = some ap ∧ approvalOk s 0 0x0A04 (k.payload.take n) ap = true ∧
      t = endTicket s 0 ap.ticket else t = s) ∧ loadRefused t (secHead k.payload) (secLoad k.payload) = none) ∧
    (∃ s t : State, ∃ w n : Nat, ∃ k : Work, ∃ b : List (Nat × Nat), ∃ img : Bytes, ∃ ap : Approval, ∃ l : Life,
      isReady s w 0x0A05 k ∧ n = 48 + fld k.payload 40 4 ∧ img = slice k.payload 48 (fld k.payload 40 4) ∧
      approvalAt k.payload n = some ap ∧ lifeQuorum s (k.payload.take n) img ap = true ∧
      l = lifeOf (fld k.payload 0 1) ∧ s.life.voteFail = false ∧ ownerMay s.life.life l = true ∧
      t = modWork (endTicket s 0 ap.ticket) w (fun k => { k with stage := .waitEpoch 9 0 [] })) ∧
    (∃ s t : State, ∃ w d e : Nat, ∃ k : Work, ∃ ap : Approval, ∃ m : BitVec 4, isReady s w 0x0A06 k ∧
      m = BitVec.ofNat 4 (fld k.payload 0 1) ∧ d = fld k.payload 4 4 ∧ approvalAt k.payload 8 = some ap ∧
      approvalOk s 0 0x0A06 (k.payload.take 8) ap = true ∧ t = endTicket s 0 ap.ticket ∧
      m &&& ~~~ (lcAllowed t.life) = 0 ∧ e = t.time + d * 10 ^ 9) ∧
    (∃ s : State, ∃ w i : Nat, ∃ k : Work, ∃ u : UnitKind, ∃ z : Nat, ∃ l : List Nat, isReady s w 0x0A07 k ∧
      i = fld k.payload 1 1 ∧ unitKindOf (fld k.payload 0 1) = some (u, z) ∧ unitInner s u i = false ∧
      unitHanding s u i = false ∧ l = (unitNos u i).filter (fun n => inServe (unitAt s u n).1) ∧ l ≠ []) ∧
    (∃ s : State, ∃ w i : Nat, ∃ k : Work, ∃ u : UnitKind, ∃ z : Nat, ∃ l : List Nat, isReady s w 0x0A08 k ∧
      i = fld k.payload 1 1 ∧ unitKindOf (fld k.payload 0 1) = some (u, z) ∧ unitHanding s u i = false ∧
      l = (unitNos u i).filter (fun n => returnActs u (unitAt s u n)) ∧ l ≠ []) ∧
    (∃ s t : State, ∃ w c n : Nat, ∃ k : Work, ∃ ap : Approval, isReady s w 0x0A09 k ∧ c = fld k.payload 0 1 ∧
      n = fld k.payload 4 4 ∧ approvalAt k.payload (16 + n) = some ap ∧
      approvalOk s 0 0x0A09 (k.payload.take (16 + n)) ap = true ∧ t = endTicket s 0 ap.ticket ∧
      t.boot.activated = false ∧ (c ≠ 0 → imageRefused t c (slice k.payload 16 n) = none)) ∧
    (∃ s : State, ∃ w : Nat, ∃ k : Work, isReady s w 0x0A0A k) ∧
    (∃ s : State, ∃ w i : Nat, ∃ k : Work, isReady s w 0x0A0B k ∧ fld k.payload 0 1 = 0 ∧ i = fld k.payload 8 8 ∧
      i ≤ s.tally.newest ∧ s.tally.newest < i + 1536) ∧
    (∃ s : State, ∃ w : Nat, ∃ k : Work, ∃ r : TallyRec, isReady s w 0x0A0B k ∧ fld k.payload 0 1 = 1 ∧
      tget s.tally.records s.tally.newest = some r ∧ s.tally.time < r.time + 10 ^ 9) ∧
    (∃ s : State, ∃ w : Nat, ∃ k : Work, isReady s w 0x0A0B k ∧ fld k.payload 0 1 = 1 ∧
      (tget s.tally.records s.tally.newest).all (fun r => decide (r.time + 10 ^ 9 ≤ s.tally.time)) = true) ∧
    (∃ s : State, ∃ w : Nat, ∃ k : Work, isReady s w 0x0A0B k ∧ fld k.payload 0 1 = 2) ∧
    (∃ s : State, ∃ w : Nat, ∃ k : Work, isReady s w 0x0A0B k ∧ fld k.payload 0 1 = 3) ∧
    (Config.tallyRootHash = Config.sha512 tKey → ∃ s t : State, ∃ w n b : Nat, ∃ k : Work, ∃ ap : Approval,
      isReady s w 0x0A0C k ∧ n = 784 + fld k.payload 4 4 + fld k.payload 8 4 ∧ approvalAt k.payload n = some ap ∧
      approvalOk s 0 0x0A0C (k.payload.take n) ap = true ∧ t = endTicket s 0 ap.ticket ∧
      resealRefused t k.payload = none) ∧
    (∃ s : State, ∃ w g : Nat, ∃ k : Work, ∃ ap : Approval, isReady s w 0x0A0D k ∧ g = fld k.payload 0 1 ∧
      approvalAt k.payload 8 = some ap ∧ approvalOk s 0 0x0A0D (k.payload.take 8) ap = true ∧ g ≠ 0 ∧
      g = s.bb.gap.toNat) ∧
    (∃ s : State, ∃ w : Nat, ∃ k : Work, ∃ r : Nat × Bytes × State, isReady s w 0x0A10 k ∧
      r = readList ((List.range (fld k.payload 0 2)).map (fun i => fld k.payload (4 + 4 * i) 4)) 0 0 [] s) ∧
    (∃ s t : State, ∃ w n : Nat, ∃ k : Work, ∃ ap : Approval, isReady s w 0x0A11 k ∧ n = 4 + 12 * fld k.payload 0 2 ∧
      (writeEntries k.payload).any (fun e => ownWindow e.1) = false ∧ approvalAt k.payload n = some ap ∧
      approvalOk s 0 0x0A11 (k.payload.take n) ap = true ∧
      writeList (writeEntries k.payload) 0 (endTicket s 0 ap.ticket) = (none, t)) := by
  refine ⟨?_, ?_, ?_, ?_, ?_, ?_, ?_, ?_, ?_, ?_, ?_, ?_, ?_, ?_, ?_, ?_⟩
  · exact ⟨sWork (sT sOwned 0 0x0A04 (be 1 1 ++ zeros 15 ++
    tHead)) { tWork 0 0x0A04 (be 1 1 ++ zeros 15 ++ tHead ++ tAppr) with role := .steward }, _, 0, 784, _, ⟨rfl, rfl,
    rfl, rfl⟩, rfl, by decide, by
          rw [if_pos (by decide)]
          exact ⟨_, some_of (by decide), approved _ _ _ _ _ _ rfl rfl rfl (by decide) (by decide) (by decide), rfl⟩,
            loads _ rfl (by decide) rfl⟩
  · exact ⟨sQ sOn 0 0 0x0A05 ([5] ++ zeros 47), _, 0, 48, _, [], [], _, .return, ⟨rfl, rfl, rfl, rfl⟩, rfl, rfl,
    some_of (by decide),
    (if_neg (by decide)).trans (approved _ _ _ _ _ _ rfl rfl rfl (by decide) (by decide) (by decide)), rfl, by decide,
    by decide, rfl⟩
  · exact ⟨sQ sOn 0 0 0x0A06 ([1] ++ zeros 3 ++ be 4 60), _, 0, 60, _, _, _, _, ⟨rfl, rfl, rfl, rfl⟩, rfl, rfl,
    some_of (by decide), approved _ _ _ _ _ _ rfl rfl rfl (by decide) (by decide) (by decide), rfl, by decide, rfl⟩
  · exact ⟨sW sUnits 0 0x0A07 ([1] ++ zeros 7), 0, 0, _, .cipherBay, 4, _, ⟨rfl, rfl, rfl, rfl⟩, rfl, rfl, by decide,
    by decide, rfl, by decide⟩
  · exact ⟨sW sOn 0 0x0A08 ([1, 3] ++ zeros 6), 0, 3, _, .cipherBay, 4, _, ⟨rfl, rfl, rfl, rfl⟩, rfl, rfl, by decide,
    rfl, by decide⟩
  · exact ⟨sQ sLoader 0 0 0x0A09 ([4] ++ zeros 3 ++ be 4 248 ++ zeros 8 ++ tMicro), _, 0, 4, 248, _, _, ⟨rfl, rfl,
    rfl, rfl⟩, rfl, rfl, some_of (by decide), approved _ _ _ _ _ _ rfl rfl rfl (by decide) (by decide) (by decide),
    rfl, by decide, (fun _ => (congrArg (imageRefused _ 4) (by decide)).trans (microcode _ rfl))⟩
  · exact ⟨sW sOn 0 0x0A0A (zeros 8), 0, _, ⟨rfl, rfl, rfl, rfl⟩⟩
  · exact ⟨sW sOn 0 0x0A0B (zeros 24), 0, 0, _, ⟨rfl, rfl, rfl, rfl⟩, rfl, rfl, by decide, by decide⟩
  · exact ⟨sW sRec 0 0x0A0B ([1] ++ zeros 23), 0, _, _, ⟨rfl, rfl, rfl, rfl⟩, rfl, rfl, by decide⟩
  · exact ⟨sW sOn 0 0x0A0B ([1] ++ zeros 23), 0, _, ⟨rfl, rfl, rfl, rfl⟩, rfl, by decide⟩
  · exact ⟨sW sOn 0 0x0A0B ([2] ++ zeros 23), 0, _, ⟨rfl, rfl, rfl, rfl⟩, rfl⟩
  · exact ⟨sW sOn 0 0x0A0B ([3] ++ zeros 23), 0, _, ⟨rfl, rfl, rfl, rfl⟩, rfl⟩
  · exact fun c => ⟨sQ sOn 0 0 0x0A0C ([2] ++ zeros 7 ++ be 4 288 ++ zeros 772 ++ tTallyImage), _, 0, 1072, 0, _, _,
    ⟨rfl, rfl, rfl, rfl⟩, rfl, some_of (by decide),
    approved _ _ _ _ _ _ rfl rfl rfl (by decide) (by decide) (by decide), rfl,
    resealed c _ _ (by decide) (by decide) (by decide) (by decide)⟩
  · exact ⟨sQ { sOn with bb := { sOn.bb with gap := 1 } } 0 0 0x0A0D ([1] ++ zeros 7), 0, 1, _, _, ⟨rfl, rfl, rfl,
    rfl⟩, rfl, some_of (by decide), approved _ _ _ _ _ _ rfl rfl rfl (by decide) (by decide) (by decide), by decide,
    rfl⟩
  · exact ⟨sW sOn 0 0x0A10 (be 2 1 ++ zeros 2 ++ be 4 0), 0, _, _, ⟨rfl, rfl, rfl, rfl⟩, rfl⟩
  · exact ⟨sQ sOn 0 0 0x0A11 (be 2 1 ++ zeros 2 ++ be 4 0x20008 ++ be 4 0 ++ be 4 0), _, 0, 16, _, _, ⟨rfl, rfl, rfl,
    rfl⟩, rfl, by decide, some_of (by decide), approved _ _ _ _ _ _ rfl rfl rfl (by decide) (by decide) (by decide),
    written⟩


/-- States and operands that meet each case of `Obligations.PairingGrantsAndMigrationRun`. The spec gives the key of Golune's device
certification authority no value; the cases that need one name the test key. -/
theorem witness_PairingGrantsAndMigrationRun :
    (Config.deviceCa = tKey → ∃ s t : State, ∃ w n : Nat, ∃ k : Work, ∃ ap : Approval, ∃ st : Bytes,
      isReady s w 0x0B01 k ∧ n = pairEnd k.payload ∧ approvalAt k.payload n = some ap ∧
      approvalOk s 0 0x0B01 (k.payload.take n) ap = true ∧ t = endTicket s 0 ap.ticket ∧ st = slice k.payload 8 1006 ∧
      fld k.payload 0 1 = 1 ∧ pairRefused t k.payload = none) ∧
    (∃ s t : State, ∃ w n : Nat, ∃ k : Work, ∃ ap : Approval, ∃ st : Bytes, isReady s w 0x0B01 k ∧
      n = pairEnd k.payload ∧ approvalAt k.payload n = some ap ∧ approvalOk s 0 0x0B01 (k.payload.take n) ap = true ∧
      t = endTicket s 0 ap.ticket ∧ st = slice k.payload 8 1006 ∧ fld k.payload 0 1 = 2) ∧
    (∃ s t : State, ∃ w n : Nat, ∃ k : Work, ∃ ap : Approval, ∃ st : Bytes, ∃ u : State, isReady s w 0x0B01 k ∧
      n = pairEnd k.payload ∧ approvalAt k.payload n = some ap ∧ approvalOk s 0 0x0B01 (k.payload.take n) ap = true ∧
      t = endTicket s 0 ap.ticket ∧ st = slice k.payload 8 1006 ∧ fld k.payload 0 1 = 3 ∧
      (t.twin.state = .held ∨ t.twin.state = .yielded) ∧ u = (tkeys t.twin.alcoves).foldl openRecord (surviveAll t)) ∧
    (∃ s : State, ∃ w : Nat, ∃ k : Work, isReady s w 0x0B02 k ∧ fld k.payload 0 1 = 0) ∧
    (∃ s : State, ∃ w : Nat, ∃ k : Work, ∃ t : State, isReady s w 0x0B02 k ∧ fld k.payload 0 1 = 1 ∧
      (s.gallery.member = none ∨ s.gallery.member = some (fld k.payload 8 1)) ∧
      t = addBlock { s with gallery := { s.gallery with member := some (fld k.payload 8 1), number := fld k.payload 9 1 } } (fld k.payload 12 4)) ∧
    (∃ s : State, ∃ w : Nat, ∃ k : Work, ∃ t : State, isReady s w 0x0B02 k ∧ fld k.payload 0 1 = 2 ∧
      t = addBlock s (fld k.payload 8 4)) ∧
    (∃ s : State, ∃ w : Nat, ∃ k : Work, ∃ key : Bytes, isReady s w 0x0B02 k ∧ fld k.payload 0 1 = 3 ∧
      keyIn s "WGRK1" (k.payload.drop 16) = some key) ∧
    (∃ s : State, ∃ w : Nat, ∃ k : Work, ∃ env, ∃ d, ∃ m, ∃ f0, ∃ f1, isReady s w 0x0B02 k ∧ fld k.payload 0 1 = 4 ∧
      env = k.payload.drop 24 ∧ grantDomain s env = some d ∧ openEnvelope (domD s d).grantKey env = some m ∧
      f0 = grantFace env (fld env 6 2) (fld k.payload 16 4) 0 ∧
      f1 = grantFace env (fld env 6 2) (fld k.payload 16 4) 1 ∧ rootMissing s d = false ∧
      facesOk (fld env 6 2) (fld env 8 2) f0 f1 = true ∧
      grantBad s (fld k.payload 8 4) (fld k.payload 12 4) f0 f1 = false ∧
      domainUse s d + slotsFor m.length ≤ (domD s d).quota ∧ slotsFor m.length - 1 ≤ freeCount s) ∧
    (∃ s : State, ∃ w : Nat, ∃ k : Work, ∃ slot, ∃ n, ∃ x, isReady s w 0x0B02 k ∧ fld k.payload 0 1 = 5 ∧
      grantedFace s (fld k.payload 8 8) = some (slot, n, x)) ∧
    (∃ s : State, ∃ w a : Nat, ∃ k : Work, ∃ x, ∃ key : Bytes, isReady s w 0x0B03 k ∧ a = migAlcove k.payload ∧
      s.gallery.member ≠ some (migPeer k.payload) ∧ fld k.payload 0 1 = 1 ∧ alc s a = some x ∧ a ≠ 0 ∧
      x.migration = none ∧ x.removing = false ∧ keyIn s "WMIG1" (k.payload.drop 16) = some key ∧
      (alcoveSecrets s a).length ≤ 65536) ∧
    (∃ s : State, ∃ w a : Nat, ∃ k : Work, ∃ x, ∃ m, isReady s w 0x0B03 k ∧ a = migAlcove k.payload ∧
      s.gallery.member ≠ some (migPeer k.payload) ∧ fld k.payload 0 1 = 2 ∧ migOut s k.payload false = some (x, m)) ∧
    (∃ s : State, ∃ w a : Nat, ∃ k : Work, ∃ x, ∃ m, ∃ t : State, isReady s w 0x0B03 k ∧ a = migAlcove k.payload ∧
      s.gallery.member ≠ some (migPeer k.payload) ∧ fld k.payload 0 1 = 3 ∧ migOut s k.payload false = some (x, m) ∧
      stopFits s a x m (liveBytes s a) = true ∧ alcoveWorks s a w = false ∧
      t = modAlc (quiesce s a) a (fun y => { y with stopped := true })) ∧
    (∃ s : State, ∃ w a : Nat, ∃ k : Work, ∃ p, ∃ t : State, isReady s w 0x0B03 k ∧ a = migAlcove k.payload ∧
      s.gallery.member ≠ some (migPeer k.payload) ∧ fld k.payload 0 1 = 4 ∧ migOut s k.payload true = some p ∧
      t = recordAlone s 0 (.alcoveRemove a)) ∧
    (∃ s : State, ∃ w a : Nat, ∃ k : Work, ∃ x, ∃ m, isReady s w 0x0B03 k ∧ a = migAlcove k.payload ∧
      s.gallery.member ≠ some (migPeer k.payload) ∧ fld k.payload 0 1 = 5 ∧ alc s a = some x ∧ x.migration = some m ∧
      m.number = migNumber k.payload) ∧
    (∃ s : State, ∃ w a : Nat, ∃ k : Work, ∃ key : Bytes, ∃ m : Migration, isReady s w 0x0B04 k ∧
      a = migAlcove k.payload ∧ s.gallery.member ≠ some (migPeer k.payload) ∧ fld k.payload 0 1 = 1 ∧ a ≠ 0 ∧
      pairAlcove s a = none ∧ thas s.gallery.reserved a = false ∧ keyIn s "WMIG1" (k.payload.drop 16) = some key ∧
      m = { number := migNumber k.payload, out := false, phase := 1, peer := migPeer k.payload, key := key, chunk := 0, pages := [], secs := [], map := [] }) ∧
    (∃ s : State, ∃ w a : Nat, ∃ k : Work, ∃ m, ∃ t : State, ∃ n, ∃ live : Bytes, isReady s w 0x0B04 k ∧
      a = migAlcove k.payload ∧ s.gallery.member ≠ some (migPeer k.payload) ∧ fld k.payload 0 1 = 2 ∧
      migIn s k.payload = some m ∧ takeChunk s a m (k.payload.drop 16) false = .ok (t, n, live)) ∧
    (∃ s : State, ∃ w a : Nat, ∃ k : Work, ∃ m, ∃ t : State, ∃ n, ∃ live : Bytes, ∃ r, isReady s w 0x0B04 k ∧
      a = migAlcove k.payload ∧ s.gallery.member ≠ some (migPeer k.payload) ∧ fld k.payload 0 1 = 3 ∧
      migIn s k.payload = some m ∧ takeChunk s a m (k.payload.drop 16) true = .ok (t, n, live) ∧
      r = (alcoveParse ((tvals n.pages).flatten)).1 ∧ r.set.alcove = a ∧
      (liveParse s.time r.set.alcove live).2.any (fun e => thas s.net.qps e.1) = false) ∧
    (∃ s : State, ∃ w a : Nat, ∃ k : Work, ∃ m, ∃ t : State, isReady s w 0x0B04 k ∧ a = migAlcove k.payload ∧
      s.gallery.member ≠ some (migPeer k.payload) ∧ fld k.payload 0 1 = 5 ∧ migIn s k.payload = some m ∧
      t = ((m.map.map (fun e => hSlot e.2)).eraseDups).foldl (fun s n => mutateAlone s (((tget s.keys.secrets n).map (fun x => x.domain)).getD 0) 0 (.destroySecret n)) s) := by
  refine ⟨?_, ?_, ?_, ?_, ?_, ?_, ?_, ?_, ?_, ?_, ?_, ?_, ?_, ?_, ?_, ?_, ?_, ?_⟩
  · exact fun c => ⟨sQ sPartner 0 0 0x0B01 tPair, _, 0, _, _, _, _, ⟨rfl, rfl, rfl, rfl⟩, rfl,
    some_of (by decide +kernel), approved _ _ _ _ _ _ rfl rfl rfl (by decide) (by decide) (by decide), rfl, rfl, rfl,
    pairs c _ _ (by decide +kernel) (by decide +kernel) rfl rfl rfl rfl⟩
  · exact ⟨sQ sOn 0 0 0x0B01 ([2] ++ zeros 7), _, 0, 8, _, _, _, ⟨rfl, rfl, rfl, rfl⟩, rfl, some_of (by decide),
    approved _ _ _ _ _ _ rfl rfl rfl (by decide) (by decide) (by decide), rfl, rfl, rfl⟩
  · exact ⟨sQ { sOn with twin := { twinReset with state := .held } } 0 0 0x0B01 ([3] ++ zeros 7), _, 0, 8, _, _, _, _,
    ⟨rfl, rfl, rfl, rfl⟩, rfl, some_of (by decide),
    approved _ _ _ _ _ _ rfl rfl rfl (by decide) (by decide) (by decide), rfl, rfl, rfl, .inl rfl, rfl⟩
  · exact ⟨sW sWorker 0 0x0B02 (zeros 8), 0, _, ⟨rfl, rfl, rfl, rfl⟩, rfl⟩
  · exact ⟨sW sWorker 0 0x0B02 ([1] ++ zeros 7 ++ be 1 1 ++ zeros 7), 0, _, _, ⟨rfl, rfl, rfl, rfl⟩, rfl, .inr rfl,
    rfl⟩
  · exact ⟨sW sWorker 0 0x0B02 ([2] ++ zeros 7 ++ be 4 4096 ++ zeros 4), 0, _, _, ⟨rfl, rfl, rfl, rfl⟩, rfl, rfl⟩
  · obtain ⟨e, o⟩ := opensKey "WGRK1"
    have p : ([3] ++ zeros 15 ++ e : Bytes).drop 16 = e := rfl
    have k : keyIn (sW sWorker 0 0x0B02 ([3] ++ zeros 15 ++ e)) "WGRK1" (([3] ++ zeros 15 ++
      e : Bytes).drop 16) = some (zeros 32) :=
      (congrArg (keyIn _ "WGRK1") p).trans (o _ rfl rfl)
    exact ⟨sW sWorker 0 0x0B02 ([3] ++ zeros 15 ++ e), 0, tWork 0 0x0B02 ([3] ++ zeros 15 ++ e), zeros 32, ⟨rfl, rfl,
      rfl, rfl⟩, rfl, k⟩
  · exact ⟨sW sWorker 0 0x0B02 tGrant, 0, _, tSealed, 0, zeros 32, _, _, ⟨rfl, rfl, rfl, rfl⟩, rfl, rfl,
    grantNames _ rfl, envelopeOpens, rfl, rfl, by decide, by decide, by decide, by decide, by decide⟩
  · exact ⟨sW sGranted 0 0x0B02 ([5] ++ zeros 7 ++ be 8 (mkHandle 1 1572864 0 7)), 0, _, 1572864, 0, _, ⟨rfl, rfl,
    rfl, rfl⟩, rfl, rfl⟩
  · obtain ⟨e, o⟩ := opensKey "WMIG1"
    exact ⟨sW sWorker 0 0x0B03 (tMigrate 1 1 ++ e), 0, 1, _, _, _, ⟨rfl, rfl, rfl, rfl⟩, rfl,
      (by decide : (some 1 : Option Nat) ≠ some 2), rfl, rfl, (by decide : (1 : Nat) ≠ 0), rfl, by decide,
      (congrArg (keyIn _ "WMIG1") (rfl : _ = e)).trans (o _ rfl rfl), (by decide : 0 ≤ 65536)⟩
  · exact ⟨sW (sOut 2) 0 0x0B03 (tMigrate 2 1), 0, 1, _, _, _, ⟨rfl, rfl, rfl, rfl⟩, rfl, by decide, rfl, rfl⟩
  · exact ⟨sW (sOut 2) 0 0x0B03 (tMigrate 3 1), 0, 1, _, _, _, _, ⟨rfl, rfl, rfl, rfl⟩, rfl, by decide, rfl, rfl,
    by decide, by decide, rfl⟩
  · exact ⟨sW (sOut 3) 0 0x0B03 (tMigrate 4 1), 0, 1, _, (_, _), _, ⟨rfl, rfl, rfl, rfl⟩, rfl, by decide, rfl, rfl,
    rfl⟩
  · exact ⟨sW (sOut 3) 0 0x0B03 (tMigrate 5 1), 0, 1, _, _, _, ⟨rfl, rfl, rfl, rfl⟩, rfl, by decide, rfl, rfl, rfl,
    rfl⟩
  · obtain ⟨e, o⟩ := opensKey "WMIG1"
    exact ⟨sW sWorker 0 0x0B04 (tMigrate 1 2 ++ e), 0, 2, _, _, _, ⟨rfl, rfl, rfl, rfl⟩, rfl,
      (by decide : (some 1 : Option Nat) ≠ some 2), rfl, (by decide : (2 : Nat) ≠ 0), rfl, rfl,
      (congrArg (keyIn _ "WMIG1") (rfl : _ = e)).trans (o _ rfl rfl), rfl⟩
  · exact ⟨sW (sIn (tMig false 1)) 0 0x0B04 (tMigrate 2 2 ++ tChunk 0 []), 0, 2, _, _, _, _, _, ⟨rfl, rfl, rfl, rfl⟩,
    rfl, by decide, rfl, rfl, pagesTaken⟩
  · exact ⟨sW (sIn (tMig false 1)) 0 0x0B04 (tMigrate 3 2 ++ tChunk 1 [tPage]), 0, 2, _, _, _, _, _, _, ⟨rfl, rfl,
    rfl, rfl⟩, rfl, by decide, rfl, rfl, finalTaken, rfl, by decide +kernel, by decide +kernel⟩
  · exact ⟨sW (sIn (tMig false 1)) 0 0x0B04 (tMigrate 5 2), 0, 2, _, _, _, ⟨rfl, rfl, rfl, rfl⟩, rfl, by decide, rfl,
    rfl, rfl⟩


/-- States and operands that meet each case of `Obligations.KeyStoreAndAdmissionEventsRun`. -/
theorem witness_KeyStoreAndAdmissionEventsRun :
    (∃ s t : State, ∃ d : Nat, ∃ m : Mutation, ∃ l : List Mutation, ∃ r : JournalRec, (domD s d).pending = m :: l ∧
      seqHere s d = true ∧ m.placed = none ∧ journalTakes s m.size = true ∧ placeHead s d m = (t, some r)) ∧
    (∃ s : State, ∃ d : Nat, ∃ m : Mutation, ∃ l : List Mutation, ∃ r : JournalRec, (domD s d).pending = m :: l ∧
      seqHere s d = true ∧ m.placed = some r ∧ (s.twin.state = .joined → s.twin.link = 3)) ∧
    (∃ s : State, ∃ d : Nat, ∃ r : JournalRec, seqHere s d = false ∧ heldFirst s d = some r ∧
      journalTakes s (recordSize r.body) = true) ∧
    (∃ s : State, ∃ d : Nat, ∃ m : Mutation, ∃ l : List Mutation, (domD s d).pending = m :: l ∧ seqHere s d = false ∧
      heldFirst s d = none ∧ journalTakes s m.size = true ∧ m.sent = false) ∧
    (∃ s : State, ∃ r : MarkRef, ∃ d : Nat, markDomain s r = some d ∧ journalTakes s (recordSize (.mark r)) = true ∧
      seqHere s d = true) ∧
    (∃ s : State, ∃ r : MarkRef, ∃ d : Nat, markDomain s r = some d ∧ journalTakes s (recordSize (.mark r)) = true ∧
      seqHere s d = false ∧ s.twin.marksSent.contains r = false) ∧
    (∃ s : State, ∃ a x : Archive, ∃ void : Bool, s.keys.snapping = some a ∧ x = sealSnap s a ∧
      void = (vectorRises s || !s.keys.oldJournal.isEmpty || !archiveOpens s)) ∧
    (∃ s t : State, ∃ n : Nat,
      t = { s with keys := { s.keys with journal := s.keys.journal.drop n, archJournal := s.keys.archJournal ++ s.keys.journal.take n } }) ∧
    (∃ s t : State, ∃ b : Nat, ∃ h c : BitVec 16, s.power.powered = true ∧ s.keys.journal = [] ∧
      t = modPower s (fun p => { p with hottest := h, coolest := c }) ∧
      tgetD s.keys.refreshed b 0 + refreshPeriod t ≤ s.time) ∧
    (∃ s : State, ∃ n : Nat, ∃ x : Secret, ∃ f : Face, tget s.keys.secrets n = some x ∧ x.granted = true ∧
      x.face0 = some f ∧ x.face1 = none ∧ f.notAfter < tallySec s ∧
      (domD s x.domain).pending.any (fun m => m.body == .destroyFace n 0) = false) ∧
    (∃ s : State, ∃ d : Nat, ∃ i : Bytes, ∃ t : Ticket, ticketOf (domD s d) i = some t ∧ t.expires < tallySec s) ∧
    (∃ s : State, ∃ d side : Nat, ∃ x : Domain, dom s d = some x ∧ x.nextSide = some side ∧
      x.pending.any (fun m => m.sent || m.placed.isSome) = false ∧ heldFirst s d = none) ∧
    (∃ s : State, s.power.powered = true ∧ s.boot.epochAt + 10000 ≤ s.time) ∧
    (∃ s : State, ∃ w : Nat, ∃ k : Work, wrk s w = some k ∧ k.deadline ≤ s.time + 1 ∧ k.stage = .waitRng) ∧
    (∃ s : State, ∃ w : Nat, ∃ k : Work, wrk s w = some k ∧ k.deadline ≤ s.time + 1 ∧ k.stage = .ready) ∧
    (∃ s : State, ∃ w : Nat, ∃ k : Work, wrk s w = some k ∧ k.deadline ≤ s.time + 1 ∧ k.stage = .issued) ∧
    (∃ s : State, ∃ w : Nat, ∃ k : Work, wrk s w = some k ∧ k.deadline ≤ s.time + 1 ∧ k.stage = .mutating ∧
      isPlaced s w = false) ∧
    (∃ s : State, ∃ n : Nat, n < 8) := by
  refine ⟨?_, ?_, ?_, ?_, ?_, ?_, ?_, ?_, ?_, ?_, ?_, ?_, ?_, ?_, ?_, ?_, ?_, ?_⟩
  · exact ⟨sMut, (placeHead sMut 1 tMut).1, 1, _, _, (placeHead sMut 1 tMut).2.get (by decide), rfl, by decide, rfl,
    by decide, Prod.ext rfl (some_of (by decide))⟩
  · exact ⟨setDom sMut 1 (fun x => { x with pending := [{ tMut with placed := some (tRec (.destroySecret 5) .destroySecret) }] }),
    1, _, _, _, rfl, by decide, rfl, by decide⟩
  · exact ⟨setDom (modTw (fun t => { t with held := [tRec (.destroySecret 5) .destroySecret] })) 1 (fun x => { x with sequencer := 1 }),
    1, _, by decide, rfl, by decide⟩
  · exact ⟨setDom sTwin 1 (fun x => { x with sequencer := 1, pending := [tMut] }), 1, _, _, rfl, by decide, rfl,
    by decide, by decide⟩
  · exact ⟨sK { tSec 1 256 .encrypt with face0 := some { tFace .encrypt with nextInv := 2 ^ 19 } }, .invocation 5 0,
    1, rfl, by decide, by decide⟩
  · exact ⟨setDom { sK { tSec 1 256 .encrypt with face0 := some { tFace .encrypt with nextInv := 2 ^ 19 } } with twin := sTwin.twin } 1 (fun x => { x with sequencer := 1 }),
    .invocation 5 0, 1, rfl, by decide, by decide, by decide⟩
  · exact ⟨modKeys sOn (fun k => { k with snapping := some archiveReset }), _, _, _, rfl, rfl, rfl⟩
  · exact ⟨sOn, _, 2, rfl⟩
  · exact ⟨{ sOn with time := 30 * 24 * 3600 * 10 ^ 9 }, _, 5, 20, 10, by decide, rfl, rfl, by decide⟩
  · exact ⟨sK { tSec 1 256 .encrypt with granted := true, face0 := some { tFace .encrypt with notAfter := 999 } }, 5,
    _, _, rfl, by decide, rfl, rfl, by decide, by decide⟩
  · exact ⟨setDom sOn 1 (fun x => { x with tickets := [{ tTicket 0x0802 [] with expires := 999 }] }), 1, zeros 16, _,
    rfl, by decide⟩
  · exact ⟨setDom sOn 1 (fun x => { x with nextSide := some 1 }), 1, 1, _, rfl, rfl, by decide, rfl⟩
  · exact ⟨sOn, by decide, by decide⟩
  · exact ⟨sWork sOn { tWork 1 0x0401 (zeros 8) with stage := .waitRng, deadline := 10 ^ 12 + 1 }, 0, _, rfl,
    by decide, rfl⟩
  · exact ⟨sWork sOn { tWork 1 0x0401 (zeros 8) with stage := .ready, deadline := 10 ^ 12 + 1 }, 0, _, rfl, by decide,
    rfl⟩
  · exact ⟨sWork sOn { tWork 1 0x0401 (zeros 8) with stage := .issued, deadline := 10 ^ 12 + 1 }, 0, _, rfl,
    by decide, rfl⟩
  · exact ⟨sWork sOn { tWork 1 0x0507 (zeros 8) with stage := .mutating, deadline := 10 ^ 12 + 1 }, 0, _, rfl,
    by decide, rfl, by decide⟩
  · exact ⟨sOn, 7, by decide⟩


/-- States and operands that meet each case of `Obligations.EnginesDeliver`. -/
theorem witness_EnginesDeliver :
    (∃ s : State, ∃ n : Nat, ∃ o : UnitOp, tget s.cipher.ops n = some o ∧ endsInTurn s n o = true ∧
      o.wing = .cipher) ∧
    (∃ s : State, ∃ n : Nat, ∃ o : UnitOp, tget s.cipher.ops n = some o ∧ endsInTurn s n o = true ∧ o.wing = .hash) ∧
    (∃ s : State, ∃ n : Nat, ∃ o : UnitOp, tget s.cipher.ops n = some o ∧ endsInTurn s n o = true ∧
      o.wing = .legacy) ∧
    (∃ s : State, ∃ n : Nat, ∃ o : UnitOp, tget s.cipher.ops n = some o ∧ o.wing = .hash) ∧
    (∃ s : State, ∃ b c i j : Nat, ∃ x : Job, b < 6 ∧ c < 8 ∧ i = 8 * b + c ∧ (coreAt s i).job = some j ∧
      jobAt s j = some x ∧ (coreAt s i).state ≠ .moving ∧ x.abort = false ∧ x.half = false ∧ (x.prog = 0x23 →
      searchDone s x = true) ∧ (endsKey x.prog = true → pairStands x.result = true)) ∧
    (∃ s : State, ∃ b c i j : Nat, ∃ x : Job, b < 6 ∧ c < 8 ∧ i = 8 * b + c ∧ (coreAt s i).job = some j ∧
      jobAt s j = some x ∧ (coreAt s i).state ≠ .moving ∧ (x.prog = 0x23 → x.abort = false → searchDone s x = true)) ∧
    (∃ s t u : State, ∃ b c i j : Nat, ∃ x y : Job, ∃ same : List Nat, b < 6 ∧ c < 8 ∧ i = 8 * b + c ∧
      (coreAt s i).job = some j ∧ jobAt s j = some x ∧ x.waiting = false ∧ x.long = true ∧
      (coreAt s i).state ≠ .moving ∧ y = { x with iters := x.iters + 1 } ∧
      t = perfAdd (modJob s j (fun z => { z with iters := y.iters })) (5 + b) 0x17 1 ∧
      u = (if x.prog = 0x38 ∨ x.prog = 0x3C then perfAdd t (5 + b) 0x18 1 else t) ∧ x.abort = false ∧
      (budgetSpent s.time y = true → overBudget u y = true)) ∧
    (∃ s : State, ∃ b c i j : Nat, ∃ x : Job, b < 6 ∧ c < 8 ∧ i = 8 * b + c ∧ (coreAt s i).state = .moving ∧
      (coreAt s i).drains = false ∧ (coreAt s i).job = none ∧ (coreAt s i).next = some j ∧ jobAt s j = some x) ∧
    (∃ s : State, ∃ b c i : Nat, b < 6 ∧ c < 8 ∧ i = 8 * b + c ∧ (coreAt s i).busy = true ∧ (coreAt s i).job = none ∧
      (coreAt s i).next = none ∧ (coreAt s i).state ≠ .zeroising) ∧
    (∃ s : State, ∃ b c i : Nat, b < 6 ∧ c < 8 ∧ i = 8 * b + c ∧ (coreAt s i).lost = true ∧
      underTest (coreAt s i).state = true) ∧
    (∃ s : State, ∃ b c i : Nat, b < 6 ∧ c < 8 ∧ i = 8 * b + c ∧ (coreAt s i).state = .zeroising) ∧
    (∃ s : State, ∃ k : UnitKind, ∃ i n : Nat, ∃ a b : Bool, unitInTest s k i n = true) := by
  refine ⟨?_, ?_, ?_, ?_, ?_, ?_, ?_, ?_, ?_, ?_, ?_, ?_⟩
  · exact ⟨sOp .cipher, 0, _, rfl, by decide, rfl⟩
  · exact ⟨sOp .hash, 0, _, rfl, by decide, rfl⟩
  · exact ⟨sOp .legacy, 0, _, rfl, by decide, rfl⟩
  · exact ⟨sOp .hash, 0, _, rfl, rfl⟩
  · exact ⟨sCore tCore, 5, 7, 47, 0, _, by decide, by decide, rfl, rfl, rfl, by decide, by decide, by decide,
    by decide, by decide⟩
  · exact ⟨sCore tCore, 5, 7, 47, 0, _, by decide, by decide, rfl, rfl, rfl, by decide, by decide⟩
  · exact ⟨{ sCore tCore with pk := { (sCore tCore).pk with jobs := [(0, { tJob with long := true })] } }, _, _, 5, 7,
    47, 0, _, _, [], by decide, by decide, rfl, rfl, rfl, by decide, by decide, by decide, rfl, rfl, rfl, by decide,
    by decide⟩
  · exact ⟨sCore { tCore with job := none, next := some 0, state := .moving }, 5, 7, 47, 0, _, by decide, by decide,
    rfl, rfl, by decide, rfl, rfl, rfl⟩
  · exact ⟨sCore { tCore with job := none }, 5, 7, 47, by decide, by decide, rfl, by decide, rfl, rfl, by decide⟩
  · exact ⟨sCore { tCore with job := none, lost := true, state := .testing }, 5, 7, 47, by decide, by decide, rfl,
    by decide, by decide⟩
  · exact ⟨sCore { tCore with job := none, state := .zeroising }, 5, 7, 47, by decide, by decide, rfl, rfl⟩
  · exact ⟨sTest, .cipherBay, 3, 1, true, true, by decide⟩


/-- States and operands that meet each case of `Obligations.StairAnswers`. -/
theorem witness_StairAnswers :
    (∃ s : State, ∃ m n v : Nat, ∃ a b : Bytes, m ≤ 3 ∧ climbOk s n v = true) ∧
    (∃ s : State, ∃ v : List Nat, vectorOk s v = true) ∧
    (∃ s : State, ∃ m n v : Nat, ∃ a b : Bytes, (4 ≤ m ∨ climbOk s n v = false)) ∧
    (∃ s : State, ∃ m : Nat, ∃ v : List Nat, (m ≠ 0x6C ∨ vectorOk s v = false)) := by
  refine ⟨?_, ?_, ?_, ?_⟩
  · exact ⟨sStair 3, 3, 4, 255, [], [], by decide, by decide⟩
  · exact ⟨sStair 4, [0, 0, 0, 0], by decide⟩
  · exact ⟨sStair 3, 4, 4, 255, [], [], by decide⟩
  · exact ⟨sStair 4, 0, [0, 0, 0, 0], by decide⟩


/-- States and operands that meet each case of `Obligations.WingRegistersAct`. -/
theorem witness_WingRegistersAct :
    (∃ s : State, ∃ m b : Nat, b < 4 ∧ mayWrite s m (0x100004 + 0x4000 * b)) ∧
    (∃ s : State, ∃ m b : Nat, ∃ v : Word, b < 4 ∧ mayWrite s m (0x100024 + 0x4000 * b)) ∧
    (∃ s : State, ∃ b i : Nat, b < 4 ∧ i < 8) ∧
    (∃ s : State, ∃ m : Nat, ∃ v : Word, mayWrite s m 0x102008) ∧
    (∃ s : State, ∃ i : Nat, ∃ c : Option Nat, i < 3) ∧
    (∃ s : State, ∃ m : Nat, mayWrite s m 0x102010 ∧ s.cipher.legacy.state = .out) ∧
    (∃ s : State, ∃ m : Nat, ∃ v : Word, mayWrite s m 0x10201C) ∧
    (∃ s : State, ∃ i : Nat, i < 3) ∧
    (∃ s : State, ∃ m b c i : Nat, b < 6 ∧ c < 8 ∧ i = 8 * b + c ∧
      mayWrite s m (0x200004 + 0x10000 * b + 0x2000 * c) ∧ (coreAt s i).state = .out) ∧
    (∃ s : State, ∃ m b c i : Nat, ∃ v : Word, b < 6 ∧ c < 8 ∧ i = 8 * b + c ∧
      mayWrite s m (0x200024 + 0x10000 * b + 0x2000 * c)) ∧
    (∃ s : State, ∃ b c n : Nat, b < 6 ∧ c < 8 ∧ n < 8) ∧
    (∃ s : State, ∃ m b c i n : Nat, ∃ v : Word, b < 6 ∧ c < 8 ∧ i = 8 * b + c ∧ n = v.toNat % 2048 ∧
      mayWrite s m (0x200040 + 0x10000 * b + 0x2000 * c) ∧ omWorks s i = true) ∧
    (∃ s : State, ∃ m b c i : Nat, ∃ v : Word, ∃ x : PkCore, b < 6 ∧ c < 8 ∧ i = 8 * b + c ∧
      tget s.pk.cores i = some x ∧ mayWrite s m (0x200050 + 0x10000 * b + 0x2000 * c) ∧ omWorks s i = true) ∧
    (∃ s : State, ∃ m : Nat, ∃ v : Word, mayWrite s m 0x201808) ∧
    (∃ s : State, ∃ i n : Nat, i < 2 ∧ n < 384) := by
  refine ⟨?_, ?_, ?_, ?_, ?_, ?_, ?_, ?_, ?_, ?_, ?_, ?_, ?_, ?_, ?_⟩
  · exact ⟨sOn, 0x34, 3, by decide, ⟨_, _, rfl, rfl⟩⟩
  · exact ⟨sOn, 0x34, 3, 0, by decide, ⟨_, _, rfl, rfl⟩⟩
  · exact ⟨sOn, 3, 7, by decide, by decide⟩
  · exact ⟨sOn, 0x34, 0, ⟨_, _, rfl, rfl⟩⟩
  · exact ⟨sOn, 2, none, by decide⟩
  · exact ⟨sOn, 0x34, ⟨_, _, rfl, rfl⟩, rfl⟩
  · exact ⟨sOn, 0x34, 0, ⟨_, _, rfl, rfl⟩⟩
  · exact ⟨sOn, 2, by decide⟩
  · exact ⟨sCore { tCore with state := .out }, 0x34, 5, 7, 47, by decide, by decide, rfl, ⟨_, _, rfl, rfl⟩, rfl⟩
  · exact ⟨sOn, 0x34, 5, 7, 47, 0, by decide, by decide, rfl, ⟨_, _, rfl, rfl⟩⟩
  · exact ⟨sOn, 5, 7, 7, by decide, by decide, by decide⟩
  · exact ⟨sOut47, 0, 5, 7, 47, 2047, 0xFFFFFFFF, by decide, by decide, rfl, by decide, ⟨_, _, rfl, rfl⟩, by decide⟩
  · exact ⟨sOut47, 0, 5, 7, 47, 0, _, by decide, by decide, rfl, rfl, ⟨_, _, rfl, rfl⟩, by decide⟩
  · exact ⟨sOn, 0x34, 0, ⟨_, _, rfl, rfl⟩⟩
  · exact ⟨sOn, 1, 383, by decide, by decide⟩


/-- States and operands that meet each case of `Obligations.DigestUnitRuns`. -/
theorem witness_DigestUnitRuns :
    (∃ s : State, ∃ m : Nat, ∃ v : Word, mayWrite s m 0x40008 ∧ duIsOpen s.digest = false ∧ s.digest.algo ≤ 4 ∧
      s.digest.hmac = false ∧ s.digest.lenHi = 0 ∧ s.heldHi = []) ∧
    (∃ s : State, ∃ m : Nat, ∃ v : Word, mayWrite s m 0x40010 ∧ duIsOpen s.digest = true ∧ s.digest.busy = false ∧
      4 * (s.digest.words + 1) < s.digest.opLen) ∧
    (∃ s : State, ∃ m : Nat, ∃ v : Word, mayWrite s m 0x40018 ∧ duIsOpen s.digest = true ∧ s.digest.busy = false ∧
      1 ≤ s.digest.lastB ∧ s.digest.lastB ≤ 4 ∧ 4 * s.digest.words + s.digest.lastB = s.digest.opLen) ∧
    ((∃ s : State, ∃ m : Nat, ∃ v : Option Word, mayWrite s m 0x40000 ∧ duIsOpen s.digest = true) ∧ (∃ s : State,
      ∃ m : Nat, ∃ v : Option Word, mayWrite s m 0x40000 ∧ duIsOpen s.digest = true)) ∧
    (∃ s : State, s.digest.state = .open_) ∧
    (∃ s : State, s.digest.state = .final) ∧
    (∃ s : State, ∃ p : Nat × Nat, s.digest.state = .final ∧ p ≠ (0xA5, 0x5A) ∧ p ≠ (0x5A, 0xA5)) ∧
    (∃ s : State, ∃ m n : Nat, ∃ v : Word, ∃ p : Option (Nat × Nat), mayWrite s m (0x40080 + 4 * n) ∧ n < 16) ∧
    (∃ s : State, ∃ m n : Nat, ∃ v : Word, ∃ p : Option (Nat × Nat), mayWrite s m (0x40080 + 4 * n) ∧ n < 16 ∧
      s.digest.state ≠ .done) ∧
    (∃ s : State, ∃ m : Nat, ∃ v : Word, mayWrite s m 0x400E4) := by
  refine ⟨?_, ?_, ?_, ?_, ?_, ?_, ?_, ?_, ?_, ?_⟩
  · exact ⟨sOn, 0, 5, ⟨_, _, rfl, rfl⟩, by decide, by decide, by decide, rfl, rfl⟩
  · exact ⟨sDigest .open_, 0, 0, ⟨_, _, rfl, rfl⟩, by decide, by decide, by decide⟩
  · exact ⟨{ sDigest .open_ with digest := { (sDigest .open_).digest with words := 1 } }, 0, 0, ⟨_, _, rfl, rfl⟩,
    by decide, by decide, by decide, by decide, rfl⟩
  · exact ⟨⟨sDigest .open_, 0, none, ⟨_, _, rfl, rfl⟩, by decide⟩, ⟨sDigest .open_, 0, some 0, ⟨_, _, rfl, rfl⟩,
    by decide⟩⟩
  · exact ⟨sDigest .open_, rfl⟩
  · exact ⟨sDigest .final, rfl⟩
  · exact ⟨sDigest .final, (0, 0), rfl, by decide, by decide⟩
  · exact ⟨sOn, 0, 15, 0, none, ⟨_, _, rfl, rfl⟩, by decide⟩
  · exact ⟨sOn, 0, 15, 0, some (0, 0), ⟨_, _, rfl, rfl⟩, by decide, by decide⟩
  · exact ⟨sOn, 0, 0, ⟨_, _, rfl, rfl⟩⟩


/-- States and operands that meet each case of `Obligations.RandomSourceRuns`. -/
theorem witness_RandomSourceRuns :
    ((∃ s t u : State, ∃ lo hi l : List (BitVec 1024), ∃ g : Bool, ∃ bad : Tab Bank, s.rng.source ≠ .off ∧
      s.rng.source ≠ .fatal ∧ l = lo ++ hi ∧
      t = modRng s (fun q => { q with banks := tmap q.banks (fun i b => bankBlock b (l.getD i 0)) }) ∧
      bad = s.rng.banks.filter (fun e => blockFails e.2.run (l.getD e.1 0)) ∧
      u = (if bad.isEmpty then t else pulses (rngBit t 4) (bad.map (fun _ => { line := 7, cls := .note, type := 0, addr := 0, master := 0xFF })))) ∧
      (∃ s t u : State, ∃ lo hi l : List (BitVec 1024), ∃ g : Bool, ∃ bad : Tab Bank, s.rng.source ≠ .off ∧
      s.rng.source ≠ .fatal ∧ l = lo ++ hi ∧
      t = modRng s (fun q => { q with banks := tmap q.banks (fun i b => bankBlock b (l.getD i 0)) }) ∧
      bad = s.rng.banks.filter (fun e => blockFails e.2.run (l.getD e.1 0)) ∧
      u = (if bad.isEmpty then t else pulses (rngBit t 4) (bad.map (fun _ => { line := 7, cls := .note, type := 0, addr := 0, master := 0xFF }))))) ∧
    (∃ s : State, ∃ i : Nat, s.rng.buffer ≠ 0 ∧ s.rng.source ≠ .fatal ∧ sporeTaker s.rng = some i) ∧
    (∃ s : State, ∃ i : Nat, i < 256 ∧ drawState s i = .ok) ∧
    (∃ s : State, ∃ i : Nat, ∃ l : Tab UnitOp, ∃ e : Nat × UnitOp, 256 ≤ i ∧
      l = tfilter s.cipher.ops (fun _ o => o.wing == .random && o.alcove == i - 256) ∧
      l.find? (fun p => l.all (fun q => drawBefore s p q)) = some e) ∧
    (∃ s : State, ∃ b : Nat, ∃ x : BitVec 1024, s.rng.tally.state ≠ 2 ∧
      blockFails (smallRun s.rng.tally b) x = false) ∧
    (∃ s t : State, ∃ b : Nat, ∃ x : BitVec 1024, ∃ r : SmallSource × Bool, r = smallBlock s.time s.rng.aon b x ∧
      t = { s with rng := { s.rng with aon := r.1 } }) ∧
    (∃ s : State, ∃ m : Nat, ∃ v : Word, mayWrite s m 0x50024) ∧
    (∃ s : State, ∃ i n : Nat, i < 8) ∧
    (∃ st : RngState, ∃ f : Nat, st ≠ .off ∧ st ≠ .fatal ∧ f ≤ 4) ∧
    (∃ st : RngState, ∃ f : Nat, st ≠ .off ∧ st ≠ .fatal ∧ (5 ≤ f ∧ f ≤ 8)) ∧
    (∃ st : RngState, ∃ f : Nat, st ≠ .off ∧ st ≠ .fatal ∧ 9 ≤ f) ∧
    (∃ st : RngState, ∃ f : Nat, st ≠ .off ∧ st ≠ .fatal) := by
  refine ⟨?_, ?_, ?_, ?_, ?_, ?_, ?_, ?_, ?_, ?_, ?_, ?_⟩
  · exact ⟨⟨sOn, _, _, List.replicate 16 0, List.replicate 16 0, _, true, _, by decide, by decide, rfl, rfl, rfl,
    rfl⟩, ⟨sOn, _, _, List.replicate 16 tBlock, List.replicate 16 tBlock, _, false, _, by decide, by decide, rfl, rfl,
    rfl, rfl⟩⟩
  · exact ⟨modRng sOn (fun r => { r with buffer := 1, inst := [] }), 0, by decide, by decide, rfl⟩
  · exact ⟨sOn, 2, by decide, by decide⟩
  · exact ⟨{ sOn with cipher := { cipherReset with ops := [(0, tOp .random)] } }, 257, _, _, by decide, rfl, rfl⟩
  · exact ⟨sOn, 0, tBlock, by decide, by decide +kernel⟩
  · exact ⟨sOn, _, 1, 0, _, rfl, rfl⟩
  · exact ⟨sOn, 0, 0, ⟨_, _, rfl, rfl⟩⟩
  · exact ⟨sOn, 7, 0, by decide⟩
  · exact ⟨.run, 4, by decide, by decide, by decide⟩
  · exact ⟨.run, 5, by decide, by decide, by decide⟩
  · exact ⟨.run, 9, by decide, by decide, by decide⟩
  · exact ⟨.run, 0, by decide, by decide⟩


/-- States and operands that meet each case of `Obligations.WatermarksMove`. -/
theorem witness_WatermarksMove :
    (∃ s : State, ∃ v : Word, mayWrite s 0 0x70010 ∧ 0x1800000 ≤ v.toNat ∧ v.toNat ≤ 0x2000000 ∧
      v.toNat % 0x10000 = 0 ∧ s.halls.logic.busy = false ∧ enclAbove s v.toNat = false) ∧
    (∃ s : State, ∃ v : Word, mayWrite s 0 0x70018 ∧ 0x12800000 ≤ v.toNat ∧ v.toNat ≤ 0x1A800000 ∧
      v.toNat % 0x100000 = 0 ∧ s.halls.mezz.busy = false) ∧
    (∃ s : State, ∃ w : Watermark, w = s.halls.logic ∧ w.busy = true) ∧
    (∃ s : State, ∃ w : Watermark, w = s.halls.mezz ∧ w.busy = true) ∧
    (∃ s : State, s.halls.logic.busy = true) ∧
    (∃ s : State, s.halls.mezz.busy = true) ∧
    (∃ s : State, ∃ n : Nat, handState s n = .releasing) := by
  refine ⟨?_, ?_, ?_, ?_, ?_, ?_, ?_⟩
  · exact ⟨sOn, 0x2000000, ⟨_, _, rfl, rfl⟩, by decide, by decide, rfl, by decide, by decide⟩
  · exact ⟨sOn, 0x1A800000, ⟨_, _, rfl, rfl⟩, by decide, by decide, rfl, by decide⟩
  · exact ⟨sMoving, _, rfl, by decide⟩
  · exact ⟨sMoving, _, rfl, by decide⟩
  · exact ⟨sMoving, by decide⟩
  · exact ⟨sMoving, by decide⟩
  · exact ⟨sHand 21 .releasing .inner, 21, rfl⟩


/-- States and operands that meet each case of `Obligations.HandoverRuns`. -/
theorem witness_HandoverRuns :
    (∃ s : State, ∃ m n : Nat, ∃ b : HallBlock, n < 22 ∧ mayWrite s m (0x70100 + 4 * n) ∧
      tget s.halls.blocks n = some b ∧ b.state = .owned ∧ masterHall s m = some b.owner ∧ releaseOk s n = true) ∧
    (∃ s : State, ∃ n : Nat, ∃ t : State, n < 22 ∧ handState s n = .releasing ∧
      t = modBlock s n (fun b => { b with state := .reset })) ∧
    (∃ s : State, ∃ n : Nat, handState s n = .reset) ∧
    (∃ s : State, ∃ m n : Nat, ∃ b : HallBlock, n < 22 ∧ mayWrite s m (0x70100 + 4 * n) ∧
      tget s.halls.blocks n = some b ∧ b.state = .free ∧ masterHall s m = some b.dest) ∧
    (∃ s : State, ∃ n : Nat, ∃ b : HallBlock, tget s.halls.blocks n = some b ∧ b.state = .claimed) := by
  refine ⟨?_, ?_, ?_, ?_, ?_⟩
  · exact ⟨sOn, 0x34, 21, _, by decide, ⟨_, _, rfl, rfl⟩, rfl, rfl, rfl, by decide⟩
  · exact ⟨sHand 21 .releasing .inner, 21, _, by decide, rfl, rfl⟩
  · exact ⟨sHand 21 .reset .inner, 21, rfl⟩
  · exact ⟨sHand 21 .free .inner, 0, 21, _, by decide, ⟨_, _, rfl, rfl⟩, rfl, rfl, rfl⟩
  · exact ⟨sHand 21 .claimed .inner, 21, _, rfl, rfl⟩


/-- States and operands that meet each case of `Obligations.ProtectionRegistersAct`. -/
theorem witness_ProtectionRegistersAct :
    (∃ s : State, ∃ m : Nat, ∃ v : Word, mayWrite s m 0x70040) ∧
    (∃ s : State, ∃ m : Nat, ∃ v : Word, mayWrite s m 0x70024) ∧
    (∃ s : State, ∃ m c : Nat, c < 28 ∧ mayWrite s m (0x80000 + 0x800 * c) ∧ (mpuOf s c).pending = false ∧
      overlapOf (setOf (mpuOf s c) (!(mpuOf s c).active)) = none) ∧
    (∃ s : State, ∃ m c : Nat, c < 28 ∧ mayWrite s m (0x80014 + 0x800 * c)) ∧
    (∃ s : State, ∃ m n : Nat, ∃ t : State, n < 22 ∧ mayWrite s m 0xA0100 ∧ (masterHall s m = some .outer →
      ownerOf s n = .outer) ∧ (blockIdle s n = true ∨ handState s n = .free) ∧
      t = { s with power := { s.power with gate := pack [(n, 0), (m, 8), (stOk, 16)] } }) ∧
    (∃ s : State, ∃ m : Nat, ∃ v : Word, mayWrite s m 0xA0024) := by
  refine ⟨?_, ?_, ?_, ?_, ?_, ?_⟩
  · exact ⟨sOn, 0, 0, ⟨_, _, rfl, rfl⟩⟩
  · exact ⟨sOn, 0, 0, ⟨_, _, rfl, rfl⟩⟩
  · exact ⟨sOn, 0x1B, 27, by decide, ⟨_, _, rfl, rfl⟩, by decide, by decide⟩
  · exact ⟨sOn, 0x1B, 27, by decide, ⟨_, _, rfl, rfl⟩⟩
  · exact ⟨sOn, 0, 3, _, by decide, ⟨_, _, rfl, rfl⟩, by decide, by decide, rfl⟩
  · exact ⟨sOn, 0, 0, ⟨_, _, rfl, rfl⟩⟩


/-- States and operands that meet each case of `Obligations.TransactionsAccess`. -/
theorem witness_TransactionsAccess :
    (∃ s : State, ∃ t : Txn, ∃ h : Hall, txnHall s t = some h ∧ txnOk t = true ∧ (∀ c, coreOf t.master = some c →
      coreTxnOk t = true ∧ mpuCheck s c t = none) ∧ t.space = .regs) ∧
    (∃ s : State, ∃ t : Txn, ∃ h : Hall, txnHall s t = some h ∧ txnOk t = true ∧ (∀ c, coreOf t.master = some c →
      coreTxnOk t = true ∧ mpuCheck s c t = none) ∧ t.space ≠ .regs ∧ t.addr + t.len ≤ spaceSize t.space ∧
      closed s t.space t.addr = false ∧ memAdmits s t.space h t.master t.addr (t.access == .write) = true ∧
      (t.space = .logic → enclAdmits s t = true)) ∧
    (∃ s : State, ∃ t : Txn, ∃ h : Hall, ∃ c r : Nat, txnHall s t = some h ∧ txnOk t = true ∧
      coreOf t.master = some c ∧ coreTxnOk t = true ∧ mpuCheck s c t = some r) ∧
    (∃ s : State, ∃ sp : Space, ∃ w : Bool, ∃ a v : Nat, debugThere s sp a = true ∧ (∃ h, debugHas s h w = true ∧
      debugTarget s sp h w a = true) ∧ debugEncl s sp a = true) ∧
    (∃ s : State, ∃ c : Nat, isCore c = true ∧ debugHas s (coreHall c) true = true) := by
  refine ⟨?_, ?_, ?_, ?_, ?_⟩
  · exact ⟨sOn,
    { master := 0x34, space := .regs, access := .read, addr := 0, len := 4, data := [], user := false, mirrored := false, from_ := 0 },
    .outer, rfl, by decide, (fun c h => by simp [coreOf] at h), rfl⟩
  · exact ⟨sOn,
    { master := 0x34, space := .mezz, access := .read, addr := 0x1FFFFFFC, len := 4, data := [], user := false, mirrored := false, from_ := 0 },
    .outer, rfl, by decide,
    (fun c h => by simp [coreOf] at h), by decide, by decide, by decide, by decide, (fun h => by cases h)⟩
  · exact ⟨sOn,
    { master := 0, space := .logic, access := .write, addr := 0x5FFFFFC, len := 4, data := [1, 2, 3, 4], user := true, mirrored := false, from_ := 0 },
    .inner, 0, _, rfl, by decide, rfl, by decide, rfl⟩
  · exact ⟨{ sOn with life := { lifeReset with dbg := 0xF } }, .mezz, true, 0x1FFFFFFC, 0, by decide, ⟨.outer,
    by decide⟩, by decide⟩
  · exact ⟨{ sOn with life := { lifeReset with dbg := 0xF } }, 27, by decide, by decide⟩


/-- States and operands that meet each case of `Obligations.HallsKeepTheLogicMemory`. -/
theorem witness_HallsKeepTheLogicMemory :
    (∃ s t' : State, ∃ t : Txn, ∃ h : Hall, txnHall s t = some h ∧ t.space = .logic ∧ txnOk t = true ∧
      t.addr + t.len ≤ 0x6000000 ∧ (h = .outer ∧ t.addr < s.halls.logic.cur * 0x10000 ∨ h = .inner ∧
      s.halls.logic.cur * 0x10000 ≤ t.addr) ∧ exec (.fabricTransaction t) s = .next t') ∧
    (∃ s t' : State, ∃ t : Txn, ∃ h : Hall, txnHall s t = some h ∧ t.space = .logic ∧ txnOk t = true ∧
      t.addr + t.len ≤ 0x6000000 ∧ (h = .outer ∧ t.addr < s.halls.logic.cur * 0x10000 ∨ h = .inner ∧
      s.halls.logic.cur * 0x10000 ≤ t.addr) ∧ exec (.fabricTransaction t) s = .next t' ∧ (∀ c,
      coreOf t.master = some c → coreTxnOk t = true ∧ mpuCheck s c t = none)) := by
  refine ⟨?_, ?_⟩
  · exact ⟨sOn, _,
    { master := 0x34, space := .logic, access := .read, addr := 0x1BFFFFC, len := 4, data := [], user := false, mirrored := false, from_ := 0 },
    .outer, rfl, rfl, by decide, by decide, .inl ⟨rfl, by decide⟩, rfl⟩
  · exact ⟨sOn, _,
    { master := 0x34, space := .logic, access := .read, addr := 0x1BFFFFC, len := 4, data := [], user := false, mirrored := false, from_ := 0 },
    .outer, rfl, rfl, by decide, by decide, .inl ⟨rfl, by decide⟩, rfl, (fun c h => by simp [coreOf] at h)⟩


/-- States and operands that meet each case of `Obligations.TamperActs`. -/
theorem witness_TamperActs :
    (∃ s t : State, ∃ n i : Nat, ∃ m m' : Monitor, tget s.tamper.mons n = some m ∧ s.power.powered = true ∧
      armOf (tampLife s) ≠ 0 ∧
      (m.stamps.head?).all (fun t => t / (monLimits n).1 != s.time / (monLimits n).1) = true ∧
      (s.tamper.bistOn = true → s.tamper.bistMon ≠ n ∨ s.tamper.bistInst ≠ i) ∧
      m' = { m with stamps := (s.time :: m.stamps).take 16 } ∧
      t = modTamp s (fun t => { t with mons := tput t.mons n m' })) ∧
    (∃ s : State, s.power.powered = false ∧ watchOn (tampLife s) = true) ∧
    (∃ s t : State, ∃ i bad : Nat, s.tamper.phase = 2 ∧ s.tamper.flag = some i ∧ t = commitFlag s i bad) ∧
    (∃ s : State, s.bb.busy = true) ∧
    (∃ s : State, ∃ mv : Nat, s.power.powered = true ∧ mv < 2400 ∧ s.tamper.cellLow = false) ∧
    (∃ s : State, ∃ mv : Nat, s.power.powered = false ∧ mv < 2200 ∧ watchOn (tampLife s) = true ∧
      s.bb.gap.getLsbD 0 = false) ∧
    (∃ s : State, ∃ m : Nat, mayWrite s m 0x60000 ∧ s.tamper.mons.all (fun e => monOk e.1 e.2.shadow) = true) ∧
    (∃ s : State, ∃ m n i : Nat, ∃ v : Word, mayWrite s m 0x60100 ∧ n = bitsOf v.toNat 3 0 ∧ i = bitsOf v.toNat 8 8 ∧
      bitOf v.toNat 12 = true ∧ s.tamper.bistOn = false ∧ n < 9) ∧
    (∃ s t : State, s.tamper.bistOn = true ∧
      t = { s with tamper := { s.tamper with bistOn := false, bistDone := true, bistPass := true } }) ∧
    (∃ s t : State, s.tamper.bistOn = true ∧ s.tamper.bistAt + 1000000 ≤ s.time ∧
      t = { s with tamper := { s.tamper with bistOn := false, bistDone := true, bistPass := false } }) ∧
    (∃ s : State, s.power.powered = true ∧ s.tamper.testedAt + s.tamper.interval * 10 ^ 9 ≤ s.time) ∧
    (∃ s : State, ∃ m : Nat, ∃ v : Word, mayWrite s m 0x60024) ∧
    (∃ s : State, ∃ m : Nat, ∃ v : Word, mayWrite s m 0x60028 ∧ (s.life.life = .vendor ∨ s.life.life = .return)) := by
  refine ⟨?_, ?_, ?_, ?_, ?_, ?_, ?_, ?_, ?_, ?_, ?_, ?_, ?_⟩
  · exact ⟨sOn, _, 4, 0, _, _, rfl, by decide, by decide, by decide, (fun h => by cases h), rfl, rfl⟩
  · exact ⟨{ sOn with power := { powerReset with powered := false } }, by decide, by decide⟩
  · exact ⟨{ sOn with tamper := { sOn.tamper with phase := 2, flag := some 0 } }, _, 0, 0, rfl, rfl, rfl⟩
  · exact ⟨{ sOn with bb := { sOn.bb with busy := true } }, by decide⟩
  · exact ⟨sOn, 2399, by decide, by decide, by decide⟩
  · exact ⟨{ sOn with power := { powerReset with powered := false } }, 2199, by decide, by decide, by decide,
    by decide⟩
  · exact ⟨sOn, 0, ⟨_, _, rfl, rfl⟩, by decide⟩
  · exact ⟨sOn, 0, 8, 0, 0x1008, ⟨_, _, rfl, rfl⟩, rfl, rfl, by decide, by decide, by decide⟩
  · exact ⟨{ sOn with tamper := { sOn.tamper with bistOn := true } }, _, by decide, rfl⟩
  · exact ⟨{ sOn with tamper := { sOn.tamper with bistOn := true } }, _, by decide, by decide, rfl⟩
  · exact ⟨sOn, by decide, by decide⟩
  · exact ⟨sOn, 0, 0, ⟨_, _, rfl, rfl⟩⟩
  · exact ⟨{ sOn with life := { lifeReset with life := .vendor } }, 0, 0, ⟨_, _, rfl, rfl⟩, .inl rfl⟩


/-- States and operands that meet the hypotheses of `Obligations.EraseLeavesNoKeys`. -/
theorem witness_EraseLeavesNoKeys :
    ∃ s : State, ∃ i : Nat, s.power.powered = true ∧ armOf (tampLife s) ≠ 0 ∧ armOf (tampLife s) ≠ 1 ∧
      s.tamper.erased = false :=
  ⟨sOn, 0, by decide, by decide, by decide, by decide⟩


/-- States and operands that meet each case of `Obligations.DebugAndTestAccess`. -/
theorem witness_DebugAndTestAccess :
    (∃ s : State, ∃ m : Nat, ∃ v : Word, m ≤ 3 ∧ mayWrite s m 0x10020) ∧
    (∃ s : State, s.life.expiry ≠ 0 ∧ s.life.expiry ≤ s.time) ∧
    (∃ s : State, ∃ m : Nat, ∃ v : Word, mayWrite s m 0x10034) ∧
    (∃ s t : State, ∃ r : Bytes × State, t = tapSelect s 0x40 ∧ t.life.life ≠ .scrapped ∧ t.life.voteFail = false ∧
      (t.life.life = .blank → allZero t.otp.rootHash = false) ∧ drawState t 4 = .ok ∧ r = drawFrom t 4 32) ∧
    (∃ s t : State, ∃ a : Bytes, ∃ b : List (Nat × Nat), a.length = 288 ∧
      t = modLife (tapSelect s 0x41) (fun l => { l with challenge := none }) ∧ authCheck t a s.life.challenge = 0) ∧
    (∃ s : State, ∃ a : Bytes, ∃ b : List (Nat × Nat), ∃ n : Nat, a.length = 288 ∧ n ≠ 0 ∧
      authCheck (modLife (tapSelect s 0x41) (fun l => { l with challenge := none })) a s.life.challenge = n) ∧
    (∃ s : State, (s.life.life = .blank ∨ s.life.life = .vendor ∨ s.life.life = .return ∨ s.life.life = .scrapped)) ∧
    (∃ s : State, (s.life.life = .transit ∨ s.life.life = .commissioned ∨ s.life.life = .inService)) ∧
    (∃ s t u v : State, ∃ b pub led : Bytes, t = tapSelect s 0x44 ∧ s.stair.paused = true ∧ persoOk t b = true ∧
      pub = Config.edPub (s.tally.seed.getD []) ∧ led = issueCert t 2 0 t.stair.identity t.stair.ledPub [] ∧
      u = modStair (modTally t (fun y => { y with endorse := Config.edSign t.stair.identity (ascii "WTKY1" ++ deviceKeyId t ++ pub) })) (fun y => { y with idCert := (persoItems b).2.2, ledCert := led, paused := false }) ∧
      stepClimb u = .ok v) := by
  refine ⟨?_, ?_, ?_, ?_, ?_, ?_, ?_, ?_, ?_⟩
  · exact ⟨sOn, 3, 0xF, by decide, ⟨_, _, rfl, rfl⟩⟩
  · exact ⟨{ sOn with life := { lifeReset with expiry := 5 } }, by decide, by decide⟩
  · exact ⟨sOn, 0, 0, ⟨_, _, rfl, rfl⟩⟩
  · exact ⟨{ sOn with otp := { otpReset with rootHash := List.replicate 64 1 } }, _, _, rfl, by decide, by decide,
    (fun h => by cases h), by decide, rfl⟩
  · exact ⟨sPause, _, tAuth, [], rfl, rfl, authorised⟩
  · exact ⟨sPause, zeros 288, [], 1, rfl, by decide, by decide⟩
  · exact ⟨sPause, .inr (.inl rfl)⟩
  · exact ⟨sOn, .inr (.inr rfl)⟩
  · exact ⟨sRetired, _, _, _, tPerso, _, _, rfl, by decide, persoTaken, rfl, rfl, rfl, rfl⟩


/-- States and operands that meet each case of `Obligations.CollectorActs`. -/
theorem witness_CollectorActs :
    (∃ s : State, ∃ p : Pulse, p.cls = .note ∧ (lineClasses p.line).contains .note = true ∧ s.fc.valid = true) ∧
    (∃ s : State, ∃ m : Nat, ∃ v : Word, ∃ ps : List Pulse, mayWrite s m 0x20004) ∧
    (∃ s : State, ∃ m n : Nat, ∃ v : Word, ∃ ps : List Pulse, mayWrite s m 0x20000 ∧
      n = (((heldOf s m 0x20004).map (fun h => h.toNat)).getD 0) * 2 ^ 32 + v.toNat) ∧
    (∃ s : State, ∃ m : Nat, mayWrite s m 0x2001C) ∧
    (∃ s : State, ∃ m : Nat, ∃ hi lo : Word, ∃ l : List Nat, mayWrite s m 0x20030 ∧
      l = setBits 64 (hi.toNat * 2 ^ 32 + lo.toNat) ∧ l ≠ [] ∧ s.fc.forceCls = 1) ∧
    (∃ s : State, ∃ m : Nat, ∃ v : Word, mayWrite s m 0x20008 ∧ bitsOf v.toNat 31 20 ≤ 3600 ∧
      1 ≤ bitsOf v.toNat 19 10 ∧ bitsOf v.toNat 19 10 ≤ 1000 ∧ 1 ≤ bitsOf v.toNat 7 5 ∧ bitsOf v.toNat 7 5 ≤ 5) ∧
    (∃ s : State, s.fc.valid = true ∧ 2 ≤ s.fc.fClass ∧ s.fc.heldAt + s.fc.handle * 10 ^ 6 < s.time) ∧
    (∃ s : State, s.fc.service = .safe ∧ s.fc.restart ≠ 0 ∧ s.fc.safeAt + s.fc.restart * 10 ^ 9 ≤ s.time) := by
  refine ⟨?_, ?_, ?_, ?_, ?_, ?_, ?_, ?_⟩
  · exact ⟨{ sOn with fc := { sOn.fc with valid := true } },
    { line := 1, cls := .note, type := 1, addr := 0, master := 0xFF }, rfl, by decide, by decide⟩
  · exact ⟨sOn, 0, 0xFFFFFFFF, [], ⟨_, _, rfl, rfl⟩⟩
  · exact ⟨sOn, 0, 0xFFFFFFFF, 0xFFFFFFFF, [], ⟨_, _, rfl, rfl⟩, rfl⟩
  · exact ⟨sOn, 0, ⟨_, _, rfl, rfl⟩⟩
  · exact ⟨sOn, 0, 0, 1, _, ⟨_, _, rfl, rfl⟩, rfl, by decide, rfl⟩
  · exact ⟨sOn, 0, BitVec.ofNat 32 (3600 * 2 ^ 20 + 1000 * 2 ^ 10 + 5 * 2 ^ 5), ⟨_, _, rfl, rfl⟩, by decide,
    by decide, by decide, by decide, by decide⟩
  · exact ⟨{ sOn with fc := { sOn.fc with valid := true, fClass := 2 } }, by decide, by decide, by decide⟩
  · exact ⟨{ sOn with fc := { sOn.fc with service := .safe, restart := 1000 } }, rfl, by decide, by decide⟩


/-- States and operands that meet each case of `Obligations.FirstErrorIsCaptured`. -/
theorem witness_FirstErrorIsCaptured :
    (∃ now : Nat, ∃ f g : Collector, ∃ ps : List Pulse, f.valid = false ∧ g = capturePulses now f ps ∧ (∃ p ∈ ps,
      f.capMin ≤ fclassCode p.cls)) ∧
    (∃ now : Nat, ∃ f : Collector, ∃ ps : List Pulse, f.valid = true ∧ f.more ≤ 65535) := by
  refine ⟨?_, ?_⟩
  · exact ⟨5, collectorReset, _, [{ line := 2, cls := .degrade, type := 1, addr := 0, master := 0xFF }], by decide,
    rfl, ⟨_, List.mem_singleton.2 rfl, by decide⟩⟩
  · exact ⟨5, { collectorReset with valid := true, more := 65535 },
    [{ line := 2, cls := .degrade, type := 1, addr := 0, master := 0xFF }], by decide, by decide⟩


/-- States and operands that meet the hypotheses of `Obligations.SelfFaultStopsTheDevice`. -/
theorem witness_SelfFaultStopsTheDevice :
    ∃ s : State, ∃ c : SelfCause, s.fc.service ≠ .safe ∧ s.fc.service ≠ .tampered :=
  ⟨sOn, .lockstep, by decide, by decide⟩


/-- States and operands that meet each case of `Obligations.DistributorServesCores`. -/
theorem witness_DistributorServesCores :
    (∃ s : State, ∃ c n t : Nat, ∃ v : Word, ∃ e : EvSource, coreOf c = some c ∧ n < 1280 ∧ srcHall s n = coreHall c ∧
      t = bitsOf v.toNat 4 0 ∧ (t ≤ 3 ∨ 16 ≤ t ∧ t ≤ 27) ∧ coreHall t = coreHall c ∧ e = evSrc s n) ∧
    (∃ s : State, ∃ c n : Nat, coreOf c = some c ∧ n < 1280 ∧ srcHall s n = coreHall c) ∧
    (∃ s : State, ∃ c n : Nat, coreOf c = some c ∧ n ≤ 3 ∧ coreHall n = coreHall c) ∧
    (∃ s : State, ∃ c n : Nat, coreOf c = some c ∧ 16 ≤ n ∧ n ≤ 27 ∧ coreHall n = coreHall c) ∧
    (∃ s : State, ∃ c n : Nat, coreOf c = some c ∧ (1280 ≤ n ∨ srcHall s n ≠ coreHall c)) ∧
    (∃ s : State, ∃ c n : Nat, ∃ v : Word, coreOf c = some c ∧ (1280 ≤ n ∨ srcHall s n ≠ coreHall c)) ∧
    (∃ s : State, ∃ m : Nat, ∃ v : Word, mayWrite s m 0x30024 ∧ bitOf v.toNat 0 = true) := by
  refine ⟨?_, ?_, ?_, ?_, ?_, ?_, ?_⟩
  · exact ⟨sOn, 27, 1279, 27, 27, _, rfl, by decide, rfl, rfl, by decide, rfl, rfl⟩
  · exact ⟨sOn, 27, 1279, rfl, by decide, rfl⟩
  · exact ⟨sOn, 3, 3, rfl, by decide, rfl⟩
  · exact ⟨sOn, 16, 27, rfl, by decide, by decide, rfl⟩
  · exact ⟨sOn, 27, 1280, rfl, .inl (by decide)⟩
  · exact ⟨sOn, 27, 0, 0, rfl, .inr (by decide)⟩
  · exact ⟨sOn, 0, 1, ⟨_, _, rfl, rfl⟩, by decide⟩


/-- States and operands that meet each case of `Obligations.PowerEventsRun`. -/
theorem witness_PowerEventsRun :
    (∃ s : State, ∃ p : Pll, (p = .cclk ∨ p = .kclk ∨ p = .hclk ∨ p = .mclk)) ∧
    (∃ s : State, s.power.powered = true) ∧
    (∃ s : State, ∃ mv : Nat, s.power.powered = false ∧ 11200 < mv) ∧
    (∃ s t : State, ∃ mv : Nat, s.power.powered = true ∧ 10800 ≤ mv ∧
      t = { s with power := { s.power with mv := mv } }) ∧
    (∃ s t : State, ∃ ns : Nat, s.power.powered = true ∧ 1000 ≤ ns ∧ t = resetSteps s) := by
  refine ⟨?_, ?_, ?_, ?_, ?_⟩
  · exact ⟨sOn, .mclk, by decide⟩
  · exact ⟨sOn, by decide⟩
  · exact ⟨{ sOn with power := { powerReset with powered := false } }, 11201, by decide, by decide⟩
  · exact ⟨sOn, _, 10800, by decide, by decide, rfl⟩
  · exact ⟨sOn, _, 1000, by decide, by decide, rfl⟩


/-- States and operands that meet the hypotheses of `Obligations.ResetLeavesNoWork`. -/
theorem witness_ResetLeavesNoWork :
    ∃ s : State, s.power.powered = true ∧ s.tamper.phase ≠ 2 :=
  ⟨sOn, by decide, by decide⟩


/-- States and operands that meet each case of `Obligations.StartsRun`. -/
theorem witness_StartsRun :
    (∃ s : State, ∃ e : StartEnv, s.power.powered = true ∧ s.boot.step = 0 ∧ s.boot.running = false ∧
      s.boot.stopped = false ∧ s.boot.resetAt = none ∧ s.fc.service = .starting) ∧
    (∃ s : State, ∃ n : Nat, s.boot.running = true ∧ s.stair.paused = false ∧ s.boot.step < n ∧ n ≤ 12 ∧
      s.twin.waiting = false ∧ s.boot.began + stepLimit n * 10 ^ 6 ≤ s.time) ∧
    (∃ s : State, (s.fc.service = .inService ∨ s.fc.service = .degraded) ∧ s.boot.cleared = false ∧
      s.boot.began + 600 * 10 ^ 9 ≤ s.time) ∧
    (∃ s t : State, ∃ d : Nat, s.life.trans = none ∧ t = settleRestart s ∧ t.boot.resetAt = some d ∧ d ≤ t.time ∧
      t.fc.service ≠ .tampered) := by
  refine ⟨?_, ?_, ?_, ?_⟩
  · exact ⟨State.reset,
    { fail := none, puf := [], pufOk := true, strap := 0, archive := true, torn := [], checks := (true, true), linkUp := true },
    by decide, rfl, by decide, by decide, rfl, rfl⟩
  · exact ⟨{ sOn with boot := { bootReset with running := true, step := 11 } }, 12, by decide, by decide, by decide,
    by decide, by decide, by decide⟩
  · exact ⟨sOn, .inl rfl, by decide, by decide⟩
  · exact ⟨{ sOn with boot := { sOn.boot with resetAt := some 5 } }, _, 5, rfl, rfl, rfl, by decide, by decide⟩


/-- States and operands that meet each case of `Obligations.TallyRuns`. -/
theorem witness_TallyRuns :
    (∃ s : State, ∃ seed : Bytes, s.tally.seed = none) ∧
    (∃ s : State, ∃ k : Bytes, s.tally.seed = some k) ∧
    (∃ s : State, ∃ k seed : Bytes, s.tally.seed = some k ∧ k ≠ seed) ∧
    (∃ s : State, (tallySec s % s.tally.interval = 0 ∨ s.tally.cut ≠ []) ∧ lastSec s.tally ≠ some (tallySec s)) ∧
    (∃ s : State, s.tally.suspect = false) ∧
    (∃ s : State, s.tally.suspect = true) ∧
    (∃ s : State, ∃ lost : Bool, ∃ n : Nat, s.tally.core = 0) := by
  refine ⟨?_, ?_, ?_, ?_, ?_, ?_, ?_⟩
  · exact ⟨State.reset, [1], rfl⟩
  · exact ⟨sOn, [1], rfl⟩
  · exact ⟨sOn, [1], [2], rfl, by decide⟩
  · exact ⟨{ sOn with tally := { sOn.tally with interval := 100 } }, by decide, by decide⟩
  · exact ⟨sOn, by decide⟩
  · exact ⟨{ sOn with tally := { sOn.tally with suspect := true } }, by decide⟩
  · exact ⟨sOn, true, 0, rfl⟩


/-- States and operands that meet the hypotheses of `Obligations.TotalsAccumulate`. -/
theorem witness_TotalsAccumulate :
    ∃ t : Tally, ∃ wing d meter qty cat weight d' k : Nat, tget t.tariff meter = some (cat, weight) ∧ cat < 16 ∧
      k < 16 ∧ (∀ l, tget t.totals d = some l → l.length = 16) :=
  ⟨{ tallyReset with tariff := [(5, (15, 2))] }, 0, 1, 5, 3, 15, 2, 2, 15, rfl, by decide, by decide,
    (fun l h => by cases h)⟩


/-- States and operands that meet each case of `Obligations.PerformanceReaderRuns`. -/
theorem witness_PerformanceReaderRuns :
    (∃ s : State, s.time / (s.perf.interval * 1000) ≠ s.perf.lastAt / (s.perf.interval * 1000) ∧
      readerRuns s = true) ∧
    (∃ s : State, s.time / (s.perf.interval * 1000) ≠ s.perf.lastAt / (s.perf.interval * 1000) ∧
      readerRuns s = false) ∧
    (∃ s : State, ∃ m : Nat, ∃ v : Word, mayWrite s m 0x90024) := by
  refine ⟨?_, ?_, ?_⟩
  · exact ⟨sOn, by decide, by decide⟩
  · exact ⟨sHand 20 .releasing .inner, by decide, by decide⟩
  · exact ⟨sOn, 0x34, 0, ⟨_, _, rfl, rfl⟩⟩


/-- States and operands that meet each case of `Obligations.StrobesAndForcedReaderErrorsComplete`. -/
theorem witness_StrobesAndForcedReaderErrorsComplete :
    (∃ s : State,
      (s.time / (s.perf.interval * 1000) ≠ s.perf.lastAt / (s.perf.interval * 1000) ∨ s.perf.stepped = true) ∧
      readerRuns s = true) ∧
    (∃ s : State,
      (s.time / (s.perf.interval * 1000) ≠ s.perf.lastAt / (s.perf.interval * 1000) ∨ s.perf.stepped = true) ∧
      readerRuns s = false) ∧
    (∃ s : State, ∃ m : Nat, ∃ v : Word, mayWrite s m 0x90024) := by
  refine ⟨?_, ?_, ?_⟩
  · exact ⟨sOn, by decide, by decide⟩
  · exact ⟨sHand 20 .releasing .inner, by decide, by decide⟩
  · exact ⟨sOn, 0x34, 0, ⟨_, _, rfl, rfl⟩⟩


/-- States and operands that meet each case of `Obligations.IbveletRuns`. The spec gives the key of Golune's device
certification authority no value; the cases that need one name the test key. -/
theorem witness_IbveletRuns :
    (∃ s : State, ∃ f : IbFrame, s.twin.link = 3 ∧ ibTag s.twin.rxKey s.twin.rxSalt f = f.tag ∧
      f.seq = s.twin.rxSeq + 1) ∧
    (∃ s : State, ∃ f : IbFrame, s.twin.link = 3 ∧ ibTag s.twin.rxKey s.twin.rxSalt f = f.tag ∧
      f.seq ≠ s.twin.rxSeq + 1) ∧
    (∃ s : State, ∃ f : IbFrame, s.twin.link = 3 ∧ ibTag s.twin.rxKey s.twin.rxSalt f ≠ f.tag) ∧
    (∃ s : State, ∃ n : Nat, s.twin.link = 3) ∧
    (∃ s : State, s.twin.link = 3 ∧ s.twin.sentAt + 10000 ≤ s.time) ∧
    (∃ s : State, s.twin.link = 3) ∧
    (∃ s : State, s.twin.link = 3 ∧ s.twin.authAt + 100000 ≤ s.time) ∧
    (∃ s : State, s.twin.link ≠ 0) ∧
    (∃ s : State, ∃ m : Nat, ∃ v : Word, mayWrite s m 0x380024) ∧
    (Config.deviceCa = tKey → ∃ s t u : State, ∃ p : IbPeer, ∃ rnd : Bytes,
      ∃ h : Bytes × Bytes × Bytes × Bytes × Bytes, s.twin.pair.paired = true ∧ s.twin.down = false ∧ s.twin.link ≠ 3 ∧
      drawState s 6 = .ok ∧ drawFrom s 6 112 = (rnd, t) ∧ h = ibHalf t p rnd ∧
      u = emit t (.ibHandshake t.twin.side (rnd.take 16) h.1 h.2.1 (zeroCert t) (statementFor t 0 (h.2.2.2.2.take 32))) ∧
      ibPeerOk u p h.2.2.2.2 = true) := by
  refine ⟨?_, ?_, ?_, ?_, ?_, ?_, ?_, ?_, ?_, ?_⟩
  · exact ⟨sTwin, tFrame 1, rfl, rfl, rfl⟩
  · exact ⟨sTwin, tFrame 3, rfl, rfl, by decide⟩
  · exact ⟨sTwin, { tFrame 1 with tag := [] }, rfl, tagFails _⟩
  · exact ⟨sTwin, 1, rfl⟩
  · exact ⟨sTwin, rfl, by decide⟩
  · exact ⟨sTwin, rfl⟩
  · exact ⟨sTwin, rfl, by decide⟩
  · exact ⟨sTwin, by decide⟩
  · exact ⟨sOn, 0, 0, ⟨_, _, rfl, rfl⟩⟩
  · exact fun c => ⟨sDown, _, _, tPeer (drawFrom sDown 6 112).2 (drawFrom sDown 6 112).1, _, _, by decide, by decide,
    by decide, by decide, rfl, rfl, rfl, peerProves c _ _ _ rfl rfl⟩


/-- States and operands that meet each case of `Obligations.MirrorRecordsArrive`. -/
theorem witness_MirrorRecordsArrive :
    (∃ s : State, ∃ r : JournalRec, twinned s = true ∧ s.twin.held.contains r = false) ∧
    (∃ s : State, ∃ r : JournalRec, ∃ e : Nat, twinned s = true ∧ seqHere s r.domain = true ∧
      journalTakes s (recordSize r.body) = true ∧ forwardRefused s r e = none) ∧
    (∃ s : State, ∃ r : JournalRec, ∃ e n : Nat, twinned s = true ∧ seqHere s r.domain = true ∧
      journalTakes s (recordSize r.body) = true ∧ forwardRefused s r e = some n) ∧
    (∃ s : State, ∃ r : SessionMirror, twinned s = true) ∧
    (∃ s : State, ∃ a i : Nat, ∃ m : MirrorMark, twinned s = true) ∧
    (∃ s : State, ∃ r : AcceptMirror, twinned s = true) ∧
    (∃ s : State, ∃ r : AlcoveRecord, twinned s = true ∧ r.set.alcove ≠ 0 ∧ alc s r.set.alcove = none) ∧
    (∃ s t : State, ∃ h : Bytes, ∃ b : List (Nat × Bytes), s.twin.link = 3 ∧ s.twin.state ≠ .unpaired ∧
      t = flipPrefer (emit (stageConfig s h b) .sectionHeld) 2 ∧ t.twin.waiting = false) ∧
    (∃ s t : State, ∃ n : Nat, s.twin.link = 3 ∧ t = { s with twin := { s.twin with service := n } }) := by
  refine ⟨?_, ?_, ?_, ?_, ?_, ?_, ?_, ?_, ?_⟩
  · exact ⟨sTwin, tRec (.destroySecret 5) .destroySecret, by decide, by decide⟩
  · exact ⟨sTwin, tRec (.alcoveReset 1) .alcoveReset, 3, by decide, by decide, by decide, rfl⟩
  · exact ⟨sTwin, tRec (.root [] [] 0 0 0) .root, 2, _, by decide, by decide, by decide, rfl⟩
  · exact ⟨sTwin, { alcove := 1, session := 0, key := [1], c2dKey := [], d2cKey := [], c2dSalt := [], d2cSalt := [] },
    by decide⟩
  · exact ⟨sTwin, 1, 0, .device 1024, by decide⟩
  · exact ⟨sTwin,
    { alcove := 1, session := 0, seq := 1, queue := 0, opcode := 0x0101, payload := none, accepted := 0, quorum := false, event := false },
    by decide⟩
  · exact ⟨sTwin, tAlcRec 2, by decide, by decide, rfl⟩
  · exact ⟨sTwin, _, tHead, [], rfl, by decide, rfl, by decide⟩
  · exact ⟨sTwin, _, 7, rfl, rfl⟩


/-- States and operands that meet each case of `Obligations.TwinsJoinAndMove`. -/
theorem witness_TwinsJoinAndMove :
    (∃ s : State, ∃ b : BulkState, joinable s = true ∧ s.twin.state ≠ .survivor ∧ b.domains = [] ∧ b.alcoves = []) ∧
    (∃ s : State, ∃ j : JoinInfo, joinable s = true ∧ headSerial (cfgSlot s).head = j.serial ∧
      zeroAt (cfgSlot s).head 16 16 = true ∧ imagesAgree s j = true) ∧
    (∃ s : State, s.twin.waiting = true ∧ s.twin.link ≠ 3 ∧ s.boot.began + 200 * 10 ^ 6 ≤ s.time) ∧
    (∃ s t : State, ∃ a : Nat, ∃ l : List MovedSession, s.twin.state = .joined ∧ s.twin.link = 3 ∧ a ≠ 0 ∧
      thas s.net.alcoves a = true ∧ homeOf s a ≠ s.twin.side ∧ t = quiesce s a ∧
      alcoveWorks t a t.net.nextWork = false) ∧
    (∃ s : State, ∃ a : Nat, ∃ l : List MovedSession, s.twin.state = .joined ∧ s.twin.link = 3 ∧ a ≠ 0 ∧
      thas s.net.alcoves a = false ∧ thas s.twin.alcoves a = true ∧ homeOf s a = s.twin.side) ∧
    (∃ s : State, ∃ t : Nat, s.twin.joinedAt = some t ∧ s.twin.state = .joined ∧
      t + s.twin.failback * 10 ^ 9 ≤ s.time) := by
  refine ⟨?_, ?_, ?_, ?_, ?_, ?_⟩
  · exact ⟨modTw (fun t => { t with state := .joining }),
    { secrets := [], checks := [], freed := [], retired := [], instNext := 1, uses := [], invs := [], domains := [], alcoves := [] },
    by decide, by decide, rfl, rfl⟩
  · exact ⟨{ modTw (fun t => { t with state := .joining }) with boot := { sOn.boot with cfgA := { head := tHead, bodies := [] } } },
    { epoch := 0, serial := 1, digests := [zeros 64, zeros 64, zeros 64], commits := [], records := [], opened := true },
    by decide, by decide, by decide, by decide⟩
  · exact ⟨modTw (fun t => { t with waiting := true, link := 1 }), by decide, by decide, by decide⟩
  · exact ⟨modTw (fun t => { t with homes := [(1, 1)] }), _, 1, [], rfl, rfl, by decide, by decide, by decide, rfl,
    by decide⟩
  · exact ⟨modTw (fun t => { t with alcoves := [(2, tAlcRec 2)] }), 2, [], rfl, rfl, by decide, by decide, by decide,
    rfl⟩
  · exact ⟨modTw (fun t => { t with joinedAt := some 0 }), 0, rfl, rfl, by decide⟩


/-- States and operands that meet each case of `Obligations.TheSurvivorTakesOver`. -/
theorem witness_TheSurvivorTakesOver :
    (∃ s : State, s.twin.state = .joined ∧ s.twin.keepAt + 10 ^ 10 ≤ s.time ∧ tget s.gallery.clients 128 = some 1) ∧
    (∃ s : State, ∃ t : Nat, s.twin.lostAt = some t ∧ s.twin.state = .joined ∧ s.twin.queries < 20 ∧
      t + s.twin.queries * 10 ^ 6 ≤ s.time ∧ tget s.gallery.clients 128 = some 1) ∧
    (∃ s : State, ∃ m : ClientMsg, m.session = 128 ∧ m.ok = true ∧ m.status = 0 ∧ s.twin.lostAt.isSome = true ∧
      tget s.gallery.clients 128 = some 1) ∧
    (∃ s : State, ∃ t : Nat, s.twin.lostAt = some t ∧ s.twin.state = .joined ∧ t + 20 * 10 ^ 6 ≤ s.time ∧
      s.twin.link = 3) ∧
    (∃ s : State, ∃ t : Nat, s.twin.lostAt = some t ∧ s.twin.state = .joined ∧ t + 20 * 10 ^ 6 ≤ s.time ∧
      s.twin.link ≠ 3 ∧ s.twin.answered = true ∧ s.twin.side = 1) ∧
    (∃ s : State, ∃ t : Nat, s.twin.lostAt = some t ∧ s.twin.state = .joined ∧ t + 20 * 10 ^ 6 ≤ s.time ∧
      s.twin.link ≠ 3 ∧ s.twin.answered = true ∧ s.twin.side ≠ 1) ∧
    (∃ s : State, ∃ t : Nat, s.twin.lostAt = some t ∧ s.twin.state = .joined ∧ t + 20 * 10 ^ 6 ≤ s.time ∧
      s.twin.link ≠ 3 ∧ s.twin.answered = false ∧ ((firstUp s 0).isSome = true ∨ (firstUp s 1).isSome = true)) ∧
    (∃ s : State, ∃ t : Nat, s.twin.lostAt = some t ∧ s.twin.state = .joined ∧ t + 20 * 10 ^ 6 ≤ s.time ∧
      s.twin.link ≠ 3 ∧ s.twin.answered = false ∧ firstUp s 0 = none ∧ firstUp s 1 = none) ∧
    (∃ s : State, ∃ t : Nat, s.twin.takeAt = some t ∧ s.twin.state = .joined ∧ t ≤ s.time) ∧
    (∃ s : State, s.twin.rounds ≠ [] ∧ s.twin.roundAt ≤ s.time) := by
  refine ⟨?_, ?_, ?_, ?_, ?_, ?_, ?_, ?_, ?_, ?_⟩
  · exact ⟨sTwin, rfl, by decide, rfl⟩
  · exact ⟨modTw (fun t => { t with lostAt := some 0, queries := 19 }), 0, rfl, rfl, by decide, by decide, rfl⟩
  · exact ⟨modTw (fun t => { t with lostAt := some 0 }), { session := 128, ok := true, status := 0, payload := [] },
    rfl, by decide, rfl, by decide, rfl⟩
  · exact ⟨modTw (fun t => { t with lostAt := some 0 }), 0, rfl, rfl, by decide, rfl⟩
  · exact ⟨modTw (fun t => { t with lostAt := some 0, link := 1, answered := true, side := 1 }), 0, rfl, rfl,
    by decide, by decide, by decide, rfl⟩
  · exact ⟨modTw (fun t => { t with lostAt := some 0, link := 1, answered := true }), 0, rfl, rfl, by decide,
    by decide, by decide, by decide⟩
  · exact ⟨modTw (fun t => { t with lostAt := some 0, link := 1 }), 0, rfl, rfl, by decide, by decide, by decide,
    .inl rfl⟩
  · exact ⟨{ modTw (fun t => { t with lostAt := some 0, link := 1 }) with net := { sOn.net with portA := portReset } },
    0, rfl, rfl, by decide, by decide, by decide, rfl, rfl⟩
  · exact ⟨modTw (fun t => { t with takeAt := some 0 }), 0, rfl, rfl, by decide⟩
  · exact ⟨modTw (fun t => { t with rounds := [(1, 0)] }), by decide, by decide⟩


/-- States and operands that meet each case of `Obligations.ClientSessionsOpen`. The spec gives the key of Golune's device
certification authority no value; the cases that need one name the test key. -/
theorem witness_ClientSessionsOpen :
    (∃ s : State, s.gallery.role = 1 ∧ (alc s 0).isSome = true ∧ s.gallery.probeAt ≤ s.time) ∧
    (Config.deviceCa = tKey → ∃ s t : State, ∃ p k h : Bytes, ∃ x : Alcove, tget s.gallery.hellos 255 = some h ∧
      alc s 0 = some x ∧ s.gallery.role = 1 ∧
      (chainIdentity (splitCerts (replyCerts p))).map (fun e => (Config.sha512 e).take 16) = s.boot.authority ∧
      s.boot.authority.isSome = true ∧ replyProves h p k = true ∧
      t = { s with gallery := { s.gallery with mgrKey := some k, mgrOf := s.boot.authority, hellos := tdel s.gallery.hellos 255 } }) ∧
    (Config.deviceCa = tKey → ∃ s : State, ∃ m : ClientMsg, ∃ th : Bytes, tget s.gallery.clients m.session = some 0 ∧
      m.ok = true ∧ clientKeyOk s m.session m.payload = true ∧
      th = Config.sha512 ((tget s.gallery.hellos m.session).getD [] ++ m.payload)) ∧
    (∃ s : State, ∃ m : ClientMsg, tget s.gallery.clients m.session = some 0 ∧ m.ok = true) ∧
    (∃ s : State, ∃ m : ClientMsg, tget s.gallery.clients m.session = some 0 ∧ m.ok = false) := by
  refine ⟨?_, ?_, ?_, ?_, ?_⟩
  · exact ⟨sWorker, rfl, by decide, by decide⟩
  · exact fun c => ⟨sProbe, _, tReply, tKey, [1], _, rfl, rfl, rfl, congrArg (Option.map _) replyIdentity, by decide,
    proves c, rfl⟩
  · exact fun c => ⟨sProbe, { session := 5, ok := true, status := 0, payload := tReply }, _, rfl, by decide,
    clientProves c, rfl⟩
  · exact ⟨sProbe, { session := 5, ok := true, status := 0, payload := [] }, rfl, by decide⟩
  · exact ⟨sProbe, { session := 5, ok := false, status := 1, payload := [] }, rfl, by decide⟩


/-- States and operands that meet each case of `Obligations.RegisterCommandsAct`. -/
theorem witness_RegisterCommandsAct :
    (∃ s : State, ∃ m addr off : Nat, ∃ w : Win, ∃ v : Word, windowOf addr = some (w, off) ∧
      admits s m w off true = true) ∧
    (∃ s : State, ∃ m addr off : Nat, ∃ w : Win, ∃ v : Word, ∃ n, ∃ t : State, windowOf addr = some (w, off) ∧
      admits s m w off true = true ∧ n ≠ 0 ∧ t = writeWin s m w off v) ∧
    (∃ s : State, ∃ m addr off : Nat, ∃ w : Win, ∃ v : Word, windowOf addr = some (w, off) ∧
      admits s m w off true = false) ∧
    (∃ s : State, ∃ m addr n : Nat, ∃ v : Word, windowOf addr = none) ∧
    (∃ s : State, ∃ m addr off h : Nat, ∃ w : Win, ∃ v : Word, windowOf addr = some (w, off) ∧
      admits s m w off false = true ∧ pairHi w off = some h ∧ readRaw s w off = some v) ∧
    (∃ s : State, ∃ m off : Nat, ∃ v : Word, (off = 4 ∨ off = 0x34) ∧ mayWrite s m (0x20000 + off)) ∧
    (∃ s : State, ∃ m : Nat, ∃ v : Word, mayWrite s m 0x1002C) := by
  refine ⟨?_, ?_, ?_, ?_, ?_, ?_, ?_⟩
  · exact ⟨sOn, 0, 0x20004, 4, .fc, 0, rfl, by decide⟩
  · exact ⟨sOn, 0, 0x20000, 0, .fc, 0, 1, _, rfl, by decide, by decide, rfl⟩
  · exact ⟨sOn, 0, 0x0, 0, .id, 0, rfl, by decide⟩
  · exact ⟨sOn, 0, 0xB0000, 1, 0, rfl⟩
  · exact ⟨sOn, 0, 0x20000, 0, 4, .fc, _, rfl, by decide, rfl, rfl⟩
  · exact ⟨sOn, 0, 0x34, 0, .inr rfl, ⟨_, _, rfl, rfl⟩⟩
  · exact ⟨sOn, 0, 0, ⟨_, _, rfl, rfl⟩⟩

/-! ### Ill-formed commands are refused -/

/-- A datagram with one operand out of its range. -/
def badD (type : Nat) : Datagram := { tData (tHdr type 0 0 0 0) [] with prio := 8 }
/-- A header with one field out of its width. -/
def badH (h : WcpHeader) : Datagram := tData h []

theorem test_wf_frames :
    ([.commandSegment (badD 1), .stream (badD 3), .ack (badD 6), .hello (badD 0x10), .finish (badD 0x12),
      .close (badD 0x15), .commandSegment (badH (tHdr 3 0 0 0 0)), .stream (badH (tHdr 1 0 0 0 0)),
      .ack (badH (tHdr 1 0 0 0 0)), .hello (badH (tHdr 1 0 0 0 0)), .finish (badH (tHdr 1 0 0 0 0)),
      .close (badH (tHdr 1 0 0 0 0)), .ack { tData (tHdr 6 0 0 0 0) [] with sublink := 8 },
      .ack { tData (tHdr 6 0 0 0 0) [] with held := 5242881 }] : List Instr).all
        (fun i => i.wf == false) = true := by decide

theorem test_wf_header_fields :
    ([{ tHdr 6 0 0 0 0 with version := 256 }, tHdr 256 0 0 0 0, tHdr 6 65536 0 0 0, tHdr 6 0 (2 ^ 32) 0 0,
      tHdr 6 0 0 (2 ^ 24) 0, tHdr 6 0 0 0 65536, { tHdr 6 0 0 0 0 with alcove := 65536 },
      { tHdr 6 0 0 0 0 with session := 256 }, { tHdr 6 0 0 0 0 with queue := 256 },
      { tHdr 6 0 0 0 0 with pktNum := 2 ^ 64 }, { tHdr 6 0 0 0 0 with segOff := 2 ^ 24 },
      { tHdr 6 0 0 0 0 with ack := 2 ^ 32 }] : List WcpHeader).all (fun h => h.fits == false) = true := by decide

theorem test_wf_ports :
    ([.pfcPauseReceived 2 0 0, .pfcPauseReceived 0 8 0, .pfcPauseReceived 0 0 65536, .pfcPauseExpiry 2 0,
      .pfcPauseExpiry 0 8, .arpNdRequest 8 false 0, .icmpEcho 8 false 0, .unsupportedFrame 8 .tcp, .portLinkDown 8,
      .portLinkUp 8, .moduleAlarm 2 .voltage, .modulePresenceChange 2 true] : List Instr).all
        (fun i => i.wf == false) = true := by decide

theorem test_wf_units :
    ([.pkYieldPoint 6 0 [], .pkYieldPoint 0 8 [], .pkParkMoveDone 6 0, .pkJobEnd 6 0 true, .pkZeroiseDone 0 8 true,
      .pkCoreSelfReturn 6 0 true, .pkBistStart 0 6 0, .pkErrForce 0 0 8 0, .pkErrFire 6 0 0, .pkErrFire 0 0 8,
      .pkOmAddrWrite 0 6 0 0, .pkOmData3Write 0 0 8 0, .stairClimb 0 0 [] [] 0, .stairClimb 0 5 [] [] 0, .cbBistStart 0 4,
      .cbErrForce 0 4 0, .cbErrFire 4 0, .cbErrFire 0 8, .cwCtxErrFire 3 none, .cwLegacyErrFire 3, .pwParkErrFire 2 0,
      .pwParkErrFire 0 384, .rngErrFire 8 0] : List Instr).all (fun i => i.wf == false) = true := by decide

theorem test_wf_controllers :
    ([.softMonitorEvent 1 0, .softMonitorEvent 8 0, .softMonitorEvent 2 2, .lichenTraceFail 0, .lichenTraceFail 3,
      .duExpectWrite 0 16 0 none, .handoverReleaseInner 0 22, .handoverReleaseOuter 0 22, .handoverClaim 0 22,
      .pcGateClock 0 32, .pcGatePower 0 32, .pcRestore 0 32, .edSrcWrite 0 1280 0, .edAck 0 1280 false, .doorbellSet 0 4,
      .doorbellSet 0 28, .timerEvent 8, .pllPortUnlock .hclk, .pllRelock .cclk, .pllCoreUnlock .lclk, .startStepLimit 0,
      .startStepLimit 13,
      .faultPulse [{ line := 40, cls := .note, type := 0, addr := 0, master := 0 }],
      .fcStatusClear 0 false 0 [{ line := 40, cls := .note, type := 0, addr := 0, master := 0 }], .bankBlockEnd [] [] true,
      .faultPulse [{ line := 0, cls := .note, type := 0, addr := 0, master := 256 }]] : List Instr).all
        (fun i => i.wf == false) = true := by decide

theorem test_wf_data_length (d : Bytes) (h : 65535 < d.length) :
    (Instr.ack { tData (tHdr 6 0 0 0 0) [] with data := d }).wf = false := by
  have n : decide (d.length ≤ 65535) = false := decide_eq_false (by omega)
  simp [Instr.wf, Datagram.fits, n]

/-- A read of four bytes of mezzanine memory. -/
def tTxn : Txn :=
  { master := 0, space := .mezz, access := .read, addr := 0, len := 4, data := [], user := false, mirrored := false, from_ := 0 }

theorem test_wf_transactions :
    (([{ tTxn with master := 256 }, { tTxn with len := 0 }, { tTxn with addr := 62 },
       { tTxn with access := .write, data := [1] }] : List Txn).all (fun t => (Instr.fabricTransaction t).wf == false) &&
      (Instr.fabricTransaction tTxn).wf) = true := by decide

/-! ### Examples that the spec works out -/

/-- The Ed25519 signatures, the RSA operation and a new operation of the example of admission on the public-key wing. -/
def exEd : Load := { num := 0, deadline := 499999, width := 1, left := 14800000, span := 17048, fixed := 2400 }
def exRsa : Load := { num := 1, deadline := 49000000, width := 2, left := 12016096, span := 6008048, fixed := 2400 }
def exNew (n : Nat) : Load := { num := 2, deadline := 500000, width := 1, left := n, span := n, fixed := 2400 }
def exFits (n : Nat) (op : Load) : Bool := loadFits 0 400 .pk [exEd, exRsa, exNew n] op

/-- Admission on the public-key wing: the ML-DSA-65 sign is refused for its own deadline, and fits once the work ahead
has fallen to 11,490,560 cycles, not one more. -/
theorem test_ml_dsa_sign_is_refused :
    (exFits 284288 exRsa, exFits 284288 (exNew 284288),
      loadFits 0 400 .pk [{ exEd with left := 11490560 }, exRsa, exNew 284288] (exNew 284288),
      loadFits 0 400 .pk [{ exEd with left := 11490561 }, exRsa, exNew 284288] (exNew 284288)) =
      (true, false, true, false) := by decide

/-- Admission on the public-key wing: the Ed25519 sign is accepted. -/
theorem test_ed25519_sign_is_accepted : (exFits 17048 exRsa, exFits 17048 (exNew 17048)) = (true, true) := by decide

/-- An FF1 token of 16 digits with radix 10 and an 8-byte tweak reserves 30 slots and a span of 1,620 cycles. -/
theorem test_ff1_token :
    (ff1Bytes 10 16, cipherCost .ff1 true { noPrm with radix := 10, label := zeros 8 } 32) =
      (4, { cipherStep 30 1620 with serial := true }) := by decide

/-- A GCM encryption in three segments: 20,000 bytes are in D1, and the three segments are held. -/
theorem test_gcm_segments :
    (famClass .gcm 0x0201 256 20000,
      segRefused (newAssembly 0 (tHdr 1 1 0 20120 0x0201)) (tHdr 1 1 0 20120 0x0201) 8192,
      segRefused (newAssembly 0 (tHdr 1 1 0 20120 0x0201)) { tHdr 1 2 0 20120 0x0201 with segOff := 16384 } 3736,
      segRefused (newAssembly 0 (tHdr 1 1 0 20120 0x0201)) { tHdr 1 2 0 20120 0x0201 with segOff := 16384 } 3735) =
      (some .d1, none, none, some stLengthShort) := by decide

/-- The fixed field of the worker at member 5, side 1, for face instance number 0x1_A2B3 is 0x1601_A2B3. -/
theorem test_fixed_field :
    fixedField { sOn with gallery := { sOn.gallery with member := some 5 }, twin := { sOn.twin with side := 1 } }
      { tFace .encrypt with instance_ := 0x1A2B3 } = 0x1601A2B3 := by decide

/-- A counter across a power loss: the marks are due at the values of the table, and after mark 4 the counter resumes
at 4 × 2^20 with mark 4. -/
theorem test_counter_resumes_at_its_mark :
    (markDue 524287 1, markDue 524288 1, markDue 1572864 2, markDue 2621440 3, markDue 3000001 4,
      (resumeFace 1 { tFace .encrypt with nextInv := 3000001, invMark := 4 }).nextInv,
      (resumeFace 1 { tFace .encrypt with nextInv := 3000001, invMark := 4 }).invMark) =
      (false, true, true, true, false, 4194304, 4) := by decide

/-- The digest unit in a 200-byte SHA-512 operation with a number of words counted and `DU_LAST_BYTES` 4. -/
def exDu (words : Nat) : State :=
  { sOn with digest := { sOn.digest with state := .open_, busy := false, opAlgo := 1, opLen := 200, words := words
                                         lastB := 4 } }

/-- A 200-byte SHA-512 digest: word 31 fills a block, `DU_LAST` finalises after 49 words and not after 48. -/
theorem test_digest_of_200_bytes :
    ((duData (exDu 31) 0).digest.busy, (duData (exDu 32) 0).digest.busy, (duLast (exDu 49) 0).digest.state,
      (duLast (exDu 48) 0).digest.state, (duData (exDu 49) 0).digest.state) =
      (true, false, .final, .lenMismatch, .lenMismatch) := by decide

/-! ### Vectors of the standards -/

/-- FIPS 180-4, the message `abc`. -/
theorem test_sha256_abc :
    Config.hash 0 (ascii "abc") = be 32 0xba7816bf8f01cfea414140de5dae2223b00361a396177a9cb410ff61f20015ad := by decide +kernel

/-- FIPS 202, SHA3-256 of no bytes. -/
theorem test_sha3_256_empty :
    Config.hash 3 [] = be 32 0xa7ffc6f8bf1ed76651c14756a061d662f580ff4de43b49fa82d80a4b80f8434a := by decide +kernel

/-- FIPS 197, appendix C.1. -/
theorem test_aes_128 :
    Std.aes false (be 16 0x000102030405060708090a0b0c0d0e0f) (be 16 0x00112233445566778899aabbccddeeff) =
      be 16 0x69c4e0d86a7b0430d8cdb78070b4c55a := by decide +kernel

/-- RFC 7748, section 5.2, the first vector. -/
theorem test_x25519 :
    Config.x25519 (be 32 0xa546e36bf0527c9d3b16154b82465edd62144c0ac1fc5a18506a2244ba449ac4)
        (be 32 0xe6db6867583030db3594c1a424b15f7c726624ec26b3353b10a903a6d0ab1c4c) =
      be 32 0xc3da55379de9c6908e94ea4df28d084f32eccf03491c71f754b4075577a28552 := by decide +kernel

/-- RFC 8032, section 7.1, test 1: the signature of no bytes verifies. -/
theorem test_ed25519 :
    Config.edVerify (be 32 0xd75a980182b10ab7d54bfed3c964073a0ee172f3daa62325af021a68f707511a) []
      (be 32 0xe5564300c360ac729086e2cc806e828a84877f1eb8e5d974d873e06522490155 ++
        be 32 0x5fb8821590a33bacc61e39701cf9b46bd25bf5f0595bbe24655141438e7a100b) = true := by decide +kernel

end Sys2Proof.Tests
end

section
/-! PROOFS. The general rules of 00_scope.md: pair reads and their captures (R5, R7), the register commands and their
refusals (R5 to R9, R15, R31), and the cycle of an empty queue (R4, log 1). -/

namespace Sys2Proof.Proofs.ScopeRules

open Sys2Proof Sys2Proof.Machine

/-! ### Captured halves (R5) -/

@[simp] theorem capturedOf_captureHi_same (s : State) (m a : Nat) (v : Word) :
    capturedOf (captureHi s m a v) m a = some v := by
  have dropped : (s.captured.filter (fun p => !(p.master == m && p.addr == a))).find?
      (fun p => p.master == m && p.addr == a) = none := by
    rw [List.find?_eq_none]
    intro p hp
    simpa only [Bool.not_eq_true', Bool.not_eq_true] using (List.mem_filter.mp hp).2
  simp only [capturedOf, captureHi, List.find?_append, dropped]
  simp

/-- A capture is for its master alone. -/
theorem capturedOf_captureHi_other (s : State) {m n : Nat} (a b : Nat) (v : Word) (h : n ≠ m) :
    capturedOf (captureHi s m a v) n b = capturedOf s n b := by
  have kept (p : PairHalf) : decide ((!(p.master == m && p.addr == a)) = true ∧ (p.master == n && p.addr == b) = true)
      = (p.master == n && p.addr == b) := by
    rw [Bool.eq_iff_iff, decide_eq_true_iff]
    refine and_iff_right_of_imp fun hq => ?_
    have hmaster : p.master = n := by simpa using And.left (Bool.and_eq_true_iff.mp hq)
    simp [hmaster, h]
  simp only [capturedOf, captureHi, List.find?_append, List.find?_filter, kept]
  simp [Ne.symm h]

/-! ### Pairs and their windows (R5, R31) -/

/-- The high half of a pair follows its low half, in the same 64 KiB page. -/
theorem pairHi_eq_add_four {w : Win} {off h : Nat} (hp : pairHi w off = some h) : h = off + 4 ∧ off ≤ 0x30 := by
  cases w <;> simp only [pairHi, Option.ite_none_right_eq_some, Option.some.injEq, reduceCtorEq] at hp <;> omega

/-- No high half is the low half of a pair. -/
theorem pairHi_of_high {w : Win} {off h : Nat} (hp : pairHi w off = some h) : pairHi w h = none := by
  cases w <;> simp only [pairHi, Option.ite_none_right_eq_some, Option.some.injEq, reduceCtorEq] at hp ⊢
  all_goals exact if_neg (by omega)

theorem isHi_of_pairHi {w : Win} {off h : Nat} (hp : pairHi w off = some h) : isHi w h = true := by
  obtain ⟨rfl, -⟩ := pairHi_eq_add_four hp
  simp [isHi, hp]

theorem pairHi_of_isHi {w : Win} {h : Nat} (hh : isHi w h = true) : pairHi w (h - 4) = some h := by
  simp only [isHi, Bool.and_eq_true, beq_iff_eq] at hh
  exact hh.2

/-- A choice of `windowOf` between a page's window and the pages after it. -/
theorem windowChoice_eq_iff {p : Prop} [Decidable p] {x y z : Option (Win × Nat)} :
    (if p then x else y) = z ↔ p ∧ x = z ∨ ¬p ∧ y = z := by
  by_cases hp : p
  · simp only [hp, if_true, true_and, not_true, false_and, or_false]
  · simp only [hp, if_false, false_and, not_false_eq_true, true_and, false_or]

/-- The windows that hold pairs fill their pages of 64 KiB: such a window holds each address of its page, at the
address's offset in the page. -/
theorem windowOf_page {w : Win} {a b off h : Nat} (ha : windowOf a = some (w, off)) (hp : pairHi w off = some h)
    (hab : b / 0x10000 = a / 0x10000) : off = a % 0x10000 ∧ windowOf b = some (w, b % 0x10000) := by
  cases w <;> simp only [pairHi, reduceCtorEq] at hp
  -- five windows hold pairs; each is chosen by the number of its page
  all_goals
    simp only [windowOf, windowChoice_eq_iff, Option.some.injEq, Prod.mk.injEq, reduceCtorEq, false_and, and_false,
      or_false, false_or, true_and] at ha
    exact ⟨by omega, by simp [windowOf, hab, ha]⟩

/-- R31: four bytes after a pair's low half, in the same window, lies its high half. -/
theorem windowOf_hi {w : Win} {a off h : Nat} (ha : windowOf a = some (w, off)) (hp : pairHi w off = some h) :
    windowOf (a + 4) = some (w, h) := by
  obtain ⟨rfl, hoff⟩ := pairHi_eq_add_four hp
  have hmod := (windowOf_page ha hp rfl).1
  have hpage := (windowOf_page (b := a + 4) ha hp (by omega)).2
  rwa [show (a + 4) % 0x10000 = off + 4 by omega] at hpage

/-! ### Reads and writes of a register -/

theorem regGet_admitted {s : State} {m a off : Nat} {w : Win} (ha : windowOf a = some (w, off))
    (had : admits s m w off false = true) : regGet s m a = readWin s m a w off := by
  simp [regGet, ha, had]

theorem regPut_admitted {s : State} {m a off : Nat} {w : Win} (v : Word) (ha : windowOf a = some (w, off))
    (had : admits s m w off true = true) : regPut s m a v = writeWin s m w off v := by
  simp only [regPut, writeAs_admitted ⟨w, off, ha, had⟩, ha]

/-- A read of a window that holds a pair uses up no free values; only the Cipher Wing's windows do. -/
theorem readWin_noFree {s : State} {w : Win} {off h : Nat} (hp : pairHi w off = some h) :
    (if w = .cb 0 ∨ w = .cb 1 ∨ w = .cb 2 ∨ w = .cb 3 then useFree s 2 else s) = s := by
  refine if_neg ?_
  rintro (rfl | rfl | rfl | rfl) <;> simp [pairHi] at hp

/-- R5: a read of a low half captures the high half. -/
theorem readWin_lo {s : State} {w : Win} {off h : Nat} {v : Word} (m a : Nat) (hp : pairHi w off = some h)
    (hv : readRaw s w off = some v) :
    readWin s m a w off = busOk (captureHi s m (a + 4) ((readRaw s w h).getD 0)) v := by
  simp only [readWin, hv, readWin_noFree hp, hp]

/-- A high half reads as `readHi` says, and a read of it changes nothing. -/
theorem readWin_hi {s : State} {w : Win} {h : Nat} {v : Word} (m a : Nat) (hh : isHi w h = true)
    (hv : readRaw s w h = some v) : readWin s m a w h = busOk s (readHi s m a w h v) := by
  have hlo := pairHi_of_isHi hh
  simp only [readWin, hv, readWin_noFree hlo, pairHi_of_high hlo, hh, if_true]

/-- Settles O14: a pair's halves lie next to each other in one window, so the read of the low half captures under the
address at which the high half is read. -/
theorem pairReadsReturnTheCapture : Obligations.PairReadsReturnTheCapture := by
  unfold Obligations.PairReadsReturnTheCapture
  constructor
  · intro s t u m a off h w v ha had hp hv ht
    rw [regGet_admitted ha had, readWin_lo m a hp hv] at ht
    have hcap : capturedOf t m (a + 4) = some ((readRaw s w h).getD 0) := by
      rw [ht]; exact capturedOf_captureHi_same s m (a + 4) _
    refine ⟨by simp [ht], hcap, fun n hn => ?_, fun hsame hadu hlive => ?_⟩
    · rw [ht]; exact capturedOf_captureHi_other s (a + 4) (a + 4) _ hn
    · obtain ⟨live, hlive⟩ := Option.isSome_iff_exists.mp hlive
      rw [regGet_admitted (windowOf_hi ha hp) hadu, readWin_hi m (a + 4) (isHi_of_pairHi hp) hlive]
      simp [readHi, hsame, hcap]
  · intro s m a h w v ha hh had hv hnone
    rw [regGet_admitted ha had, readWin_hi m a hh hv]
    simp [readHi, hnone]

/-! ### The register commands -/

theorem exec_registerWrite (m a : Nat) (v : Word) (n : Nat) (s : State) :
    exec (.registerWrite m a v n) s = execRegisterWrite m a v s n := rfl

theorem exec_regPairLoRead (m a : Nat) (s : State) : exec (.regPairLoRead m a) s = execRegPairLoRead m a s := rfl

theorem exec_regPairHiWrite (m a : Nat) (v : Word) (s : State) :
    exec (.regPairHiWrite m a v) s = execRegPairHiWrite m a v s := rfl

/-- A register write in whose cycle hardware sets no bit is a write of the register space. -/
theorem exec_registerWrite_plain (m a : Nat) (v : Word) (s : State) :
    exec (.registerWrite m a v 0) s = .next (regPut s m a v) := by
  simp only [exec_registerWrite, execRegisterWrite, if_true]
  split <;> rfl

/-- R8: the bits that hardware sets in the cycle of a write come after the write, whose answer stays. -/
theorem exec_registerWrite_sets {s : State} {m a off n : Nat} {w : Win} (v : Word) (ha : windowOf a = some (w, off))
    (hn : n ≠ 0) : exec (.registerWrite m a v n) s = .next { hwSets (regPut s m a v) m w off n with
      lastErr := (regPut s m a v).lastErr, lastVal := (regPut s m a v).lastVal } := by
  simp only [exec_registerWrite, execRegisterWrite, ha, if_neg hn]

theorem exec_registerWrite_outside {s : State} {m a : Nat} (v : Word) (n : Nat) (ha : windowOf a = none) :
    exec (.registerWrite m a v n) s = .next (busErr s) := by
  simp only [exec_registerWrite, execRegisterWrite, regPut, writeAs_outside ha, ha]

theorem exec_registerWrite_refused {s : State} {m a off : Nat} {w : Win} (v : Word) (ha : windowOf a = some (w, off))
    (had : admits s m w off true = false) : exec (.registerWrite m a v 0) s = .next (refuse s m a true) := by
  rw [exec_registerWrite_plain, regPut, writeAs_refused ha had]

theorem exec_regPairLoRead_admitted {s : State} {m a off h : Nat} {w : Win} {v : Word}
    (ha : windowOf a = some (w, off)) (had : admits s m w off false = true) (hp : pairHi w off = some h)
    (hv : readRaw s w off = some v) :
    exec (.regPairLoRead m a) s = .next (busOk (captureHi s m (a + 4) ((readRaw s w h).getD 0)) v) := by
  simp only [exec_regPairLoRead, execRegPairLoRead, ha, hp, Option.isSome_some, if_true, regGet_admitted ha had,
    readWin_lo m a hp hv]

/-- R6: an admitted write of a high half is the pair's write of its window. -/
theorem exec_regPairHiWrite_admitted {s t : State} {m a off : Nat} {w : Win} {v : Word}
    (ha : windowOf a = some (w, off)) (hh : isHi w off = true) (hm : mayWrite s m a)
    (ht : writeRegPair s m w off v = some t) : exec (.regPairHiWrite m a v) s = .next t := by
  simp only [exec_regPairHiWrite, execRegPairHiWrite, ha, hh, if_true, regPut, writeAs_admitted hm, writeWin, ht]

/-! ### Refusals (R15, R487) -/

theorem capturePulses_status (now : Nat) (f : Collector) (ps : List Pulse) :
    (capturePulses now f ps).status = f.status := by
  unfold capturePulses
  dsimp only
  repeat' split
  all_goals rfl

/-- A free capture takes a pulse that comes alone and qualifies. -/
theorem capturePulses_single {now : Nat} {f : Collector} {p : Pulse} (hv : f.valid = false)
    (hc : f.capMin ≤ fclassCode p.cls) : capturePulses now f [p] = moreAdd { f with
      valid := true, fLine := p.line, fClass := fclassCode p.cls, fType := p.type, fAddr := p.addr
      fMaster := p.master, fTime := now, heldAt := now } 0 := by
  simp [capturePulses, hv, hc, capturePick]

/-- The `NOTE` of a refused access. -/
def refusalPulse (m a : Nat) (write : Bool) : Pulse :=
  { line := 15, cls := .note, type := if write then 2 else 1, addr := a, master := m }

theorem refuse_fc (s : State) (m a : Nat) (write : Bool) : (refuse s m a write).fc
    = capturePulses s.time (recordPulse s.fc (refusalPulse m a write)) [refusalPulse m a write] := rfl

/-- A refusal reaches the collector, the counters, `HC_ERR` and the answer of the access, and nothing else. -/
theorem refuse_eq (s : State) (m a : Nat) (write : Bool) : ∃ f p, refuse s m a write = { s with
    fc := f, perf := p, halls := { s.halls with err := setBit s.halls.err 0 }, lastErr := true, lastVal := 0 } := by
  rw [refuse, attrFault, noteAt_eq]
  exact ⟨_, _, rfl⟩

theorem refuse_halls (s : State) (m a : Nat) (write : Bool) :
    (refuse s m a write).halls = { s.halls with err := setBit s.halls.err 0 } := rfl

theorem refuse_fc_status (s : State) (m a : Nat) (write : Bool) :
    (refuse s m a write).fc.status = setBit s.fc.status 15 := by
  rw [refuse_fc, capturePulses_status]; rfl

theorem refuse_fc_service (s : State) (m a : Nat) (write : Bool) :
    (refuse s m a write).fc.service = s.fc.service := by
  rw [refuse_fc, (capturePulses_frame _ _ _).1]; rfl

/-- R487: the capture, where it is free and takes a `NOTE`, names line 15, the address and the master. -/
theorem refuse_capture {s : State} (m a : Nat) (write : Bool) (hv : s.fc.valid = false) (hc : s.fc.capMin ≤ 1) :
    (refuse s m a write).fc.fLine = 15 ∧ (refuse s m a write).fc.fAddr = a
      ∧ (refuse s m a write).fc.fMaster = m := by
  rw [refuse_fc, capturePulses_single (f := recordPulse s.fc _) (p := refusalPulse m a write) hv hc]
  exact ⟨rfl, rfl, rfl⟩

theorem refuse_frame (s : State) (m a : Nat) (write : Bool) :
    { refuse s m a write with
      fc := s.fc, perf := s.perf, halls := s.halls, lastErr := s.lastErr, lastVal := s.lastVal } = s := by
  obtain ⟨f, p, h⟩ := refuse_eq s m a write
  rw [h]

/-- Settles O59: each register command is the access to the register space that its address and its admission select. -/
theorem registerCommandsAct : Obligations.RegisterCommandsAct := by
  unfold Obligations.RegisterCommandsAct
  refine ⟨?admitted, ?refused, ?outside, ?loRead, ?fcHi, ?lcHi, ?refusal⟩
  case admitted =>
    intro s m a off w v ha had
    rw [exec_registerWrite_plain, regPut_admitted v ha had]
    refine ⟨rfl, fun n t hn ht => ?_⟩
    rw [exec_registerWrite_sets v ha hn, regPut_admitted v ha had, ht]
  case refused => exact fun s m a off w v ha had => exec_registerWrite_refused v ha had
  case outside => exact fun s m a n v ha => exec_registerWrite_outside v n ha
  case loRead => exact fun s m a off h w v ha had hp hv => exec_regPairLoRead_admitted ha had hp hv
  case fcHi =>
    rintro s m off v (rfl | rfl) hm
    · exact exec_regPairHiWrite_admitted (w := .fc) (off := 0x04) rfl rfl hm rfl
    · exact exec_regPairHiWrite_admitted (w := .fc) (off := 0x34) rfl rfl hm rfl
  case lcHi => exact fun s m v hm => exec_regPairHiWrite_admitted (w := .lc) (off := 0x2C) rfl rfl hm rfl
  case refusal =>
    intro s m a off w v ha had
    exact ⟨_, exec_registerWrite_refused v ha had, rfl, by rw [refuse_halls], refuse_fc_status s m a true,
      refuse_fc_service s m a true, refuse_capture m a true, refuse_frame s m a true, by rw [refuse_halls]⟩

/-! ### The step on an empty queue -/

/-- Counting a cycle reaches the counters and the index of the free values alone, and keeps the selects. -/
theorem perfTick_eq (s : State) : ∃ p n, perfTick s = { s with perf := p, fresh := n } ∧ p.sel = s.perf.sel := by
  unfold perfTick
  dsimp only
  split
  · exact ⟨_, _, rfl, rfl⟩
  · exact ⟨_, _, rfl, rfl⟩

/-- The same with and without power: a device without power counts nothing. -/
theorem counted_eq (s : State) : ∃ p n, (if s.power.powered then perfTick s else s) = { s with perf := p, fresh := n }
    ∧ p.sel = s.perf.sel := by
  split
  · exact perfTick_eq s
  · exact ⟨_, _, rfl, rfl⟩

/-- A count that no rate steers advances by the ns that pass (R4). -/
theorem advance_unsteered (time d : Nat) : advance time d 0 0 = ((time + d) % 2 ^ 64, 0) := by
  simp [advance, ns64]

theorem idleCycle_eq (s : State) : ∃ p n, p.sel = s.perf.sel ∧ idleCycle s = { s with
    perf := p, fresh := n, time := (advance s.time (if s.power.slow then 10 else 1) s.net.frac s.net.slew).1
    net := { s.net with frac := (advance s.time (if s.power.slow then 10 else 1) s.net.frac s.net.slew).2 }
    tally := { s.tally with
      time := (advance s.tally.time (if s.power.slow then 10 else 1) s.tally.frac s.tally.rate).1
      frac := (advance s.tally.time (if s.power.slow then 10 else 1) s.tally.frac s.tally.rate).2 } } := by
  obtain ⟨p, n, hs, hsel⟩ := counted_eq s
  refine ⟨p, n, hsel, ?_⟩
  unfold idleCycle
  rw [hs]

theorem step_idle {s : State} (h : s.pending = []) : step s = .next (idleCycle s) := by
  simp only [step, h, idle]

/-- Settles O2: the cycle replaces the counters, the index of the free values and the two times, as `idleCycle_eq` says,
and a time without a rate advances by the ns of the cycle. -/
theorem idleStepsCountTime : Obligations.IdleStepsCountTime := by
  unfold Obligations.IdleStepsCountTime
  intro s hq
  obtain ⟨p, n, hsel, ht⟩ := idleCycle_eq s
  refine ⟨_, (step_idle hq).trans (congrArg _ ht), hq, fun hr hf => ?_, fun hr hf => ?_, hsel, rfl, rfl, rfl⟩
  · simp only [hr, hf, advance_unsteered]
  · simp only [hr, hf, advance_unsteered]

end Sys2Proof.Proofs.ScopeRules
end

section
/-! PROOFS. What every step keeps: each command changes no more than its scope names, so the three memories stay
canonical and only stores, moves, erasures, transitions, starts and resets change a byte of them. -/

namespace Sys2Proof.Proofs.Memories

open Sys2Proof Sys2Proof.Machine

/-! ### One case per command -/

/-- What a command may change of the memories, of one-time programmable memory and of the life-cycle state. -/
def scopeOf (c : Instr) : Scope := { mem := mayChangeMemory c, otp := mayBurn c, life := mayChangeLife c }

/-- Each command keeps what its scope does not name. The law of a command asks for the parts of the scope that it
needs, and those are in the command's scope by definition. -/
theorem exec_keeps {s0 s : State} (c : Instr) (h : Keeps (scopeOf c) s0 s) : KeepsOut (scopeOf c) s0 (exec c s) :=
  match c with
  | .commandSegment d => execCommandSegment_keeps d s h
  | .assemblyTimerExpiry alcove session seq => execAssemblyTimerExpiry_keeps alcove session seq s h
  | .stream d => execStream_keeps d s h
  | .ack d => execAck_keeps d s h
  | .hello d => execHello_keeps d s h
  | .finish d => execFinish_keeps d s h
  | .halfOpenTimeout alcove session => execHalfOpenTimeout_keeps alcove session s h
  | .close d => execClose_keeps d s h
  | .sessionIdleTimeout alcove session => execSessionIdleTimeout_keeps alcove session s h
  | .completionHandover c => execCompletionHandover_keeps c s h
  | .eventModerationExpiry alcove => execEventModerationExpiry_keeps alcove s h
  | .pfcPauseReceived port prio time => execPfcPauseReceived_keeps port prio time s h
  | .arpNdRequest sublink v6 ip => execArpNdRequest_keeps sublink v6 ip s h
  | .icmpEcho sublink v6 ip => execIcmpEcho_keeps sublink v6 ip s h
  | .unsupportedFrame sublink k => execUnsupportedFrame_keeps sublink k s h
  | .ptpMessage m => execPtpMessage_keeps m s h
  | .ppsInEdge => execPpsInEdge_keeps s h
  | .ppsOutSecond => execPpsOutSecond_keeps s h
  | .moduleAlarm port flag => execModuleAlarm_keeps port flag s h
  | .modulePresenceChange port present => execModulePresenceChange_keeps port present s h
  | .roceAck qp psn => execRoceAck_keeps qp psn s h
  | .roceNak qp k => execRoceNak_keeps qp k s h
  | .cnpReceived qp => execCnpReceived_keeps qp s h
  | .rateIncreaseTick qp => execRateIncreaseTick_keeps qp s h
  | .qpAckTimeout qp => execQpAckTimeout_keeps qp s h
  | .roceRequestDropped qp => execRoceRequestDropped_keeps qp s h
  | .streamResultReady op => execStreamResultReady_keeps op s h
  | .alcoveResetDone alcove => execAlcoveResetDone_keeps alcove s h
  | .info w => execInfo_keeps w s h
  | .faceQuery w => execFaceQuery_keeps w s h
  | .timeQuery w => execTimeQuery_keeps w s h
  | .encrypt w => execEncrypt_keeps w s h
  | .decrypt w => execDecrypt_keeps w s h
  | .macGenerate w => execMacGenerate_keeps w s h
  | .macVerify w => execMacVerify_keeps w s h
  | .digest w => execDigest_keeps w s h
  | .contextOpen w => execContextOpen_keeps w s h
  | .contextUpdate w => execContextUpdate_keeps w s h
  | .contextFinal w => execContextFinal_keeps w s h
  | .contextSave w => execContextSave_keeps w s h
  | .contextRestore w => execContextRestore_keeps w s h
  | .contextClose w => execContextClose_keeps w s h
  | .sign w => execSign_keeps w s h
  | .verify w => execVerify_keeps w s h
  | .agree w => execAgree_keeps w s h
  | .encapsulate w => execEncapsulate_keeps w s h
  | .decapsulate w => execDecapsulate_keeps w s h
  | .pkEncrypt w => execPkEncrypt_keeps w s h
  | .pkDecrypt w => execPkDecrypt_keeps w s h
  | .random w => execRandom_keeps w s h
  | .keyGenerate w => execKeyGenerate_keeps w s h
  | .pairGenerate w => execPairGenerate_keeps w s h
  | .keyDerive w => execKeyDerive_keeps w s h
  | .keyWrap w => execKeyWrap_keeps w s h
  | .keyUnwrap w => execKeyUnwrap_keeps w s h
  | .faceDestroy w => execFaceDestroy_keeps w s h
  | .keyDestroy w => execKeyDestroy_keeps w s h
  | .faceRestrict w => execFaceRestrict_keeps w s h
  | .faceShare w => execFaceShare_keeps w s h
  | .publicExport w => execPublicExport_keeps w s h
  | .pinTranslate w => execPinTranslate_keeps w s h
  | .keyblockExport w => execKeyblockExport_keeps w s h
  | .keyblockImport w => execKeyblockImport_keeps w s h
  | .sliceCreate w => execSliceCreate_keeps w s h
  | .sliceModify w => execSliceModify_keeps w s h
  | .sliceRemove w => execSliceRemove_keeps w s h
  | .qpConnect w => execQpConnect_keeps w s h
  | .qpReset w => execQpReset_keeps w s h
  | .dirtyEnable w => execDirtyEnable_keeps w s h
  | .dirtyReadClear w => execDirtyReadClear_keeps w s h
  | .eventSessionSet w => execEventSessionSet_keeps w s h
  | .alcoveReset w => execAlcoveReset_keeps w s h
  | .countersRead w => execCountersRead_keeps w s h
  | .clientKeySet w => execClientKeySet_keeps w s h
  | .quorumPrepare w => execQuorumPrepare_keeps w s h
  | .rootCreate w => execRootCreate_keeps w s h
  | .rootRestore w => execRootRestore_keeps w s h
  | .sharesExport w => execSharesExport_keeps w s h
  | .quotaSet w => execQuotaSet_keeps w s h
  | .custodiansSet w => execCustodiansSet_keeps w s h
  | .certsGet w => execCertsGet_keeps w s h
  | .proveChallenge w => execProveChallenge_keeps w s h
  | .proveSetSecret w => execProveSetSecret_keeps w s h
  | .statement w => execStatement_keeps w s h
  | .ledgerRead w => execLedgerRead_keeps w s h
  | .witness w => execWitness_keeps w s h
  | .alcoveCreate w => execAlcoveCreate_keeps w s h
  | .alcoveConfigure w => execAlcoveConfigure_keeps w s h
  | .alcoveRemove w => execAlcoveRemove_keeps w s h
  | .sectionLoad w => execSectionLoad_keeps w s h
  | .lifeCycleSet w badBits => execLifeCycleSet_keeps w badBits s h rfl rfl rfl
  | .debugEnable w => execDebugEnable_keeps w s h
  | .unitOut w => execUnitOut_keeps w s h
  | .unitOutDone k index => execUnitOutDone_keeps k index s h
  | .unitReturn w => execUnitReturn_keeps w s h
  | .firmwareUpdate w => execFirmwareUpdate_keeps w s h
  | .archiveSnapshot w => execArchiveSnapshot_keeps w s h
  | .tallyRecordRead w => execTallyRecordRead_keeps w s h
  | .tallyCut w => execTallyCut_keeps w s h
  | .tallyLogRead w => execTallyLogRead_keeps w s h
  | .tallyIdentity w => execTallyIdentity_keeps w s h
  | .tallyReseal w badBits => execTallyReseal_keeps w badBits s h rfl
  | .gapAck w => execGapAck_keeps w s h
  | .regRead w => execRegRead_keeps w s h
  | .regWrite w => execRegWrite_keeps w s h rfl
  | .twinPair w => execTwinPair_keeps w s h
  | .twinUnpair w => execTwinUnpair_keeps w s h
  | .twinSolo w => execTwinSolo_keeps w s h
  | .receiveKey w => execReceiveKey_keeps w s h
  | .join w => execJoin_keeps w s h
  | .instanceBlock w => execInstanceBlock_keeps w s h
  | .grantKey w => execGrantKey_keeps w s h
  | .grant w => execGrant_keeps w s h
  | .revoke w => execRevoke_keeps w s h
  | .migrateOutBegin w => execMigrateOutBegin_keeps w s h
  | .migrateOutNext w => execMigrateOutNext_keeps w s h
  | .migrateOutStop w => execMigrateOutStop_keeps w s h
  | .migrateOutDone w => execMigrateOutDone_keeps w s h
  | .migrateInPrepare w => execMigrateInPrepare_keeps w s h
  | .migrateInPages w => execMigrateInPages_keeps w s h
  | .migrateInFinal w => execMigrateInFinal_keeps w s h
  | .migrateAbort w => execMigrateAbort_keeps w s h
  | .mutationCommit domain => execMutationCommit_keeps domain s h
  | .invocationMarkCommit r => execInvocationMarkCommit_keeps r s h
  | .snapshotComplete => execSnapshotComplete_keeps s h
  | .archiveRefreshDue block hot cool => execArchiveRefreshDue_keeps block hot cool s h
  | .grantExpiry slot => execGrantExpiry_keeps slot s h
  | .admissionEpoch => execAdmissionEpoch_keeps s h
  | .cipherOpDone op => execCipherOpDone_keeps op s h
  | .hashOpDone op copiesAgree => execHashOpDone_keeps op copiesAgree s h
  | .legacyOpDone op => execLegacyOpDone_keeps op s h
  | .pkYieldPoint bay core same => execPkYieldPoint_keeps bay core same s h
  | .pkParkMoveDone bay core => execPkParkMoveDone_keeps bay core s h
  | .pkJobEnd bay core checkOk => execPkJobEnd_keeps bay core checkOk s h
  | .pkZeroiseDone bay core clean => execPkZeroiseDone_keeps bay core clean s h
  | .pkCoreSelfReturn bay core pass => execPkCoreSelfReturn_keeps bay core pass s h
  | .unitBistDone k index sub bistPass katPass => execUnitBistDone_keeps k index sub bistPass katPass s h
  | .stairClimb master landing meas signer svn => execStairClimb_keeps master landing meas signer svn s h
  | .stairLineageRequest master v => execStairLineageRequest_keeps master v s h
  | .bankBlockEnd low high condAgree => execBankBlockEnd_keeps low high condAgree s h
  | .sporeDelivery => execSporeDelivery_keeps s h
  | .drbgGenerate inst => execDrbgGenerate_keeps inst s h
  | .smallSourceBlockEnd tally bank block => execSmallSourceBlockEnd_keeps tally bank block s h
  | .duLenLoWrite master value => execDuLenLoWrite_keeps master value s h
  | .duDataWrite master value => execDuDataWrite_keeps master value s h
  | .duLastWrite master value => execDuLastWrite_keeps master value s h
  | .duAbort master word => execDuAbort_keeps master word s h
  | .duBlockCompressed => execDuBlockCompressed_keeps s h
  | .duFinalDone pair => execDuFinalDone_keeps pair s h
  | .duExpectWrite master n value pair => execDuExpectWrite_keeps master n value pair s h
  | .cbBistStart master bay => execCbBistStart_keeps master bay s h
  | .cbErrForce master bay value => execCbErrForce_keeps master bay value s h
  | .cbErrFire bay source => execCbErrFire_keeps bay source s h
  | .cwCtxForce master value => execCwCtxForce_keeps master value s h
  | .cwCtxErrFire source ctx => execCwCtxErrFire_keeps source ctx s h
  | .cwLegacyBistStart master => execCwLegacyBistStart_keeps master s h
  | .cwLegacyForce master value => execCwLegacyForce_keeps master value s h
  | .cwLegacyErrFire source => execCwLegacyErrFire_keeps source s h
  | .pkBistStart master bay core => execPkBistStart_keeps master bay core s h
  | .pkErrForce master bay core value => execPkErrForce_keeps master bay core value s h
  | .pkErrFire bay core source => execPkErrFire_keeps bay core source s h
  | .pkOmAddrWrite master bay core value => execPkOmAddrWrite_keeps master bay core value s h
  | .pkOmData3Write master bay core value => execPkOmData3Write_keeps master bay core value s h
  | .pwParkForce master value => execPwParkForce_keeps master value s h
  | .pwParkErrFire source slot => execPwParkErrFire_keeps source slot s h
  | .duErrForce master value => execDuErrForce_keeps master value s h
  | .duParityFire => execDuParityFire_keeps s h
  | .rngErrForce master value => execRngErrForce_keeps master value s h
  | .rngErrFire source inst => execRngErrFire_keeps source inst s h
  | .hcWmLogicWrite master value => execHcWmLogicWrite_keeps master value s h
  | .hcWmMezzWrite master value => execHcWmMezzWrite_keeps master value s h
  | .wmMoveCommit mezz => execWmMoveCommit_keeps mezz s h rfl
  | .drainTimeout r => execDrainTimeout_keeps r s h
  | .handoverReleaseInner master block => execHandoverReleaseInner_keeps master block s h
  | .handoverReleaseOuter master block => execHandoverReleaseOuter_keeps master block s h
  | .handoverClaim master block => execHandoverClaim_keeps master block s h
  | .handoverDrainEnd block => execHandoverDrainEnd_keeps block s h
  | .handoverResetEnd block => execHandoverResetEnd_keeps block s h
  | .handoverClaimCommit block => execHandoverClaimCommit_keeps block s h
  | .hcEncLock master value => execHcEncLock_keeps master value s h
  | .hcErrForce master value => execHcErrForce_keeps master value s h
  | .mpuSwap master core => execMpuSwap_keeps master core s h
  | .mpuSwapDrainEnd core => execMpuSwapDrainEnd_keeps core s h
  | .mpuFaultRelease master core => execMpuFaultRelease_keeps master core s h
  | .fabricTransaction t => execFabricTransaction_keeps t s h rfl
  | .pcGateClock master block => execPcGateClock_keeps master block s h
  | .pcGatePower master block => execPcGatePower_keeps master block s h
  | .pcRestore master block => execPcRestore_keeps master block s h
  | .pcErrForce master value => execPcErrForce_keeps master value s h
  | .debugAccess r => execDebugAccess_keeps r s h rfl
  | .lichenTraceFail layer => execLichenTraceFail_keeps layer s h rfl
  | .lightAlarm => execLightAlarm_keeps s h rfl
  | .softMonitorEvent monitor inst => execSoftMonitorEvent_keeps monitor inst s h rfl
  | .cellTempSample outOfRange => execCellTempSample_keeps outOfRange s h rfl
  | .eraseComplete badBits => execEraseComplete_keeps badBits s h rfl
  | .bbCheckRewriteDone => execBbCheckRewriteDone_keeps s h
  | .tampApply master => execTampApply_keeps master s h
  | .tampBistStart master value => execTampBistStart_keeps master value s h
  | .tampBistEnd reported => execTampBistEnd_keeps reported s h
  | .tampTestInterval => execTampTestInterval_keeps s h
  | .tampErrForce master value => execTampErrForce_keeps master value s h
  | .tampAlarmForce master value => execTampAlarmForce_keeps master value s h rfl
  | .cellLow mv => execCellLow_keeps mv s h
  | .lcDebugWrite master value => execLcDebugWrite_keeps master value s h
  | .debugExpiry => execDebugExpiry_keeps s h
  | .lcErrForce master value => execLcErrForce_keeps master value s h
  | .authChallenge => execAuthChallenge_keeps s h
  | .authSubmit auth badBits => execAuthSubmit_keeps auth badBits s h rfl rfl rfl
  | .authStatus => execAuthStatus_keeps s h
  | .persoKeys => execPersoKeys_keeps s h
  | .persoCert items => execPersoCert_keeps items s h rfl rfl
  | .dap => execDap_keeps s h
  | .idcode => execIdcode_keeps s h
  | .samplePreload bits => execSamplePreload_keeps bits s h
  | .extest => execExtest_keeps s h
  | .clamp => execClamp_keeps s h
  | .highz => execHighz_keeps s h
  | .bypass => execBypass_keeps s h
  | .trstNLow => execTrstNLow_keeps s h
  | .faultPulse ps => execFaultPulse_keeps ps s h
  | .fcStatusClear master hi value ps => execFcStatusClear_keeps master hi value ps s h
  | .fcCaptureRelease master => execFcCaptureRelease_keeps master s h
  | .fcForce master hi lo => execFcForce_keeps master hi lo s h
  | .fcCtrlWrite master value => execFcCtrlWrite_keeps master value s h
  | .handleLimitExpiry => execHandleLimitExpiry_keeps s h
  | .collectorSelfFault c => execCollectorSelfFault_keeps c s h
  | .safeRestartExpiry => execSafeRestartExpiry_keeps s h rfl rfl rfl
  | .edSrcWrite master n value => execEdSrcWrite_keeps master n value s h
  | .edAck master n event => execEdAck_keeps master n event s h
  | .doorbellSet master n => execDoorbellSet_keeps master n s h
  | .edErrForce master value => execEdErrForce_keeps master value s h
  | .pllPortUnlock p => execPllPortUnlock_keeps p s h
  | .pllRelock p => execPllRelock_keeps p s h
  | .pllCoreUnlock p => execPllCoreUnlock_keeps p s h
  | .railFall => execRailFall_keeps s h rfl rfl
  | .railRise mv => execRailRise_keeps mv s h rfl rfl
  | .vinLow mv => execVinLow_keeps mv s h
  | .resetNLow ns => execResetNLow_keeps ns s h rfl rfl rfl
  | .selfReset => execSelfReset_keeps s h rfl rfl rfl
  | .start e => execStart_keeps e s h rfl rfl
  | .startStepLimit step => execStartStepLimit_keeps step s h
  | .service600s => execService600s_keeps s h
  | .ibveletFrame f => execIbveletFrame_keeps f s h
  | .ibRetransmitRequest seq => execIbRetransmitRequest_keeps seq s h
  | .ibHeartbeatDue => execIbHeartbeatDue_keeps s h
  | .ibLinkLost l => execIbLinkLost_keeps l s h
  | .ibLinkHandshake p => execIbLinkHandshake_keeps p s h
  | .ibErrForce master value => execIbErrForce_keeps master value s h
  | .journalRecordMirror r => execJournalRecordMirror_keeps r s h
  | .forwardedMutation r epoch => execForwardedMutation_keeps r epoch s h
  | .sessionRecord r => execSessionRecord_keeps r s h
  | .packetMark alcove session m => execPacketMark_keeps alcove session m s h
  | .acceptanceRecord r => execAcceptanceRecord_keeps r s h
  | .alcoveRecord r => execAlcoveRecord_keeps r s h
  | .sectionLoadForward head bodies => execSectionLoadForward_keeps head bodies s h
  | .serviceStateNotice service => execServiceStateNotice_keeps service s h
  | .bulkCopy b => execBulkCopy_keeps b s h
  | .twinJoin j => execTwinJoin_keeps j s h rfl rfl
  | .twinLinkWaitExpiry => execTwinLinkWaitExpiry_keeps s h rfl rfl
  | .twinKeepaliveDue => execTwinKeepaliveDue_keeps s h
  | .presenceQueryDue => execPresenceQueryDue_keeps s h
  | .presenceCheckEnd => execPresenceCheckEnd_keeps s h
  | .takeover => execTakeover_keeps s h
  | .announcementDue => execAnnouncementDue_keeps s h
  | .failbackExpiry => execFailbackExpiry_keeps s h
  | .plannedMove alcove sessions => execPlannedMove_keeps alcove sessions s h
  | .sequencerMove domain => execSequencerMove_keeps domain s h
  | .galleryProbeDue => execGalleryProbeDue_keeps s h
  | .probeReply payload managerKey => execProbeReply_keeps payload managerKey s h
  | .tallySeedDelivery seed => execTallySeedDelivery_keeps seed s h
  | .tallyAccumulate => execTallyAccumulate_keeps s h
  | .tallyRecordDue => execTallyRecordDue_keeps s h
  | .tallyTimePath disciplined => execTallyTimePath_keeps disciplined s h
  | .tallyPowerUp clockLost elapsed => execTallyPowerUp_keeps clockLost elapsed s h
  | .tallyFault e => execTallyFault_keeps e s h
  | .snapshotStrobe => execSnapshotStrobe_keeps s h
  | .prErrForce master value => execPrErrForce_keeps master value s h
  | .regPairLoRead master addr => execRegPairLoRead_keeps master addr s h
  | .regPairHiWrite master addr value => execRegPairHiWrite_keeps master addr value s h rfl
  | .registerWrite master addr value sets => execRegisterWrite_keeps master addr value sets s h rfl
  | .portLinkDown sublink => execPortLinkDown_keeps sublink s h
  | .portLinkUp sublink => execPortLinkUp_keeps sublink s h
  | .pfcPauseExpiry port prio => execPfcPauseExpiry_keeps port prio s h
  | .ticketExpiry domain ticket => execTicketExpiry_keeps domain ticket s h
  | .promiseDeadline w => execPromiseDeadline_keeps w s h
  | .timerEvent n => execTimerEvent_keeps n s h
  | .retentionLatchClear => execRetentionLatchClear_keeps s h
  | .cellLowClear => execCellLowClear_keeps s h
  | .archiveJournalWrite records => execArchiveJournalWrite_keeps records s h
  | .replyReceived m => execReplyReceived_keeps m s h
  | .readyReceived m => execReadyReceived_keeps m s h
  | .completionReceived m => execCompletionReceived_keeps m s h
  | .ppsOutFall => execPpsOutFall_keeps s h

/-! ### The memories -/

theorem step_keeps_memWf {s t : State} (hs : memWf s = true) (hst : step s = .next t) : memWf t = true := by
  unfold step at hst
  split at hst
  case h_1 => exact (idle_keeps (sc := ⟨false, false, false⟩) s (.refl _ s) t hst).mem hs
  case h_2 c r _ => exact (exec_keeps c (.refl _ { s with pending := r }) t hst).mem hs

/-- Settles O4: an idle cycle leaves the memories, and every command keeps their form. -/
theorem memoriesStayCanonical : Obligations.MemoriesStayCanonical := by
  unfold Obligations.MemoriesStayCanonical
  exact fun s t hs hst => step_keeps_memWf hs hst

/-- Settles O9: a command whose scope leaves the memories out keeps all three as they are. -/
theorem onlyStoresAndErasuresChangeMemory : Obligations.OnlyStoresAndErasuresChangeMemory := by
  unfold Obligations.OnlyStoresAndErasuresChangeMemory
  intro c s t hc hst sp a
  obtain ⟨hlogic, hmezz, harch⟩ := (exec_keeps c (.refl _ s) t hst).sameMem hc
  cases sp <;> simp only [memOf, hlogic, hmezz, harch]

end Sys2Proof.Proofs.Memories
end

section
/-! PROOFS. The register windows (R31): where they lie, the error responses outside them and at addresses without a
register, and the identity window. -/

namespace Sys2Proof.Proofs.Windows

open Sys2Proof Sys2Proof.Machine Sys2Proof.Proofs.ScopeRules

/-! ### Where the windows lie -/

/-- Whether an address lies in the window of an entry of the table. -/
def inEntry (a : Nat) (e : Nat × Nat × Win) : Bool := decide (e.1 ≤ a ∧ a < e.1 + e.2.1)

/-- An address in the window of an entry lies in that window, at its distance from the base: entry by entry, an equation
of linear arithmetic between the address, its page and its offset in the page. -/
theorem windowOf_of_inEntry {a : Nat} :
    ∀ e ∈ windowTable, inEntry a e = true → windowOf a = some (e.2.2, a - e.1) := by
  simp only [windowTable, List.forall_mem_append, List.forall_mem_cons, List.forall_mem_map, List.mem_range,
    List.not_mem_nil, false_implies, implies_true, and_true, inEntry, decide_eq_true_eq, windowOf,
    windowChoice_eq_iff, Option.some.injEq, Prod.mk.injEq, Win.mpu.injEq, Win.cb.injEq, Win.pk.injEq, Win.port.injEq,
    reduceCtorEq, false_and, and_false, or_false, false_or, true_and]
  refine ⟨⟨⟨⟨⟨⟨?low, ?innerMpus⟩, ?outerMpus⟩, ?counters⟩, ?cipherBays⟩, ?keyCores⟩, ?high⟩
  all_goals omega

/-- An address in no entry's window lies in no window: its page is that of no window that fills a page, and were it in
one of the numbered windows, the number would be that of an entry. -/
theorem windowOf_of_outside {a : Nat} (h : ∀ e ∈ windowTable, inEntry a e = false) : windowOf a = none := by
  simp only [windowTable, List.forall_mem_append, List.forall_mem_cons, List.forall_mem_map, List.mem_range,
    List.not_mem_nil, false_implies, implies_true, and_true, inEntry, decide_eq_false_iff_not] at h
  obtain ⟨⟨⟨⟨⟨⟨low, innerMpus⟩, outerMpus⟩, counters⟩, cipherBays⟩, keyCores⟩, high⟩ := h
  have hlow : 8 ≤ a / 0x10000 := by clear counters high; omega
  have hmid : a / 0x10000 ≠ 9 ∧ a / 0x10000 ≠ 10 := by clear low high; omega
  have hhigh : a / 0x10000 ≠ 0x30 ∧ a / 0x10000 ≠ 0x31 ∧ a / 0x10000 ≠ 0x38 ∧ a / 0x10000 ≠ 0x40 := by
    clear low counters; omega
  clear low counters high
  have := innerMpus (a % 0x10000 / 0x800)
  have := outerMpus (a % 0x10000 / 0x800 - 16)
  have := cipherBays (a % 0x10000 / 0x4000)
  have := keyCores ((a / 0x10000 - 0x20) * 8 + a % 0x10000 / 0x2000)
  simp only [windowOf, windowChoice_eq_iff, reduceCtorEq, and_false, false_or, and_true]
  omega

theorem windowOf_eq_find (a : Nat) :
    windowOf a = (windowTable.find? (inEntry a)).map (fun e => (e.2.2, a - e.1)) := by
  cases hf : windowTable.find? (inEntry a) with
  | none => exact windowOf_of_outside fun e he => Bool.eq_false_iff.mpr (List.find?_eq_none.mp hf e he)
  | some e => exact windowOf_of_inEntry e (List.mem_of_find?_eq_some hf) (List.find?_some hf)

theorem windowTable_apart : windowTable.Pairwise (fun e f => e.1 + e.2.1 ≤ f.1) := by decide

/-! ### Error responses -/

theorem regGet_outside {s : State} {m a : Nat} (ha : windowOf a = none) : regGet s m a = busErr s := by
  simp only [regGet, ha]

theorem regPut_outside {s : State} {m a : Nat} {v : Word} (ha : windowOf a = none) : regPut s m a v = busErr s :=
  writeAs_outside ha

theorem regGet_refused {s : State} {m a off : Nat} {w : Win} (ha : windowOf a = some (w, off))
    (had : admits s m w off false = false) : regGet s m a = refuse s m a false := by
  simp [regGet, ha, had]

theorem regPut_refused {s : State} {m a off : Nat} {w : Win} {v : Word} (ha : windowOf a = some (w, off))
    (had : admits s m w off true = false) : regPut s m a v = refuse s m a true :=
  writeAs_refused ha had

@[simp] theorem refuse_lastErr (s : State) (m a : Nat) (write : Bool) : (refuse s m a write).lastErr = true := rfl
@[simp] theorem refuse_lastVal (s : State) (m a : Nat) (write : Bool) : (refuse s m a write).lastVal = 0 := rfl

/-- A read where no register lies gets an error response and zero, whether the window admits its master or not. -/
theorem regGet_noRegister {s : State} {m a off : Nat} {w : Win} (ha : windowOf a = some (w, off))
    (hno : readRaw s w off = none) : (regGet s m a).lastErr = true ∧ (regGet s m a).lastVal = 0 := by
  cases had : admits s m w off false with
  | true => simp [regGet_admitted ha had, readWin, hno]
  | false => simp [regGet_refused ha had]

theorem regPut_noRegister {s : State} {m a off : Nat} {w : Win} {v : Word} (ha : windowOf a = some (w, off))
    (hpair : writeRegPair s m w off v = none) (hno : writeRaw s m w off v = none) :
    (regPut s m a v).lastErr = true := by
  cases had : admits s m w off true with
  | true => simp [regPut_admitted v ha had, writeWin, hpair, hno]
  | false => simp [regPut_refused ha had]

/-! ### The identity window -/

theorem windowOf_id {a : Nat} (ha : a < 0x10000) : windowOf a = some (.id, a) :=
  windowOf_of_inEntry (0, 0x10000, .id) (by decide) (by simpa [inEntry] using ha)

theorem admits_id_tally (s : State) (off : Nat) : admits s 0x70 .id off false = false := rfl

/-- The identity window admits the reads of every master of a hall but the Tally core, and no write (R14, R395). -/
theorem admits_id {s : State} {m : Nat} {h : Hall} (hm : masterHall s m = some h) (ht : m ≠ 0x70) (off : Nat)
    (write : Bool) : admits s m .id off write = !write := by
  simp [admits, ht, hm, hallAdmits, winBlock]

/-- A register of the identity window is no half of a pair, so it reads as it stands. -/
theorem regGet_id {s : State} {m a : Nat} {h : Hall} {v : Word} (hm : masterHall s m = some h) (ht : m ≠ 0x70)
    (ha : a < 0x10000) (hv : idRead s a = some v) : regGet s m a = busOk s v := by
  rw [regGet_admitted (windowOf_id ha) (admits_id hm ht a false)]
  simp [readWin, readRaw, hv, pairHi, isHi]

/-- Settles O12: `windowOf` finds the entry of the table, and each access answers as the window that it finds does. -/
theorem windowsLieWhereTheTableSays : Obligations.WindowsLieWhereTheTableSays := by
  unfold Obligations.WindowsLieWhereTheTableSays
  refine ⟨windowOf_eq_find, windowTable_apart, fun s m a v ha => ?outside, fun s m a off w v ha => ?noRegister,
    fun s a ha => regGet_refused (windowOf_id ha) (admits_id_tally s a), fun s m h hm ht => ?identity⟩
  case outside => simp [regGet_outside ha, regPut_outside ha]
  case noRegister => exact ⟨regGet_noRegister ha, regPut_noRegister ha⟩
  case identity =>
    exact ⟨regGet_id hm ht (by decide) rfl, regGet_id hm ht (by decide) rfl, regGet_id hm ht (by decide) rfl,
      regGet_id hm ht (by decide) rfl, fun a v ha => regPut_refused (windowOf_id ha) (admits_id hm ht a true)⟩

end Sys2Proof.Proofs.Windows
end

section
/-! PROOFS. The transactions of the fabric and the accesses of debug (R15, R395, R400, R403 to R413, R422, R423): what
an admitted one does to the memory it reaches, and what the halls keep from each other. -/

namespace Sys2Proof.Proofs.Transactions

open Sys2Proof Sys2Proof.Machine

/-! ### What a transaction comes to -/

theorem exec_fabricTransaction (t : Txn) (s : State) : exec (.fabricTransaction t) s = execFabricTransaction t s := rfl

/-- The MPU of the master admits a transaction; a master without one has none to ask. -/
def mpuPasses (s : State) (t : Txn) : Prop :=
  ∀ c, coreOf t.master = some c → coreTxnOk t = true ∧ mpuCheck s c t = none

theorem exec_txn_admitted {s : State} {t : Txn} {h : Hall} (hh : txnHall s t = some h) (hok : txnOk t = true)
    (hm : mpuPasses s t) : exec (.fabricTransaction t) s = .next (fabricDo s t h) := by
  cases hc : coreOf t.master with
  | none => simp [exec_fabricTransaction, execFabricTransaction, hh, hok, hc]
  | some c =>
    obtain ⟨hsize, hmpu⟩ := hm c hc
    simp [exec_fabricTransaction, execFabricTransaction, hh, hok, hc, hsize, hmpu]

theorem exec_txn_faults {s : State} {t : Txn} {h : Hall} {c r : Nat} (hh : txnHall s t = some h) (hok : txnOk t = true)
    (hc : coreOf t.master = some c) (hsize : coreTxnOk t = true) (hmpu : mpuCheck s c t = some r) :
    exec (.fabricTransaction t) s = .next (mpuFault s c r t) := by
  simp [exec_fabricTransaction, execFabricTransaction, hh, hok, hc, hsize, hmpu]

/-- A core issues no transaction of another size (R408). -/
theorem exec_txn_otherSize {s : State} {t : Txn} {h : Hall} {c : Nat} (hh : txnHall s t = some h) (hok : txnOk t = true)
    (hc : coreOf t.master = some c) (hsize : coreTxnOk t = false) : exec (.fabricTransaction t) s = .next s := by
  simp [exec_fabricTransaction, execFabricTransaction, hh, hok, hc, hsize]

/-- What a transaction of a master of a hall comes to: it is done, its MPU refuses it, or no core issues it. -/
theorem exec_txn_cases {s u : State} {t : Txn} {h : Hall} (hh : txnHall s t = some h) (hok : txnOk t = true)
    (he : exec (.fabricTransaction t) s = .next u) :
    mpuPasses s t ∧ u = fabricDo s t h ∨ ¬ mpuPasses s t ∧ (u = s ∨ ∃ c r, u = mpuFault s c r t) := by
  by_cases hm : mpuPasses s t
  · rw [exec_txn_admitted hh hok hm, Host.Outcome.next.injEq] at he
    exact .inl ⟨hm, he.symm⟩
  · refine .inr ⟨hm, ?_⟩
    simp only [mpuPasses, Classical.not_forall] at hm
    obtain ⟨c, hc, hrefused⟩ := hm
    cases hsize : coreTxnOk t with
    | false =>
      rw [exec_txn_otherSize hh hok hc hsize, Host.Outcome.next.injEq] at he
      exact .inl he.symm
    | true =>
      obtain ⟨r, hr⟩ := Option.ne_none_iff_exists'.mp fun hnone => hrefused ⟨hsize, hnone⟩
      rw [exec_txn_faults hh hok hc hsize hr, Host.Outcome.next.injEq] at he
      exact .inr ⟨c, r, he.symm⟩

/-! ### What the halls and the enclaves answer -/

theorem memTxn_admitted {s : State} {t : Txn} {h : Hall} (hsize : t.addr + t.len ≤ spaceSize t.space)
    (hopen : closed s t.space t.addr = false)
    (hhall : memAdmits s t.space h t.master t.addr (t.access == .write) = true)
    (hencl : t.space = .logic → enclAdmits s t = true) : memTxn s t h = memDo s t := by
  have hlogic : ¬ (t.space = .logic ∧ enclAdmits s t = false) := fun ⟨hl, hn⟩ => by simp [hencl hl] at hn
  simp [memTxn, Nat.not_lt.mpr hsize, hopen, hhall, hlogic]

/-- An error response that leaves the logic memory as it was. -/
structure Refused (s u : State) : Prop where
  lastErr : u.lastErr = true
  lastVal : u.lastVal = 0
  logicMem : u.halls.logicMem = s.halls.logicMem

theorem beNat_zeros (n : Nat) : beNat (zeros n) = 0 := by
  induction n with
  | zero => rfl
  | succ n ih => simpa [beNat, zeros, List.replicate_succ] using ih

theorem answerErr_refused {s v : State} (m len : Nat) (write : Bool) (hv : v.halls.logicMem = s.halls.logicMem) :
    Refused s (answerErr v m len write) := by
  have hzero (n : Nat) : w32 (beNat ((zeros n).take 4)) = 0 := by
    rw [show (zeros n).take 4 = zeros (min 4 n) by simp [zeros], beNat_zeros]; rfl
  refine ⟨rfl, ?_, hv⟩
  cases write
  case true => rfl
  case false => exact hzero len

/-- A transaction on the wrong side of the hall rules is refused (R15). -/
theorem memTxn_refused {s : State} {t : Txn} {h : Hall}
    (hhall : memAdmits s t.space h t.master t.addr (t.access == .write) = false) : Refused s (memTxn s t h) := by
  unfold memTxn
  simp only [hhall, if_true]
  repeat' split
  · exact answerErr_refused _ _ _ rfl
  · exact answerErr_refused _ _ _ rfl
  · exact answerErr_refused _ _ _ (by simp [hcErr])

theorem mpuFault_logicMem (s : State) (c r : Nat) (t : Txn) : (mpuFault s c r t).halls.logicMem = s.halls.logicMem := by
  unfold mpuFault
  dsimp only
  split <;> rfl

/-- Settles O40: the wrong side of the watermark is what `memAdmits` refuses, and a refusal leaves the memory. -/
theorem hallsKeepTheLogicMemory : Obligations.HallsKeepTheLogicMemory := by
  unfold Obligations.HallsKeepTheLogicMemory
  intro s t' t h hh hsp hok _ hside he
  have hhall : memAdmits s .logic h t.master t.addr (t.access == .write) = false := by
    rcases hside with ⟨rfl, hbelow⟩ | ⟨rfl, habove⟩
    · simp [memAdmits, wmLogic, hbelow]
    · simp [memAdmits, wmLogic, Nat.not_lt.mpr habove]
  rcases exec_txn_cases hh hok he with ⟨-, rfl⟩ | ⟨hm, rfl | ⟨c, r, rfl⟩⟩
  · obtain ⟨herr, hval, hmem⟩ : Refused (perfAdd s 0 0x08 1) (fabricDo s t h) := by
      simp only [fabricDo, hsp, reduceCtorEq, if_false]
      exact memTxn_refused (by rw [hsp]; exact hhall)
    exact ⟨hmem, fun _ => ⟨herr, hval⟩⟩
  · exact ⟨rfl, fun hpasses => absurd hpasses hm⟩
  · exact ⟨mpuFault_logicMem s c r t, fun hpasses => absurd hpasses hm⟩

/-! ### Admitted transactions -/

/-- An admitted transaction on a memory is counted and done. -/
theorem exec_txn_memory {s : State} {t : Txn} {h : Hall} (hh : txnHall s t = some h) (hok : txnOk t = true)
    (hm : mpuPasses s t) (hsp : t.space ≠ .regs) (hsize : t.addr + t.len ≤ spaceSize t.space)
    (hopen : closed s t.space t.addr = false)
    (hhall : memAdmits s t.space h t.master t.addr (t.access == .write) = true)
    (hencl : t.space = .logic → enclAdmits s t = true) :
    exec (.fabricTransaction t) s = .next (memDo (perfAdd s 0 0x08 1) t) := by
  rw [exec_txn_admitted hh hok hm, fabricDo]
  simp only [hsp, if_false]
  exact congrArg _ (memTxn_admitted (s := perfAdd s 0 0x08 1) hsize hopen hhall hencl)

theorem exec_txn_registers {s : State} {t : Txn} {h : Hall} (hh : txnHall s t = some h) (hok : txnOk t = true)
    (hm : mpuPasses s t) (hsp : t.space = .regs) :
    exec (.fabricTransaction t) s = .next (regTxn (perfAdd s 0 0x08 1) t) := by
  rw [exec_txn_admitted hh hok hm, fabricDo]
  simp only [hsp, if_true]

theorem exec_debugAccess (r : DebugReq) (s : State) : exec (.debugAccess r) s = execDebugAccess r s := rfl

/-- A debug access that its target and the enclaves let pass, under an enable in force for one of the halls, is done. -/
theorem exec_debugAccess_admitted {s : State} {sp : Space} {w : Bool} {a : Nat} (v : Nat)
    (hthere : debugThere s sp a = true) (hhas : ∃ h, debugHas s h w = true ∧ debugTarget s sp h w a = true)
    (hencl : debugEncl s sp a = true) : exec (.debugAccess (.access sp w a v)) s = .next (debugDo s sp w a v) := by
  have hok : (debugHas s .inner w && debugTarget s sp .inner w a || debugHas s .outer w && debugTarget s sp .outer w a)
      = true := by
    obtain ⟨h, hen, htarget⟩ := hhas
    cases h <;> simp [hen, htarget]
  simp [exec_debugAccess, execDebugAccess, hthere, hencl, hok]

/-- Settles O39: the checks of `execFabricTransaction` and of `execDebugAccess`, passed one after the other. -/
theorem transactionsAccess : Obligations.TransactionsAccess := by
  unfold Obligations.TransactionsAccess
  refine ⟨fun s t h hh hok hm => ⟨exec_txn_registers hh hok hm, exec_txn_memory hh hok hm⟩,
    fun s t h c r hh hok hc hsize hmpu => exec_txn_faults hh hok hc hsize hmpu,
    fun s sp w a v => exec_debugAccess_admitted v, fun s c hc hen => ?halt⟩
  case halt =>
    simp [exec_debugAccess, execDebugAccess, hc, hen]

/-! ### What an admitted transaction leaves in the memories -/

theorem memOf_congr {s v : State} (h : v.halls = s.halls) (sp : Space) : memOf v sp = memOf s sp := by
  cases sp <;> simp only [memOf, h]

@[simp] theorem memOf_answer (s : State) (m : Nat) (err : Bool) (data : Bytes) (sp : Space) :
    memOf (answer s m err data) sp = memOf s sp := memOf_congr rfl sp

theorem memOf_setMem_same (v : State) {sp : Space} (m : List Host.Cell) (h : sp ≠ .regs) :
    memOf (setMem v sp m) sp = m := by
  cases sp with
  | regs => exact absurd rfl h
  | _ => rfl

theorem memOf_setMem_other (v : State) {sp sp' : Space} (m : List Host.Cell) (h : sp' ≠ sp) :
    memOf (setMem v sp m) sp' = memOf v sp' := by
  cases sp <;> cases sp' <;> simp_all [setMem, memOf]

theorem wf_memOf {s : State} (h : memWf s = true) (sp : Space) : Mem.wf (memOf s sp) = true := by
  simp only [memWf, hallsWf, Bool.and_eq_true] at h
  obtain ⟨⟨hlogic, hmezz⟩, harch⟩ := h
  cases sp with
  | logic => exact hlogic
  | mezz => exact hmezz
  | archive => exact harch
  | regs => rfl

/-- A write of contexts in the clear reaches the contexts and no memory (R302). -/
theorem clearWrite_halls (s : State) (a : Nat) (data : Bytes) : (clearWrite s a data).halls = s.halls := by
  have hput (s : State) (n : Nat) : (clearPut s a data n).halls = s.halls := by
    unfold clearPut
    split <;> rfl
  have hfold (l : List Nat) (f : Nat → Nat) (s : State) :
      (l.foldl (fun s i => clearPut s a data (f i)) s).halls = s.halls := by
    induction l generalizing s with
    | nil => rfl
    | cons i r ih => exact (ih _).trans (hput s _)
  unfold clearWrite
  split
  · exact hfold _ _ s
  · rfl

/-- The bytes that an admitted read returns: contexts in the clear for an Inner core in the mezzanine, else the
memory. -/
def bytesAt (s : State) (t : Txn) : Bytes :=
  if seesClear t then (List.range t.len).map (fun i => clearByte s (t.addr + i))
  else Mem.read (memOf s t.space) t.addr t.len

/-- An access to the mezzanine is counted, which reaches the counters alone. -/
theorem mezzCounted_eq (s : State) (c : Prop) [Decidable c] (e : Nat) :
    ∃ p, (if c then perfAdd s 21 e 1 else s) = { s with perf := p } := by
  split
  · exact ⟨_, rfl⟩
  · exact ⟨_, rfl⟩

theorem memDo_write (s : State) {t : Txn} (hw : t.access = .write) : ∃ v, v.halls = s.halls ∧
    memDo s t = answer (setMem v t.space (Mem.write (memOf s t.space) t.addr t.data)) t.master false [] := by
  obtain ⟨p, hp⟩ := mezzCounted_eq s (t.space = .mezz) 0x69
  simp only [memDo, hw, if_true, hp]
  have hhalls : (if seesClear t then clearWrite { s with perf := p } t.addr t.data else { s with perf := p }).halls
      = s.halls := by
    split
    · exact clearWrite_halls _ _ _
    · rfl
  exact ⟨_, hhalls, by rw [memOf_congr hhalls]⟩

theorem memDo_read (s : State) {t : Txn} (hr : t.access ≠ .write) :
    ∃ v, v.halls = s.halls ∧ v.outbox = s.outbox ∧ memDo s t = answer v t.master false (bytesAt s t) := by
  obtain ⟨p, hp⟩ := mezzCounted_eq s (t.space = .mezz) 0x68
  refine ⟨{ s with perf := p }, rfl, rfl, ?_⟩
  simp only [memDo, hr, if_false, hp, bytesAt]
  split <;> rfl

theorem memDo_lastErr (s : State) (t : Txn) : (memDo s t).lastErr = false := by
  by_cases hw : t.access = .write
  · obtain ⟨v, -, hdo⟩ := memDo_write s hw
    rw [hdo]; rfl
  · obtain ⟨v, -, -, hdo⟩ := memDo_read s hw
    rw [hdo]; rfl

/-- An admitted read changes no byte, and an admitted write none outside the bytes that it writes. -/
theorem memDo_get_other {s : State} {t : Txn} {sp : Space} {a : Nat} (hwf : memWf s = true)
    (hlen : t.access = .write → t.data.length = t.len) (hregs : t.space ≠ .regs)
    (hother : sp ≠ t.space ∨ a < t.addr ∨ t.addr + t.len ≤ a ∨ t.access ≠ .write) :
    Mem.get (memOf (memDo s t) sp) a = Mem.get (memOf s sp) a := by
  by_cases hw : t.access = .write
  · obtain ⟨v, hv, hdo⟩ := memDo_write s hw
    rw [hdo, memOf_answer]
    by_cases hsp : sp = t.space
    · subst hsp
      have houtside : a < t.addr ∨ t.addr + t.data.length ≤ a := by simpa [hw, hlen hw] using hother
      rw [memOf_setMem_same v _ hregs]
      exact Mem.get_write_outside t.addr a t.data (wf_memOf hwf _) houtside
    · rw [memOf_setMem_other v _ hsp, memOf_congr hv]
  · obtain ⟨v, hv, -, hdo⟩ := memDo_read s hw
    rw [hdo, memOf_answer, memOf_congr hv]

theorem memDo_get_written {s : State} {t : Txn} {i : Nat} (hwf : memWf s = true) (hw : t.access = .write)
    (hlen : t.data.length = t.len) (hregs : t.space ≠ .regs) (hi : i < t.len) :
    Mem.get (memOf (memDo s t) t.space) (t.addr + i) = t.data.getD i 0 := by
  obtain ⟨v, -, hdo⟩ := memDo_write s hw
  rw [hdo, memOf_answer, memOf_setMem_same v _ hregs]
  exact Mem.get_write_inside t.addr i t.data (wf_memOf hwf t.space) (by omega)

theorem clearByte_outside {s : State} {a : Nat} (h : spillSlot a = none) :
    clearByte s a = Mem.get (memOf s .mezz) a := by
  simp [clearByte, h, memOf]

/-- Settles O15: the admitted transaction is `memDo` of the counted state, and a store's data has the length of the
transaction. -/
theorem storesChangeOnlyTheirBytes : Obligations.StoresChangeOnlyTheirBytes := by
  unfold Obligations.StoresChangeOnlyTheirBytes
  intro s t h hwf hh hok hm hsp hsize hopen hhall hencl
  have hlen : t.access = .write → t.data.length = t.len := by
    intro hw
    simpa [txnOk, hw] using And.right (Bool.and_eq_true_iff.mp hok)
  refine ⟨_, exec_txn_memory hh hok hm hsp hsize hopen hhall hencl, memDo_lastErr _ t, fun sp a hother => ?other,
    fun hw i hi => ?written, fun hr => ?read, fun a ha => clearByte_outside ha⟩
  case other => exact memDo_get_other (s := perfAdd s 0 0x08 1) hwf hlen hsp hother
  case written => exact memDo_get_written (s := perfAdd s 0 0x08 1) hwf hw (hlen hw) hsp hi
  case read =>
    obtain ⟨v, -, hout, hdo⟩ := memDo_read (perfAdd s 0 0x08 1) hr
    rw [hdo, answer, emit, hout]
    rfl

end Sys2Proof.Proofs.Transactions
end

section
/-! PROOFS. The payment commands (R19, R123 to R127): a translation over one wing or two, and key blocks that leave and
enter. -/

namespace Sys2Proof.Proofs.Payment

open Sys2Proof Sys2Proof.Machine

/-! ### Random fill (R125, R383) -/

theorem withDraw_served {s t : State} {w n : Nat} {k : Work} {rnd : Bytes} (f : State → Bytes → State)
    (hready : drawState s (alcInst k.alcove) = .ok) (hdraw : (rnd, t) = drawFrom s (alcInst k.alcove) n) :
    withDraw s w k n f = f t rnd := by
  simp only [withDraw, hready, ← hdraw]

/-- A format with random fill draws 16 bytes, where the generator of its alcove serves; the others take zeros. -/
theorem withFill_served {s t : State} {w fmt : Nat} {k : Work} {rnd : Bytes} (f : State → Bytes → State)
    (hfill : pinFills fmt = true →
      drawState s (alcInst k.alcove) = .ok ∧ (rnd, t) = drawFrom s (alcInst k.alcove) 16)
    (hplain : pinFills fmt = false → rnd = zeros 16 ∧ t = s) : withFill s w k fmt f = f t rnd := by
  cases hf : pinFills fmt with
  | true =>
    obtain ⟨hready, hdraw⟩ := hfill hf
    simp only [withFill, hf, if_true, withDraw_served f hready hdraw]
  | false =>
    obtain ⟨rfl, rfl⟩ := hplain hf
    simp [withFill, hf]

/-! ### The commands -/

theorem exec_pinTranslate (w : Nat) (s : State) : exec (.pinTranslate w) s = execPinTranslate w s := rfl
theorem exec_keyblockExport (w : Nat) (s : State) : exec (.keyblockExport w) s = execKeyblockExport w s := rfl
theorem exec_keyblockImport (w : Nat) (s : State) : exec (.keyblockImport w) s = execKeyblockImport w s := rfl

/-- Settles O24: each hypothesis is one check of the command, passed, and what is left is the issue of its operation.
The open policy of a block that leaves, the template without a type and the length in `blockMeters` are the model's
choices (log 50). -/
theorem paymentCommandsRun : Obligations.PaymentCommandsRun := by
  unfold Obligations.PaymentCommandsRun
  refine ⟨?first, ?second, ?blockExport, ?blockImport⟩
  case first =>
    rintro s t w si ni so no fi fo k a b sec out f g both pins rnd hw hcarry rfl rfl ha hb hin hout hform rfl rfl
      husesIn husesOut hmarkIn hmarkOut hissue hfill hplain
    have hsame : ¬ (fld k.payload 16 1 = 1 ∧ fld k.payload 17 1 ≠ 1) := fun ⟨h, hn⟩ => hn (hform h)
    simp only [exec_pinTranslate, execPinTranslate, onWork_ready hw, hcarry, ha, hb, withFace_ok hin, withFace_ok hout,
      hsame, husesIn, husesOut, hmarkIn, hmarkOut, hissue, withFill_served _ hfill hplain, if_false, reduceCtorEq,
      or_self]
  case second =>
    rintro s w so no fo k out g r hw hcarry rfl hout huses hmark hissue
    simp only [exec_pinTranslate, execPinTranslate, onWork_ready hw, hcarry, withFace_ok hout, huses, hmark, hissue,
      if_false, reduceCtorEq, or_self]
  case blockExport =>
    rintro s w slot n k a ⟨ts, tn, tgt, tf⟩ sec face x b td wing pins hw rfl rfl ha ht hface hpair hmatch rfl huses
      hmark hissue rfl
    simp only [exec_keyblockExport, execKeyblockExport, onWork_ready hw, ha, ht, withFace_ok hface, hpair, hmatch,
      huses, hmark, hissue, if_false, reduceCtorEq, or_self]
  case blockImport =>
    rintro s w slot n k t b td sec face x f wing hw hread rfl rfl hface hroot howners hblock rfl hdenied huses hinst
      hmark hissue
    simp only [exec_keyblockImport, execKeyblockImport, onWork_ready hw, hread, withFace_ok hface, hroot, howners,
      hblock, hdenied, huses, hinst, hmark, hissue, Bool.not_true, if_false, reduceCtorEq, or_self]

end Sys2Proof.Proofs.Payment
end

section
/-! PROOFS. The tamper controller (R428 to R456) and the retention latch (R29): alarms, monitors, the backup cell,
settings and tests. -/

namespace Sys2Proof.Proofs.TamperControl

open Sys2Proof Sys2Proof.Machine

/-! ### The soft monitors (R434, R437) -/

/-- An event counts where the device is powered and armed, the last one counted lies in another sample period, and the
unit that saw it is not under test; it alarms where the count is reached. -/
theorem softEvent_counted {s : State} {n i : Nat} {m : Monitor} (hm : tget s.tamper.mons n = some m)
    (hp : s.power.powered = true) (harm : armOf (tampLife s) ≠ 0)
    (hnew : (m.stamps.head?).all (fun t => t / (monLimits n).1 != s.time / (monLimits n).1) = true)
    (htest : s.tamper.bistOn = true → s.tamper.bistMon ≠ n ∨ s.tamper.bistInst ≠ i) :
    softEvent s n i =
      if monFires { m with stamps := (s.time :: m.stamps).take 16 } then
        alarm (modTamp s fun t => { t with mons := tput t.mons n { m with stamps := (s.time :: m.stamps).take 16 } })
          (n + 1) (monResp m.set == 2)
      else modTamp s fun t => { t with mons := tput t.mons n { m with stamps := (s.time :: m.stamps).take 16 } } := by
  have hidle : ¬ (s.tamper.bistOn = true ∧ s.tamper.bistMon = n ∧ s.tamper.bistInst = i) :=
    fun ⟨hon, hmon, hinst⟩ => (htest hon).elim (absurd hmon) (absurd hinst)
  simp only [softEvent, hm]
  refine if_neg ?_
  rintro (hoff | hunarmed | hsame | hbusy)
  · simp [hp] at hoff
  · exact harm hunarmed
  · cases hst : m.stamps with
    | nil => simp [hst] at hsame
    | cons t r => simp [hst] at hnew hsame; exact hnew hsame
  · exact hidle hbusy

/-! ### The backup cell and the end of an erasure (R444, R447, R451, R453) -/

/-- On the cell alone the watch takes samples of the temperature. -/
theorem exec_cellTempSample_watched {s : State} (out : Bool) (hp : s.power.powered = false)
    (hw : watchOn (tampLife s) = true) : exec (.cellTempSample out) s =
      .next (if out = false then modTamp s fun t => { t with tempOut := 0 }
        else if 2 ≤ s.tamper.tempOut + 1 then alarm (modTamp s fun t => { t with tempOut := t.tempOut + 1 }) 5 true
        else modTamp s fun t => { t with tempOut := t.tempOut + 1 }) := by
  have hruns : ¬ (s.power.powered = true ∨ watchOn (tampLife s) = false) := by simp [hp, hw]
  exact congrArg _ (if_neg hruns)

theorem exec_eraseComplete (bad : Nat) (s : State) : exec (.eraseComplete bad) s = execEraseComplete bad s := rfl

theorem exec_cellLow_powered {s : State} {mv : Nat} (hp : s.power.powered = true) (hmv : mv < 2400)
    (hl : s.tamper.cellLow = false) : exec (.cellLow mv) s =
      .next (pulse { s with power := { s.power with cellMv := mv }, tamper := { s.tamper with cellLow := true } } 2
        .note) :=
  congrArg _ ((if_pos hp).trans (if_pos ⟨hmv, hl⟩))

theorem exec_cellLow_watched {s : State} {mv : Nat} (hp : s.power.powered = false) (hmv : mv < 2200)
    (hw : watchOn (tampLife s) = true) (hg : s.bb.gap.getLsbD 0 = false) : exec (.cellLow mv) s =
      .next (bbChange { s with power := { s.power with cellMv := mv } } fun b => { b with gap := setBit b.gap 0 }) :=
  congrArg _ ((if_neg (Bool.eq_false_iff.mp hp)).trans (if_pos ⟨hmv, hw, hg⟩))

/-! ### Settings and built-in tests (R435 to R440, R456) -/

theorem exec_tampApply_admitted {s : State} {m : Nat} (hm : mayWrite s m 0x60000) :
    exec (.tampApply m) s = .next (tampApply s) := congrArg _ (writeAs_admitted hm)

theorem exec_tampBistStart_admitted {s : State} {m : Nat} {v : Word} (hm : mayWrite s m 0x60100) :
    exec (.tampBistStart m v) s = .next (tampBist s v) := congrArg _ (writeAs_admitted hm)

theorem exec_tampErrForce_admitted {s : State} {m : Nat} {v : Word} (hm : mayWrite s m 0x60024) :
    exec (.tampErrForce m v) s = .next (tampForce s v) := congrArg _ (writeAs_admitted hm)

theorem exec_tampAlarmForce_admitted {s : State} {m : Nat} {v : Word} (hm : mayWrite s m 0x60028) :
    exec (.tampAlarmForce m v) s = .next (tampAlarmForce s v) := congrArg _ (writeAs_admitted hm)

/-- A test that runs ends where it has reported, or where 1 ms has passed. -/
theorem exec_tampBistEnd_running {s : State} {reported : Bool} (hon : s.tamper.bistOn = true)
    (hdue : reported = true ∨ s.tamper.bistAt + 1000000 ≤ s.time) {t : State}
    (ht : t = { s with tamper := { s.tamper with bistOn := false, bistDone := true, bistPass := reported } }) :
    exec (.tampBistEnd reported) s =
      .next (nextTest (if reported then t else markFail t s.tamper.bistMon s.tamper.bistInst)) := by
  have hends : ¬ (reported = false ∧ s.time < s.tamper.bistAt + 1000000) := by
    rintro ⟨rfl, hearly⟩
    simp only [Bool.false_eq_true, false_or] at hdue
    omega
  have hruns : ¬ s.tamper.bistOn = false := by simp [hon]
  subst ht
  exact congrArg _ ((if_neg hruns).trans (if_neg hends))

/-- Settles O41: each case names the branch of the command that its hypotheses select. The layer operand of
`LICHEN_TRACE_FAIL` and the whole periods of 250 ns in `monFires` are the model's choices (log 76, log 91). -/
theorem tamperActs : Obligations.TamperActs := by
  unfold Obligations.TamperActs
  refine ⟨?alarms, ?monitor, ?cellTemp, ?erased, ?check, ?cellLow, ?cellGap, ?cellClear, ?latch, ?apply, ?testStart,
    ?testPass, ?testFail, ?round, ?errForce, ?alarmForce⟩
  case alarms => exact fun s => ⟨rfl, rfl, rfl⟩
  case monitor =>
    rintro s t n i m m' hm hp harm hnew htest rfl rfl
    exact congrArg _ (softEvent_counted hm hp harm hnew htest)
  case cellTemp =>
    intro s hp hw
    refine ⟨exec_cellTempSample_watched false hp hw, (exec_cellTempSample_watched true hp hw).trans ?_⟩
    by_cases hfirst : s.tamper.tempOut = 0
    · simp [hfirst, modTamp]
    · have hsecond : 2 ≤ s.tamper.tempOut + 1 := by omega
      simp [hfirst, hsecond, modTamp]
  case erased =>
    rintro s t i bad hphase hflag rfl
    simp only [exec_eraseComplete, execEraseComplete, hphase, hflag, if_true]
  case check => exact fun s hb => congrArg _ (if_pos hb)
  case cellLow => exact fun s mv => exec_cellLow_powered
  case cellGap => exact fun s mv => exec_cellLow_watched
  case cellClear => exact fun s => rfl
  case latch => exact fun s => ⟨_, rfl, rfl, rfl, rfl, rfl⟩
  case apply =>
    intro s m hm hok
    exact (exec_tampApply_admitted hm).trans (congrArg _ (if_pos hok))
  case testStart =>
    rintro s m n i v hm rfl rfl hrun hoff hn
    have hfree : ¬ (s.tamper.bistOn = true ∨ 9 ≤ bitsOf v.toNat 3 0) := by simp [hoff, hn]
    exact (exec_tampBistStart_admitted hm).trans (congrArg _ ((if_pos hrun).trans (if_neg hfree)))
  case testPass => exact fun s t hon ht => exec_tampBistEnd_running hon (.inl rfl) ht
  case testFail => exact fun s t hon hdue ht => exec_tampBistEnd_running hon (.inr hdue) ht
  case round => exact fun s hp hdue => congrArg _ (if_pos ⟨hp, hdue⟩)
  case errForce => exact fun s m v hm => exec_tampErrForce_admitted hm
  case alarmForce =>
    intro s m v hm hl
    exact (exec_tampAlarmForce_admitted hm).trans (congrArg _ (if_pos hl))

end Sys2Proof.Proofs.TamperControl
end

section
/-! PROOFS. The ports outside WCP (R33, R35, R36, R41, R137, R166, R646) and device time (R38 to R40): pauses, links,
modules, neighbours, echoes, the two-step exchange and the PPS pins. -/

namespace Sys2Proof.Proofs.PortsAndTime

open Sys2Proof Sys2Proof.Machine

/-! ### Ports after an update -/

@[simp] theorem portOf_modPort_same (s : State) (p : Nat) (f : Port → Port) :
    portOf (modPort s p f) p = f (portOf s p) := by
  by_cases hp : p = 0 <;> simp [portOf, modPort, hp]

/-- Port numbers count as 0 and not 0. -/
theorem portOf_modPort_other (s : State) {p q : Nat} (f : Port → Port) (h : p = 0 ↔ q ≠ 0) :
    portOf (modPort s p f) q = portOf s q := by
  by_cases hp : p = 0
  · simp [portOf, modPort, hp, h.mp hp]
  · have hq : q = 0 := by simpa [hp] using h
    simp [portOf, modPort, hp, hq]

theorem portOf_sendPause_same (s : State) (p k : Nat) (on : Bool) : portOf (sendPause s p k on) p = { portOf s p with
    pauseSent := if on then k :: (portOf s p).pauseSent else (portOf s p).pauseSent.erase k } := by
  cases on <;> exact portOf_modPort_same s p _

theorem portOf_sendPause_other (s : State) {p q : Nat} (k : Nat) (on : Bool) (h : p = 0 ↔ q ≠ 0) :
    portOf (sendPause s p k on) q = portOf s q := by
  cases on <;> exact portOf_modPort_other s _ h

theorem sendPause_outbox (s : State) (p k : Nat) (on : Bool) :
    (sendPause s p k on).outbox = s.outbox ++ [.pfcPause p k on] := by
  cases on <;> simp [sendPause]

/-! ### Receive regions and the pauses that they send (R36, R166) -/

/-- The state with what a frame says its priority's region holds. -/
def regionNoted (s : State) (d : Datagram) : State :=
  if tgetD (portOf s (portNo d.sublink)).recvUsed d.prio 0 = d.held then s
  else modPort s (portNo d.sublink) (fun p =>
    { p with recvUsed := if d.held = 0 then tdel p.recvUsed d.prio else tput p.recvUsed d.prio d.held })

/-- The note is of the frame's own port and of what its region holds. -/
theorem portOf_regionNoted (s : State) (d : Datagram) : ∃ u, tgetD u d.prio 0 = d.held ∧
    portOf (regionNoted s d) (portNo d.sublink) = { portOf s (portNo d.sublink) with recvUsed := u } := by
  by_cases hsame : tgetD (portOf s (portNo d.sublink)).recvUsed d.prio 0 = d.held
  · exact ⟨_, hsame, by rw [regionNoted, if_pos hsame]⟩
  · refine ⟨_, ?_, by rw [regionNoted, if_neg hsame, portOf_modPort_same]⟩
    by_cases hheld : d.held = 0 <;> simp [tgetD, hheld]

theorem portOf_regionNoted_other (s : State) (d : Datagram) {q : Nat} (h : portNo d.sublink = 0 ↔ q ≠ 0) :
    portOf (regionNoted s d) q = portOf s q := by
  unfold regionNoted
  split
  · rfl
  · exact portOf_modPort_other s _ h

@[simp] theorem regionNoted_outbox (s : State) (d : Datagram) : (regionNoted s d).outbox = s.outbox := by
  unfold regionNoted
  split
  · rfl
  · simp

@[simp] theorem regionNoted_pauseSent (s : State) (d : Datagram) :
    (portOf (regionNoted s d) (portNo d.sublink)).pauseSent = (portOf s (portNo d.sublink)).pauseSent := by
  obtain ⟨u, -, hport⟩ := portOf_regionNoted s d
  rw [hport]

/-- The free space of a frame's region, once the frame is in. -/
def regionFree (s : State) (d : Datagram) : Nat := regionShare (portOf s (portNo d.sublink)) - d.held

/-- R36, R166: what a frame's region makes of the pause of its priority. -/
theorem regionFills_eq (s : State) (d : Datagram) : regionFills s d =
    if regionFree s d < 163840 ∧ (portOf s (portNo d.sublink)).pauseSent.contains d.prio = false then
      sendPause (regionNoted s d) (portNo d.sublink) d.prio true
    else if 294912 < regionFree s d ∧ (portOf s (portNo d.sublink)).pauseSent.contains d.prio = true then
      sendPause (regionNoted s d) (portNo d.sublink) d.prio false
    else regionNoted s d := by
  obtain ⟨u, -, hport⟩ := portOf_regionNoted s d
  have hfree : regionShare (portOf (regionNoted s d) (portNo d.sublink)) - d.held = regionFree s d := by
    rw [hport]; rfl
  rw [← hfree, ← regionNoted_pauseSent]
  rfl

/-- Whatever becomes of the pause, the frame's port notes the region and the other port stays. -/
theorem regionFills_ports (s : State) (d : Datagram) {q : Nat} (h : portNo d.sublink = 0 ↔ q ≠ 0) :
    tgetD (portOf (regionFills s d) (portNo d.sublink)).recvUsed d.prio 0 = d.held
      ∧ portOf (regionFills s d) q = portOf s q := by
  obtain ⟨u, hu, hport⟩ := portOf_regionNoted s d
  have hpaused (on : Bool) :
      tgetD (portOf (sendPause (regionNoted s d) (portNo d.sublink) d.prio on) (portNo d.sublink)).recvUsed d.prio 0 = d.held
        ∧ portOf (sendPause (regionNoted s d) (portNo d.sublink) d.prio on) q = portOf s q := by
    rw [portOf_sendPause_same, portOf_sendPause_other _ _ _ h, hport, portOf_regionNoted_other s d h]
    exact ⟨hu, rfl⟩
  rw [regionFills_eq]
  split
  · exact hpaused true
  split
  · exact hpaused false
  · exact ⟨by rw [hport]; exact hu, portOf_regionNoted_other s d h⟩

theorem regionFills_starts {s : State} {d : Datagram} (hfree : regionFree s d < 160 * 1024)
    (hsent : (portOf s (portNo d.sublink)).pauseSent.contains d.prio = false) :
    regionFills s d = sendPause (regionNoted s d) (portNo d.sublink) d.prio true := by
  rw [regionFills_eq, if_pos ⟨hfree, hsent⟩]

theorem regionFills_ends {s : State} {d : Datagram} (hfree : 288 * 1024 < regionFree s d)
    (hsent : (portOf s (portNo d.sublink)).pauseSent.contains d.prio = true) :
    regionFills s d = sendPause (regionNoted s d) (portNo d.sublink) d.prio false := by
  rw [regionFills_eq, if_neg (by omega), if_pos ⟨hfree, hsent⟩]

theorem regionFills_stays {s : State} {d : Datagram} (hlow : 160 * 1024 ≤ regionFree s d)
    (hhigh : regionFree s d ≤ 288 * 1024) : regionFills s d = regionNoted s d := by
  rw [regionFills_eq, if_neg (by omega), if_neg (by omega)]

/-! ### Pauses received, links and modules (R33, R36, R41, R137, R646) -/

theorem exec_pfcPauseReceived {p k n : Nat} (s : State) (hp : p < 2) (hk : k < 8) (hn : n ≠ 0) :
    exec (.pfcPauseReceived p k n) s = .next (releaseHeld (modPort (perfAdd s (14 + p) 0x30 1) p fun x =>
      { x with paused := tput x.paused k (s.time + n) })) := by
  have hvalid : ¬ (2 ≤ p ∨ 8 ≤ k) := by omega
  refine congrArg _ ((if_neg hvalid).trans ?_)
  simp only [if_neg hn]

theorem exec_pfcPauseExpiry {s : State} {p k n : Nat} (hp : p < 2) (hpaused : tget (portOf s p).paused k = some n)
    (hdue : n ≤ s.time) : exec (.pfcPauseExpiry p k) s =
      .next (releaseHeld (modPort s p fun x => { x with paused := tdel x.paused k })) := by
  have hvalid : ¬ 2 ≤ p := by omega
  refine congrArg _ ((if_neg hvalid).trans ?_)
  simp only [hpaused, if_pos hdue]

theorem exec_portLinkUp {s : State} {l : Nat} (hl : l < 8) (hmod : (portOf s (portNo l)).moduleUp = true)
    (hpll : (portOf s (portNo l)).pllOk = true) (hsub : l % 4 < subLinks (portOf s (portNo l))) :
    exec (.portLinkUp l) s =
      .next (takeBreak (modPort s (portNo l) fun p => { p with up := p.up.set (l % 4) true }) (1 - portNo l)) := by
  have hvalid : ¬ (8 ≤ l ∨ (portOf s (portNo l)).moduleUp = false ∨ (portOf s (portNo l)).pllOk = false
      ∨ subLinks (portOf s (portNo l)) ≤ l % 4) := by
    simp only [hmod, hpll, Bool.true_eq_false, false_or]; omega
  exact congrArg _ (if_neg hvalid)

theorem exec_modulePresence_gone {s : State} {p : Nat} (hp : p < 2) (hpres : (portOf s p).present = true) :
    exec (.modulePresenceChange p false) s = .next (modPort s p fun x => { x with
      present := false, moduleUp := false, highPower := false, dataPath := false, up := [false, false, false, false] }) := by
  have hvalid : ¬ (2 ≤ p ∨ (portOf s p).present = false) := by simp [hp, hpres]
  exact congrArg _ (if_neg hvalid)

/-- R41: a module is brought up on a port that serves, after step 11 of the start. -/
theorem exec_modulePresence_new {s : State} {p : Nat} (hp : p < 2) (hpres : (portOf s p).present = false)
    (hstep : 11 ≤ s.boot.step) (hserves : portServes s p = true) : exec (.modulePresenceChange p true) s =
      .next (emit (modPort s p fun x => { x with
        present := true, moduleUp := true, highPower := true, dataPath := true, alarms := 0 }) (.moduleReset p)) := by
  have hvalid : ¬ (2 ≤ p ∨ (portOf s p).present = true) := by simp [hp, hpres]
  refine congrArg _ ((if_neg hvalid).trans ?_)
  simp only [if_true, hserves, decide_eq_true hstep, Bool.and_self, moduleTo]

/-! ### Neighbours, echoes and dropped frames (R35, R44, R49) -/

theorem exec_arpNdRequest_owned {s : State} {l ip : Nat} {v : Bool} {x : Alcove} (hl : l < 8)
    (howner : ownerOfIp s l v ip = some x) : exec (.arpNdRequest l v ip) s =
      .next (sendOut (perfAdd s (14 + portNo l) 0x30 1) l 0 (.arpReply l v ip x.set.mac)) := by
  have hcounted : ownerOfIp (perfAdd s (14 + portNo l) 0x30 1) l v ip = some x := howner
  refine congrArg _ ((if_neg (Nat.not_le.mpr hl)).trans ?_)
  simp only [hcounted]

theorem exec_icmpEcho_answered {s : State} {l ip : Nat} {v : Bool} (hl : l < 8) (hicmp : s.net.icmp = true)
    (howner : (ownerOfIp s l v ip).isSome = true) : exec (.icmpEcho l v ip) s =
      .next (sendOut (perfAdd s (14 + portNo l) 0x30 1) l 0 (.echoReply l v ip)) :=
  congrArg _ ((if_neg (Nat.not_le.mpr hl)).trans (if_pos ⟨hicmp, howner⟩))

/-! ### The two-step exchange (R38, R39, R605) -/

/-- A message on the PTP port, in its domain, is counted and taken. -/
theorem exec_ptpMessage_own {s : State} {m : PtpInfo} (hp : m.port < 2) (hport : m.port = s.net.ptpPort)
    (hdom : m.domain = s.net.ptpDomain) :
    exec (.ptpMessage m) s = .next (ptpTake (perfAdd s (14 + m.port) 0x30 1) m) := by
  have hown : ¬ (m.port ≠ s.net.ptpPort ∨ m.domain ≠ s.net.ptpDomain) := by simp [hport, hdom]
  exact congrArg _ ((if_neg (Nat.not_le.mpr hp)).trans (if_neg hown))

theorem ptpTake_sync {s : State} {m : PtpInfo} {n : Nat} (hk : m.kind = .sync n) :
    ptpTake s m = modPtp (useFree s 1) fun p => { p with seq := n, t2 := some (stamp s), t1 := none, t3 := none } := by
  simp only [ptpTake, hk]

theorem ptpTake_followUp {s : State} {m : PtpInfo} {n a b l : Nat} (hk : m.kind = .followUp n a)
    (hsync : s.net.ptp.t2 = some b) (hfirst : s.net.ptp.t1 = none) (hseq : s.net.ptp.seq = n)
    (hl : firstUp s m.port = some l) : ptpTake s m = sendOut (modPtp (useFree s 1) fun p =>
      { p with t1 := some a, req := (p.req + 1) % 65536, t3 := some (stamp s) }) l 0
      (.delayReq l m.transport s.net.ptp.req) := by
  simp only [ptpTake, hk, hsync, hl, hseq, hfirst, and_self, if_true]

theorem ptpTake_delayResp {s : State} {m : PtpInfo} {n a b c d : Nat} (hk : m.kind = .delayResp n d)
    (h1 : s.net.ptp.t1 = some a) (h2 : s.net.ptp.t2 = some b) (h3 : s.net.ptp.t3 = some c)
    (hreq : (n + 1) % 65536 = s.net.ptp.req) : ptpTake s m = adjust { s with net := { s.net with
      ptpHere := true, ptp := { s.net.ptp with t1 := none, t2 := none, t3 := none } } }
      (ptpOffset a b c d) (28 + m.port) := by
  simp only [ptpTake, hk, h1, h2, h3, hreq, if_true]

theorem ptpTake_announce {s : State} {m : PtpInfo} {u : Int} (hk : m.kind = .announce u) :
    ptpTake s m = { s with net := { s.net with leap := u } } := by
  simp only [ptpTake, hk]

/-! ### PPS (R40, R646) -/

theorem exec_ppsInEdge_disciplines {s : State} (hptp : s.net.ptpHere = false) (hsrc : s.net.ptpSource = 1) :
    exec .ppsInEdge s = .next (adjust s (if s.time % 10 ^ 9 < 5 * 10 ^ 8 then ((s.time % 10 ^ 9 : Nat) : Int)
      else ((s.time % 10 ^ 9 : Nat) : Int) - 10 ^ 9) 3) := by
  have hpps : ¬ (s.net.ptpHere = true ∨ s.net.ptpSource ≠ 1) := by simp [hptp, hsrc]
  exact congrArg _ (if_neg hpps)

theorem exec_ppsOutSecond_rises {s : State} (hp : s.power.powered = true) (hlow : s.net.ppsOut = false)
    (hnew : s.net.ppsRose / 10 ^ 9 < s.time / 10 ^ 9) : exec .ppsOutSecond s =
      .next (emit { s with net := { s.net with ppsOut := true, ppsRose := s.time } } (.ppsOut true)) := by
  have hrises : ¬ (s.power.powered = false ∨ s.net.ppsOut = true ∨ s.time / 10 ^ 9 ≤ s.net.ppsRose / 10 ^ 9) := by
    simp only [hp, hlow, Bool.true_eq_false, Bool.false_eq_true, false_or]; omega
  exact congrArg _ (if_neg hrises)

/-! ### Event records leave the slew (R75, R78) -/

@[simp] theorem sendOut_slew (s : State) (l p : Nat) (o : Output) : (sendOut s l p o).net.slew = s.net.slew := by
  unfold sendOut
  split <;> rfl

@[simp] theorem sendProt_slew (s : State) (a i : Nat) (x : Session) (l p : Nat) (h : WcpHeader) (b : Bytes) :
    (sendProt s a i x l p h b).net.slew = s.net.slew := by
  unfold sendProt mirrorDev
  split <;> exact sendOut_slew _ _ _ _

@[simp] theorem dropSession_slew (s : State) (a i st : Nat) : (dropSession s a i st).net.slew = s.net.slew := by
  unfold dropSession
  split
  · rfl
  split
  · exact sendProt_slew s a i _ _ _ _ _
  · rfl

theorem flushEvents_slew (n : Nat) : ∀ s a, (flushEvents n s a).net.slew = s.net.slew := by
  induction n with
  | zero => exact fun _ _ => rfl
  | succ n ih =>
    intro s a
    unfold flushEvents
    repeat' split
    · rfl
    · rfl
    · rfl
    · rfl
    · exact dropSession_slew s a _ _
    · exact (ih _ _).trans (sendProt_slew s a _ _ _ _ _ _)

@[simp] theorem flushDue_slew (s : State) (a : Nat) : (flushDue s a).net.slew = s.net.slew := by
  unfold flushDue
  repeat' split
  · rfl
  · exact flushEvents_slew _ s a
  · rfl

@[simp] theorem postEvent_slew (s : State) (a c st i q n d : Nat) :
    (postEvent s a c st i q n d).net.slew = s.net.slew := by
  unfold postEvent
  split
  · exact flushEvents_slew _ _ a
  · exact flushDue_slew _ a

theorem time_of_told {s t : State} (h : Told s t) : t.time = s.time := by
  rw [Told] at h
  rw [← h]

/-! ### Device time follows its reference (R39) -/

/-- The slew of a small offset: its sign is against the offset and its size within 100 ppm. -/
theorem adjust_slews {s : State} {o : Int} (line : Nat) (ho : o.natAbs ≤ 100000) :
    (adjust s o line).time = s.time ∧ (adjust s o line).net.slew.natAbs ≤ 100
      ∧ (0 < o → (adjust s o line).net.slew < 0) ∧ (o < 0 → 0 < (adjust s o line).net.slew) := by
  obtain ⟨n, hn, hadj⟩ : ∃ n, n < 100 ∧ adjust s o line = { useFree s 1 with net := { s.net with
      slew := if o = 0 then 0 else if 0 < o then -((n + 1 : Nat) : Int) else ((n + 1 : Nat) : Int) } } :=
    ⟨Config.freeNat s.fresh % 100, Nat.mod_lt _ (by decide), if_pos ho⟩
  rw [hadj]
  refine ⟨rfl, ?_, fun hpos => ?_, fun hneg => ?_⟩
  · dsimp only
    split
    · omega
    · split <;> omega
  · dsimp only
    rw [if_neg (by omega), if_pos hpos]
    omega
  · dsimp only
    rw [if_neg (by omega), if_neg (by omega)]
    omega

theorem adjust_steps {s : State} {o : Int} (line : Nat) (ho : 100000 < o.natAbs) :
    (adjust s o line).time = (((s.time : Int) - o) % 2 ^ 64).toNat ∧ (adjust s o line).net.slew = 0 := by
  have hns : ns64 (((s.time : Int) - o) % 2 ^ 64).toNat = (((s.time : Int) - o) % 2 ^ 64).toNat :=
    Nat.mod_eq_of_lt (by omega)
  have hlarge : ¬ o.natAbs ≤ 100000 := by omega
  rw [adjust, if_neg hlarge]
  exact ⟨(time_of_told (postEvent_told _ 0 _ 0 _ _ 0 _)).trans hns, postEvent_slew _ 0 _ 0 _ _ 0 _⟩

/-- Settles O19: each case names the branch of the command that its hypotheses select. The held operand and the eighth of a
region that a priority has are the model's choices (log 74), as are a pause in ns, the mean of the two one-way differences,
the free slew and a module that is brought up after step 11 only (log 75), and priority 0 of the answers (log 100). -/
theorem portsAndTimeRun : Obligations.PortsAndTimeRun := by
  unfold Obligations.PortsAndTimeRun
  refine ⟨?noted, ?starts, ?ends, ?stays, ?paused, ?sent, ?pauseEnds, ?linkDown, ?linkUp, ?alarm, ?gone, ?new, ?arp, ?echo,
    ?dropped, ?ptp, ?ppsIn, ?ppsRises, ?ppsFalls, ?adjusts⟩
  case noted =>
    rintro s t d p hprio hl rfl rfl
    exact regionFills_ports s d (by simp only [portNo]; omega)
  case starts =>
    rintro s t d p hprio hl rfl rfl hfree hsent
    rw [regionFills_starts hfree hsent, portOf_sendPause_same, sendPause_outbox]
    simp
  case ends =>
    rintro s t d p hprio hl rfl rfl hfree hsent
    rw [regionFills_ends hfree hsent, portOf_sendPause_same, sendPause_outbox]
    simp
  case stays =>
    rintro s t d p hprio hl rfl rfl hlow hhigh
    rw [regionFills_stays hlow hhigh]
    simp
  case paused => exact fun s p k n => exec_pfcPauseReceived s
  case sent => exact fun s l p o => rfl
  case pauseEnds => exact fun s p k n => exec_pfcPauseExpiry
  case linkDown => exact fun s l hl => ⟨_, rfl, congrArg _ (if_neg (Nat.not_le.mpr hl))⟩
  case linkUp => exact fun s l => exec_portLinkUp
  case alarm => exact fun s p f hp hpres => congrArg _ (if_pos ⟨hp, hpres⟩)
  case gone => exact fun s p => exec_modulePresence_gone
  case new => exact fun s p => exec_modulePresence_new
  case arp => exact fun s l ip v x => exec_arpNdRequest_owned
  case echo => exact fun s l ip v => exec_icmpEcho_answered
  case dropped => exact fun s l k hl => congrArg _ (if_neg (Nat.not_le.mpr hl))
  case ptp =>
    intro s m hp hport hdom
    rw [exec_ptpMessage_own hp hport hdom]
    refine ⟨_, rfl, ?sync, ?followUp, ?delayResp, ?announce⟩
    case sync => exact fun n hk => congrArg _ (ptpTake_sync hk)
    case followUp =>
      intro n a b l hk h2 h1 hseq hl
      exact congrArg _ (ptpTake_followUp (s := perfAdd s (14 + m.port) 0x30 1) hk h2 h1 hseq hl)
    case delayResp =>
      intro n a b c d hk h1 h2 h3 hreq
      exact congrArg _ (ptpTake_delayResp (s := perfAdd s (14 + m.port) 0x30 1) hk h1 h2 h3 hreq)
    case announce => exact fun u hk => congrArg _ (ptpTake_announce hk)
  case ppsIn => exact fun s => exec_ppsInEdge_disciplines
  case ppsRises => exact fun s => exec_ppsOutSecond_rises
  case ppsFalls => exact fun s hhigh hdue => congrArg _ (if_pos ⟨hhigh, hdue⟩)
  case adjusts => exact fun s o line => ⟨adjust_slews line, adjust_steps line⟩

end Sys2Proof.Proofs.PortsAndTime
end

section
/-! PROOFS. Sessions (R52, R53, R61 to R63, R66, R68, R74): frames that an open session accepts, commands in assembly, the
timers and the handshake. -/

namespace Sys2Proof.Proofs.Sessions

open Sys2Proof Sys2Proof.Machine

theorem exec_ack (d : Datagram) (s : State) : exec (.ack d) s = execAck d s := rfl
theorem exec_close (d : Datagram) (s : State) : exec (.close d) s = execClose d s := rfl
theorem exec_commandSegment (d : Datagram) (s : State) : exec (.commandSegment d) s = execCommandSegment d s := rfl
theorem exec_hello (d : Datagram) (s : State) : exec (.hello d) s = execHello d s := rfl
theorem exec_finish (d : Datagram) (s : State) : exec (.finish d) s = execFinish d s := rfl
theorem exec_assemblyTimerExpiry (a i n : Nat) (s : State) :
    exec (.assemblyTimerExpiry a i n) s = execAssemblyTimerExpiry a i n s := rfl
theorem exec_halfOpenTimeout (a i : Nat) (s : State) : exec (.halfOpenTimeout a i) s = execHalfOpenTimeout a i s := rfl
theorem exec_sessionIdleTimeout (a i : Nat) (s : State) :
    exec (.sessionIdleTimeout a i) s = execSessionIdleTimeout a i s := rfl

/-! ### Frames of an open session (R66, R68, R74) -/

theorem exec_ack_accepted {s : State} {d : Datagram} {a : Nat} {y : Alcove} {x : Session}
    (h : frameAccepted s d 6 a y x) : exec (.ack d) s = .next (frameTaken s d a x) := by
  have htype := h.1
  simp only [exec_ack, execAck, htype, authFrame_accepted h, ne_eq, not_true_eq_false, if_false]

theorem exec_close_accepted {s : State} {d : Datagram} {a : Nat} {y : Alcove} {x : Session}
    (h : frameAccepted s d 0x15 a y x) : exec (.close d) s =
      .next (finishClosing (modSess (frameTaken s d a x) a d.hdr.session beginClose) a d.hdr.session) := by
  have htype := h.1
  simp only [exec_close, execClose, htype, authFrame_accepted h, ne_eq, not_true_eq_false, if_false]

/-- A segment of an accepted frame goes to the window of its session. -/
theorem exec_commandSegment_accepted {s : State} {d : Datagram} {a : Nat} {y : Alcove} {x z : Session}
    (h : frameAccepted (regionFills s d) d 1 a y x)
    (hz : sess (frameTaken (regionFills s d) d a x) a d.hdr.session = some z) :
    exec (.commandSegment d) s = .next (Machine.segment (frameTaken (regionFills s d) d a x) a z d) := by
  have htype := h.1
  simp only [exec_commandSegment, execCommandSegment, htype, authFrame_accepted h, hz, Option.getD_some, ne_eq,
    not_true_eq_false, if_false]

/-! ### Commands in assembly (R52, R53) -/

/-- A segment in the window, of a command in assembly, meets what is held of it; the window does not move. -/
theorem segment_assembling {s : State} {d : Datagram} {a : Nat} {x : Session} {m : Assembly} (hlo : x.base ≤ d.hdr.seq)
    (hhi : d.hdr.seq ≤ x.base + 4095) (hm : tget x.entries d.hdr.seq = some (.assembling m)) :
    Machine.segment s a x d = segArrives (putSess s a d.hdr.session x) a x d (some m) := by
  have hslide : slideTo x d.hdr.seq = x := if_neg (Nat.not_lt.mpr hhi)
  simp only [Machine.segment, Nat.not_lt.mpr hlo, if_false, hslide, hm]

/-- A segment that agrees with what is held names the same length of its command (R52, item 2). -/
theorem declLen_of_segRefused {m : Assembly} {h : WcpHeader} {len : Nat} (hok : segRefused m h len = none) :
    m.declLen = h.declLen := by
  have hgood : segBad m h len = false := by
    refine Bool.eq_false_iff.mpr fun hbad => ?_
    rw [segRefused, if_pos hbad] at hok
    cases hok
  simp only [segBad, Bool.or_eq_false_iff] at hgood
  obtain ⟨⟨⟨⟨-, hlen⟩, -⟩, -⟩, -⟩ := hgood
  exact bne_eq_false_iff_eq.mp hlen

/-- A segment that leaves its command incomplete is held. -/
theorem segArrives_held {s : State} {d : Datagram} {a : Nat} {x : Session} {m : Assembly}
    (hdup : segDup m d.hdr.segOff d.data.length = false) (hshare : shareHolds s a d.data.length = true)
    (hok : segRefused m d.hdr d.data.length = none)
    (hmore : segBytes (segAdd m d.hdr d.data) ≠ d.hdr.declLen ∨ (segAdd m d.hdr d.data).lastEnd = none) :
    segArrives s a x d (some m) = modSess s a d.hdr.session fun q =>
      { q with entries := tput q.entries d.hdr.seq (.assembling (segAdd m d.hdr d.data)) } := by
  have hlen : (segAdd m d.hdr d.data).declLen = d.hdr.declLen := declLen_of_segRefused (m := m) hok
  have hopen : ¬ (segBytes (segAdd m d.hdr d.data) = d.hdr.declLen ∧ (segAdd m d.hdr d.data).lastEnd.isSome = true) := by
    rintro ⟨hall, hlast⟩
    rcases hmore with hbytes | hend
    · exact hbytes hall
    · simp [hend] at hlast
  simp only [segArrives, Option.getD_some, hdup, hshare, hok, hlen, hopen, Option.isNone_some, Bool.true_eq_false,
    Bool.false_eq_true, and_false, false_and, if_false]

/-- Counting a refusal reaches the counters of the device and of the alcove alone. -/
theorem countRefusal_eq (s : State) (a st : Nat) : ∃ p l, countRefusal s a st =
    { s with perf := p, net := { s.net with alcoves := l } } := by
  unfold countRefusal
  split
  · exact ⟨_, _, rfl⟩
  split
  · exact ⟨_, _, rfl⟩
  · exact ⟨_, _, rfl⟩

/-- R54: a refusal retires the sequence number, and builds the completion that the entry names. -/
theorem refuseCmd_retires (s : State) (x : Session) (o : Offer) (st : Nat) :
    sess (refuseCmd s x o st) o.alcove o.session = (sess s o.alcove o.session).map (fun y =>
        { y with entries := tput y.entries o.seq (.done st 0 (some []) o.queue s.net.nextComp) })
      ∧ (refuseCmd s x o st).keys = s.keys ∧ (refuseCmd s x o st).net.work = s.net.work := by
  obtain ⟨p, l, hcount⟩ := countRefusal_eq (modSess s o.alcove o.session fun y =>
    { y with entries := tput y.entries o.seq (.done st 0 (some []) o.queue s.net.nextComp) }) o.alcove st
  simp only [refuseCmd, hcount]
  exact ⟨sess_modSess s _ _ _, rfl, rfl⟩

/-- What the assembly timer refuses: the command as far as its segments name it, on the session's last sub-link. -/
def timedOutOffer (a i n : Nat) (x : Session) (m : Assembly) : Offer :=
  { alcove := a, session := i, seq := n, queue := m.queue, opcode := m.opcode, event := m.event, sublink := x.link
    prio := 0, pktNum := x.highest, payload := [] }

/-- R53: an assembly whose time is up ends with the status of a short command. -/
theorem exec_assemblyTimerExpiry_due {s : State} {a i n : Nat} {x : Session} {y : Alcove} {m : Assembly}
    (hx : sess s a i = some x) (hy : alc s a = some y) (hm : tget x.entries n = some (.assembling m))
    (hdue : m.start + y.set.assemblyUs * 1000 ≤ s.time) :
    exec (.assemblyTimerExpiry a i n) s = .next (refuseCmd s x (timedOutOffer a i n x m) stLengthShort) := by
  simp only [exec_assemblyTimerExpiry, execAssemblyTimerExpiry, hx, hy, hm, if_pos hdue, timedOutOffer]

/-! ### The timers of half-open and idle sessions (R63, R68) -/

theorem exec_halfOpenTimeout_due {s : State} {a i : Nat} {x : Session} (hwait : waitOver s a i = none)
    (hx : sess s a i = some x) (hopen : x.open_ = false) (hreply : x.reply.isEmpty = false)
    (hdue : x.replyAt + 10 ^ 8 ≤ s.time) : exec (.halfOpenTimeout a i) s = .next (delSess s a i) := by
  simp only [exec_halfOpenTimeout, execHalfOpenTimeout, hwait, hx, hopen, hreply, hdue, and_self, if_true]

theorem exec_sessionIdleTimeout_due {s : State} {a i : Nat} {x : Session} {y : Alcove} (hx : sess s a i = some x)
    (hy : alc s a = some y) (hopen : x.open_ = true) (hdue : x.lastAuth + y.set.idleS * 10 ^ 9 ≤ s.time) :
    exec (.sessionIdleTimeout a i) s = .next (closeSession s a i stOk) := by
  simp only [exec_sessionIdleTimeout, execSessionIdleTimeout, hx, hy, if_pos (And.intro hopen hdue)]

/-! ### The handshake (R61, R62) -/

/-- A `HELLO` that is not rejected goes on, drawing its values or waiting for them. -/
theorem exec_hello_admitted {s : State} {d : Datagram} {a : Nat} {y : Alcove} (htype : d.hdr.type = 0x10)
    (h : reachesAlcove s d a y) (hok : helloRefused (received s d) a d = none) :
    exec (.hello d) s = .next (helloGoes (received s d) a d) := by
  have hto : deliverTo (perfAdd s (14 + portNo d.sublink) 0x30 1) d = .ok (a, y) := deliverTo_reaches h
  have hgo : helloRefused (perfAdd s (14 + portNo d.sublink) 0x30 1) a d = none := hok
  simp only [exec_hello, execHello, htype, hto, hgo, ne_eq, not_true_eq_false, if_false]
  rfl

/-- The signature that ends for a session which is still there sends its `REPLY`. -/
theorem endReply_ok {s : State} {k : Work} {i l : Nat} {x : Session} {y : Alcove} (p : Bytes)
    (hy : alc s k.alcove = some y) (hgen : y.gen = k.gen) (hx : sess s k.alcove i = some x) (hsid : x.sid = k.sid)
    (hi : i < 16) (hl : sendLink s k.sublink = some l) : endReply s k i p stOk =
      sendPlain (modSess s k.alcove i fun x => { x with reply := p, replyAt := s.time }) l k.prio
        { outHdr 0x11 k.alcove i with flags := 3, declLen := p.length } p := by
  have hslot : i ≠ 0xFF := by omega
  simp [endReply, hy, hgen, hx, hsid, hslot, hl]

/-- A `FINISH` that passes the checks of R62 opens its session and sends `READY`. -/
theorem exec_finish_opens {s : State} {d : Datagram} {a : Nat} {y : Alcove} {x : Session} {k : Bytes × Role}
    (htype : d.hdr.type = 0x12) (h : reachesAlcove s d a y) (hdata : d.data ≠ []) (hi : fld d.data 0 1 ≠ 0xFF)
    (hx : sess s a (fld d.data 0 1) = some x) (hopen : x.open_ = false) (hreply : x.reply.isEmpty = false)
    (hok : finishCheck (received s d) y x d.data = .ok k) : exec (.finish d) s =
      .next (sendReady (received s d) a (fld d.data 0 1) (openSession s.time x d.data k d.sublink) d) := by
  have hto : deliverTo (perfAdd s (14 + portNo d.sublink) 0x30 1) d = .ok (a, y) := deliverTo_reaches h
  have hsess : sess (perfAdd s (14 + portNo d.sublink) 0x30 1) a (fld d.data 0 1) = some x := hx
  have hgo : finishCheck (perfAdd s (14 + portNo d.sublink) 0x30 1) y x d.data = .ok k := hok
  simp only [exec_finish, execFinish, htype, hto, hsess, hgo, hi, hopen, hreply, List.isEmpty_eq_false_iff.mpr hdata, ne_eq,
    not_true_eq_false, Bool.false_eq_true, or_self, if_false]
  rfl

/-- Settles O16: each case is the branch of the command that its hypotheses select. The cost of a handshake (log 41), the
wait of a `HELLO` for its values and its certificate (log 113), the order of the checks of a segment (log 43) and the drop
of an empty `FINISH`, which a hypothesis shuts out (log 42), are the model's choices; the half-open timer is that of R63.
-/
theorem sessionsRun : Obligations.SessionsRun := by
  unfold Obligations.SessionsRun
  refine ⟨?ack, ?segment, ?close, ?assembly, ?halfOpen, ?idle, ?hello, ?reply, ?finish⟩
  case ack => exact fun s d a y x => exec_ack_accepted
  case segment =>
    rintro s u d a y x z m rfl h hz hlo hhi hm hdup hshare hok hmore
    rw [exec_commandSegment_accepted h hz, segment_assembling hlo hhi hm, segArrives_held hdup hshare hok hmore]
  case close => exact fun s d a y x => exec_close_accepted
  case assembly =>
    intro s a i n x y m hx hy hm hdue
    obtain ⟨hsess, hkeys, hwork⟩ := refuseCmd_retires s x (timedOutOffer a i n x m) stLengthShort
    exact ⟨_, _, exec_assemblyTimerExpiry_due hx hy hm hdue, hsess.trans (congrArg _ hx), tget_tput_same _ _ _, hkeys,
      hwork⟩
  case halfOpen => exact fun s a i x => exec_halfOpenTimeout_due
  case idle => exact fun s a i x y => exec_sessionIdleTimeout_due
  case hello => exact fun s d a y => exec_hello_admitted
  case reply =>
    rintro s t k i l p x y hy hgen hx hsid hi hl rfl
    exact endReply_ok p hy hgen hx hsid hi hl
  case finish => exact fun s d a y x k => exec_finish_opens

end Sys2Proof.Proofs.Sessions
end

section
/-! PROOFS. Streams and queue pairs (R81 to R88, R95, R97): frames that are accepted, where their results go, and the
acknowledgements, retransmissions and rate of a queue pair. -/

namespace Sys2Proof.Proofs.Streams

open Sys2Proof Sys2Proof.Machine

theorem exec_stream (d : Datagram) (s : State) : exec (.stream d) s = execStream d s := rfl
theorem exec_roceAck (q psn : Nat) (s : State) : exec (.roceAck q psn) s = execRoceAck q psn s := rfl
theorem exec_roceNak (q : Nat) (k : NakKind) (s : State) : exec (.roceNak q k) s = execRoceNak q k s := rfl
theorem exec_qpAckTimeout (q : Nat) (s : State) : exec (.qpAckTimeout q) s = execQpAckTimeout q s := rfl
theorem exec_streamResultReady (n : Nat) (s : State) : exec (.streamResultReady n) s = .next (streamReady s n) := rfl
theorem exec_rateIncreaseTick (q : Nat) (s : State) : exec (.rateIncreaseTick q) s = execRateIncreaseTick q s := rfl

/-! ### Stream frames (R81) -/

/-- A `STREAM` frame of an open session goes to its slice. -/
theorem exec_stream_accepted {s : State} {d : Datagram} {a : Nat} {y : Alcove} {x z : Session}
    (h : frameAccepted (regionFills s d) d 3 a y x)
    (hz : sess (frameTaken (regionFills s d) d a x) a d.hdr.session = some z) :
    exec (.stream d) s = .next (streamFrame (frameTaken (regionFills s d) d a x) a z d) := by
  have htype := h.1
  simp only [exec_stream, execStream, htype, authFrame_accepted h, hz, Option.getD_some, ne_eq, not_true_eq_false, if_false]

theorem streamFrame_accepted {s : State} {d : Datagram} {a : Nat} {x : Session} {v : Slice} {r : StreamReq}
    (hform : streamOk d = true) (hv : tget s.net.slices (sliceKey a d.hdr.seq) = some v) (hsusp : v.suspended = false)
    (hr : streamReq s a v d.data = some r) (hok : streamRefused s a d.data.length v r = none) :
    streamFrame s a x d = acceptStream s a x d r := by
  simp only [streamFrame, hform, hv, hsusp, hr, hok, Bool.true_eq_false, Bool.false_eq_true, if_false]

/-! ### Where a result goes (R83, R87, R95) -/

/-- A result whose turn it is goes to its queue pair, or to its session. -/
theorem streamReady_turn {s : State} {n : Nat} {c : Completion} (hc : tget s.net.comps n = some c)
    (hstream : c.stream.isSome = true) (hturn : streamEarlier s c = false) (htag : tagCurrent s c = true) :
    (∀ x q addr, placement s c = some (x, q, addr) → streamReady s n = placeResult s n c x q addr)
      ∧ (placement s c = none → streamReady s n = frameResult s n c) := by
  have hgoes : ¬ (c.stream.isNone = true ∨ streamEarlier s c = true) := by
    rw [← Option.not_isSome, hstream, hturn]; decide
  constructor
  · intro x q addr hp
    simp only [streamReady, hc, hgoes, htag, hp, Bool.true_eq_false, if_false]
  · intro hp
    simp only [streamReady, hc, hgoes, htag, hp, Bool.true_eq_false, if_false]

theorem placeResult_connected {s : State} {n q addr : Nat} {c : Completion} {x : Slice} {y : Qp} (hy : qpAt s q = some y)
    (hconn : y.state = .connected) (hfrozen : y.frozen = false) : placeResult s n c x q addr =
      endStream (issueWrite s q y c.alcove (c.stream.getD 0) addr c.prio
        (if x.immediate then some (c.status * 65536 + c.pktNum % 65536) else none) c.payload) n c := by
  simp only [placeResult, hy, hconn, hfrozen, ne_eq, not_true_eq_false, Bool.false_eq_true, or_self, if_false]

theorem frameResult_sent {s : State} {n l : Nat} {c : Completion} (hl : sendLink s c.sublink = some l)
    (hheld : heldPrio s l c.prio = false) :
    frameResult s n c = endStream (perfAdd (sendStreamResult s c) (14 + portNo l) 0x31 1) n c := by
  simp only [frameResult, hl, hheld, Bool.false_eq_true, if_false]

/-! ### Acknowledgements and retransmissions (R85, R86, R97) -/

theorem exec_roceAck_held {s : State} {q psn : Nat} {x : Qp} {r : List RdmaPacket} (hx : qpAt s q = some x)
    (hr : afterPsn psn x.pending = some r) : exec (.roceAck q psn) s = .next (modQp s q fun y =>
      { y with pending := r, left := y.retries, rnrLeft := y.rnr, sentAt := s.time }) := by
  simp only [exec_roceAck, execRoceAck, hx, Option.bind_some, hr]

/-- A negative acknowledgement counts where a connected queue pair that is not frozen waits for one. -/
theorem nak_counts {x : Qp} (hconn : x.state = .connected) (hpend : x.pending ≠ []) (hfrozen : x.frozen = false) :
    ¬ (x.state ≠ .connected ∨ x.pending.isEmpty = true ∨ x.frozen = true) := by
  simp [hconn, hpend, hfrozen]

theorem exec_roceNak_nak {s : State} {q : Nat} {x : Qp} (hx : qpAt s q = some x) (hconn : x.state = .connected)
    (hpend : x.pending ≠ []) (hfrozen : x.frozen = false) : exec (.roceNak q .nak) s =
      .next (if x.left = 0 then qpError s q x
        else resendAll (modQp s q fun y => { y with left := y.left - 1 }) q x) := by
  simp only [exec_roceNak, execRoceNak, hx, if_neg (nak_counts hconn hpend hfrozen)]

theorem exec_roceNak_rnr {s : State} {q : Nat} {x : Qp} (hx : qpAt s q = some x) (hconn : x.state = .connected)
    (hpend : x.pending ≠ []) (hfrozen : x.frozen = false) : exec (.roceNak q .rnr) s =
      .next (if x.rnrLeft = 0 then qpError s q x
        else resendAll (modQp s q fun y => { y with rnrLeft := y.rnrLeft - 1 }) q x) := by
  simp only [exec_roceNak, execRoceNak, hx, if_neg (nak_counts hconn hpend hfrozen)]

theorem exec_qpAckTimeout_due {s : State} {q : Nat} {x : Qp} (hx : qpAt s q = some x) (hconn : x.state = .connected)
    (hpend : x.pending ≠ []) (hdue : x.sentAt + 4096 * 2 ^ x.timeout ≤ s.time) : exec (.qpAckTimeout q) s =
      .next (if x.frozen ∨ x.left = 0 then qpError s q x
        else resendAll (modQp s q fun y => { y with left := y.left - 1 }) q x) := by
  have hwaits : ¬ (x.state ≠ .connected ∨ x.pending.isEmpty = true ∨ s.time < x.sentAt + 4096 * 2 ^ x.timeout) := by
    simp [hconn, hpend, hdue]
  simp only [exec_qpAckTimeout, execQpAckTimeout, hx, if_neg hwaits]

/-! ### The rate (R88) -/

/-- R88: a notification cuts the rate of its queue pair, where the last cut lies 50 µs back. -/
theorem exec_cnpReceived_cuts {s : State} {q : Nat} {x : Qp} (hx : qpAt s q = some x) (hdue : x.lastCut + 50000 ≤ s.time) :
    ∃ t, exec (.cnpReceived q) s = .next t ∧ qpAt t q = some { x with
      rate := max (x.rate * 7 / 8) (10 ^ 9), lastCut := s.time, cnpSince := true } := by
  have hhere : ¬ (qpAt s q).isNone = true := by simp [hx]
  refine ⟨_, congrArg Host.Outcome.next (if_neg hhere), ?_⟩
  refine (qpAt_modQp s q _).trans ?_
  rw [hx, Option.map_some, if_pos hdue]

theorem exec_rateIncreaseTick_due {s : State} {q : Nat} {x : Qp} (hx : qpAt s q = some x)
    (hdue : x.lastStep + 55000 ≤ s.time) : ∃ t, exec (.rateIncreaseTick q) s = .next t ∧ qpAt t q = some { x with
      lastStep := s.time, cnpSince := false
      rate := if x.cnpSince then x.rate else min (x.rate + 4 * 10 ^ 9) x.linkRate } := by
  refine ⟨_, exec_rateIncreaseTick q s, (qpAt_modQp s q _).trans ?_⟩
  rw [hx, Option.map_some, if_pos hdue]

/-- Settles O17: each case is the branch of the command that its hypotheses select. The placement by the slice as it stands at
delivery (log 102), the results that wait and the acknowledgements that a frozen queue pair ignores (log 45), and the rule
under which a dropped request is counted (log 43) are the model's choices. -/
theorem streamsAndQueuePairsRun : Obligations.StreamsAndQueuePairsRun := by
  unfold Obligations.StreamsAndQueuePairsRun
  refine ⟨?accepted, ?placed, ?framed, ?acked, ?nak, ?timeout, ?cut, ?step, ?dropped⟩
  case accepted =>
    rintro s u d a y x z v r rfl h hz hform hv hsusp hr hok
    rw [exec_stream_accepted h hz, streamFrame_accepted hform hv hsusp hr hok]
  case placed =>
    intro s n q addr c x y hc hstream hturn htag hp hy hconn hfrozen
    rw [exec_streamResultReady, (streamReady_turn hc hstream hturn htag).1 x q addr hp,
      placeResult_connected hy hconn hfrozen]
  case framed =>
    intro s n l c hc hstream hturn htag hp hl hheld
    rw [exec_streamResultReady, (streamReady_turn hc hstream hturn htag).2 hp, frameResult_sent hl hheld]
  case acked => exact fun s q psn x r => exec_roceAck_held
  case nak =>
    exact fun s q x hx hconn hpend hfrozen =>
      ⟨exec_roceNak_nak hx hconn hpend hfrozen, exec_roceNak_rnr hx hconn hpend hfrozen⟩
  case timeout => exact fun s q x => exec_qpAckTimeout_due
  case cut =>
    intro s q x hx hdue
    obtain ⟨t, hexec, hqp⟩ := exec_cnpReceived_cuts hx hdue
    exact ⟨t, _, hexec, hqp, rfl⟩
  case step =>
    intro s q x hx hdue
    obtain ⟨t, hexec, hqp⟩ := exec_rateIncreaseTick_due hx hdue
    exact ⟨t, _, hexec, hqp, rfl⟩
  case dropped => exact fun s q hq => congrArg _ (if_pos hq)

end Sys2Proof.Proofs.Streams
end

section
/-! PROOFS. Completions that leave (R95), events whose moderation has run out (R78), and the end of an alcove's reset (R98,
R99). -/

namespace Sys2Proof.Proofs.Completions

open Sys2Proof Sys2Proof.Machine

theorem exec_completionHandover (n : Nat) (s : State) : exec (.completionHandover n) s = .next (handover s n) := rfl
theorem exec_eventModerationExpiry (a : Nat) (s : State) :
    exec (.eventModerationExpiry a) s = execEventModerationExpiry a s := rfl
theorem exec_alcoveResetDone (a : Nat) (s : State) : exec (.alcoveResetDone a) s = execAlcoveResetDone a s := rfl

/-- A current completion whose session is open leaves, where its priority is not held. -/
theorem handover_leaves {s : State} {n l : Nat} {c : Completion} (hc : tget s.net.comps n = some c)
    (hstream : c.stream = none) (htag : tagCurrent s c = true) (hsess : (compSession s c).isSome = true)
    (hl : sendLink s c.sublink = some l) (hheld : heldPrio s l c.prio = false) : handover s n =
      finishClosing (dropComp (afterSend (slotsOf (perfAdd (sendSegs (c.payload.length / 8192 + 1) s c 0 c.payload)
        (14 + portNo l) 0x31 (c.payload.length / 8192 + 1)) c true) n c) n c) c.alcove c.session := by
  obtain ⟨x, hx⟩ := Option.isSome_iff_exists.mp hsess
  simp only [handover, hc, hstream, htag, hx, hl, hheld, Option.isSome_none, Bool.false_eq_true,
    Bool.true_eq_false, if_false]

theorem exec_eventModerationExpiry_due {s : State} {a t : Nat} {x : Alcove} (hx : alc s a = some x)
    (hmod : x.modStart = some t) (hdue : t + x.set.modUs * 1000 ≤ s.time) :
    exec (.eventModerationExpiry a) s = .next (flushAll s a) := by
  simp only [exec_eventModerationExpiry, execEventModerationExpiry, hx, hmod, if_pos hdue]

/-- An alcove without old work, whose queue pairs are quiet, is reset no longer. -/
theorem exec_alcoveResetDone_quiet {s : State} {a : Nat} {x : Alcove} (hx : alc s a = some x)
    (hreset : x.resetting = true) (hold : oldWork s a x = false) (hquiet : qpsQuiet s a = true) {t u : State}
    (ht : t = modAlc (dropOldComps s a) a fun y => { y with resetting := false, resetWork := none })
    (hu : u = thawQps (endReset (postEvent t a 5 0 0xFF 0xFF 0 x.gen) x.resetWork) a) :
    exec (.alcoveResetDone a) s = .next (if x.resetMore ≠ 0 then
        resetPoint (modAlc u a fun y => { y with resetMore := y.resetMore - 1 }) a none
      else if x.removing then removeAlcove u a else wakeAlcove u a) := by
  have hends : ¬ (x.resetting = false ∨ oldWork s a x = true ∨ qpsQuiet s a = false) := by simp [hreset, hold, hquiet]
  subst hu ht
  simp only [exec_alcoveResetDone, execAlcoveResetDone, hx, if_neg hends]

/-- Settles O18: each case is the branch of the command that its hypotheses select. That the end of a reset lifts the
suspension of its slices (log 105) and sends the completion of its command without a tag (log 46) are the model's choices. -/
theorem completionsEventsAndResetsEnd : Obligations.CompletionsEventsAndResetsEnd := by
  unfold Obligations.CompletionsEventsAndResetsEnd
  refine ⟨?completion, ?moderation, ?reset⟩
  case completion =>
    intro s n l c hc hstream htag hsess hl hheld
    exact ⟨_, rfl, (exec_completionHandover n s).trans (congrArg _ (handover_leaves hc hstream htag hsess hl hheld))⟩
  case moderation => exact fun s a t x => exec_eventModerationExpiry_due
  case reset =>
    exact fun s a x hx hreset hold hquiet => ⟨_, _, rfl, rfl, exec_alcoveResetDone_quiet hx hreset hold hquiet rfl rfl⟩

end Sys2Proof.Proofs.Completions
end

section
/-! PROOFS. The commands of stewards and managers on the network face (R80, R85 to R93, R128, R659 to R662): slices, queue
pairs, dirty logs, the event session, client keys and alcoves. -/

namespace Sys2Proof.Proofs.SlicesAndAlcoves

open Sys2Proof Sys2Proof.Machine

theorem exec_sliceRemove (w : Nat) (s : State) : exec (.sliceRemove w) s = execSliceRemove w s := rfl
theorem exec_qpConnect (w : Nat) (s : State) : exec (.qpConnect w) s = execQpConnect w s := rfl
theorem exec_qpReset (w : Nat) (s : State) : exec (.qpReset w) s = execQpReset w s := rfl
theorem exec_dirtyEnable (w : Nat) (s : State) : exec (.dirtyEnable w) s = execDirtyEnable w s := rfl
theorem exec_dirtyReadClear (w : Nat) (s : State) : exec (.dirtyReadClear w) s = execDirtyReadClear w s := rfl
theorem exec_eventSessionSet (w : Nat) (s : State) : exec (.eventSessionSet w) s = execEventSessionSet w s := rfl
theorem exec_clientKeySet (w : Nat) (s : State) : exec (.clientKeySet w) s = execClientKeySet w s := rfl
theorem exec_alcoveRemove (w : Nat) (s : State) : exec (.alcoveRemove w) s = execAlcoveRemove w s := rfl

/-! ### Slices (R80) -/

/-- A slice whose binding is admitted is put, where it is there or not as the command asks. -/
theorem runSlice_admitted {s : State} {w : Nat} {k : Work} {r : SliceReq} {old : Bool} (hr : sliceReq k.payload = some r)
    (hok : sliceRefused s k.alcove r = none) (hold : thas s.net.slices (sliceKey k.alcove r.pid) = old) :
    runSlice s w old k = putSlice s w k.alcove r := by
  simp only [runSlice, hr, hok, if_pos hold]

theorem exec_sliceRemove_present {s : State} {w : Nat} {k : Work} (h : isReady s w 0x0703 k)
    (hkey : thas s.net.slices (sliceKey k.alcove (fld k.payload 0 4)) = true) : exec (.sliceRemove w) s =
      .next (okWork (mirrorAlcove { s with net := { s.net with
        slices := tdel s.net.slices (sliceKey k.alcove (fld k.payload 0 4)) } } k.alcove) w []) := by
  simp only [exec_sliceRemove, execSliceRemove, onWork_ready h, if_pos hkey]

/-! ### Queue pairs (R85, R86) -/

theorem whenInst_ok {s : State} {w i : Nat} (hi : drawState s i = .ok) (f : Bool → State) : whenInst s w i f = f true := by
  simp only [whenInst, hi]

theorem exec_qpConnect_free {s : State} {w : Nat} {k : Work} (h : isReady s w 0x0704 k)
    (hbusy : qpBusy s w (fld k.payload 0 2) = false)
    (hfree : (tget s.net.qps (fld k.payload 0 2)).any (fun x => x.alcove != k.alcove || x.state != .reset) = false)
    (hdraw : drawState s 5 = .ok) {r : Bytes × State} (hr : r = drawFrom s 5 3) {x : Qp}
    (hx : x = qpConnected r.2 k (beNat r.1)) : exec (.qpConnect w) s =
      .next (okWork (mirrorAlcove { r.2 with net := { r.2.net with
        qps := tput r.2.net.qps (fld k.payload 0 2) x } } k.alcove) w (be 4 x.psn ++ zeros 4)) := by
  subst hx hr
  simp only [exec_qpConnect, execQpConnect, onWork_ready h, hbusy, hfree, whenInst_ok hdraw, Bool.false_eq_true,
    Bool.true_eq_false, if_false]

theorem exec_qpReset_own {s : State} {w : Nat} {k : Work} {x : Qp} (h : isReady s w 0x0705 k)
    (hbusy : qpBusy s w (fld k.payload 0 2) = false) (hx : tget s.net.qps (fld k.payload 0 2) = some x)
    (hown : x.alcove = k.alcove) : exec (.qpReset w) s = .next (okWork (mirrorAlcove (liftSlices
      { s with net := { s.net with qps := tput s.net.qps (fld k.payload 0 2) (qpFresh k.alcove) } }
      (fld k.payload 0 2)) k.alcove) w []) := by
  simp only [exec_qpReset, execQpReset, onWork_ready h, hbusy, hx, Option.map_some, hown, Bool.false_eq_true, if_false,
    if_true]

/-! ### Dirty logs (R89 to R92, R128) -/

theorem exec_dirtyEnable_fits {s : State} {w : Nat} {k : Work} {x : Slice} {g : Nat × Nat × Nat}
    (h : isReady s w 0x0706 k) (hx : tget s.net.slices (sliceKey k.alcove (fld k.payload 0 4)) = some x)
    (hg : x.region = some g) (hfits : dirtyFits s x.words (dirtyWords g.2.1) = true) : exec (.dirtyEnable w) s =
      .next (okWork { s with net := { s.net with
        slices := tput s.net.slices (sliceKey k.alcove (fld k.payload 0 4)) (logOn x g) } } w []) := by
  simp only [exec_dirtyEnable, execDirtyEnable, onWork_ready h, hx, hg, if_pos hfits]

theorem exec_dirtyReadClear_inside {s : State} {w i n : Nat} {k : Work} {x : Slice} (h : isReady s w 0x0707 k)
    (hi : i = fld k.payload 4 4) (hn : n = fld k.payload 8 2)
    (hx : tget s.net.slices (sliceKey k.alcove (fld k.payload 0 4)) = some x) (hin : i + n ≤ x.words) :
    exec (.dirtyReadClear w) s = .next (okWork { s with net := { s.net with
      slices := tmod s.net.slices (sliceKey k.alcove (fld k.payload 0 4)) fun y =>
        { y with dirty := tfilter y.dirty (fun j _ => decide (j < i ∨ i + n ≤ j)) } } } w
      ((List.range n).flatMap (fun j => be 8 (tgetD x.dirty (i + j) 0#64).toNat))) := by
  subst hi hn
  simp only [exec_dirtyReadClear, execDirtyReadClear, onWork_ready h, hx, if_neg (Nat.not_lt.mpr hin)]

/-! ### The event session, client keys and alcoves (R659 to R662) -/

theorem exec_eventSessionSet_open {s : State} {w : Nat} {k : Work} {x : Session} (h : isReady s w 0x0708 k)
    (hi : fld k.payload 0 1 ≠ 0xFF) (hx : sess s k.alcove (fld k.payload 0 1) = some x) (hopen : x.open_ = true) :
    exec (.eventSessionSet w) s = .next (okWork (flushAll (modAlc s k.alcove fun y =>
      { y with evSession := some (fld k.payload 0 1) }) k.alcove) w []) := by
  simp only [exec_eventSessionSet, execEventSessionSet, onWork_ready h, if_neg hi, hx, Option.map_some, hopen,
    Option.getD_some, if_true]

theorem exec_eventSessionSet_none {s : State} {w : Nat} {k : Work} (h : isReady s w 0x0708 k)
    (hi : fld k.payload 0 1 = 0xFF) : exec (.eventSessionSet w) s =
      .next (okWork (modAlc s k.alcove fun y => { y with evSession := none }) w []) := by
  simp only [exec_eventSessionSet, execEventSessionSet, onWork_ready h, if_pos hi]

theorem exec_clientKeySet_admitted {s : State} {w : Nat} {k : Work} (h : isReady s w 0x070B k)
    (hok : keySetInput s k.alcove k.payload = true) : exec (.clientKeySet w) s =
      .next (mutateWork s w k (.clientKeys k.alcove
        (((keyEntries k.payload).filter (fun e => e.1 == true)).map (fun e => e.2.2))
        (((keyEntries k.payload).filter (fun e => e.1 == false)).map (fun e => e.2.2))) none []) := by
  simp only [exec_clientKeySet, execClientKeySet, onWork_ready h, hok, Bool.true_eq_false, if_false]

theorem runAlcove_admitted {s : State} {w : Nat} {k : Work} {new : Bool} (hok : alcoveRefused s new k.payload = none) :
    runAlcove s w new k =
      mutateWork s w k (.alcoveSet (alcoveOf (k.payload.take 72)) (stewardKeys k.payload) new) none [] := by
  simp only [runAlcove, hok]

theorem exec_alcoveRemove_present {s : State} {w : Nat} {k : Work} (h : isReady s w 0x0A03 k)
    (ha : fld k.payload 0 2 ≠ 0) (hpair : (pairAlcove s (fld k.payload 0 2)).isSome = true) :
    exec (.alcoveRemove w) s = .next (mutateWork s w k (.alcoveRemove (fld k.payload 0 2)) none []) := by
  have hok : ¬ (fld k.payload 0 2 = 0 ∨ (pairAlcove s (fld k.payload 0 2)).isNone = true) := by
    rw [← Option.not_isSome, hpair]; simp [ha]
  simp only [exec_alcoveRemove, execAlcoveRemove, onWork_ready h, if_neg hok]

/-- Settles O27: each hypothesis is a check of the command, passed. The layouts of the requests of slices, queue pairs and
dirty logs (log 20) and the refusals that `alcoveRefused` and `dirtyFits` name (log 70, log 72, log 116) are the model's
choices. -/
theorem sliceAndAlcoveCommandsRun : Obligations.SliceAndAlcoveCommandsRun := by
  unfold Obligations.SliceAndAlcoveCommandsRun
  refine ⟨?slice, ?sliceRemove, ?connect, ?qpReset, ?dirtyOn, ?dirtyRead, ?evOpen, ?evNone, ?alcoveReset, ?clientKeys,
    ?alcove, ?alcoveRemove⟩
  case slice =>
    rintro c op old (⟨rfl, rfl, rfl⟩ | ⟨rfl, rfl, rfl⟩) s w k r h hr hok hold
    · exact congrArg _ ((onWork_ready h _).trans (runSlice_admitted hr hok hold))
    · exact congrArg _ ((onWork_ready h _).trans (runSlice_admitted hr hok hold))
  case sliceRemove =>
    rintro s w key k h rfl hkey
    exact exec_sliceRemove_present h hkey
  case connect =>
    rintro s w q k r x h rfl hbusy hfree hdraw hr hx
    exact exec_qpConnect_free h hbusy hfree hdraw hr hx
  case qpReset =>
    rintro s w q k x h rfl hbusy hx hown
    exact exec_qpReset_own h hbusy hx hown
  case dirtyOn =>
    rintro s w key k x g h rfl hx hg hfits
    exact exec_dirtyEnable_fits h hx hg hfits
  case dirtyRead =>
    rintro s w key i n k x h rfl hi hn hx hin
    exact exec_dirtyReadClear_inside h hi hn hx hin
  case evOpen =>
    rintro s w i k x h rfl hi hx hopen
    exact exec_eventSessionSet_open h hi hx hopen
  case evNone => exact fun s w k => exec_eventSessionSet_none
  case alcoveReset => exact fun s w k h => congrArg _ (onWork_ready h _)
  case clientKeys => exact fun s w k => exec_clientKeySet_admitted
  case alcove =>
    rintro c op new (⟨rfl, rfl, rfl⟩ | ⟨rfl, rfl, rfl⟩) s w k h hok
    · exact congrArg _ ((onWork_ready h _).trans (runAlcove_admitted hok))
    · exact congrArg _ ((onWork_ready h _).trans (runAlcove_admitted hok))
  case alcoveRemove =>
    rintro s w a k h rfl ha hpair
    exact exec_alcoveRemove_present h ha hpair

end Sys2Proof.Proofs.SlicesAndAlcoves
end

section
/-! PROOFS. Probes and the sessions that alcove 0 opens as a client (R57 to R62, R570). -/

namespace Sys2Proof.Proofs.ClientSessions

open Sys2Proof Sys2Proof.Machine

theorem exec_probeReply (p k : Bytes) (s : State) : exec (.probeReply p k) s = execProbeReply p k s := rfl
theorem exec_replyReceived (m : ClientMsg) (s : State) : exec (.replyReceived m) s = execReplyReceived m s := rfl
theorem exec_readyReceived (m : ClientMsg) (s : State) : exec (.readyReceived m) s = execReadyReceived m s := rfl

/-- R570: a worker with an alcove 0 sends its probe when that is due. -/
theorem exec_galleryProbeDue_sends {s : State} (hrole : s.gallery.role = 1) (hx : (alc s 0).isSome = true)
    (hdue : s.gallery.probeAt ≤ s.time) : exec .galleryProbeDue s =
      .next (sendHello { s with gallery := { s.gallery with probeAt := s.time + 60 * 10 ^ 9 } } 255 0 (zeros 16)) := by
  have hsends : ¬ (s.gallery.role ≠ 1 ∨ (alc s 0).isNone = true ∨ s.time < s.gallery.probeAt) := by
    rw [← Option.not_isSome, hx]; simp [hrole, hdue]
  exact congrArg _ (if_neg hsends)

/-- A reply that proves the manager's key makes it the gallery manager's key of alcove 0. -/
theorem exec_probeReply_proves {s : State} {p k h : Bytes} {x : Alcove} (hh : tget s.gallery.hellos 255 = some h)
    (hx : alc s 0 = some x) (hrole : s.gallery.role = 1)
    (hchain : (chainIdentity (splitCerts (replyCerts p))).map (fun e => (Config.sha512 e).take 16) = s.boot.authority)
    (hauth : s.boot.authority.isSome = true) (hproves : replyProves h p k = true) : exec (.probeReply p k) s =
      .next (putKeys { s with gallery := { s.gallery with
          mgrKey := some k, mgrOf := s.boot.authority, hellos := tdel s.gallery.hellos 255 } } 0
        (x.keys.filter (fun e => e.2 != .galleryManager && e.1 != k) ++ [(k, Role.galleryManager)])) := by
  simp only [exec_probeReply, execProbeReply, probeSlot, hh, hx]
  exact congrArg _ (if_pos ⟨hrole, hauth, hproves, hchain⟩)

/-- A session whose `HELLO` has gone out sends no other. -/
theorem beginClient_begun {s : State} {i : Nat} (hi : tget s.gallery.clients i = some 0) : beginClient s i = s := by
  refine if_neg ?_
  rintro ⟨-, -, hnew⟩
  simp [thas, hi] at hnew

/-- R62: a `REPLY` that proves its key is answered with a `FINISH` that signs the transcript. -/
theorem exec_replyReceived_proves {s : State} {m : ClientMsg} {th : Bytes} (hi : tget s.gallery.clients m.session = some 0)
    (hok : m.ok = true) (hkey : clientKeyOk s m.session m.payload = true)
    (hth : th = Config.sha512 ((tget s.gallery.hellos m.session).getD [] ++ m.payload)) : exec (.replyReceived m) s =
      .next (emit s (.clientFinish m.session (slice m.payload 2 1 ++ zeros 3
        ++ Config.edSign (((alc s 0).map (fun x => x.alcoveKey)).getD []) (ascii "WCP1 client" ++ th)))) := by
  subst hth
  have hwaits : ¬ tget s.gallery.clients m.session ≠ some 0 := fun hn => hn hi
  have hgood : ¬ (m.ok = false ∨ clientKeyOk s m.session m.payload = false) := by simp [hok, hkey]
  simp only [exec_replyReceived, execReplyReceived, beginClient_begun hi, if_neg hwaits, if_neg hgood]

/-- What ends a handshake that waits: `READY` opens the session, and `REJECT` takes it away. -/
theorem exec_readyReceived_waiting {s : State} {m : ClientMsg} (hi : tget s.gallery.clients m.session = some 0) :
    exec (.readyReceived m) s = .next (askReceiveKey { s with gallery := { s.gallery with
      clients := if m.ok then tput s.gallery.clients m.session 1 else tdel s.gallery.clients m.session
      hellos := tdel s.gallery.hellos m.session } } m.session) :=
  congrArg _ (if_neg fun hn => hn hi)

/-- A session that is not open is asked for no key. -/
theorem askReceiveKey_closed {s : State} {i : Nat} (hi : tget s.gallery.clients i = none) : askReceiveKey s i = s := by
  refine if_neg ?_
  rintro ⟨-, -, hopen⟩
  simp [hi] at hopen

/-- Settles O58: each case is the branch of the command that its hypotheses select. The messages that arrive authenticated as
rows, without session keys (log 79), the form of the `HELLO` (log 80) and the request for the receive key (log 108) are
the model's choices. -/
theorem clientSessionsOpen : Obligations.ClientSessionsOpen := by
  unfold Obligations.ClientSessionsOpen
  refine ⟨?probe, ?probeReply, ?reply, ?ready, ?reject⟩
  case probe => exact fun s => exec_galleryProbeDue_sends
  case probeReply =>
    rintro s t p k h x hh hx hrole hchain hauth hproves rfl
    exact exec_probeReply_proves hh hx hrole hchain hauth hproves
  case reply => exact fun s m th => exec_replyReceived_proves
  case ready =>
    intro s m hi hok
    rw [exec_readyReceived_waiting hi, if_pos hok]
  case reject =>
    intro s m hi hok
    rw [exec_readyReceived_waiting hi, if_neg (Bool.eq_false_iff.mp hok)]
    exact congrArg _ (askReceiveKey_closed (tget_tdel_same _ _))

end Sys2Proof.Proofs.ClientSessions
end

section
/-! PROOFS. What the proofs of commands share: the run of a command that is ready, the face that it names without an
operation on it (R106, R175), and the counter value that an operation draws (R308). -/

namespace Sys2Proof.Proofs.ReadyCommands

open Sys2Proof Sys2Proof.Machine

/-- A command that runs an accepted one comes to what its body makes of it. -/
theorem exec_ready {c : Instr} {s t : State} {w op : Nat} {k : Work} {f : Work → State} (h : isReady s w op k)
    (hc : exec c s = .next (onWork s w op f)) (hf : f k = t) : exec c s = .next t := by
  rw [hc, onWork_ready h, hf]

/-- R106, R175: a face without the payment flag answers to its handle. -/
theorem namedFace_plain {s : State} {a h slot n : Nat} {sec : Secret} {f : Face}
    (hr : resolve s a h = some (slot, n, sec, f)) (hpay : f.payment = false) :
    namedFace s a h = .ok (slot, n, sec, f) := by
  simp [namedFace, hr, hpay]

/-- R308: an operation that draws no counter value, or whose face has one left, is not refused for want of one. -/
theorem counterNotSpent {d : Bool} {next : Nat} (h : d = true → next < 2 ^ 64) : ¬ (d = true ∧ 2 ^ 64 ≤ next) :=
  fun ⟨hd, hspent⟩ => Nat.not_lt.mpr hspent (h hd)

end Sys2Proof.Proofs.ReadyCommands
end

section
/-! PROOFS. The query commands (R120, R212, R262, R273, R621, R658). -/

namespace Sys2Proof.Proofs.Queries

open Sys2Proof Sys2Proof.Machine Sys2Proof.Proofs.ReadyCommands

theorem exec_faceQuery_plain {s : State} {w slot n : Nat} {k : Work} {sec : Secret} {f : Face} (h : isReady s w 0x0102 k)
    (hr : resolve s k.alcove (fld k.payload 0 8) = some (slot, n, sec, f)) (hpay : f.payment = false) :
    exec (.faceQuery w) s = .next (okWork s w (faceRecord s slot n sec f)) := by
  refine exec_ready h rfl ?_
  simp only [namedFace_plain hr hpay]

/-- R102: the public face of a pair that verifies, encapsulates or agrees is exported. -/
theorem exec_publicExport_public {s : State} {w slot : Nat} {k : Work} {sec : Secret} {f : Face}
    (h : isReady s w 0x050A k) (hr : resolve s k.alcove (fld k.payload 0 8) = some (slot, 1, sec, f))
    (hpay : f.payment = false) (hasym : isAsym sec.algo = true)
    (hcls : f.cls = .verify ∨ f.cls = .encapsulate ∨ f.cls = .agree) :
    exec (.publicExport w) s = .next (okWork s w (publicKey sec)) := by
  refine exec_ready h rfl ?_
  simp only [namedFace_plain hr hpay, hasym, hcls, and_self, if_true]

/-- R262: the three sets of certificates. -/
theorem exec_certsGet_set {s : State} {w : Nat} {k : Work} (h : isReady s w 0x0901 k) :
    (fld k.payload 0 1 = 0 → exec (.certsGet w) s = .next (okWork s w (chainBytes (replyChain s k.alcove))))
    ∧ (fld k.payload 0 1 = 1 → exec (.certsGet w) s = .next (okWork s w (chainBytes [s.stair.ledCert, s.stair.idCert])))
    ∧ (fld k.payload 0 1 = 2 → (domD s (domainOf s k.alcove)).root.isSome = true → exec (.certsGet w) s
      = .next (okWork s w (chainBytes ((domD s (domainOf s k.alcove)).witCert :: (replyChain s k.alcove).drop 1)))) := by
  refine ⟨fun hset => exec_ready h rfl ?_, fun hset => exec_ready h rfl ?_, fun hset hroot => exec_ready h rfl ?_⟩
  · simp only [hset, if_true]
  · simp [hset]
  · simp [hset, Option.isNone_eq_false_iff.mpr hroot]

/-- R273: the entries from the first named on, where the device still holds them. -/
theorem exec_ledgerRead_held {s : State} {w n : Nat} {k : Work} (h : isReady s w 0x0904 k) (hone : 1 ≤ fld k.payload 0 8)
    (hnew : fld k.payload 0 8 ≤ s.ledger.newest) (hold : s.ledger.newest < fld k.payload 0 8 + 65536)
    (hn : n = min (fld k.payload 8 2) (s.ledger.newest + 1 - fld k.payload 0 8)) :
    exec (.ledgerRead w) s = .next (okWork s w (be 8 s.ledger.newest ++ be 2 n ++ zeros 6 ++ ((List.range n).map (fun i =>
      ((ledgerEntry s (fld k.payload 0 8 + i)).map entryBytes).getD (zeros 4096))).flatten)) := by
  have hheld : ¬ (fld k.payload 0 8 = 0 ∨ s.ledger.newest < fld k.payload 0 8
      ∨ fld k.payload 0 8 + 65536 ≤ s.ledger.newest) := by omega
  subst hn
  refine exec_ready h rfl ?_
  simp only [if_neg hheld]

/-- R621: the latest snapshots, as many as asked. -/
theorem exec_countersRead_latest {s : State} {w : Nat} {k : Work} (h : isReady s w 0x070A k) (hf : fld k.payload 0 1 = 0)
    {l : List (Nat × Bytes)} (hl : l = (snapsOf s k.alcove).drop ((snapsOf s k.alcove).length - fld k.payload 16 2)) :
    exec (.countersRead w) s = .next (okWork s w (be 2 l.length ++ zeros 6 ++ l.flatMap (·.2))) := by
  subst hl
  refine exec_ready h rfl ?_
  simp only [hf, if_true]

/-- Settles O20: each query is ready and its subject is there, so it completes with the record of its body. -/
theorem queriesAnswer : Obligations.QueriesAnswer := by
  unfold Obligations.QueriesAnswer
  refine ⟨?info, ?time, ?face, ?publicKey, ?certs, ?ledger, ?counters⟩
  case info => exact fun s w k h => exec_ready h rfl rfl
  case time => exact fun s w k h => exec_ready h rfl rfl
  case face => exact fun s w k slot n sec f => exec_faceQuery_plain
  case publicKey => exact fun s w k slot sec f => exec_publicExport_public
  case certs => exact fun s w k => exec_certsGet_set
  case ledger => exact fun s w n k => exec_ledgerRead_held
  case counters => exact fun s w k l h hf hl => exec_countersRead_latest h hf hl

end Sys2Proof.Proofs.Queries
end

section
/-! PROOFS. The symmetric commands (R102, R107 to R116, R308, R383) and the commands of the context store (R293 to
R306). -/

namespace Sys2Proof.Proofs.SymmetricCommands

open Sys2Proof Sys2Proof.Machine Sys2Proof.Proofs.ReadyCommands

/-! ### Single-shot operations -/

/-- R107, R115, R116: a keyed symmetric command that passes its checks issues its operation. -/
theorem runSym_issues {s t : State} {w op slot n : Nat} {k : Work} {x : Keyed} {sec : Secret} {face : Face}
    {r : Nat × Bytes × Bytes} (hx : keyedOf op k.payload = some x)
    (hface : faceCheck s k.alcove x.req.handle false (famServes x.fam op x.req.keyBits) = .ok (slot, n, sec, face))
    (hctr : drawsNonce x.fam op = true → face.nextInv < 2 ^ 64) (hdata : symRefused x.fam op x.prm x.req.data = none)
    (huses : usesLeft s slot n face = true) (hmark : marksAllow face (drawsNonce x.fam op) = true)
    (hissue : mayIssue s (symWing x.fam) w [cacheKey slot n] = true)
    (hr : r = symDo x.fam op x.prm sec.material (if drawsNonce x.fam op then nonceOf s face else x.prm.iv) x.req.data)
    (ht : t = issueFace (if drawsNonce x.fam op then drawInv s slot n else s) k.alcove slot n face) :
    runSym s w op k = issueOp t w k (symWing x.fam) [cacheKey slot n] none 0
      (plainResult r.1 (commonResp r.2.1 r.2.2) (symMeters (symWing x.fam) x.req.data.length)) := by
  subst hr ht
  simp only [runSym, hx, withFace_ok hface, issueSym, huses, if_neg (counterNotSpent hctr), hdata, hmark, hissue,
    Bool.true_eq_false, or_self, if_false]

/-- The four commands that share `runSym`. -/
theorem exec_symmetric {c : Nat → Instr} {op : Nat}
    (hc : (c = .encrypt ∧ op = 0x0201) ∨ (c = .decrypt ∧ op = 0x0202) ∨ (c = .macGenerate ∧ op = 0x0203)
      ∨ (c = .macVerify ∧ op = 0x0204)) (s : State) (w : Nat) :
    exec (c w) s = .next (onWork s w op (runSym s w op)) := by
  rcases hc with ⟨rfl, rfl⟩ | ⟨rfl, rfl⟩ | ⟨rfl, rfl⟩ | ⟨rfl, rfl⟩ <;> rfl

/-- R102: a digest names no face. -/
theorem exec_digest_issues {s : State} {w : Nat} {k : Work} {x : Keyed} {r : Nat × Bytes × Bytes}
    (h : isReady s w 0x0205 k) (hx : keyedOf 0x0205 k.payload = some x) (hissue : mayIssue s .hash w [] = true)
    (hr : r = symDo x.fam 0x0205 x.prm [] [] x.req.data) : exec (.digest w) s = .next (issueOp s w k .hash [] none 0
      (plainResult r.1 (commonResp r.2.1 r.2.2) (symMeters .hash x.req.data.length))) := by
  subst hr
  refine exec_ready h rfl ?_
  simp only [hx, hissue, Bool.true_eq_false, if_false]

/-- R383: random bytes come from the generator of the alcove, where it serves. -/
theorem exec_random_issues {s : State} {w n : Nat} {k : Work} (h : isReady s w 0x0401 k) (hn : n = fld k.payload 0 4)
    (hdraw : drawState s (alcInst k.alcove) = .ok) : exec (.random w) s =
      .next (issueOp (drawFrom s (alcInst k.alcove) n).2 w k .random [] none 0
        (plainResult stOk (drawn s n) [(0x0701, n)])) := by
  subst hn
  exact exec_ready h rfl (Payment.withDraw_served _ hdraw rfl)

/-! ### Opening a context, and its data -/

/-- R295, R308: an open that passes its checks holds a live context and issues its operation. -/
theorem runOpen_issues {s t : State} {w slot n id : Nat} {k : Work} {x : Keyed} {y : Alcove} {sec : Secret} {face : Face}
    {c : Context} {nonce : Bytes} {d : Bool} (hx : openOf k.payload = some x) (hy : alc s k.alcove = some y)
    (hface : faceCheck s k.alcove x.req.handle false (openServes x.fam) = .ok (slot, n, sec, face))
    (hd : d = openDraws x.fam face) (hctr : d = true → face.nextInv < 2 ^ 64 ∧ allZero x.prm.iv = true)
    (huses : usesLeft s slot n face = true) (hmark : marksAllow face d = true)
    (hissue : mayIssue s .cipher w [cacheKey slot n] = true) (hroom : ctxRoom s k.alcove = true)
    (hid : freshCtx y = some id) (hnonce : nonce = (if d then nonceOf s face else x.prm.iv))
    (hc : c = openCtx k x face nonce)
    (ht : t = makeLive (modAlc (issueFace (if d then drawInv s slot n else s) k.alcove slot n face) k.alcove
      (fun z => { z with contexts := tput z.contexts id c })) k.alcove id) :
    runOpen s w k = issueOp t w k .cipher [cacheKey slot n] (some id) 0
      { plainResult stOk (commonResp [] (be 4 id ++ (if d then nonce else []))) [(0x0101, 0), (0x0102, 1)] with
        ctx := some (id, { c with inFlight := false }) } := by
  have hiv : ¬ (d = true ∧ allZero x.prm.iv = false) := fun ⟨hdraws, hno⟩ => by simp [(hctr hdraws).2] at hno
  have hleft := counterNotSpent fun hdraws => (hctr hdraws).1
  subst ht hc hnonce hd
  simp only [runOpen, hx, hy, withFace_ok hface, huses, if_neg hleft, if_neg hiv, hmark, hissue, hroom, hid,
    Bool.true_eq_false, or_self, if_false]

/-- R296 to R300: data for a held context that pass their checks are issued. -/
theorem runData_issues {s : State} {w slot n : Nat} {k : Work} {final : Bool} {r : CtxReq} {c : Context} {f : Fam}
    {sec : Secret} {face : Face} (hr : ctxReq k.payload = some r) (hc : ctxOf s k.alcove r.id = some c)
    (hclaim : ctxClaimed s w k.alcove r.id c = false) (hf : famOf c.mech = some f)
    (hface : faceCheck s k.alcove c.handle false (openServes f) = .ok (slot, n, sec, face))
    (huses : usesLeft s slot n face = true) (hspent : ctxSpent c f r.data = false)
    (hblocks : final = false ∨ f = .cbc → r.data.length % 16 = 0) (hmark : marksAllow face false = true)
    (hissue : mayIssue s .cipher w [cacheKey slot n] = true) :
    runData s w final k = issueOp (makeLive (issueFace s k.alcove slot n face) k.alcove r.id) w k .cipher
      [cacheKey slot n] (some r.id) 0
      (ctxResult { c with spilled := false } f r.id sec.material r.tag r.data final) := by
  have hwhole : ¬ ((final = false ∨ f = .cbc) ∧ r.data.length % 16 ≠ 0) := fun ⟨hneeds, hno⟩ => hno (hblocks hneeds)
  simp only [runData, hr, hc, hclaim, hf, Option.getD_some, hface, huses, hspent, if_neg hwhole, hmark, hissue,
    Bool.true_eq_false, Bool.false_eq_true, or_self, if_false]

/-! ### Saving, restoring and closing a context -/

theorem runSave_saves {s t : State} {w id : Nat} {k : Work} {c : Context} {x : Alcove} {head body : Bytes}
    (hid : id = fld k.payload 0 4) (hc : ctxOf s k.alcove id = some c) (hx : alc s k.alcove = some x)
    (hkey : (resolve s k.alcove c.handle).isSome = true) (hclaim : ctxClaimed s w k.alcove id c = false)
    (hdraw : markedDraw s x.set.domain x.epoch x.epochMark = .ok)
    (hhead : head = blobHead c.mech k.alcove id x.epoch c.handle)
    (hbody : body = Config.gcmCrypt x.ctxKey (zeros 4 ++ be 8 x.epoch) (drawn s 240))
    (ht : t = modCtx (makeLive (modAlc (useFree s 240) k.alcove (fun y => { y with epoch := y.epoch + 1 })) k.alcove id)
      k.alcove id (fun c =>
        { c with epoch := some x.epoch, inFlight := false, present := !bitOf (fld k.payload 4 1) 0 })) :
    runSave s w k = okWork t w (head ++ body ++ blobTag x.ctxKey head body) := by
  subst ht hbody hhead hid
  simp only [runSave, hc, hx, Option.isNone_eq_false_iff.mpr hkey, hclaim, hdraw, Bool.false_eq_true, if_false]

/-- R305, R306: the blob of the latest epoch restores its context. -/
theorem runRestore_restores {s : State} {w id : Nat} {k : Work} {c : Context} {x : Alcove}
    (hid : id = fld k.payload 12 4) (hc : ctxHolds s k.alcove id = some c) (hx : alc s k.alcove = some x)
    (hkey : (resolve s k.alcove c.handle).isSome = true) (halc : fld k.payload 8 2 = k.alcove)
    (htag : blobTag x.ctxKey (k.payload.take 32) (slice k.payload 32 240) = slice k.payload 272 16)
    (hepoch : c.epoch = some (fld k.payload 16 8)) (hclaim : ctxClaimed s w k.alcove id c = false)
    (hroom : c.present = true ∨ ctxHeld s < 65536) :
    runRestore s w k = okWork (modCtx (makeLive (modCtx s k.alcove id (fun c => { c with present := true })) k.alcove id)
      k.alcove id (fun c => { c with inFlight := false })) w (be 4 id ++ zeros 4) := by
  have hfull : ¬ (c.present = false ∧ 65536 ≤ ctxHeld s) := by
    rintro ⟨hgone, hfull⟩
    rcases hroom with hhere | hroom
    · simp [hhere] at hgone
    · omega
  subst hid
  simp only [runRestore, hc, hx, Option.isNone_eq_false_iff.mpr hkey, halc, htag, hepoch, hclaim, if_neg hfull, ne_eq,
    not_true, or_self, Bool.false_eq_true, if_false]

theorem exec_contextClose_held {s : State} {w : Nat} {k : Work} {c : Context} (h : isReady s w 0x0215 k)
    (hc : ctxHolds s k.alcove (fld k.payload 0 4) = some c)
    (hclaim : ctxClaimed s w k.alcove (fld k.payload 0 4) c = false) :
    exec (.contextClose w) s = .next (okWork (releaseCtx s k.alcove (fld k.payload 0 4)) w []) := by
  refine exec_ready h rfl ?_
  simp only [hc, hclaim, Bool.false_eq_true, if_false]

/-- Settles O21: each hypothesis is a check of the command, passed, and what is left is its issue or its answer. That
the `STATE` of a saved context is the encryption of free bytes is the model's choice (log 16, log 48). -/
theorem symmetricAndContextCommandsRun : Obligations.SymmetricAndContextCommandsRun := by
  unfold Obligations.SymmetricAndContextCommandsRun
  refine ⟨?keyed, ?digest, ?random, ?openCtx, ?data, ?save, ?restore, ?close⟩
  case keyed =>
    intro c op hc s t w k x slot n sec face r h hx hface hctr hdata huses hmark hissue hr ht
    exact exec_ready h (exec_symmetric hc s w) (runSym_issues hx hface hctr hdata huses hmark hissue hr ht)
  case digest => exact fun s w k x r => exec_digest_issues
  case random => exact fun s w n k => exec_random_issues
  case openCtx =>
    intro s t w k x y slot n id sec face c nonce d h hx hy hface hd hctr huses hmark hissue hroom hid hnonce hc ht
    exact exec_ready h rfl (runOpen_issues hx hy hface hd hctr huses hmark hissue hroom hid hnonce hc ht)
  case data =>
    rintro e op final (⟨rfl, rfl, rfl⟩ | ⟨rfl, rfl, rfl⟩) s w k r c f slot n sec face h hr hc hclaim hf hface huses
      hspent hblocks hmark hissue
    · exact exec_ready h rfl (runData_issues hr hc hclaim hf hface huses hspent hblocks hmark hissue)
    · exact exec_ready h rfl (runData_issues hr hc hclaim hf hface huses hspent hblocks hmark hissue)
  case save =>
    intro s t w id k c x head body h hid hc hx hkey hclaim hdraw hhead hbody ht
    exact exec_ready h rfl (runSave_saves hid hc hx hkey hclaim hdraw hhead hbody ht)
  case restore =>
    intro s w id k c x h hid hc hx hkey halc htag hepoch hclaim hroom
    exact exec_ready h rfl (runRestore_restores hid hc hx hkey halc htag hepoch hclaim hroom)
  case close => exact fun s w k c => exec_contextClose_held

end Sys2Proof.Proofs.SymmetricCommands
end

section
/-! PROOFS. The public-key commands (R102, R116, R153, R319): the first issue, and what follows a pass of the lane. -/

namespace Sys2Proof.Proofs.PublicKeyCommands

open Sys2Proof Sys2Proof.Machine Sys2Proof.Proofs.ReadyCommands

/-- The seven commands that share `runPk`. -/
theorem exec_publicKey {c : Nat → Instr} {op : Nat}
    (hc : (c = .sign ∧ op = 0x0301) ∨ (c = .verify ∧ op = 0x0302) ∨ (c = .agree ∧ op = 0x0303)
      ∨ (c = .encapsulate ∧ op = 0x0304) ∨ (c = .decapsulate ∧ op = 0x0305) ∨ (c = .pkEncrypt ∧ op = 0x0306)
      ∨ (c = .pkDecrypt ∧ op = 0x0307)) (s : State) (w : Nat) :
    exec (c w) s = .next (onWork s w op (runPk s w op)) := by
  rcases hc with ⟨rfl, rfl⟩ | ⟨rfl, rfl⟩ | ⟨rfl, rfl⟩ | ⟨rfl, rfl⟩ | ⟨rfl, rfl⟩ | ⟨rfl, rfl⟩ | ⟨rfl, rfl⟩ <;> rfl

/-- R19, R319: after a pass of the lane comes the second pass of a signature that takes two, or the core job. -/
theorem runPk_carried {s : State} {w op slot n : Nat} {k : Work} {x : Keyed} {sec : Secret} {face : Face} {r : Result}
    {two : Bool} (hx : keyedOf op k.payload = some x) (hcarry : k.carry = some r)
    (hface : faceCheck s k.alcove x.req.handle false (famServes x.fam op x.req.keyBits) = .ok (slot, n, sec, face))
    (htwo : two = (twoPasses x op && k.part == 1))
    (hissue : mayIssue s (if two then .hash else .pk) w [cacheKey slot n] = true) :
    runPk s w op k =
      if two then issueOp (pinFace s slot n) w k .hash [cacheKey slot n] none 0 { r with again := .nextWing }
      else pkIssue (pinFace s slot n) w k op x [cacheKey slot n] r := by
  subst htwo
  simp only [runPk, hx, hcarry, pkNext, withFace_ok hface, hissue, Bool.true_eq_false, if_false]

/-- R116, R153: the first issue is the lane's hash of a long message, or the core job. -/
theorem runPk_first {s t : State} {w op slot n : Nat} {k : Work} {x : Keyed} {sec : Secret} {face child : Face}
    {r : Result} (hx : keyedOf op k.payload = some x) (hcarry : k.carry = none)
    (hface : faceCheck s k.alcove x.req.handle false (fun sec face => famServes x.fam op x.req.keyBits sec face
      && (op != 0x0303 || hFace (mapHandle s k.alcove x.req.handle) == 0)) = .ok (slot, n, sec, face))
    (hchild : child = childFace k.alcove x.prm.tmpl face (mapHandle s k.alcove x.req.handle))
    (hborn : makesFace op = true → childOk s k.alcove x.prm.tmpl child face = true
      ∧ instServes s ((x.prm.tmpl.key.getD (0, 0)).1) [child] = true) (huses : usesLeft s slot n face = true)
    (hmark : marksAllow face false = true)
    (hissue : mayIssue s (if (longHash x op).isSome then .hash else .pk) w [cacheKey slot n] = true)
    (hr : r = pkResult s k op x sec child (pkMeter (famProg x.fam op) x.req.keyBits
      :: (if (longHash x op).isSome then symMeters .hash x.req.data.length else [])))
    (ht : t = issueFace (useFree s pkFree) k.alcove slot n face) :
    runPk s w op k = if (longHash x op).isSome then issueOp t w k .hash [cacheKey slot n] none 0
        { r with again := if twoPasses x op then .sameWing else .nextWing }
      else pkIssue t w k op x [cacheKey slot n] r := by
  subst ht hr hchild
  have hattr : ¬ (makesFace op = true ∧ childOk s k.alcove x.prm.tmpl
      (childFace k.alcove x.prm.tmpl face (mapHandle s k.alcove x.req.handle)) face = false) :=
    fun ⟨hmakes, hno⟩ => by simp [(hborn hmakes).1] at hno
  have hinst : ¬ (makesFace op = true ∧ instServes s ((x.prm.tmpl.key.getD (0, 0)).1)
      [childFace k.alcove x.prm.tmpl face (mapHandle s k.alcove x.req.handle)] = false) :=
    fun ⟨hmakes, hno⟩ => by simp [(hborn hmakes).2] at hno
  simp only [runPk, hx, hcarry, withFace_ok hface, if_neg hattr, huses, if_neg hinst, hmark, hissue, Bool.true_eq_false,
    or_self, if_false]
  cases longHash x op with
  | none => rfl
  | some lane => rfl

/-- Settles O22: a command that carries a result goes on from the lane, and any other makes its first issue. -/
theorem publicKeyCommandsIssue : Obligations.PublicKeyCommandsIssue := by
  unfold Obligations.PublicKeyCommandsIssue
  intro c op hc
  constructor
  · intro s w slot n k x sec face r two h hx hcarry hface htwo hissue
    exact exec_ready h (exec_publicKey hc s w) (runPk_carried hx hcarry hface htwo hissue)
  · intro s t w k x slot n sec face child r h hx hcarry hface hchild hborn huses hmark hissue hr ht
    exact exec_ready h (exec_publicKey hc s w)
      (runPk_first hx hcarry hface hchild hborn huses hmark hissue hr ht)

end Sys2Proof.Proofs.PublicKeyCommands
end

section
/-! PROOFS. The commands that make, wrap and recover keys (R117 to R122, R177 to R179, R190 to R194, R290), and those
that change or destroy a face (R119, R122, R213). -/

namespace Sys2Proof.Proofs.KeyCommands

open Sys2Proof Sys2Proof.Machine Sys2Proof.Proofs.ReadyCommands

/-! ### New keys -/

/-- R379, R387: the material of a new key comes from internal generator 3, where it serves. -/
theorem exec_keyGenerate_draws {s : State} {w : Nat} {k : Work} {r : GenReq} {x : Bytes × State}
    {f : Option Face × Option Face} (h : isReady s w 0x0501 k) (hr : genReq false k.payload = some r)
    (hok : genRefused s k.alcove r = none) (hdraw : drawState s 3 = .ok)
    (hx : x = drawFrom s 3 ((materialLen r.algo r.bits).getD 0)) (hf : f = genFaces k.alcove r) :
    exec (.keyGenerate w) s
      = .next (deliver x.2 w (birthResult s k.alcove r.algo r.bits x.1 f.1 f.2 2 none [])) := by
  subst hx hf
  refine exec_ready h rfl ?_
  simp only [hr, hok, hdraw]

theorem exec_pairGenerate_issues {s : State} {w p : Nat} {k : Work} {r : GenReq} {m : Bytes}
    {f : Option Face × Option Face} (h : isReady s w 0x0502 k) (hr : genReq true k.payload = some r)
    (hok : genRefused s k.alcove r = none) (hp : p = genProg r.algo)
    (hm : m = pairMaterial r.algo r.bits (drawn s pkFree)) (hf : f = genFaces k.alcove r) :
    exec (.pairGenerate w) s
      = .next (issueJob (useFree s pkFree) w k p (pkStep p r.bits).width (progLong p r.bits) false []
        (birthResult s k.alcove r.algo r.bits m f.1 f.2 2 none [pkMeter p r.bits])) := by
  subst hp hm hf
  refine exec_ready h rfl ?_
  simp only [hr, hok]

/-- R178, R657: a derivation whose child passes check 7 issues its operation on a hash lane. -/
theorem exec_keyDerive_issues {s : State} {w slot n m : Nat} {k : Work} {x : Keyed} {sec : Secret} {face child : Face}
    (h : isReady s w 0x0503 k) (hx : keyedOf 0x0503 k.payload = some x)
    (hface : faceCheck s k.alcove x.req.handle false (famServes x.fam 0x0503 0) = .ok (slot, n, sec, face))
    (hchild : child = childFace k.alcove x.prm.tmpl face (mapHandle s k.alcove x.req.handle))
    (hborn : childOk s k.alcove x.prm.tmpl child face = true)
    (hinst : instServes s ((x.prm.tmpl.key.getD (0, 0)).1) [child] = true) (huses : usesLeft s slot n face = true)
    (hmark : marksAllow face false = true) (hissue : mayIssue s .hash w [cacheKey slot n] = true)
    (hm : m = (x.prm.tmpl.key.bind (fun e => materialLen e.1 e.2)).getD 0) :
    exec (.keyDerive w) s = .next (issueOp (issueFace s k.alcove slot n face) w k .hash [cacheKey slot n] none 0
      (childResult s k.alcove x.prm.tmpl child (derived x.fam x.prm sec.material x.req.data m) []
        (symMeters .hash x.req.data.length))) := by
  subst hm hchild
  refine exec_ready h rfl ?_
  simp only [hx, withFace_ok hface, hborn, hinst, huses, hmark, hissue, Bool.true_eq_false, or_self, if_false]

/-! ### Wrapped keys -/

/-- R19, R120, R190, R308: a wrap that passes its checks pins both faces and issues its operation. -/
theorem exec_keyWrap_issues {s : State} {w slot n : Nat} {k : Work} {a b : Nat × Nat × Secret × Face} {sec : Secret}
    {face : Face} {blob : Bytes} {d : Bool} {pins : List Nat} (h : isReady s w 0x0504 k)
    (ha : resolve s k.alcove (fld k.payload 0 8) = some a) (hb : resolve s k.alcove (fld k.payload 8 8) = some b)
    (hface : faceCheck s k.alcove (fld k.payload 0 8) false (fun sec f =>
      wrapServes (fld k.payload 16 2) .wrap sec f && b.2.2.2.wrapped && !b.2.2.2.payment) = .ok (slot, n, sec, face))
    (hd : d = (fld k.payload 16 2 == 0x50)) (hctr : d = true → face.nextInv < 2 ^ 64)
    (htakes : wrapTakes (fld k.payload 16 2) b.2.2.1.material.length = true)
    (hpins : pins = bothPins (cacheKey slot n) (cacheKey b.1 b.2.1)) (huses : usesLeft s slot n face = true)
    (hmark : marksAllow face d = true) (hissue : mayIssue s .cipher w pins = true)
    (hblob : blob = (if d then envelope sec.material b.2.2.1 (nonceOf s face)
      else Config.kw (fld k.payload 16 2 == 0x31) sec.material b.2.2.1.material)) :
    exec (.keyWrap w) s
      = .next (issueOp (pinTarget (issueFace (if d then drawInv s slot n else s) k.alcove slot n face)
        (cacheKey slot n) b.1 b.2.1) w k .cipher pins none 0
        (plainResult stOk (be 4 blob.length ++ blob) (symMeters .cipher b.2.2.1.material.length))) := by
  obtain ⟨ts, tn, tgt, tf⟩ := b
  subst hblob hpins hd
  refine exec_ready h rfl ?_
  simp only [ha, hb, withFace_ok hface, huses, if_neg (counterNotSpent hctr), htakes, hmark, hissue,
    Bool.true_eq_false, or_self, if_false]

/-- R120, R177, R193: an unwrap whose integrity check passes and whose approval holds issues its operation. The approval
of an envelope's faces is checked after its tag and a template's before the issue (log 49): both hold here. -/
theorem exec_keyUnwrap_issues {s : State} {w slot n : Nat} {k : Work} {r : UnwrapReq} {sec : Secret} {face : Face}
    {m : Bytes} {key : Nat × Nat} {f : Option Face × Option Face} {q : Bool × Option Bytes × State}
    (h : isReady s w 0x0505 k) (hcarry : k.carry = none) (hr : unwrapReq k.payload = some r)
    (hface : faceCheck s k.alcove r.handle false (wrapServes r.mech .unwrap) = .ok (slot, n, sec, face))
    (hkey : key = (unwrapKey r).getD (0, 0)) (hf : f = unwrapFaces k.alcove r)
    (hborn : birthDenied s k.alcove key.1 key.2 f.1 f.2 = false)
    (hq : q = flagQuorum s k r ((f.1.toList ++ f.2.toList).any (fun x => x.quorum))) (hpass : q.1 = true)
    (hinst : instServes s key.1 (f.1.toList ++ f.2.toList) = true) (huses : usesLeft s slot n face = true)
    (hmark : marksAllow face false = true) (hissue : mayIssue s .cipher w [cacheKey slot n] = true)
    (hm : unwrapped sec.material r = some m) :
    exec (.keyUnwrap w) s
      = .next (issueOp (issueFace q.2.2 k.alcove slot n face) w k .cipher [cacheKey slot n] none 0
        (unwrapResult q.2.2 k.alcove key.1 key.2 m f.1 f.2 q.2.1 (symMeters .cipher r.blob.length))) := by
  subst hq hkey hf
  refine exec_ready h rfl ?_
  cases hearly : r.mech != 0x50 <;>
    simp only [hr, hcarry, withFace_ok hface, hborn, hearly, hpass, hinst, huses, hmark, hissue, hm, Bool.true_eq_false,
      Bool.false_eq_true, or_self, if_true, if_false]

/-- R334: asymmetric material that has been recovered goes on to program 0x40. -/
theorem exec_keyUnwrap_carried {s : State} {w : Nat} {k : Work} {u : UnwrapReq} {r : Result} (h : isReady s w 0x0505 k)
    (hu : unwrapReq k.payload = some u) (hcarry : k.carry = some r) :
    exec (.keyUnwrap w) s = .next (issueJob s w k 0x40 1 (progLong 0x40 0) false [] r) := by
  refine exec_ready h rfl ?_
  simp only [hu, hcarry]

/-! ### Changes of a face -/

/-- R119: a change that is decided waits in the sequencer of its domain. -/
theorem changeFace_queues {s : State} {w op : Nat} {k : Work} {b : MutBody}
    (hb : faceChange s k.alcove op k.payload = .ok b) : changeFace s w op k = mutateWork s w k b none [] := by
  simp only [changeFace, hb]

theorem faceChange_destroyFace {s : State} {a slot n : Nat} {p : Bytes} {sec : Secret} {f : Face}
    (hr : resolve s a (fld p 0 8) = some (slot, n, sec, f)) (hpay : f.payment = false) :
    faceChange s a 0x0506 p = .ok (.destroyFace slot n) := by
  simp only [faceChange, namedFace_plain hr hpay, if_true]

theorem faceChange_destroySecret {s : State} {a slot n : Nat} {p : Bytes} {sec : Secret} {f : Face}
    (hr : resolve s a (fld p 0 8) = some (slot, n, sec, f)) (hpay : f.payment = false) :
    faceChange s a 0x0507 p = .ok (.destroySecret slot) := by
  simp [faceChange, namedFace_plain hr hpay]

/-- Settles O23: each hypothesis is a check of the command, passed. The order of the quorum check of an unwrap among its
checks (log 49) and the run of program 0x40, for which nothing is reserved (log 50), are the model's choices. -/
theorem keysAreMadeAndChanged : Obligations.KeysAreMadeAndChanged := by
  unfold Obligations.KeysAreMadeAndChanged
  refine ⟨?generate, ?pair, ?derive, ?wrap, ?unwrap, ?unwrapCarried, ?change, ?destroyFace, ?destroySecret⟩
  case generate => exact fun s w k r x f => exec_keyGenerate_draws
  case pair => exact fun s w p k r m f => exec_pairGenerate_issues
  case derive => exact fun s w slot n m k x sec face child => exec_keyDerive_issues
  case wrap => exact fun s w slot n k a b sec face blob d pins => exec_keyWrap_issues
  case unwrap => exact fun s w slot n k r sec face m key f q => exec_keyUnwrap_issues
  case unwrapCarried => exact fun s w k u r => exec_keyUnwrap_carried
  case change =>
    rintro c op (⟨rfl, rfl⟩ | ⟨rfl, rfl⟩) s w k b h hb
    · exact exec_ready h rfl (changeFace_queues hb)
    · exact exec_ready h rfl (changeFace_queues hb)
  case destroyFace =>
    exact fun s w slot n k sec f h hr hpay => exec_ready h rfl (changeFace_queues (faceChange_destroyFace hr hpay))
  case destroySecret =>
    exact fun s w slot n k sec f h hr hpay => exec_ready h rfl (changeFace_queues (faceChange_destroySecret hr hpay))

end Sys2Proof.Proofs.KeyCommands
end

section
/-! PROOFS. The manager's commands (R158, R203, R455, R463 to R476, R531 to R536): section loads, the life cycle,
debug, units, firmware, snapshots and watch gaps. -/

namespace Sys2Proof.Proofs.ManagerCommands

open Sys2Proof Sys2Proof.Machine Sys2Proof.Proofs.ReadyCommands

/-! ### Commands under a quorum of domain 0 -/

@[simp] theorem endTicket_life (s : State) (d : Nat) (id : Bytes) : (endTicket s d id).life = s.life := rfl

/-- R236, R237, R532: a load that is not denied and whose approval, where it needs one, holds is committed. -/
theorem exec_sectionLoad_commits {s t : State} {w n : Nat} {k : Work} (h : isReady s w 0x0A04 k)
    (hn : n = 784 + fld k.payload 4 4) (hrole : loadDenied s k.role k.key = false)
    (happroved : if loadNeedsQuorum s k.payload then ∃ ap, approvalAt k.payload n = some ap
      ∧ approvalOk s 0 0x0A04 (k.payload.take n) ap = true ∧ t = endTicket s 0 ap.ticket else t = s)
    (hok : loadRefused t (secHead k.payload) (secLoad k.payload) = none) :
    exec (.sectionLoad w) s = .next (commitLoad t w (secHead k.payload) (secLoad k.payload)) := by
  subst hn
  refine exec_ready h rfl ?_
  cases hneeds : loadNeedsQuorum s k.payload with
  | true =>
    rw [if_pos hneeds] at happroved
    obtain ⟨ap, hap, hquorum, rfl⟩ := happroved
    simp only [hrole, hneeds, withQuorum_ok hap hquorum, hok, Bool.false_eq_true, if_true, if_false]
  | false =>
    rw [hneeds, if_neg Bool.false_ne_true] at happroved
    subst happroved
    simp only [hrole, hneeds, hok, Bool.false_eq_true, if_false]

/-- R463, R465, R471: an approved transition that the owner may ask for begins. -/
theorem exec_lifeCycleSet_begins {s t : State} {w n : Nat} {k : Work} {bad : List (Nat × Nat)} {img : Bytes}
    {ap : Approval} {l : Life} (h : isReady s w 0x0A05 k) (hn : n = 48 + fld k.payload 40 4)
    (himg : img = slice k.payload 48 (fld k.payload 40 4)) (hap : approvalAt k.payload n = some ap)
    (hquorum : lifeQuorum s (k.payload.take n) img ap = true) (hl : l = lifeOf (fld k.payload 0 1))
    (hvote : s.life.voteFail = false) (howner : ownerMay s.life.life l = true)
    (ht : t = modWork (endTicket s 0 ap.ticket) w (fun k => { k with stage := .waitEpoch 9 0 [] })) :
    exec (.lifeCycleSet w bad) s = .next (beginTrans t {
      target := l, work := some w, bad := bad
      image := if l = .commissioned then some (slice k.payload 8 32, img) else none }) := by
  subst ht hl himg hn
  refine exec_ready h rfl ?_
  simp only [hap, hquorum, endTicket_life, hvote, howner, Bool.true_eq_false, Bool.false_eq_true, or_self, if_false]

theorem exec_debugEnable_sets {s t : State} {w d e : Nat} {k : Work} {ap : Approval} {m : BitVec 4}
    (h : isReady s w 0x0A06 k) (hm : m = BitVec.ofNat 4 (fld k.payload 0 1)) (hd : d = fld k.payload 4 4)
    (hap : approvalAt k.payload 8 = some ap) (hquorum : approvalOk s 0 0x0A06 (k.payload.take 8) ap = true)
    (ht : t = endTicket s 0 ap.ticket) (hmask : m &&& ~~~ (lcAllowed t.life) = 0) (he : e = t.time + d * 10 ^ 9) :
    exec (.debugEnable w) s
      = .next (okWork (setDebug t (if d = 0 then 0 else m) e) w (be 8 (if d = 0 then 0 else e))) := by
  subst he hm hd ht
  refine exec_ready h rfl ?_
  simp only [withQuorum_ok hap hquorum, hmask, Bool.false_eq_true, ne_eq, not_true, if_false]

theorem exec_firmwareUpdate_accepts {s t : State} {w c n : Nat} {k : Work} {ap : Approval} (h : isReady s w 0x0A09 k)
    (hc : c = fld k.payload 0 1) (hn : n = fld k.payload 4 4) (hap : approvalAt k.payload (16 + n) = some ap)
    (hquorum : approvalOk s 0 0x0A09 (k.payload.take (16 + n)) ap = true) (ht : t = endTicket s 0 ap.ticket)
    (hnew : t.boot.activated = false) (himg : c ≠ 0 → imageRefused t c (slice k.payload 16 n) = none) :
    exec (.firmwareUpdate w) s
      = .next (endUpdate (if c = 0 then t else stageImage t c (slice k.payload 16 n)) w c (fld k.payload 1 1)) := by
  subst ht hn hc
  refine exec_ready h rfl ?_
  by_cases hnone : fld k.payload 0 1 = 0
  · simp only [withQuorum_ok hap hquorum, hnew, Bool.false_eq_true, if_false, if_pos hnone]
  · simp only [withQuorum_ok hap hquorum, hnew, Bool.false_eq_true, if_false, if_neg hnone, himg hnone]

/-- R455: the acknowledgement of the gap that the device shows waits in the sequencer of its domain. -/
theorem exec_gapAck_queues {s : State} {w g : Nat} {k : Work} {ap : Approval} (h : isReady s w 0x0A0D k)
    (hg : g = fld k.payload 0 1) (hap : approvalAt k.payload 8 = some ap)
    (hquorum : approvalOk s 0 0x0A0D (k.payload.take 8) ap = true) (hpos : g ≠ 0) (hgap : g = s.bb.gap.toNat) :
    exec (.gapAck w) s = .next (mutateWork s w k (.gapAck g) (some ap.ticket) []) := by
  have hnamed : ¬ (fld k.payload 0 1 = 0 ∨ fld k.payload 0 1 ≠ s.bb.gap.toNat) := by simp [← hg, hpos, ← hgap]
  subst hg
  refine exec_ready h rfl ?_
  simp only [withQuorum_ok hap hquorum, if_true, if_neg hnamed]

/-! ### Units (R158) -/

theorem exec_unitOut_leaves {s : State} {w i : Nat} {k : Work} {u : UnitKind} {z : Nat} {l : List Nat}
    (h : isReady s w 0x0A07 k) (hi : i = fld k.payload 1 1) (hu : unitKindOf (fld k.payload 0 1) = some (u, z))
    (houter : unitInner s u i = false) (howned : unitHanding s u i = false)
    (hl : l = (unitNos u i).filter (fun n => inServe (unitAt s u n).1)) (hsome : l ≠ []) :
    exec (.unitOut w) s = .next (modWork (l.foldl (fun s n => putUnit s u n (unitAt s u n).1 true) s) w
      (fun k => { k with stage := .waitEpoch (unitCode u) i [] })) := by
  subst hl hi
  refine exec_ready h rfl ?_
  simp only [hu, houter, howned, List.isEmpty_eq_false_iff.mpr hsome, Bool.false_eq_true, or_self, if_false]

theorem exec_unitReturn_tests {s : State} {w i : Nat} {k : Work} {u : UnitKind} {z : Nat} {l : List Nat}
    (h : isReady s w 0x0A08 k) (hi : i = fld k.payload 1 1) (hu : unitKindOf (fld k.payload 0 1) = some (u, z))
    (howned : unitHanding s u i = false) (hl : l = (unitNos u i).filter (fun n => returnActs u (unitAt s u n)))
    (hsome : l ≠ []) :
    exec (.unitReturn w) s = .next (modWork (l.foldl (fun s n => unitBegin s u n) s) w
      (fun k => { k with stage := .waitEpoch (unitCode u) i l })) := by
  subst hl hi
  refine exec_ready h rfl ?_
  simp only [hu, howned, List.isEmpty_eq_false_iff.mpr hsome, Bool.false_eq_true, or_self, if_false]

end Sys2Proof.Proofs.ManagerCommands
end

section
/-! PROOFS. The commands of the Tally (R598 to R601) and register access by command (R129 to R131). -/

namespace Sys2Proof.Proofs.TallyCommands

open Sys2Proof Sys2Proof.Machine Sys2Proof.Proofs.ReadyCommands Sys2Proof.Proofs.ManagerCommands

/-- A function of `TALLY_RECORD` comes to what its body makes of the command that asks for it. -/
theorem exec_record {c : Instr} {s t : State} {w f : Nat} {k : Work} {g : Work → State} (h : isReady s w 0x0A0B k)
    (hf : fld k.payload 0 1 = f) (hc : exec c s = .next (onRecord s w f g)) (hg : g k = t) : exec c s = .next t :=
  exec_ready h hc ((if_pos hf).trans hg)

theorem exec_tallyRecordRead_held {s : State} {w i : Nat} {k : Work} (h : isReady s w 0x0A0B k)
    (hf : fld k.payload 0 1 = 0) (hi : i = fld k.payload 8 8) (hnew : i ≤ s.tally.newest)
    (hold : s.tally.newest < i + 1536) :
    exec (.tallyRecordRead w) s = .next (okWork s w (listPayload s.tally.newest
      (((List.range (fld k.payload 16 2)).filterMap (fun j => tget s.tally.records (i + j))).map (·.bytes)))) := by
  subst hi
  have hheld : ¬ (s.tally.newest < fld k.payload 8 8 ∨ fld k.payload 8 8 + 1536 ≤ s.tally.newest) := by omega
  refine exec_record h hf rfl ?_
  simp only [if_neg hheld]

/-- A cut within 1 s of the newest record answers with that record. -/
theorem exec_tallyCut_recent {s : State} {w : Nat} {k : Work} {r : TallyRec} (h : isReady s w 0x0A0B k)
    (hf : fld k.payload 0 1 = 1) (hr : tget s.tally.records s.tally.newest = some r)
    (hrecent : s.tally.time < r.time + 10 ^ 9) :
    exec (.tallyCut w) s = .next (okWork s w (recordPayload s.tally s.tally.newest)) := by
  refine exec_record h hf rfl ?_
  simp only [hr, decide_eq_true hrecent, if_true]

/-- A later cut waits for its record. -/
theorem exec_tallyCut_waits {s : State} {w : Nat} {k : Work} (h : isReady s w 0x0A0B k) (hf : fld k.payload 0 1 = 1)
    (hlate : (tget s.tally.records s.tally.newest).all (fun r => decide (r.time + 10 ^ 9 ≤ s.tally.time)) = true) :
    exec (.tallyCut w) s = .next (modWork (modTally s (fun t => { t with cut := t.cut ++ [w] })) w
      (fun k => { k with stage := .waitTally })) := by
  refine exec_record h hf rfl ?_
  cases hr : tget s.tally.records s.tally.newest with
  | none => simp only [Bool.false_eq_true, if_false]
  | some r =>
    rw [hr, Option.all_some, decide_eq_true_iff] at hlate
    simp only [decide_eq_false (Nat.not_lt.mpr hlate), Bool.false_eq_true, if_false]

/-- R601: an approved reseal that passes its checks runs. -/
theorem exec_tallyReseal_runs {s t : State} {w n b : Nat} {k : Work} {ap : Approval} (h : isReady s w 0x0A0C k)
    (hn : n = 784 + fld k.payload 4 4 + fld k.payload 8 4) (hap : approvalAt k.payload n = some ap)
    (hquorum : approvalOk s 0 0x0A0C (k.payload.take n) ap = true) (ht : t = endTicket s 0 ap.ticket)
    (hok : resealRefused t k.payload = none) : exec (.tallyReseal w b) s = .next (runReseal t w k.payload b) := by
  subst ht hn
  refine exec_ready h rfl ?_
  simp only [withQuorum_ok hap hquorum, Bool.false_eq_true, if_false, hok]

/-- R130, R131: an approved list that names no window of its own and meets no error is written in full. -/
theorem exec_regWrite_writes {s t : State} {w n : Nat} {k : Work} {ap : Approval} (h : isReady s w 0x0A11 k)
    (hn : n = 4 + 12 * fld k.payload 0 2) (hown : (writeEntries k.payload).any (fun e => ownWindow e.1) = false)
    (hap : approvalAt k.payload n = some ap) (hquorum : approvalOk s 0 0x0A11 (k.payload.take n) ap = true)
    (hwrite : writeList (writeEntries k.payload) 0 (endTicket s 0 ap.ticket) = (none, t)) :
    exec (.regWrite w) s = .next (okWork t w []) := by
  subst hn
  refine exec_ready h rfl ?_
  simp only [hown, withQuorum_ok hap hquorum, hwrite, Bool.false_eq_true, if_false]

/-- Settles O28: each hypothesis is a check of the command, passed. The units that wait for the epoch (log 38), a cut
within 1 s (log 66), the completion of a load (log 67), the slots of firmware and its restart (log 68), a debug duration
of 0 (log 69) and the quorum of an image in `TRANSIT` (log 70) are the model's choices. -/
theorem managerAndTallyCommandsRun : Obligations.ManagerAndTallyCommandsRun := by
  unfold Obligations.ManagerAndTallyCommandsRun
  refine ⟨?load, ?life, ?debug, ?unitOut, ?unitReturn, ?firmware, ?snapshot, ?record, ?cutRecent, ?cutWaits, ?log,
    ?identity, ?reseal, ?gap, ?regRead, ?regWrite⟩
  case load => exact fun s t w n k => exec_sectionLoad_commits
  case life => exact fun s t w n k b img ap l => exec_lifeCycleSet_begins
  case debug => exact fun s t w d e k ap m => exec_debugEnable_sets
  case unitOut => exact fun s w i k u z l => exec_unitOut_leaves
  case unitReturn => exact fun s w i k u z l => exec_unitReturn_tests
  case firmware => exact fun s t w c n k ap => exec_firmwareUpdate_accepts
  case snapshot => exact fun s w k h => exec_ready h rfl rfl
  case record => exact fun s w i k => exec_tallyRecordRead_held
  case cutRecent => exact fun s w k r => exec_tallyCut_recent
  case cutWaits => exact fun s w k => exec_tallyCut_waits
  case log => exact fun s w k h hf => exec_record h hf rfl rfl
  case identity => exact fun s w k h hf => exec_record h hf rfl rfl
  case reseal => exact fun s t w n b k ap => exec_tallyReseal_runs
  case gap => exact fun s w g k ap => exec_gapAck_queues
  case regRead =>
    rintro s w k r h rfl
    exact exec_ready h rfl rfl
  case regWrite => exact fun s t w n k ap => exec_regWrite_writes

end Sys2Proof.Proofs.TallyCommands
end

section
/-! PROOFS. What the key store and admission do of their own: mutations and marks that commit (R195 to R197, R207, R209,
R552), the Archive (R28, R200, R203), grants and tickets that end (R223, R575), and the last moment of a command's promise
(R136). -/

namespace Sys2Proof.Proofs.StoreEvents

open Sys2Proof Sys2Proof.Machine

/-! ### Mutations and marks -/

theorem exec_mutationCommit (d : Nat) (s : State) : exec (.mutationCommit d) s = .next (commitStep s d) := rfl
theorem exec_invocationMarkCommit (r : MarkRef) (s : State) :
    exec (.invocationMarkCommit r) s = execInvocationMarkCommit r s := rfl

theorem commitStep_sequenced {s : State} {d : Nat} {m : Mutation} {l : List Mutation}
    (hp : (domD s d).pending = m :: l) (hseq : seqHere s d = true) : commitStep s d = commitHere s d m := by
  simp only [commitStep, hp, hseq]

theorem commitStep_held {s : State} {d : Nat} {r : JournalRec} (hseq : seqHere s d = false)
    (hheld : heldFirst s d = some r) (htakes : journalTakes s (recordSize r.body) = true) :
    commitStep s d = applyRecord s r := by
  simp only [commitStep, hseq, hheld, htakes, if_true]

/-- R552: the side that does not sequence a domain and holds no record of it forwards its own head. -/
theorem commitStep_forwards {s : State} {d : Nat} {m : Mutation} {l : List Mutation}
    (hp : (domD s d).pending = m :: l) (hseq : seqHere s d = false) (hheld : heldFirst s d = none)
    (htakes : journalTakes s m.size = true) (hsent : m.sent = false) : commitStep s d = forwardHead s d m := by
  simp only [commitStep, hp, hseq, hheld, htakes, hsent, Bool.true_eq_false, if_true, if_false]

/-- R196: a head that is placed applies at once without a partner, and waits for the twin's report in a joined pair. -/
theorem commitHere_places {s t : State} {d : Nat} {m : Mutation} {r : JournalRec} (hnew : m.placed = none)
    (htakes : journalTakes s m.size = true) (hplace : placeHead s d m = (t, some r)) :
    commitHere s d m = if twinned t then t else applyHead t d m r := by
  simp only [commitHere, hnew, htakes, hplace, Bool.true_eq_false, if_false]

/-- R196: a head whose record is sent applies, unless the pair is joined over a link that is not up. -/
theorem commitHere_placed {s : State} {d : Nat} {m : Mutation} {r : JournalRec} (hplaced : m.placed = some r)
    (hlink : s.twin.state = .joined → s.twin.link = 3) : commitHere s d m = applyHead s d m r := by
  have hup : ¬ (s.twin.state = .joined ∧ s.twin.link ≠ 3) := fun ⟨hjoined, hdown⟩ => hdown (hlink hjoined)
  simp only [commitHere, hplaced, if_neg hup]

/-- R207, R209: a mark that is due rises on the side that sequences its domain. -/
theorem exec_invocationMarkCommit_here {s : State} {r : MarkRef} {d : Nat} (hdue : markDomain s r = some d)
    (htakes : journalTakes s (recordSize (.mark r)) = true) (hseq : seqHere s d = true) :
    exec (.invocationMarkCommit r) s = .next (rerunStreams (liftMark (recordAlone s d (.mark r)) r)) := by
  simp only [exec_invocationMarkCommit, execInvocationMarkCommit, hdue, htakes, hseq, Bool.true_eq_false, if_true,
    if_false]

/-- R552: the other side forwards a mark that is due, and remembers that it has. -/
theorem exec_invocationMarkCommit_there {s : State} {r : MarkRef} {d : Nat} (hdue : markDomain s r = some d)
    (htakes : journalTakes s (recordSize (.mark r)) = true) (hseq : seqHere s d = false)
    (hnew : s.twin.marksSent.contains r = false) : exec (.invocationMarkCommit r) s
      = .next (recordAlone (modTwin s (fun t => { t with marksSent := t.marksSent ++ [r] })) d (.mark r)) := by
  simp only [exec_invocationMarkCommit, execInvocationMarkCommit, hdue, htakes, hseq, hnew, Bool.true_eq_false,
    Bool.false_eq_true, if_false]

/-- R550: the sequencer of a domain moves while no mutation of the domain is on its way. -/
theorem exec_sequencerMove_moves {s : State} {d side : Nat} {x : Domain} (hx : dom s d = some x)
    (hnext : x.nextSide = some side) (hidle : x.pending.any (fun m => m.sent || m.placed.isSome) = false)
    (hheld : heldFirst s d = none) :
    exec (.sequencerMove d) s = .next (setDom s d (fun y => { y with sequencer := side, nextSide := none })) := by
  have hquiet : ¬ (x.pending.any (fun m => m.sent || m.placed.isSome) = true ∨ (heldFirst s d).isSome = true) := by
    simp [hidle, hheld]
  change execSequencerMove d s = _
  simp only [execSequencerMove, hx, hnext, if_neg hquiet]

/-! ### The Archive -/

/-- R203: what a snapshot makes of the key store when it takes its partition, whichever of the two is the older. -/
theorem exec_snapshotComplete_takes {s : State} {a : Archive} {void : Bool} (hsnap : s.keys.snapping = some a)
    (hvoid : void = (vectorRises s || !s.keys.oldJournal.isEmpty || !archiveOpens s)) : ∃ t,
    exec .snapshotComplete s = .next (wakeSnapshot t) ∧ t.keys.snapping = none ∧ t.keys.oldJournal = []
      ∧ t.keys.current = (if s.keys.current = 0 then 1 else 0) ∧ currentSnap t.keys = sealSnap s a
      ∧ (if s.keys.current = 0 then t.keys.snap0 else t.keys.snap1) = (if void then archiveReset else currentSnap s.keys)
      ∧ t.keys.archJournal = s.keys.archJournal.filter (fun r => decide (tgetD a.last r.body.domain 0 < r.body.seq))
      ∧ t.keys.secrets = s.keys.secrets ∧ t.keys.journal = s.keys.journal ∧ { t with keys := s.keys } = s := by
  subst hvoid
  change ∃ t, execSnapshotComplete s = _ ∧ _
  by_cases hfirst : s.keys.current = 0
  · simp only [execSnapshotComplete, hsnap, currentSnap, modKeys, if_pos hfirst]
    exact ⟨_, rfl, rfl, rfl, rfl, rfl, rfl, rfl, rfl, rfl, rfl⟩
  · simp only [execSnapshotComplete, hsnap, currentSnap, modKeys, if_neg hfirst]
    exact ⟨_, rfl, rfl, rfl, rfl, rfl, rfl, rfl, rfl, rfl, rfl⟩

/-- R28: a block is refreshed once its period, at the temperature just read, has passed and no journal write waits. -/
theorem exec_archiveRefreshDue_refreshes {s t : State} {b : Nat} {h c : BitVec 16} (hpower : s.power.powered = true)
    (hidle : s.keys.journal = []) (ht : t = modPower s (fun p => { p with hottest := h, coolest := c }))
    (hdue : tgetD s.keys.refreshed b 0 + refreshPeriod t ≤ s.time) : exec (.archiveRefreshDue b h c) s
      = .next { t with keys := { s.keys with refreshed := tput s.keys.refreshed b s.time } } := by
  have hkeys : t.keys = s.keys := by rw [ht, modPower_keys]
  have htime : t.time = s.time := by rw [ht, modPower_time]
  have hnow : ¬ (t.keys.journal.isEmpty = false ∨ t.time < tgetD t.keys.refreshed b 0 + refreshPeriod t) := by
    simp [hkeys, htime, hidle, Nat.not_lt.mpr hdue]
  change execArchiveRefreshDue b s h c = _
  simp only [execArchiveRefreshDue, hpower, ← ht, if_neg hnow, Bool.true_eq_false, if_false]
  simp only [modKeys, hkeys, htime]

/-! ### Grants and tickets -/

/-- A face that the secret does not have does not expire. -/
theorem grantOver_absent {s : State} {x : Secret} {slot n : Nat} (hf : faceAt x n = none) :
    grantOver s x slot n = false := by
  simp [grantOver, hf]

theorem grantOver_expired {s : State} {x : Secret} {slot n : Nat} {f : Face} (hgrant : x.granted = true)
    (hf : faceAt x n = some f) (hover : f.notAfter < tallySec s)
    (hnew : (domD s x.domain).pending.any (fun m => m.body == .destroyFace slot n) = false) :
    grantOver s x slot n = true := by
  simp [grantOver, hgrant, hf, hover, hnew]

/-- R575: a granted secret with one face loses it when its time is over. -/
theorem exec_grantExpiry_destroys {s : State} {n : Nat} {x : Secret} {f : Face} (hx : tget s.keys.secrets n = some x)
    (hgrant : x.granted = true) (hface0 : x.face0 = some f) (hface1 : x.face1 = none) (hover : f.notAfter < tallySec s)
    (hnew : (domD s x.domain).pending.any (fun m => m.body == .destroyFace n 0) = false) :
    exec (.grantExpiry n) s = .next (mutateAlone s x.domain 0 (.destroyFace n 0)) := by
  have hends : grantOver s x n 0 = true := grantOver_expired hgrant hface0 hover hnew
  change execGrantExpiry n s = _
  simp only [execGrantExpiry, hx, List.foldl_cons, List.foldl_nil, hends, if_true, grantOver_absent (n := 1) hface1,
    Bool.false_eq_true, if_false]

/-- R223: a ticket ends once Tally time has passed its end. -/
theorem exec_ticketExpiry_ends {s : State} {d : Nat} {i : Bytes} {t : Ticket} (ht : ticketOf (domD s d) i = some t)
    (hover : t.expires < tallySec s) : exec (.ticketExpiry d i) s = .next (endTicket s d i) := by
  change execTicketExpiry d i s = _
  simp only [execTicketExpiry, ht, if_pos hover]

/-! ### The epoch and promises -/

/-- R155: an epoch begins 10 µs after the one before it. -/
theorem exec_admissionEpoch_begins {s : State} (hpower : s.power.powered = true)
    (hdue : s.boot.epochAt + 10000 ≤ s.time) :
    exec .admissionEpoch s = .next (settleLoads (takeWaiting (epoch s))) :=
  congrArg _ (if_pos ⟨hpower, hdue⟩)

/-- R136: a command whose deadline has come ends by what it waits for. -/
theorem exec_promiseDeadline_late {s : State} {w : Nat} {k : Work} (hk : wrk s w = some k)
    (hlate : k.deadline ≤ s.time + 1) : exec (.promiseDeadline w) s = .next (failLate s w k) := by
  change execPromiseDeadline w s = _
  simp only [execPromiseDeadline, hk, if_pos hlate]

/-- The failure status that a late command gets in each stage in which its effect has not begun (log 109). -/
theorem failLate_status (s : State) (w : Nat) (k : Work) :
    (k.stage = .waitRng → failLate s w k = failWork s w stEntropy)
    ∧ (k.stage = .ready → failLate s w k = failWork s w stUnitLost)
    ∧ (k.stage = .issued → failLate s w k = failIssued s w stUnitLost)
    ∧ (k.stage = .mutating → isPlaced s w = false → failLate s w k = failWork (dropWork s w) w stBusyClass) := by
  refine ⟨?rng, ?ready, ?issued, ?mutating⟩
  case mutating =>
    intro h hunplaced
    simp only [failLate, h, hunplaced, Bool.false_eq_true, if_false]
  all_goals intro h; simp only [failLate, h]

/-- R503: each of the eight timers raises an event source of its own. -/
theorem exec_timerEvent_raises {s : State} {n : Nat} (hn : n < 8) : exec (.timerEvent n) s = .next (raise s (76 + n)) :=
  congrArg _ (if_pos hn)

/-- Settles O30: each case is the branch of the command that its hypotheses select. The two moments of `MUTATION_COMMIT`
(logs 35 and 106), the bound of the pending journal (logs 14 and 36), the seals of a snapshot (log 37) and the failure
statuses of a late command (log 109) are the model's choices. -/
theorem keyStoreAndAdmissionEventsRun : Obligations.KeyStoreAndAdmissionEventsRun := by
  unfold Obligations.KeyStoreAndAdmissionEventsRun
  refine ⟨?places, ?placed, ?held, ?forwards, ?mark, ?snapshot, ?journal, ?refresh, ?grant, ?ticket, ?sequencer, ?epoch,
    ?unitOut, ?deadline, ?timer⟩
  case places =>
    intro s t d m l r hp hseq hnew htakes hplace
    rw [exec_mutationCommit, commitStep_sequenced hp hseq, commitHere_places hnew htakes hplace]
  case placed =>
    intro s d m l r hp hseq hplaced hlink
    rw [exec_mutationCommit, commitStep_sequenced hp hseq, commitHere_placed hplaced hlink]
  case held =>
    intro s d r hseq hheld htakes
    rw [exec_mutationCommit, commitStep_held hseq hheld htakes]
  case forwards =>
    intro s d m l hp hseq hheld htakes hsent
    rw [exec_mutationCommit, commitStep_forwards hp hseq hheld htakes hsent]
  case mark =>
    exact fun s r d hdue htakes =>
      ⟨exec_invocationMarkCommit_here hdue htakes, exec_invocationMarkCommit_there hdue htakes⟩
  case snapshot =>
    rintro s a x void hsnap rfl hvoid
    exact exec_snapshotComplete_takes hsnap hvoid
  case journal =>
    rintro s t n rfl
    rfl
  case refresh => exact fun s t b h c => exec_archiveRefreshDue_refreshes
  case grant => exact fun s n x f => exec_grantExpiry_destroys
  case ticket => exact fun s d i t => exec_ticketExpiry_ends
  case sequencer => exact fun s d side x => exec_sequencerMove_moves
  case epoch => exact fun s => exec_admissionEpoch_begins
  case unitOut => exact fun s k i => rfl
  case deadline =>
    intro s w k hk hlate
    rw [exec_promiseDeadline_late hk hlate]
    obtain ⟨hrng, hready, hissued, hmutating⟩ := failLate_status s w k
    exact ⟨fun h => congrArg _ (hrng h), fun h => congrArg _ (hready h), fun h => congrArg _ (hissued h),
      fun h hunplaced => congrArg _ (hmutating h hunplaced)⟩
  case timer => exact fun s n => exec_timerEvent_raises

end Sys2Proof.Proofs.StoreEvents
end

section
/-! PROOFS. The commands of custody (R184, R186, R215 to R233): tickets, domain roots and their shares, quotas and custodian
sets. -/

namespace Sys2Proof.Proofs.Custody

open Sys2Proof Sys2Proof.Machine Sys2Proof.Proofs.ReadyCommands Sys2Proof.Proofs.SlicesAndAlcoves

/-! ### Tickets (R220 to R223) -/

/-- R221: a domain has custodians who approve, or the device is in `TRANSIT` (R471). -/
theorem exec_quorumPrepare_opens {s : State} {w d : Nat} {k : Work} {r : Bytes × State} {t : Ticket}
    (h : isReady s w 0x0801 k) (hd : d = domainOf s k.alcove) (hset : (domD s d).set ≠ [] ∨ s.life.life = .transit)
    (hdraw : drawState s 2 = .ok) (hr : r = drawFrom s 2 112)
    (ht : t = newTicket r.2 d (fld k.payload 0 2) (slice k.payload 8 64) r.1) :
    exec (.quorumPrepare w) s
      = .next (okWork (setDom r.2 d (fun x => { x with tickets := x.tickets ++ [t] })) w (ticketBytes r.2 d t)) := by
  subst hd hr ht
  have happrovable : ¬ ((domD s (domainOf s k.alcove)).set.isEmpty = true ∧ s.life.life ≠ .transit) := by
    rintro ⟨hempty, hlife⟩
    exact hset.elim (absurd (List.isEmpty_iff.mp hempty)) hlife
  refine exec_ready h rfl ?_
  simp only [if_neg happrovable, whenInst_ok hdraw, Bool.true_eq_false, if_false]

/-! ### Domain roots and their shares (R227 to R233) -/

theorem exec_rootCreate_queues {s : State} {w d : Nat} {k : Work} {ap : Approval} {r : Bytes × State}
    (h : isReady s w 0x0802 k) (hd : d = domainOf s k.alcove) (hroot : (domD s d).root = none)
    (hdraw : drawState s 2 = .ok) (hap : approvalAt k.payload 8 = some ap)
    (hquorum : approvalOk s d 0x0802 (k.payload.take 8) ap = true)
    (hr : r = drawFrom s 2 (32 + exportRandom (domD s d))) :
    exec (.rootCreate w) s = .next (mutateWork r.2 w k (rootBody r.2 d (r.1.take 32)) (some ap.ticket)
      (exportShares d (domD s d) (r.1.take 32) (r.1.drop 32))) := by
  subst hd hr
  refine exec_ready h rfl ?_
  simp only [hroot, Option.isSome_none, whenInst_ok hdraw, withQuorum_ok hap hquorum, Bool.true_eq_false,
    Bool.false_eq_true, if_true, if_false]

/-- R232, R233: the shares of a restore open under the keys of the ticket that approves it. -/
theorem exec_rootRestore_queues {s : State} {w d e : Nat} {k : Work} {ap : Approval} {xp : Bytes × Bytes} {root : Bytes}
    (h : isReady s w 0x0803 k) (hd : d = domainOf s k.alcove) (he : e = restoreEnd k.payload)
    (hroot : (domD s d).root = none) (hap : approvalAt k.payload e = some ap)
    (hquorum : approvalOk s d 0x0803 (k.payload.take e) ap = true)
    (hxp : (ticketOf (domD s d) ap.ticket).bind (fun t => t.xport) = some xp)
    (hopen : restoreRoot d xp (restoreParts k.payload) = .ok root) :
    exec (.rootRestore w) s = .next (mutateWork s w k (rootBody s d root) (some ap.ticket) (rootCheck root)) := by
  subst hd he
  refine exec_ready h rfl ?_
  simp only [hroot, Option.isSome_none, withQuorum_ok hap hquorum, hxp, hopen, Bool.false_eq_true, if_true, if_false]

/-- R223, R231: `SHARES_EXPORT` mutates nothing, so its ticket ends where its approval is checked. -/
theorem exec_sharesExport_answers {s t : State} {w d : Nat} {k : Work} {root : Bytes} {ap : Approval}
    {r : Bytes × State} (h : isReady s w 0x0804 k) (hd : d = domainOf s k.alcove) (hroot : (domD s d).root = some root)
    (hdraw : drawState s 2 = .ok) (hap : approvalAt k.payload 8 = some ap)
    (hquorum : approvalOk s d 0x0804 (k.payload.take 8) ap = true) (ht : t = endTicket s d ap.ticket)
    (hr : r = drawFrom t 2 (exportRandom (domD t d))) :
    exec (.sharesExport w) s = .next (okWork r.2 w (exportShares d (domD t d) root r.1)) := by
  subst hr ht hd
  refine exec_ready h rfl ?_
  simp only [hroot, whenInst_ok hdraw, withQuorum_ok hap hquorum, Bool.true_eq_false, Bool.false_eq_true, if_false]

/-! ### Quotas and custodian sets (R184, R186, R215, R217) -/

theorem exec_quotaSet_queues {s : State} {w d : Nat} {k : Work} {ap : Approval} (h : isReady s w 0x0805 k)
    (hd : d = domainOf s k.alcove) (hap : approvalAt k.payload 64 = some ap)
    (hquorum : approvalOk s d 0x0805 (k.payload.take 64) ap = true) :
    exec (.quotaSet w) s = .next (mutateWork s w k
      (.quota (if d = 0 then 65536 else fld k.payload 0 4) (quotaRates k.payload)) (some ap.ticket) []) := by
  subst hd
  exact exec_ready h rfl (withQuorum_ok hap hquorum)

theorem exec_custodiansSet_queues {s : State} {w d e : Nat} {k : Work} {ap : Approval} (h : isReady s w 0x0806 k)
    (hd : d = domainOf s k.alcove) (he : e = custEnd k.payload) (hap : approvalAt k.payload e = some ap)
    (hquorum : approvalOk s d 0x0806 (k.payload.take e) ap = true)
    (hkeys : (custPart k.payload).all custKeysOk = true) :
    exec (.custodiansSet w) s = .next (mutateWork s w k (.custodians ((custPart k.payload).map custOf)
      (fld k.payload 1 1) (fld k.payload 4 4) ((domD s d).epoch + 1)) (some ap.ticket) []) := by
  subst hd he
  refine exec_ready h rfl ((withQuorum_ok hap hquorum).trans (if_neg ?_))
  simp [hkeys]

/-- Settles O26: each hypothesis is a check of the command, passed. The layout of `QUOTA_SET` (log 20), the ticket of a
mutation that ends at its commit only (log 40) and the 65,536 slots of domain 0 (log 72) are the model's choices. -/
theorem custodyCommandsRun : Obligations.CustodyCommandsRun := by
  unfold Obligations.CustodyCommandsRun
  refine ⟨?ticket, ?create, ?restore, ?shares, ?quota, ?custodians⟩
  case ticket => exact fun s w d k r t => exec_quorumPrepare_opens
  case create => exact fun s w d k ap r => exec_rootCreate_queues
  case restore => exact fun s w d e k ap xp root => exec_rootRestore_queues
  case shares => exact fun s t w d k root ap r => exec_sharesExport_answers
  case quota => exact fun s w d k ap => exec_quotaSet_queues
  case custodians => exact fun s w d e k ap => exec_custodiansSet_queues

end Sys2Proof.Proofs.Custody
end

section
/-! PROOFS. A device reset (R636): what the end of every accepted command and the hand-over of every completion leave
alone, and what the reset values hold. -/

namespace Sys2Proof.Proofs.DeviceReset

open Sys2Proof Sys2Proof.Machine

/-! ### What no failure and no completion reaches -/

/-- One-time programmable memory, the battery-backed bits and the tamper controller. -/
def lasting (s : State) : Otp × Battery × Tamper := (s.otp, s.bb, s.tamper)

theorem lasting_of_told {s t : State} (h : Told s t) : lasting t = lasting s := by
  simp only [lasting, h.otp, h.bb, h.tamper]

theorem lasting_foldl {α : Type} {f : State → α → State} (h : ∀ s a, lasting (f s a) = lasting s) (l : List α) :
    ∀ s, lasting (l.foldl f s) = lasting s := by
  induction l with
  | nil => exact fun _ => rfl
  | cons a l ih => exact fun s => (ih _).trans (h s a)

/-! ### Parts of commands and completions (R68, R95, R613) -/

@[simp] theorem lasting_modAlc (s : State) (a : Nat) (f : Alcove → Alcove) : lasting (modAlc s a f) = lasting s := rfl
@[simp] theorem lasting_alcCount (s : State) (a k n : Nat) : lasting (alcCount s a k n) = lasting s := rfl
@[simp] theorem lasting_modSess (s : State) (a i : Nat) (f : Session → Session) :
    lasting (modSess s a i f) = lasting s := rfl
@[simp] theorem lasting_delSess (s : State) (a i : Nat) : lasting (delSess s a i) = lasting s := rfl
@[simp] theorem lasting_perfAdd (s : State) (b e n : Nat) : lasting (perfAdd s b e n) = lasting s := rfl

@[simp] theorem lasting_sendOut (s : State) (l p : Nat) (o : Output) : lasting (sendOut s l p o) = lasting s :=
  lasting_of_told (sendOut_told s l p o)

@[simp] theorem lasting_sendPlain (s : State) (l p : Nat) (h : WcpHeader) (b : Bytes) :
    lasting (sendPlain s l p h b) = lasting s := lasting_sendOut s l p _

@[simp] theorem lasting_sendProt (s : State) (a i : Nat) (x : Session) (l p : Nat) (h : WcpHeader) (b : Bytes) :
    lasting (sendProt s a i x l p h b) = lasting s := lasting_of_told (sendProt_told s a i x l p h b)

@[simp] theorem lasting_closeSession (s : State) (a i st : Nat) : lasting (closeSession s a i st) = lasting s :=
  lasting_of_told ((dropSession_told s a i st).trans (flushDue_told _ a))

@[simp] theorem lasting_postEvent (s : State) (a c st i q n d : Nat) :
    lasting (postEvent s a c st i q n d) = lasting s := lasting_of_told (postEvent_told s a c st i q n d)

@[simp] theorem lasting_finishClosing (s : State) (a i : Nat) : lasting (finishClosing s a i) = lasting s := by
  unfold finishClosing
  repeat' split
  · rfl
  · rfl
  · rfl
  · exact lasting_closeSession s a i _

@[simp] theorem lasting_countSlots (s : State) (a : Nat) (retired : Bool) (l : List (Nat × Nat)) :
    lasting (countSlots s a retired l) = lasting s := by
  refine lasting_foldl (fun s e => ?_) l s
  rfl

@[simp] theorem lasting_slotsOf (s : State) (c : Completion) (sent : Bool) : lasting (slotsOf s c sent) = lasting s := by
  unfold slotsOf
  split
  · rfl
  · exact lasting_countSlots s _ _ _

@[simp] theorem lasting_dropComp (s : State) (n : Nat) (c : Completion) : lasting (dropComp s n c) = lasting s := by
  unfold dropComp
  cases c.work <;> rfl

@[simp] theorem lasting_meterComp (s : State) (c : Completion) : lasting (meterComp s c) = lasting s := by
  unfold meterComp
  split <;> rfl

/-! ### Commands that end with a failure (R139) -/

theorem lasting_endReply (s : State) (k : Work) (slot : Nat) (p : Bytes) (st : Nat) :
    lasting (endReply s k slot p st) = lasting s := by
  simp [endReply, apply_ite lasting]

/-- Only a signature that is made reaches the ledger and with it the battery-backed bits; a failure makes none. -/
theorem lasting_endTask (s : State) (w : Nat) (k : Work) (t : StairTask) {st : Nat} (hst : st ≠ stOk) :
    lasting (endTask s w k t st) = lasting s := by
  have hslots : lasting (countSlots (delWork s w) k.alcove (!wastes st) k.slots) = lasting s :=
    lasting_countSlots (delWork s w) _ _ _
  cases t with
  | reply slot p => exact (lasting_endReply _ k slot p st).trans hslots
  | _ =>
    simp only [endTask, if_neg hst]
    exact hslots

theorem lasting_failWork (s : State) (w : Nat) {st : Nat} (hst : st ≠ stOk) : lasting (failWork s w st) = lasting s := by
  unfold failWork complete
  repeat' split
  · rfl
  · rfl
  · exact lasting_endTask s w _ _ hst
  · rfl

theorem lasting_failAllWork (s : State) {st : Nat} (hst : st ≠ stOk) : lasting (failAllWork s st) = lasting s := by
  refine lasting_foldl (fun s w => ?_) _ s
  repeat' split
  · rfl
  · exact lasting_failWork s w hst
  · rfl

/-! ### Completions of commands (R73, R95) -/

@[simp] theorem lasting_enforceRetention (n : Nat) :
    ∀ s a limit, lasting (enforceRetention n s a limit) = lasting s := by
  induction n with
  | zero => exact fun _ _ _ => rfl
  | succ n ih =>
    intro s a limit
    unfold enforceRetention
    dsimp only
    repeat' split
    · rfl
    · rfl
    · exact ih _ a limit

@[simp] theorem lasting_sendSegs (n : Nat) : ∀ s c off rest, lasting (sendSegs n s c off rest) = lasting s := by
  induction n with
  | zero => exact fun _ _ _ _ => rfl
  | succ n ih =>
    intro s c off rest
    unfold sendSegs
    split
    · rfl
    · simp [apply_ite lasting, ih]

@[simp] theorem lasting_afterSend (s : State) (n : Nat) (c : Completion) : lasting (afterSend s n c) = lasting s := by
  unfold afterSend
  simp only [apply_ite lasting, lasting_postEvent, lasting_alcCount, lasting_meterComp, ite_self]
  split <;> simp

theorem lasting_handover (s : State) (n : Nat) : lasting (handover s n) = lasting s := by
  unfold handover
  repeat' split
  · rfl
  · rfl
  · simp
  · simp
  · rfl
  · rfl
  · simp

/-! ### Results of streams (R83, R87) -/

theorem lasting_sendPacket (s : State) (q link a : Nat) (p : RdmaPacket) :
    lasting (sendPacket s q link a p) = lasting s := by
  have hdirty : lasting (dirtyPacket s a p.pid p.addr p.data.length) = lasting s := by
    unfold dirtyPacket
    repeat' split
    all_goals rfl
  simp [sendPacket, hdirty]

@[simp] theorem lasting_issueWrite (s : State) (q : Nat) (x : Qp) (a pid addr prio : Nat) (imm : Option Nat) (d : Bytes) :
    lasting (issueWrite s q x a pid addr prio imm d) = lasting s := by
  unfold issueWrite
  exact lasting_foldl (fun s p => lasting_sendPacket s q x.link a p) _ _

@[simp] theorem lasting_sendStreamResult (s : State) (c : Completion) : lasting (sendStreamResult s c) = lasting s := by
  unfold sendStreamResult
  repeat' split
  · exact lasting_closeSession s _ _ _
  · exact lasting_sendProt s _ _ _ _ _ _ _
  · rfl
  · rfl

@[simp] theorem lasting_endStream (s : State) (n : Nat) (c : Completion) : lasting (endStream s n c) = lasting s := by
  simp [endStream]

theorem lasting_placeResult (s : State) (n : Nat) (c : Completion) (x : Slice) (q addr : Nat) :
    lasting (placeResult s n c x q addr) = lasting s := by
  unfold placeResult
  split
  · rfl
  · simp [apply_ite lasting]

theorem lasting_frameResult (s : State) (n : Nat) (c : Completion) : lasting (frameResult s n c) = lasting s := by
  unfold frameResult
  split
  · rfl
  · simp [apply_ite lasting]

theorem lasting_streamReady (s : State) (n : Nat) : lasting (streamReady s n) = lasting s := by
  unfold streamReady
  repeat' split
  · rfl
  · rfl
  · simp
  · exact lasting_placeResult s n _ _ _ _
  · exact lasting_frameResult s n _

/-- R139: every waiting completion is handed over, of a command or of a stream. -/
theorem lasting_handoverEvery (s : State) : lasting (handoverEvery s) = lasting s := by
  have hone : ∀ s n, lasting (handOne s n) = lasting s := by
    intro s n
    unfold handOne
    repeat' split
    · exact lasting_streamReady s n
    · exact lasting_handover s n
    · rfl
  refine (lasting_foldl hone _ _).trans (lasting_foldl (fun s w => ?_) _ s)
  split
  · exact hone s _
  · rfl

/-! ### The reset (R636) -/

/-- The drain of the Tally and the write of the pending journal. -/
theorem lasting_persist (s : State) : lasting (persist (drainAll s)) = lasting s := by
  unfold persist
  split <;> rfl

theorem finishErase_idle {s : State} (h : s.tamper.phase ≠ 2) : finishErase s = s := if_neg h

/-- A reset that interrupts no erasure takes the reset values over what the end of all work leaves. -/
theorem resetSteps_noErasure {s : State} (h : s.tamper.phase ≠ 2) :
    ∃ t, resetSteps s = afterReset t false ∧ t.otp = s.otp ∧ t.bb = s.bb := by
  have hlast : lasting (persist (drainAll (handoverEvery (failAllWork (stopAdmit s) stDeviceSafe)))) = lasting s :=
    calc lasting (persist (drainAll (handoverEvery (failAllWork (stopAdmit s) stDeviceSafe))))
      _ = lasting (handoverEvery (failAllWork (stopAdmit s) stDeviceSafe)) := lasting_persist _
      _ = lasting (failAllWork (stopAdmit s) stDeviceSafe) := lasting_handoverEvery _
      _ = lasting s := lasting_failAllWork _ (by decide)
  simp only [lasting, Prod.mk.injEq] at hlast
  obtain ⟨hotp, hbb, htamper⟩ := hlast
  exact ⟨_, congrArg (afterReset · false) (finishErase_idle (htamper ▸ h)), hotp, hbb⟩

theorem exec_resetNLow_long {s : State} {ns : Nat} (hpower : s.power.powered = true) (hlong : 1000 ≤ ns) :
    exec (.resetNLow ns) s = .next { resetSteps s with boot := { (resetSteps s).boot with stopped := false } } := by
  have hacts : ¬ (ns < 1000 ∨ s.power.powered = false) := by simp [hpower, hlong]
  exact congrArg _ (if_neg hacts)

/-- Settles O49: with no erasure to end, the reset values stand beside the one-time programmable memory and the
battery-backed bits, which the end of all work leaves as they were. Where no rule gives a reset value, an empty table is the
model's choice (log 15). -/
theorem resetLeavesNoWork : Obligations.ResetLeavesNoWork := by
  unfold Obligations.ResetLeavesNoWork
  intro s hpower hphase
  obtain ⟨t, hreset, hotp, hbb⟩ := resetSteps_noErasure hphase
  refine ⟨_, exec_resetNLow_long hpower (Nat.le_refl 1000), ?_⟩
  rw [hreset, ← hotp, ← hbb]
  exact ⟨rfl, rfl, rfl, rfl, rfl, rfl, rfl, rfl, rfl, rfl, rfl, rfl, rfl, rfl⟩

end Sys2Proof.Proofs.DeviceReset
end

section
/-! PROOFS. Proofs of a shared secret, statements and witness signatures (R263, R265 to R267, R274 to R276). -/

namespace Sys2Proof.Proofs.Statements

open Sys2Proof Sys2Proof.Machine Sys2Proof.Proofs.ReadyCommands

/-- R266, R267: the answer carries a MAC under the alcove's proof secret, over the counter value that it uses up. -/
theorem exec_proveChallenge_answers {s : State} {w : Nat} {k : Work} {y : Alcove} {z : Bytes}
    (h : isReady s w 0x0902 k) (hfunction : fld k.payload 0 1 = 0) (halc : alc s k.alcove = some y)
    (hsecret : y.proof = some z) (hdraw : markedDraw s 0 s.keys.proofNext s.keys.proofMark = .ok) :
    exec (.proveChallenge w) s = .next (okWork { s with keys := { s.keys with proofNext := s.keys.proofNext + 1 } } w
      (be 1 s.twin.side ++ zeros 7 ++ be 8 s.keys.proofNext
        ++ Config.hmac512 z (proofText k s.twin.side s.keys.proofNext))) := by
  have hchallenge : ¬ fld k.payload 0 1 ≠ 0 := not_not_intro hfunction
  refine exec_ready h rfl ?_
  simp only [if_neg hchallenge, halc, Option.bind_some, hsecret, hdraw]

/-- R265: a new proof secret waits in the sequencer of its domain. -/
theorem exec_proveSetSecret_queues {s : State} {w : Nat} {k : Work} (h : isReady s w 0x0902 k)
    (hfunction : fld k.payload 0 1 = 1) (hroot : rootMissing s (domainOf s k.alcove) = false) :
    exec (.proveSetSecret w) s
      = .next (mutateWork s w k (.proofSecret k.alcove (slice k.payload 8 32)) none []) :=
  exec_ready h rfl ((if_neg (not_not_intro hfunction)).trans (if_neg (Bool.eq_false_iff.mp hroot)))

/-- R274 to R276: a domain with a root countersigns under the next number of its sequence. -/
theorem exec_witness_issues {s : State} {w d : Nat} {k : Work} {x : Domain} {b : Bytes} (h : isReady s w 0x0905 k)
    (hd : d = domainOf s k.alcove) (hx : x = domD s d) (hroot : x.root.isSome = true)
    (hdraw : markedDraw s d x.witSeq x.witMark = .ok) (hb : b = witnessBody s k d x.witSeq) :
    exec (.witness w) s = .next (issueJob (setDom s d (fun y => { y with witSeq := y.witSeq + 1 })) w k 0x01 1 false
      true [] (plainResult stOk (b ++ Config.edSign x.witKey (ascii "WWIT1" ++ b)) [pkMeter 0x01 0])) := by
  subst hb hx hd
  have hrooted : ¬ (domD s (domainOf s k.alcove)).root.isNone = true := by simp [Option.isSome_iff_ne_none.mp hroot]
  refine exec_ready h rfl ?_
  simp only [if_neg hrooted, hdraw]

/-- Settles O25: each command is ready and passes the checks of its body, so it answers or issues its signature. -/
theorem proofsStatementsAndWitnesses : Obligations.ProofsStatementsAndWitnesses := by
  unfold Obligations.ProofsStatementsAndWitnesses
  refine ⟨?challenge, ?setSecret, ?statement, ?witness⟩
  case challenge =>
    rintro s t w n k y z h hfunction halc hsecret hdraw rfl rfl
    exact exec_proveChallenge_answers h hfunction halc hsecret hdraw
  case setSecret => exact fun s w k => exec_proveSetSecret_queues
  case statement => exact fun s w k h => exec_ready h rfl rfl
  case witness => exact fun s w d k x b => exec_witness_issues

end Sys2Proof.Proofs.Statements
end

section
/-! PROOFS. The requests of the Stair (R247 to R251, R254): climbs and lineage requests, served and refused. -/

namespace Sys2Proof.Proofs.StairRequests

open Sys2Proof Sys2Proof.Machine

/-- Settles O32: a request is served where its master and its check both admit it, and refused where one does not. -/
theorem stairAnswers : Obligations.StairAnswers := by
  unfold Obligations.StairAnswers
  refine ⟨?climbServed, ?lineageServed, ?climbRefused, ?lineageRefused⟩
  case climbServed => exact fun s m n v a b hcore hclimb => congrArg _ (if_pos ⟨hcore, hclimb⟩)
  case lineageServed => exact fun s v hvector => congrArg _ (if_pos ⟨rfl, hvector⟩)
  case climbRefused =>
    intro s m n v a b hrefused
    have hserved : ¬ (m ≤ 3 ∧ climbOk s n v = true) := fun ⟨hcore, hclimb⟩ =>
      hrefused.elim (Nat.not_le.mpr (Nat.lt_succ_of_le hcore)) (fun hbad => Bool.eq_false_iff.mp hbad hclimb)
    exact congrArg _ (if_neg hserved)
  case lineageRefused =>
    intro s m v hrefused
    have hserved : ¬ (m = 0x6C ∧ vectorOk s v = true) := fun ⟨hstore, hvector⟩ =>
      hrefused.elim (absurd hstore) (fun hbad => Bool.eq_false_iff.mp hbad hvector)
    exact congrArg _ (if_neg hserved)

end Sys2Proof.Proofs.StairRequests
end

section
/-! PROOFS. Debug enables, vendor authorisation and the test access port (R246, R473 to R482, R649). -/

namespace Sys2Proof.Proofs.DebugAccess

open Sys2Proof Sys2Proof.Machine

/-! ### Debug enables (R473, R482) -/

theorem exec_lcDebugWrite_admitted {s : State} {m : Nat} {v : Word} (hm : mayWrite s m 0x10020) :
    exec (.lcDebugWrite m v) s = .next (lcDebug s m v) := congrArg _ (writeAs_admitted hm)

theorem exec_lcDebugWrite_allowed {s : State} {m : Nat} {v : Word} (hcore : m ≤ 3) (hm : mayWrite s m 0x10020) :
    exec (.lcDebugWrite m v) s
      = .next (wrOk { s with life := { s.life with dbg := BitVec.ofNat 4 v.toNat &&& lcAllowed s.life } }) :=
  (exec_lcDebugWrite_admitted hm).trans (congrArg _ (if_pos hcore))

/-! ### Vendor authorisation (R478, R480) -/

/-- A device that is neither scrapped, nor fails its vote, nor is blank without a root key draws a challenge. -/
theorem exec_authChallenge_draws {s t : State} {r : Bytes × State} (ht : t = tapSelect s 0x40)
    (hlife : t.life.life ≠ .scrapped) (hvote : t.life.voteFail = false)
    (hkey : t.life.life = .blank → allZero t.otp.rootHash = false) (hdraw : drawState t 4 = .ok)
    (hr : r = drawFrom t 4 32) :
    exec .authChallenge s = .next (emit (modLife r.2 (fun l => { l with challenge := some r.1 })) (.tdo r.1)) := by
  subst hr ht
  refine congrArg _ (if_neg ?_)
  rintro (hscrapped | hfail | ⟨hblank, hzero⟩ | hdead)
  · exact hlife hscrapped
  · exact Bool.eq_false_iff.mp hvote hfail
  · exact Bool.eq_false_iff.mp (hkey hblank) hzero
  · exact hdead hdraw

theorem fixLen_of_length {n : Nat} {l : Bytes} (h : l.length = n) : Config.fixLen n l = l :=
  List.take_left' h

/-- An authorisation of its full length is checked as it is, with the challenge consumed first. -/
theorem exec_authSubmit_full {s t : State} {a : Bytes} {b : List (Nat × Nat)} (hlen : a.length = 288)
    (ht : t = modLife (tapSelect s 0x41) (fun l => { l with challenge := none })) :
    exec (.authSubmit a b) s = .next (if authCheck t a s.life.challenge = 0
      then authRun (modLife t (fun l => { l with result := 2, refusedAt := 0 })) a b
      else modLife t (fun l => { l with result := 3, refusedAt := authCheck t a s.life.challenge })) := by
  subst ht
  show execAuthSubmit a b s = _
  simp only [execAuthSubmit, fixLen_of_length hlen]

/-! ### The test access port (R246, R477, R649) -/

theorem tapDrive_open {s : State} (h : tapOpen s = true) (c : Nat) : tapDrive s c = tapSelect s c :=
  congrArg _ (if_pos h)

theorem tapDrive_closed {s : State} (h : tapOpen s = false) (c : Nat) : tapDrive s c = tapSelect s 0xFF :=
  congrArg _ (if_neg (Bool.eq_false_iff.mp h))

/-- R246: certificates that pass end the pause, and the start goes on from the climb. -/
theorem exec_persoCert_goesOn {s t u v : State} {b : Bytes} (ht : t = tapSelect s 0x44) (hpause : s.stair.paused = true)
    (hok : persoOk t b = true)
    (hu : u = modStair
      (modTally t (fun y => { y with
        endorse := Config.edSign t.stair.identity
          (ascii "WTKY1" ++ deviceKeyId t ++ Config.edPub (t.tally.seed.getD [])) }))
      (fun y => { y with
        idCert := (persoItems b).2.2
        ledCert := issueCert t 2 0 t.stair.identity t.stair.ledPub []
        paused := false }))
    (hv : stepClimb u = .ok v) : exec (.persoCert b) s = .next (goOn v 5) := by
  subst hu ht
  have htaken : ¬ ((tapSelect s 0x44).stair.paused = false ∨ persoOk (tapSelect s 0x44) b = false) := by
    rintro (hrunning | hbad)
    · exact absurd hpause (Bool.eq_false_iff.mp hrunning)
    · exact absurd hok (Bool.eq_false_iff.mp hbad)
  show execPersoCert b s = _
  simp only [execPersoCert, if_neg htaken, hv]

/-- Settles O43: each case is the branch of the command that its hypotheses select. The checks of `PERSO_CERT` and the
time of the ledger certificate are the model's choices (log 30); the zeros of `AUTH_CHALLENGE` where no random
bytes can be drawn (log 58) lie outside its hypotheses. -/
theorem debugAndTestAccess : Obligations.DebugAndTestAccess := by
  unfold Obligations.DebugAndTestAccess
  refine ⟨?debug, ?expiry, ?errForce, ?challenge, ?accepted, ?refused, ?status, ?port, ?driveOpen, ?driveClosed,
    ?persoKeys, ?persoCert⟩
  case debug => exact fun s m v => exec_lcDebugWrite_allowed
  case expiry => exact fun s hset hdue => congrArg _ (if_pos ⟨hset, hdue⟩)
  case errForce => exact fun s m v hm => congrArg _ (writeAs_admitted hm)
  case challenge => exact fun s t r => exec_authChallenge_draws
  case accepted =>
    intro s t a b hlen ht hcheck
    rw [exec_authSubmit_full hlen ht, if_pos hcheck]
  case refused =>
    rintro s a b n hlen hn rfl
    rw [exec_authSubmit_full hlen rfl, if_neg hn]
    rfl
  case status => exact fun s => rfl
  case port => exact fun s => ⟨rfl, rfl, fun b => rfl, rfl, rfl, fun c => ⟨rfl, rfl⟩⟩
  case driveOpen =>
    intro s hlife
    have hopen : tapOpen s = true := by simpa [tapOpen, or_assoc] using hlife
    exact ⟨congrArg _ (tapDrive_open hopen _), congrArg _ (tapDrive_open hopen _),
      congrArg _ (tapDrive_open hopen _)⟩
  case driveClosed =>
    intro s hlife
    have hclosed : tapOpen s = false := by rcases hlife with h | h | h <;> simp [tapOpen, h]
    exact ⟨congrArg _ (tapDrive_closed hclosed _), congrArg _ (tapDrive_closed hclosed _),
      congrArg _ (tapDrive_closed hclosed _)⟩
  case persoKeys => exact fun s => rfl
  case persoCert =>
    rintro s t u v b pub led rfl hpause hok rfl rfl hu hv
    exact exec_persoCert_goesOn rfl hpause hok hu hv

end Sys2Proof.Proofs.DebugAccess
end

section
/-! PROOFS. The cores and bays of the wings: what the lemmas of the wings' events and registers share. -/

namespace Sys2Proof.Proofs.WingUnits

open Sys2Proof Sys2Proof.Machine

/-! ### Numbers and addresses -/

theorem pkNo_eq {b c i : Nat} (hb : b < 6) (hc : c < 8) (hi : i = 8 * b + c) : pkNo b c = i := by
  simp only [pkNo, Nat.mod_eq_of_lt hb, Nat.mod_eq_of_lt hc, hi]

theorem bay_of_core {b c i : Nat} (hc : c < 8) (hi : i = 8 * b + c) : i / 8 = b := by omega

theorem cbAddr_eq {b : Nat} (hb : b < 4) (off : Nat) : cbAddr b off = 0x100000 + off + 0x4000 * b := by
  simp only [cbAddr, Nat.mod_eq_of_lt hb]
  omega

theorem pkAddr_eq {b c : Nat} (hb : b < 6) (hc : c < 8) (off : Nat) :
    pkAddr b c off = 0x200000 + off + 0x10000 * b + 0x2000 * c := by
  simp only [pkAddr, Nat.mod_eq_of_lt hb, Nat.mod_eq_of_lt hc]
  omega

/-! ### A change of one core -/

theorem tmod_congr {α : Type} {t : Tab α} {k : Nat} {f g : α → α} (h : ∀ a, tget t k = some a → f a = g a) :
    tmod t k f = tmod t k g := by
  induction t with
  | nil => rfl
  | cons e r ih =>
    obtain ⟨i, a⟩ := e
    by_cases hi : i = k
    · simp [tmod, hi, h a (by simp [tget, hi])]
    · simp [tmod, hi, ih (fun b hb => h b (by simpa [tget, hi] using hb))]

theorem coreAt_eq {s : State} {i : Nat} {c : PkCore} (h : tget s.pk.cores i = some c) : coreAt s i = c := by
  simp only [coreAt, h, Option.getD_some]

/-- Two changes of a core that agree on it as it stands change the state alike. -/
theorem modCore_congr {s : State} {i : Nat} {f g : PkCore → PkCore} (h : f (coreAt s i) = g (coreAt s i)) :
    modCore s i f = modCore s i g := by
  have hcores : tmod s.pk.cores i f = tmod s.pk.cores i g :=
    tmod_congr (fun c hc => coreAt_eq hc ▸ h)
  simp only [modCore, modPk, hcores]

@[simp] theorem tget_modCore_same (s : State) (i : Nat) (f : PkCore → PkCore) :
    tget (modCore s i f).pk.cores i = (tget s.pk.cores i).map f := tget_tmod_same s.pk.cores i f

end Sys2Proof.Proofs.WingUnits
end

section
/-! PROOFS. The events of the wings (R284, R311, R313, R315, R318, R324 to R327, R335 to R341, R345, R365, R368). -/

namespace Sys2Proof.Proofs.WingEvents

open Sys2Proof Sys2Proof.Machine Sys2Proof.Proofs.WingUnits

/-! ### Operations of the cipher wing, the hash lanes and the legacy unit -/

theorem endOp_inTurn {s : State} {n : Nat} {o : UnitOp} {w : Wing} (ho : tget s.cipher.ops n = some o)
    (hturn : endsInTurn s n o = true) (hw : o.wing = w) : endOp s n w = opDone s n o := by
  simp only [endOp, ho]
  exact if_pos ⟨hw, hturn⟩

/-- R368: the two copies of a lane disagree, so the result is withheld and the lane is lost. -/
theorem exec_hashOpDone_disagree {s : State} {n : Nat} {o : UnitOp} (ho : tget s.cipher.ops n = some o)
    (hw : o.wing = .hash) : exec (.hashOpDone n false) s = .next (pulse (loseLane s o.unit) 21 .degrade) := by
  show execHashOpDone n false s = _
  simp only [execHashOpDone, ho, hw, Bool.false_eq_true, if_false, if_true]

/-! ### The end of a job -/

theorem exec_pkJobEnd {b c i : Nat} (hb : b < 6) (hc : c < 8) (hi : i = 8 * b + c) (ok : Bool) (s : State) :
    exec (.pkJobEnd b c ok) s = .next (jobEnd s i ok) := pkNo_eq hb hc hi ▸ rfl

/-- A job at its end, but for a prime search that goes on (R330): the check comes first, then the abort, the wait for the
other half and the delivery. -/
theorem jobEnd_ends {s : State} {i j : Nat} {x : Job} {ok : Bool} (hjob : (coreAt s i).job = some j)
    (hx : jobAt s j = some x) (hstill : (coreAt s i).state ≠ .moving)
    (hfound : x.prog = 0x23 → x.abort = false → searchDone s x = true) :
    jobEnd s i ok = if ok = false ∨ (endsKey x.prog ∧ pairStands x.result = false) then checkFailed s i
      else if x.abort then pkSchedule (coreZero (endAborted s (some i) j) i)
      else if x.half then pkSchedule (halfEnd s i j x)
      else pkSchedule (coreIdle (pkDeliver s i j x) i) := by
  have hends : ¬ (x.prog = 0x23 ∧ x.abort = false ∧ searchDone s x = false) := fun ⟨hprog, habort, hmore⟩ =>
    Bool.eq_false_iff.mp hmore (hfound hprog habort)
  simp only [jobEnd, hjob, hx, if_neg hstill, if_neg hends]

theorem jobEnd_delivers {s : State} {i j : Nat} {x : Job} (hjob : (coreAt s i).job = some j) (hx : jobAt s j = some x)
    (hstill : (coreAt s i).state ≠ .moving) (habort : x.abort = false) (hhalf : x.half = false)
    (hfound : x.prog = 0x23 → searchDone s x = true) (hpair : endsKey x.prog = true → pairStands x.result = true) :
    jobEnd s i true = pkSchedule (coreIdle (pkDeliver s i j x) i) := by
  have hpasses : ¬ (true = false ∨ (endsKey x.prog ∧ pairStands x.result = false)) := by
    rintro (hno | ⟨hkey, hbad⟩)
    · cases hno
    · exact Bool.eq_false_iff.mp hbad (hpair hkey)
  rw [jobEnd_ends hjob hx hstill (fun hprog _ => hfound hprog), if_neg hpasses, habort, hhalf]
  rfl

/-! ### Yield points, the park store and zeroisation -/

/-- A running long job counts its iteration; one whose budget is not spent, or that may go beyond it, gives its core to a
job of earlier deadline that finds no other core (R161, R162, R324). -/
theorem yieldPoint_runs {s t u : State} {i j : Nat} {x y : Job} {same : List Nat} (hjob : (coreAt s i).job = some j)
    (hx : jobAt s j = some x) (hwait : x.waiting = false) (hlong : x.long = true)
    (hstill : (coreAt s i).state ≠ .moving) (hy : y = { x with iters := x.iters + 1 })
    (ht : t = perfAdd (modJob s j (fun z => { z with iters := y.iters })) (5 + i / 8) 0x17 1)
    (hu : u = if x.prog = 0x38 ∨ x.prog = 0x3C then perfAdd t (5 + i / 8) 0x18 1 else t) (habort : x.abort = false)
    (hbudget : budgetSpent s.time y = true → overBudget u y = true) :
    yieldPoint s i same = if anyFree u = false ∧ displaced u i y same = true then
      pkSchedule (modCore u i (fun c => { c with state := .moving })) else u := by
  have htime : u.time = s.time := by subst hu ht; split <;> rfl
  have hruns : ¬ (x.waiting = true ∨ x.long = false ∨ (coreAt s i).state = .moving) := by
    simp [hwait, hlong, hstill]
  have hgoes : ¬ (budgetSpent u.time y = true ∧ overBudget u y = false) := fun ⟨hspent, hover⟩ =>
    Bool.eq_false_iff.mp hover (hbudget (htime ▸ hspent))
  subst hy ht
  simp only [yieldPoint, hjob, hx, if_neg hruns, ← hu]
  rw [if_neg (Bool.eq_false_iff.mp habort), if_neg hgoes]

/-- R327: the move of a parked job into its core ends, and its program starts with the operand memory that it had. -/
theorem parkMoved_resumes {s : State} {i j : Nat} {x : Job} (hmoves : (coreAt s i).state = .moving)
    (hstays : (coreAt s i).drains = false) (hjob : (coreAt s i).job = none) (hnext : (coreAt s i).next = some j)
    (hx : jobAt s j = some x) :
    parkMoved s i = pkSchedule (modJob (coreProg (modCore
      (modCore s i (fun c => { c with state := .inService, drains := false })) i
      (fun c => { c with next := none, job := some j, om := x.om })) i x.prog) j (fun y => { y with om := [] })) := by
  have hserves : modCore s i (fun c => { c with state := if c.drains then .draining else .inService, drains := false })
      = modCore s i (fun c => { c with state := .inService, drains := false }) :=
    modCore_congr (by simp [hstays])
  have hthere : jobAt (modCore s i (fun c => { c with state := .inService, drains := false })) j = some x := hx
  have hmoving : ¬ (coreAt s i).state ≠ .moving := fun hstill => hstill hmoves
  simp only [parkMoved, if_neg hmoving, hjob, hnext, hserves, hthere]

theorem exec_pkZeroiseDone_idle {b c i : Nat} {s : State} (hb : b < 6) (hc : c < 8) (hi : i = 8 * b + c)
    (hbusy : (coreAt s i).busy = true) (hjob : (coreAt s i).job = none) (hnext : (coreAt s i).next = none)
    (hother : (coreAt s i).state ≠ .zeroising) : exec (.pkZeroiseDone b c true) s
      = .next (pkSchedule (modCore s i (fun c => { c with om := [], busy := false }))) := by
  show execPkZeroiseDone b c true s = _
  simp only [execPkZeroiseDone, pkNo_eq hb hc hi, if_neg hother, hbusy, hjob, hnext, Option.isNone_none, and_self,
    if_true]

/-- R318, R345: a core under test goes on to its tests, or a line of its operand memory read back non-zero. -/
theorem exec_pkZeroiseDone_tested {b c i : Nat} {s : State} (hb : b < 6) (hc : c < 8) (hi : i = 8 * b + c)
    (hzero : (coreAt s i).state = .zeroising) (clean : Bool) : exec (.pkZeroiseDone b c clean) s
      = .next (if clean then coreProg (modCore (modCore s i (fun c => { c with om := [] })) i
          (fun c => { c with state := .testing })) i 0x7F
        else pkFire (modCore s i (fun c => { c with om := [] })) i 7) := by
  show execPkZeroiseDone b c clean s = _
  simp only [execPkZeroiseDone, pkNo_eq hb hc hi, if_pos hzero]

/-! ### Tests -/

theorem selfReturn_passes {s : State} {i : Nat} (hlost : (coreAt s i).lost = true)
    (htest : underTest (coreAt s i).state = true) : selfReturn s i true = modCore (coreProg (modCore s i
      (fun c => { c with bistDone := true, bist := true, kat := true, om := [] })) i 0x7F) i
      (fun c => { c with state := .out, joining := true }) := if_pos ⟨hlost, htest⟩

/-- Settles O31: each case is the branch of the event that its hypotheses select. The turn of an operation to end
(log 59), the other cores that reach a yield point in the same cycle, which come as an operand and park in their order
(logs 13 and 115), and the one row that ends the zeroisation and the tests of a unit of the Cipher Wing (log 112) are
the model's choices. The two half jobs of an RSA operation (log 51) lie outside the hypotheses of the delivery. -/
theorem enginesDeliver : Obligations.EnginesDeliver := by
  unfold Obligations.EnginesDeliver
  refine ⟨?opEnds, ?laneLost, ?delivers, ?coreFails, ?yields, ?resumes, ?idles, ?returns, ?zeroised, ?tested⟩
  case opEnds =>
    exact fun s n o ho hturn => ⟨fun hw => congrArg _ (endOp_inTurn ho hturn hw),
      fun hw => congrArg _ (endOp_inTurn ho hturn hw), fun hw => congrArg _ (endOp_inTurn ho hturn hw)⟩
  case laneLost => exact fun s n o => exec_hashOpDone_disagree
  case delivers =>
    intro s b c i j x hb hc hi hjob hx hstill habort hhalf hfound hpair
    rw [exec_pkJobEnd hb hc hi, jobEnd_delivers hjob hx hstill habort hhalf hfound hpair]
  case coreFails =>
    intro s b c i j x hb hc hi hjob hx hstill hfound
    rw [exec_pkJobEnd hb hc hi, jobEnd_ends hjob hx hstill hfound, if_pos (.inl rfl)]
  case yields =>
    intro s t u b c i j x y same hb hc hi hjob hx hwait hlong hstill hy ht hu habort hbudget
    obtain rfl := bay_of_core hc hi
    show Host.Outcome.next (yieldPoint s (pkNo (i / 8) c) same) = _
    rw [pkNo_eq hb hc hi, yieldPoint_runs hjob hx hwait hlong hstill hy ht hu habort hbudget]
  case resumes =>
    intro s b c i j x hb hc hi hmoves hstays hjob hnext hx
    refine ⟨_, rfl, ?_⟩
    show Host.Outcome.next (parkMoved s (pkNo b c)) = _
    rw [pkNo_eq hb hc hi, parkMoved_resumes hmoves hstays hjob hnext hx]
  case idles => exact fun s b c i => exec_pkZeroiseDone_idle
  case returns =>
    intro s b c i hb hc hi hlost htest
    show Host.Outcome.next (selfReturn s (pkNo b c) true) = _
    rw [pkNo_eq hb hc hi, selfReturn_passes hlost htest]
  case zeroised =>
    exact fun s b c i hb hc hi hzero =>
      ⟨exec_pkZeroiseDone_tested hb hc hi hzero true, exec_pkZeroiseDone_tested hb hc hi hzero false⟩
  case tested => exact fun s k i n a b htest => congrArg _ (if_pos htest)

end Sys2Proof.Proofs.WingEvents
end

section
/-! PROOFS. The registers of the wings that start tests, force errors and open operand memory, and the error sources
(R313 to R316, R345 to R348). -/

namespace Sys2Proof.Proofs.WingRegisters

open Sys2Proof Sys2Proof.Machine Sys2Proof.Proofs.WingUnits

/-! ### Operand lines -/

/-- The number of an operand line is the low 11 bits of what is written. -/
theorem bitsOf_line (v : Nat) : bitsOf v 10 0 = v % 2048 := by simp [bitsOf]

theorem eq_zeros_of_allZero {l : Bytes} (h : allZero l = true) : l = zeros l.length :=
  List.eq_replicate_iff.mpr ⟨rfl, fun b hb => by simpa using List.all_eq_true.mp h b hb⟩

theorem slice_zeros (m o n : Nat) : slice (zeros m) o n = zeros (min n (m - o)) := by
  simp only [slice, zeros, List.drop_replicate, List.take_replicate]

theorem fld_zeros (m o n : Nat) : fld (zeros m) o n = 0 := by
  rw [fld, slice_zeros]
  exact Transactions.beNat_zeros _

/-- R347: a line that holds only zeros is kept as no entry, and reads back as the words that were written all the same. -/
theorem lineWords_stored {c d : PkCore} {n : Nat} {l : Bytes}
    (h : d.om = if allZero l then tdel c.om n else tput c.om n l) :
    lineWords d n = (List.range 4).map (fun k => w32 (fld l (4 * k) 4)) := by
  by_cases hz : allZero l = true
  · have hnone : tget d.om n = none := by rw [h, if_pos hz]; exact tget_tdel_same c.om n
    rw [eq_zeros_of_allZero hz]
    simp only [lineWords, hnone, Option.getD_none, fld_zeros]
  · have hsome : tget d.om n = some l := by rw [h, if_neg hz]; exact tget_tput_same c.om n l
    simp only [lineWords, hsome, Option.getD_some]

/-- What a write of `PK_OM_DATA_3` does to a core: the word is taken, the line written and advanced (R347). -/
def storeLine (v : Word) (c : PkCore) : PkCore :=
  let l := (c.data.set 3 v).flatMap (fun w => be 4 w.toNat)
  { c with data := c.data.set 3 v, om := if allZero l then tdel c.om c.line else tput c.om c.line l
           line := (c.line + 1) % 2048 }

theorem omData_three {s : State} {i : Nat} (v : Word) (hworks : omWorks s i = true) :
    omData s i 3 v = wrOk (modCore s i (storeLine v)) := if_pos hworks

/-! ### Writes of a core's registers -/

section CoreWrites

variable {s : State} {m b c i : Nat} (hb : b < 6) (hc : c < 8) (hi : i = 8 * b + c)
include hb hc hi

/-- A core's registers lie at the addresses of its bay and its place in it. -/
theorem writeAs_core {off : Nat} {f : State → Nat → State}
    (hm : mayWrite s m (0x200000 + off + 0x10000 * b + 0x2000 * c)) :
    writeAs s m (pkAddr b c off) (fun s => f s (pkNo b c)) = f s i := by
  rw [pkAddr_eq hb hc, pkNo_eq hb hc hi, writeAs_admitted hm]

theorem exec_pkBistStart_out (hm : mayWrite s m (0x200004 + 0x10000 * b + 0x2000 * c))
    (hout : (coreAt s i).state = .out) : exec (.pkBistStart m b c) s = .next (wrOk (unitBegin s .pkBay i)) :=
  congrArg _ ((writeAs_core (off := 4) (f := fun s n => coreBist s m n) hb hc hi hm).trans (if_pos hout))

theorem exec_pkErrForce_admitted {v : Word} (hm : mayWrite s m (0x200024 + 0x10000 * b + 0x2000 * c)) :
    exec (.pkErrForce m b c v) s = .next (pkForce s i v) :=
  congrArg _ (writeAs_core (off := 0x24) (f := fun s n => pkForce s n v) hb hc hi hm)

theorem exec_pkOmAddrWrite_works {v : Word} (hm : mayWrite s m (0x200040 + 0x10000 * b + 0x2000 * c))
    (hworks : omWorks s i = true) : exec (.pkOmAddrWrite m b c v) s = .next (wrOk (modCore s i (fun c =>
      { c with line := bitsOf v.toNat 10 0, data := lineWords c (bitsOf v.toNat 10 0) }))) :=
  congrArg _ ((writeAs_core (off := 0x40) (f := fun s n => omAddr s n v) hb hc hi hm).trans (if_pos hworks))

theorem exec_pkOmData3Write_works {v : Word} (hm : mayWrite s m (0x200050 + 0x10000 * b + 0x2000 * c))
    (hworks : omWorks s i = true) : exec (.pkOmData3Write m b c v) s = .next (wrOk (modCore s i (storeLine v))) :=
  congrArg _ ((writeAs_core (off := 0x50) (f := fun s n => omData s n 3 v) hb hc hi hm).trans (omData_three v hworks))

end CoreWrites

/-- R347: the line that the write of `PK_OM_DATA_3` leaves behind reads back as the four words that were gathered. -/
theorem exec_pkOmData3Write_stores {s : State} {m b c i : Nat} {v : Word} {x : PkCore} (hb : b < 6) (hc : c < 8)
    (hi : i = 8 * b + c) (hx : tget s.pk.cores i = some x)
    (hm : mayWrite s m (0x200050 + 0x10000 * b + 0x2000 * c)) (hworks : omWorks s i = true) :
    ∃ t y, exec (.pkOmData3Write m b c v) s = .next t ∧ tget t.pk.cores i = some y ∧ y.data = x.data.set 3 v
      ∧ y.line = (x.line + 1) % 2048 ∧ lineWords y x.line = (List.range 4).map (fun n =>
        w32 (fld ((x.data.set 3 v).flatMap (fun w => be 4 w.toNat)) (4 * n) 4)) := by
  refine ⟨_, storeLine v x, exec_pkOmData3Write_works hb hc hi hm hworks, ?_, rfl, rfl, lineWords_stored rfl⟩
  exact (tget_modCore_same s i (storeLine v)).trans (by rw [hx]; rfl)

/-! ### Writes of the registers of a cipher bay and of the legacy unit -/

theorem exec_cbBistStart_admitted {s : State} {m b : Nat} (hb : b < 4) (hm : mayWrite s m (0x100004 + 0x4000 * b)) :
    exec (.cbBistStart m b) s = .next (bayBist s b) := by
  show execCbBistStart m b s = _
  rw [execCbBistStart, cbAddr_eq hb, writeAs_admitted hm, Nat.mod_eq_of_lt hb]

theorem exec_cbErrForce_admitted {s : State} {m b : Nat} {v : Word} (hb : b < 4)
    (hm : mayWrite s m (0x100024 + 0x4000 * b)) : exec (.cbErrForce m b v) s = .next (bayForce s b v) := by
  show execCbErrForce m b v s = _
  rw [execCbErrForce, cbAddr_eq hb, writeAs_admitted hm, Nat.mod_eq_of_lt hb]

theorem exec_cwLegacyBistStart_out {s : State} {m : Nat} (hm : mayWrite s m 0x102010)
    (hout : s.cipher.legacy.state = .out) : exec (.cwLegacyBistStart m) s = .next (wrOk (beginLegacy s)) := by
  show execCwLegacyBistStart m s = _
  rw [execCwLegacyBistStart, writeAs_admitted hm, legacyBist, if_pos hout]

/-- Settles O33: each case is the write of a register that its master may make, or the source that its number names. That a
forced error of a context concerns no context is the model's choice (log 60). -/
theorem wingRegistersAct : Obligations.WingRegistersAct := by
  unfold Obligations.WingRegistersAct
  refine ⟨?bayTest, ?bayForced, ?bayFires, ?ctxForced, ?ctxFires, ?legacyTest, ?legacyForced, ?legacyFires, ?coreTest,
    ?coreForced, ?coreFires, ?omAddress, ?omData, ?parkForced, ?parkFires⟩
  case bayTest => exact fun s m b => exec_cbBistStart_admitted
  case bayForced => exact fun s m b v => exec_cbErrForce_admitted
  case bayFires => exact fun s b i hb hi => congrArg _ (if_pos ⟨hb, hi⟩)
  case ctxForced => exact fun s m v hm => congrArg _ (writeAs_admitted hm)
  case ctxFires => exact fun s i c hi => congrArg _ (if_pos hi)
  case legacyTest => exact fun s m => exec_cwLegacyBistStart_out
  case legacyForced => exact fun s m v hm => congrArg _ (writeAs_admitted hm)
  case legacyFires => exact fun s i hi => congrArg _ (if_pos hi)
  case coreTest => exact fun s m b c i hb hc hi => exec_pkBistStart_out hb hc hi
  case coreForced => exact fun s m b c i v hb hc hi => exec_pkErrForce_admitted hb hc hi
  case coreFires =>
    intro s b c n hb hc hn
    exact congrArg _ ((if_pos ⟨hb, hc, hn⟩).trans (congrArg (pkFire s · n) (pkNo_eq hb hc rfl)))
  case omAddress =>
    rintro s m b c i n v hb hc hi rfl hm hworks
    rw [exec_pkOmAddrWrite_works hb hc hi hm hworks, bitsOf_line]
  case omData => exact fun s m b c i v x => exec_pkOmData3Write_stores
  case parkForced => exact fun s m v hm => congrArg _ (writeAs_admitted hm)
  case parkFires => exact fun s i n hi hn => congrArg _ (if_pos ⟨hi, hn⟩)

end Sys2Proof.Proofs.WingRegisters
end

section
/-! PROOFS. The digest unit (R352 to R364): opening and gathering a message, ending and aborting an operation, the
comparators and the error sources. -/

namespace Sys2Proof.Proofs.DigestUnit

open Sys2Proof Sys2Proof.Machine

/-! ### The comparators' flags (R361) -/

/-- The unit with its two flags set, and nothing else of it changed. -/
def withFlags (x y : BitVec 8) (d : Digest) : Digest := { d with match_ := x, matchN := y }

theorem duFlags_eq (d : Digest) : duFlags d = withFlags (duFlags d).match_ (duFlags d).matchN d := by
  unfold duFlags
  split
  case h_4 => dsimp only; split <;> rfl
  all_goals rfl

section FlagsKeep

variable (d : Digest)

@[simp] theorem duFlags_state : (duFlags d).state = d.state := (congrArg Digest.state (duFlags_eq d)).trans rfl
@[simp] theorem duFlags_busy : (duFlags d).busy = d.busy := (congrArg Digest.busy (duFlags_eq d)).trans rfl
@[simp] theorem duFlags_result : (duFlags d).result = d.result := (congrArg Digest.result (duFlags_eq d)).trans rfl
@[simp] theorem duFlags_err : (duFlags d).err = d.err := (congrArg Digest.err (duFlags_eq d)).trans rfl
@[simp] theorem duFlags_keys : (duFlags d).keys = d.keys := (congrArg Digest.keys (duFlags_eq d)).trans rfl
@[simp] theorem duFlags_opAlgo : (duFlags d).opAlgo = d.opAlgo := (congrArg Digest.opAlgo (duFlags_eq d)).trans rfl
@[simp] theorem duFlags_opHmac : (duFlags d).opHmac = d.opHmac := (congrArg Digest.opHmac (duFlags_eq d)).trans rfl
@[simp] theorem duFlags_opLen : (duFlags d).opLen = d.opLen := (congrArg Digest.opLen (duFlags_eq d)).trans rfl
@[simp] theorem duFlags_msg : (duFlags d).msg = d.msg := (congrArg Digest.msg (duFlags_eq d)).trans rfl

end FlagsKeep

section UnitRules

variable {s : State} {m : Nat} {v : Word}

theorem duPairOk_eq_false {p : Nat × Nat} (hp : p ≠ (0xA5, 0x5A)) (hn : p ≠ (0x5A, 0xA5)) : duPairOk p = false := by
  simp [duPairOk, hp, hn]

theorem duCompare_done_none (hdone : s.digest.state = .done) : duCompare s none = modDu s duFlags := if_pos hdone

theorem duCompare_done_disturbed {p : Nat × Nat} (hdone : s.digest.state = .done) (hp : duPairOk p = false) :
    duCompare s (some p) = duCmp (modDu s (withFlags (BitVec.ofNat 8 p.1) (BitVec.ofNat 8 p.2))) := by
  have hkept : (some p).filter (fun p => !duPairOk p) = some p := by simp [Option.filter, hp]
  rw [duCompare, if_pos hdone, hkept]
  rfl

theorem duCompare_not_done {p : Option (Nat × Nat)} (hstate : s.digest.state ≠ .done) : duCompare s p = s :=
  if_neg hstate

/-! ### An operation opens (R352) -/

theorem heldOf_eq_none {a : Nat} (hheld : s.heldHi = []) : heldOf s m a = none := by
  rw [heldOf, hheld]
  rfl

/-- With no half held, a length written while nothing is open takes the upper half in effect. -/
theorem duLenLo_opens (hclosed : duIsOpen s.digest = false) (halgo : s.digest.algo ≤ 4)
    (hheld : heldOf s m 0x4000C = none) :
    duLenLo s m v = duOpen_ (dropHeld s m 0x4000C) (w32 s.digest.lenHi.toNat) v := by
  have hused : ¬ 5 ≤ s.digest.algo := by omega
  simp [duLenLo, commitPair, hheld, dropHeld, hclosed, hused]

/-- The unit once a digest of `v` bytes has opened: an empty message goes straight to its end. -/
def openedPlain (d : Digest) (v : Word) : Digest :=
  { d with
    lenLo := v, lenHi := 0, opAlgo := d.algo, opHmac := false, opKey := [], opLen := v.toNat, words := 0, msg := []
    state := if v = 0 then .final else .open_, busy := v == 0 }

theorem duOpen_plain (hplain : s.digest.hmac = false) :
    duOpen_ s 0 v = wrOk { s with digest := duFlags (openedPlain s.digest v) } := by
  have hzero : v.toNat = 0 ↔ v = 0 := BitVec.toNat_eq (y := 0#32).symm
  have hbusy : (v.toNat == 0) = (v == 0) := Bool.eq_iff_iff.mpr (by simp only [beq_iff_eq, hzero])
  simp [duOpen_, openedPlain, hplain, hzero, hbusy]

theorem exec_duLenLoWrite_opens (hm : mayWrite s m 0x40008) (hclosed : duIsOpen s.digest = false)
    (halgo : s.digest.algo ≤ 4) (hplain : s.digest.hmac = false) (hhi : s.digest.lenHi = 0) (hheld : s.heldHi = []) :
    exec (.duLenLoWrite m v) s
      = .next (wrOk { dropHeld s m 0x4000C with digest := duFlags (openedPlain s.digest v) }) := by
  have hopens := duLenLo_opens (v := v) hclosed halgo (heldOf_eq_none (m := m) hheld)
  rw [hhi] at hopens
  exact congrArg _ ((writeAs_admitted hm).trans (hopens.trans (duOpen_plain hplain)))

/-! ### A message is gathered (R354 to R357) -/

theorem duData_gathers (hopen : duIsOpen s.digest = true) (hidle : s.digest.busy = false)
    (hshort : 4 * (s.digest.words + 1) < s.digest.opLen) : duData s v = wrOk { s with digest := { s.digest with
      msg := s.digest.msg ++ wordBytes v, words := s.digest.words + 1
      busy := 4 * (s.digest.words + 1) % Config.hashBlock s.digest.opAlgo == 0 } } := by
  have hroom : ¬ s.digest.opLen ≤ 4 * (s.digest.words + 1) := Nat.not_le.mpr hshort
  simp only [duData, hopen, hidle, hroom, Bool.true_eq_false, Bool.false_eq_true, if_false]
  rfl

theorem duLast_ends (hopen : duIsOpen s.digest = true) (hidle : s.digest.busy = false) (hlow : 1 ≤ s.digest.lastB)
    (hhigh : s.digest.lastB ≤ 4) (hlen : 4 * s.digest.words + s.digest.lastB = s.digest.opLen) :
    duLast s v = wrOk { s with digest := { s.digest with
      msg := s.digest.msg ++ (wordBytes v).take s.digest.lastB, state := .final, busy := true } } := by
  have hfits : ¬ (s.digest.lastB = 0 ∨ 4 < s.digest.lastB ∨ 4 * s.digest.words + s.digest.lastB ≠ s.digest.opLen) := by
    omega
  simp only [duLast, hopen, hidle, hfits, Bool.true_eq_false, Bool.false_eq_true, if_false]
  rfl

/-! ### An operation ends (R357, R361, R363) -/

theorem exec_duAbort_open {w : Option Word} (hm : mayWrite s m 0x40000) (hopen : duIsOpen s.digest = true) :
    exec (.duAbort m w) s = .next (wrOk { s with digest := duEnd s.digest .lenMismatch }) := by
  show execDuAbort m s w = _
  rw [execDuAbort, writeAs_admitted hm, duAbort, if_pos hopen]
  rfl

/-- The unit once its result stands: the digest or HMAC of the message, and no key. -/
def finished (d : Digest) : Digest :=
  { d with
    state := .done, busy := false
    result := resultWords (if d.opHmac then Config.hmac d.opAlgo d.opKey d.msg else Config.hash d.opAlgo d.msg)
    msg := [], opKey := [], keys := List.replicate 34 0 }

theorem exec_duFinalDone_final {p : Option (Nat × Nat)} (hfinal : s.digest.state = .final) :
    exec (.duFinalDone p) s = .next (duCompare (modDu s finished) p) := congrArg _ (if_pos hfinal)

theorem exec_duExpectWrite_admitted {n : Nat} {p : Option (Nat × Nat)} (hm : mayWrite s m (0x40080 + 4 * n))
    (hn : n < 16) : exec (.duExpectWrite m n v p) s = .next (wrOk (duCompare
      { s with digest := { s.digest with expect := s.digest.expect.set n v } } p)) := by
  show execDuExpectWrite m n v s p = _
  rw [execDuExpectWrite, Nat.mod_eq_of_lt hn, writeAs_admitted hm]
  rfl

/-! ### Parity (R364) -/

theorem getLsbD_setBit_self {w i : Nat} (b : BitVec w) (hi : i < w) : (setBit b i).getLsbD i = true := by
  rw [setBit, BitVec.getLsbD_or, BitVec.getLsbD_ofNat, Nat.testBit_two_pow_self, decide_eq_true hi]
  exact Bool.or_true _

theorem duParity_err (s : State) : (duParity s).digest.err = setBit s.digest.err 3 := by
  unfold duParity
  rw [(pulse_degrade_told _ 8).digest, modDu_digest]
  dsimp only
  split <;> exact duFlags_err _

end UnitRules

/-- Settles O34: an admitted write or an event of the unit has the one effect that the unit's state selects, and what the
comparators then write are the flags alone. -/
theorem digestUnitRuns : Obligations.DigestUnitRuns := by
  unfold Obligations.DigestUnitRuns
  refine ⟨?opens, ?gathers, ?lastWord, ?aborts, ?compressed, ?finishes, ?disturbed, ?expects, ?forced, ?parity⟩
  case opens =>
    intro s m v hm hclosed halgo hplain hhi hheld
    refine ⟨_, exec_duLenLoWrite_opens hm hclosed halgo hplain hhi hheld, ?_⟩
    simp +contextual [openedPlain]
  case gathers =>
    exact fun s m v hm hopen hidle hshort =>
      congrArg _ ((writeAs_admitted hm).trans (duData_gathers hopen hidle hshort))
  case lastWord =>
    exact fun s m v hm hopen hidle hlow hhigh hlen =>
      congrArg _ ((writeAs_admitted hm).trans (duLast_ends hopen hidle hlow hhigh hlen))
  case aborts => exact fun s m w => exec_duAbort_open
  case compressed => exact fun s hopen => congrArg _ (if_pos hopen)
  case finishes =>
    intro s hfinal
    refine ⟨modDu s (duFlags ∘ finished), ?_, ?_, ?_, ?_, ?_, rfl⟩
    · rw [exec_duFinalDone_final hfinal, duCompare_done_none rfl]
      rfl
    all_goals simp [finished]
  case disturbed =>
    intro s p hfinal hp hn
    refine ⟨modDu s (withFlags (BitVec.ofNat 8 p.1) (BitVec.ofNat 8 p.2) ∘ finished), ?_, rfl, rfl, rfl, rfl⟩
    rw [exec_duFinalDone_final hfinal, duCompare_done_disturbed rfl (duPairOk_eq_false hp hn)]
    rfl
  case expects =>
    intro s m n v p hm hn
    refine ⟨exec_duExpectWrite_admitted hm hn, fun hstate => ?_⟩
    rw [exec_duExpectWrite_admitted hm hn, duCompare_not_done]
    exact hstate
  case forced => exact fun s m v hm => congrArg _ (writeAs_admitted hm)
  case parity =>
    refine fun s => ⟨rfl, ?_⟩
    rw [duParity_err]
    exact getLsbD_setBit_self _ (by decide)

end Sys2Proof.Proofs.DigestUnit
end

section
/-! PROOFS. The random-number source (R371 to R394): the blocks of the banks and the states of the main source, spores
and generate requests, the small sources, and the error register. -/

namespace Sys2Proof.Proofs.RandomSource

open Sys2Proof Sys2Proof.Machine

section SourceRules

variable {s : State}

/-! ### The main source (R371 to R375) -/

/-- While the source is neither off nor fatal, its next state depends on the failing banks alone (R372). -/
theorem sourceNext_live {st : RngState} (f : Nat) (hon : st ≠ .off) (hlive : st ≠ .fatal) :
    sourceNext st f = if 8 < f then .fatal else if 4 < f then .hold else .run := by
  cases st with
  | off => exact absurd rfl hon
  | fatal => exact absurd rfl hlive
  | startup => rfl
  | run => rfl
  | hold => rfl

/-- The banks once their blocks of one cycle have ended (R371). -/
def banksTake (s : State) (blocks : List (BitVec 1024)) : State :=
  modRng s (fun q => { q with banks := tmap q.banks (fun i b => bankBlock b (blocks.getD i 0)) })

/-- The banks whose block fails. -/
def badBanks (s : State) (blocks : List (BitVec 1024)) : Tab Bank :=
  s.rng.banks.filter (fun e => blockFails e.2.run (blocks.getD e.1 0))

/-- `BANK_FAIL` and one `NOTE` for each bank whose block failed (R371). -/
def banksReport (s : State) (bad : Tab Bank) : State :=
  if bad.isEmpty then s
  else pulses (rngBit s 4) (bad.map (fun _ => { line := 7, cls := .note, type := 0, addr := 0, master := 0xFF }))

/-- The state at a block end, before the source changes its own: the banks have taken their blocks, and the failures are
reported (R371). -/
def banksDone (s : State) (blocks : List (BitVec 1024)) : State := banksReport (banksTake s blocks) (badBanks s blocks)

/-- Once the blocks are taken and reported, the source goes to its next state, and then the conditioner runs (R372,
R375). -/
theorem bankEnd_live (blocks : List (BitVec 1024)) (agree : Bool) (hon : s.rng.source ≠ .off)
    (hlive : s.rng.source ≠ .fatal) :
    bankEnd s blocks agree =
      condition (goSource (banksDone s blocks)
          (sourceNext (banksDone s blocks).rng.source (failingBanks (banksDone s blocks).rng)))
        (s.rng.banks.map (fun e => blockCredit e.2 (blocks.getD e.1 0))) agree :=
  if_neg (not_or.mpr ⟨hon, hlive⟩)

/-! ### Spores and generate requests (R376, R383, R385) -/

theorem deliverSpore_taken {i : Nat} (hbuffer : s.rng.buffer ≠ 0) (hlive : s.rng.source ≠ .fatal)
    (htaker : sporeTaker s.rng = some i) : deliverSpore s = takeSpore s i := by
  rw [deliverSpore, if_neg (not_or.mpr ⟨hbuffer, hlive⟩), htaker]

theorem exec_drbgGenerate_internal {i : Nat} (hi : i < 256) (hready : drawState s i = .ok) :
    exec (.drbgGenerate i) s = .next (countDraw s i) :=
  congrArg _ ((if_neg (Nat.not_le.mpr hi)).trans (if_pos hready))

/-- A generate request for an alcove is that of the alcove's first operation on the random wing (R385). -/
theorem exec_drbgGenerate_alcove {i : Nat} {e : Nat × UnitOp} (hi : 256 ≤ i)
    (hfirst : (tfilter s.cipher.ops (fun _ o => o.wing == .random && o.alcove == i - 256)).find? (fun p =>
      (tfilter s.cipher.ops (fun _ o => o.wing == .random && o.alcove == i - 256)).all (fun q => drawBefore s p q))
      = some e) : exec (.drbgGenerate i) s = .next (opDone s e.1 e.2) := by
  show execDrbgGenerate i s = _
  simp only [execDrbgGenerate, if_pos hi, hfirst]

/-! ### The small sources (R391) -/

section SmallMark

variable (x : SmallSource) (b : Nat) (start : Bool) (r : RunTest)

@[simp] theorem smallMark_state : (smallMark x b start r).state = x.state := by unfold smallMark; split <;> rfl
@[simp] theorem smallMark_consec : (smallMark x b start r).consec = x.consec := by unfold smallMark; split <;> rfl
@[simp] theorem smallMark_spores : (smallMark x b start r).spores = x.spores := by unfold smallMark; split <;> rfl

end SmallMark

/-- A block that passes makes one spore, ends the row of failures and raises no alarm (R391). -/
theorem smallBlock_passes {x : SmallSource} {b : Nat} {block : BitVec 1024} (now : Nat) (hlive : x.state ≠ 2)
    (hpass : blockFails (smallRun x b) block = false) :
    smallBlock now x b block = (smallMark { x with state := 1, consec := 0, spores := x.spores + 1 } b false
      (runTest (smallRun x b) block).1, false) :=
  (if_neg hlive).trans (if_pos hpass)

theorem exec_smallSourceBlockEnd_tally_passes {b : Nat} {block : BitVec 1024} (hlive : s.rng.tally.state ≠ 2)
    (hpass : blockFails (smallRun s.rng.tally b) block = false) :
    exec (.smallSourceBlockEnd true b block) s = .next (modRng s (fun g => { g with
      tally := (smallBlock s.time s.rng.tally b block).1 })) := by
  have hquiet : (smallBlock s.time s.rng.tally b block).2 = false := by rw [smallBlock_passes s.time hlive hpass]
  exact congrArg _ (if_neg (Bool.eq_false_iff.mp hquiet))

end SourceRules

/-- Settles O35: the block end of the banks, a spore, a generate request, a block of a small source and a source of
`RNG_ERR` each have the one effect that the state of their source selects, and that state follows from the number of
failing banks. R394 names no DRBG for a forced `PARITY`: that DRBG 0 takes it is the model's choice. -/
theorem randomSourceRuns : Obligations.RandomSourceRuns := by
  unfold Obligations.RandomSourceRuns
  refine ⟨?blocks, ?spore, ?internal, ?alcove, ?tally, ?alwaysOn, ?forced, ?fires, ?states⟩
  case blocks =>
    rintro s _ _ lo hi _ g _ hon hlive rfl rfl rfl rfl
    exact congrArg _ (bankEnd_live (lo ++ hi) g hon hlive)
  case spore =>
    intro s i hbuffer hlive htaker
    show execSporeDelivery s = _
    rw [execSporeDelivery, deliverSpore_taken hbuffer hlive htaker]
  case internal => exact fun s i => exec_drbgGenerate_internal
  case alcove =>
    rintro s i _ e hi rfl hfirst
    exact exec_drbgGenerate_alcove hi hfirst
  case tally =>
    intro s b x hlive hpass
    refine ⟨_, exec_smallSourceBlockEnd_tally_passes hlive hpass, ?_⟩
    rw [smallBlock_passes s.time hlive hpass]
    simp
  case alwaysOn =>
    rintro s _ b x _ rfl rfl
    rfl
  case forced => exact fun s m v hm => congrArg _ (writeAs_admitted hm)
  case fires => exact fun s i n _ => rfl
  case states =>
    intro st f hon hlive
    rw [sourceNext_live f hon hlive]
    refine ⟨fun hrun => ?_, fun ⟨hlow, hhigh⟩ => ?_, fun hmany => ?_, rfl, rfl⟩
    · rw [if_neg (by omega), if_neg (by omega)]
    · rw [if_neg (by omega), if_pos (by omega)]
    · rw [if_pos (by omega)]

end Sys2Proof.Proofs.RandomSource
end

section
/-! PROOFS. The watermarks of the logic memory and the mezzanine: their moves, commits and drains (R24, R26, R397 to
R400). -/

namespace Sys2Proof.Proofs.WatermarkMoves

open Sys2Proof Sys2Proof.Machine

/-! ### Moves (R24, R26, R398, R399) -/

/-- A write of `IC_0` that none of the refusals of R24 and R399 meets starts the move. -/
theorem wmLogicWrite_starts {s : State} {v : Word} (hlow : 0x1800000 ≤ v.toNat) (hhigh : v.toNat ≤ 0x2000000)
    (hstep : v.toNat % 0x10000 = 0) (hidle : s.halls.logic.busy = false) (hencl : enclAbove s v.toNat = false) :
    wmLogicWrite s 0 v = wrOk (modHalls s fun h => { h with logic := { s.halls.logic with
      target := v.toNat / 0x10000, busy := decide (v.toNat / 0x10000 ≠ s.halls.logic.cur) } }) := by
  refine if_neg ?_
  rintro (hother | hbelow | habove | hoff | hbusy | hinside)
  · exact hother rfl
  · exact Nat.not_lt.mpr hlow hbelow
  · exact Nat.not_lt.mpr hhigh habove
  · exact hoff hstep
  · exact Bool.eq_false_iff.mp hidle hbusy
  · exact Bool.eq_false_iff.mp hencl hinside

theorem wmMezzWrite_starts {s : State} {v : Word} (hlow : 0x12800000 ≤ v.toNat) (hhigh : v.toNat ≤ 0x1A800000)
    (hstep : v.toNat % 0x100000 = 0) (hidle : s.halls.mezz.busy = false) :
    wmMezzWrite s 0 v = wrOk (modHalls s fun h => { h with mezz := { s.halls.mezz with
      target := v.toNat / 0x100000, busy := decide (v.toNat / 0x100000 ≠ s.halls.mezz.cur) } }) := by
  refine if_neg ?_
  rintro (hother | hbelow | habove | hoff | hbusy)
  · exact hother rfl
  · exact Nat.not_lt.mpr hlow hbelow
  · exact Nat.not_lt.mpr hhigh habove
  · exact hoff hstep
  · exact Bool.eq_false_iff.mp hidle hbusy

/-! ### Commits (R400) -/

theorem wmCommit_busy {w : Watermark} (hbusy : w.busy = true) (unit : Nat) (mem : List Host.Cell) :
    wmCommit w unit mem = ({ w with cur := w.target, busy := false },
      Mem.zero mem (min w.cur w.target * unit) (max w.cur w.target * unit)) := if_pos hbusy

theorem exec_wmMoveCommit_logic (s : State) : exec (.wmMoveCommit false) s = .next (modHalls s fun h =>
    { h with logic := (wmCommit s.halls.logic 0x10000 s.halls.logicMem).1
             logicMem := (wmCommit s.halls.logic 0x10000 s.halls.logicMem).2 }) := rfl

theorem exec_wmMoveCommit_mezz (s : State) : exec (.wmMoveCommit true) s = .next (modHalls s fun h =>
    { h with mezz := (wmCommit s.halls.mezz 0x100000 s.halls.mezzMem).1
             mezzMem := (wmCommit s.halls.mezz 0x100000 s.halls.mezzMem).2 }) := rfl

/-- Settles O36: a write of `IC_0` within the bounds starts the move, a move in progress commits, and a drain that runs
out reports itself (R397). For a write that R398 or R399 refuses the statement has no clause. -/
theorem watermarksMove : Obligations.WatermarksMove := by
  unfold Obligations.WatermarksMove
  refine ⟨?logicMove, ?mezzMove, ?logicCommit, ?mezzCommit, ?logicDrain, ?mezzDrain, ?blockDrain⟩
  case logicMove =>
    exact fun s v hm hlow hhigh hstep hidle hencl =>
      congrArg _ ((writeAs_admitted hm).trans (wmLogicWrite_starts hlow hhigh hstep hidle hencl))
  case mezzMove =>
    exact fun s v hm hlow hhigh hstep hidle =>
      congrArg _ ((writeAs_admitted hm).trans (wmMezzWrite_starts hlow hhigh hstep hidle))
  case logicCommit =>
    rintro s _ rfl hbusy
    rw [exec_wmMoveCommit_logic, wmCommit_busy hbusy]
    rfl
  case mezzCommit =>
    rintro s _ rfl hbusy
    rw [exec_wmMoveCommit_mezz, wmCommit_busy hbusy]
    rfl
  case logicDrain => exact fun s hbusy => congrArg _ (if_pos hbusy)
  case mezzDrain => exact fun s hbusy => congrArg _ (if_pos hbusy)
  case blockDrain => exact fun s n hreleasing => congrArg _ (if_pos hreleasing)

end Sys2Proof.Proofs.WatermarkMoves
end

section
/-! PROOFS. The hand-over of a movable block: the commands of its register, its drain, its reset and the switch of its
event source (R415 to R418, R507). -/

namespace Sys2Proof.Proofs.Handover

open Sys2Proof Sys2Proof.Machine

/-! ### Commands (R416) -/

/-- `CMD` 1 and 2 from the owning hall release an owned block that is ready, toward the Inner and the Outer Hall. -/
theorem handCmd_releases {s : State} {m n cmd : Nat} {b : HallBlock} (hb : tget s.halls.blocks n = some b)
    (howned : b.state = .owned) (howner : masterHall s m = some b.owner) (hready : releaseOk s n = true)
    (hcmd : cmd = 1 ∨ cmd = 2) : handCmd s m n cmd = wrOk (modBlock s n fun b =>
      { b with state := .releasing, last := m, dest := if cmd = 1 then .inner else .outer }) := by
  have hsome : cmd ≠ 0 := by omega
  rw [handCmd, hb, howner]
  exact (if_neg hsome).trans ((if_pos ⟨howned, hcmd, rfl⟩).trans (if_pos hready))

/-- `CMD` 3 from the hall that `DEST` names claims a free block. -/
theorem handCmd_claims {s : State} {m n : Nat} {b : HallBlock} (hb : tget s.halls.blocks n = some b)
    (hfree : b.state = .free) (hdest : masterHall s m = some b.dest) :
    handCmd s m n 3 = wrOk (modBlock s n fun b => { b with state := .claimed, last := m }) := by
  have hunowned : ¬ (b.state = .owned ∧ (3 = 1 ∨ 3 = 2) ∧ b.dest = b.owner) := by
    rintro ⟨howned, -⟩
    cases hfree.symm.trans howned
  rw [handCmd, hb, hdest]
  exact (if_neg (by decide)).trans ((if_neg hunowned).trans (if_pos ⟨hfree, rfl, rfl⟩))

/-- A command to one of the 22 movable blocks goes to that block's own register. -/
theorem writeAs_block {s : State} {m n : Nat} {f : State → Nat → State} (hn : n < 22)
    (hm : mayWrite s m (0x70100 + 4 * n)) :
    writeAs s m (0x70100 + 4 * (n % 22)) (fun s => f s (n % 22)) = f s n := by
  rw [Nat.mod_eq_of_lt hn, writeAs_admitted hm]

/-! ### Events (R416, R418) -/

theorem handClaimEnd_claimed {s : State} {n : Nat} {b : HallBlock} (hb : tget s.halls.blocks n = some b)
    (hclaimed : b.state = .claimed) : handClaimEnd s n =
      putSrc (modBlock s n fun b => { b with state := .owned, owner := b.dest }) (64 + n)
        { evSrc s (64 + n) with target := if b.dest = .inner then 0 else 16 } := by
  rw [handClaimEnd, hb]
  exact if_pos hclaimed

/-- Settles O37: each state of the hand-over is left by the one command or event that the table of R416 names. -/
theorem handoverRuns : Obligations.HandoverRuns := by
  unfold Obligations.HandoverRuns
  refine ⟨?release, ?drained, ?reset, ?claim, ?commit⟩
  case release =>
    intro s m n b hn hm hb howned howner hready
    have hcmd {cmd : Nat} (hc : cmd = 1 ∨ cmd = 2) := (writeAs_block (f := (handCmd · m · cmd)) hn hm).trans
      (handCmd_releases hb howned howner hready hc)
    exact ⟨congrArg _ (hcmd (.inl rfl)), congrArg _ (hcmd (.inr rfl))⟩
  case drained =>
    rintro s n _ hn hreleasing rfl
    exact congrArg _ (if_pos ⟨hreleasing, hn⟩)
  case reset => exact fun s n hreset => congrArg _ (if_pos hreset)
  case claim =>
    exact fun s m n b hn hm hb hfree hdest =>
      congrArg _ ((writeAs_block (f := (handCmd · m · 3)) hn hm).trans (handCmd_claims hb hfree hdest))
  case commit => exact fun s n b hb hclaimed => congrArg _ (handClaimEnd_claimed hb hclaimed)

end Sys2Proof.Proofs.Handover
end

section
/-! PROOFS. The registers of the enclaves, the region protection and the gating of blocks (R405, R412, R413, R420, R426,
R655). -/

namespace Sys2Proof.Proofs.ProtectionRegisters

open Sys2Proof Sys2Proof.Machine

/-! ### Region protection (R412, R413) -/

/-- A write to the registers of one of the 28 cores goes to that core's own unit. -/
theorem writeAs_mpu {s : State} {m c off : Nat} {f : State → Nat → State} (hc : c < 28)
    (hm : mayWrite s m (0x80000 + 0x800 * c + off)) :
    writeAs s m (mpuAddr c off) (fun s => f s (c % 28)) = f s c := by
  rw [mpuAddr, Nat.mod_eq_of_lt hc, writeAs_admitted hm]

/-- Without a swap in progress or an overlap in the set that is not in force, the sets change places. -/
theorem mpuSwap_swaps {s : State} {c : Nat} (hidle : (mpuOf s c).pending = false)
    (hapart : overlapOf (setOf (mpuOf s c) (!(mpuOf s c).active)) = none) :
    mpuSwap s c = wrOk (modMpu s c fun p => { p with active := !p.active, pending := true }) := by
  simp only [mpuSwap, hidle, hapart]
  rfl

/-! ### Gating (R420, R421) -/

/-- The state once power control has noted that a gate request ends well. -/
def gateGranted (s : State) (m n : Nat) : State :=
  { s with power := { s.power with gate := pack [(n, 0), (m, 8), (stOk, 16)] } }

/-- What a granted gate request does to its block: it stops the clock, takes the power, or restores both, and a block
whose power was off starts anew. -/
def gateDone (s : State) (m action n : Nat) : State :=
  if action = 1 then modBlock (gateGranted s m n) n (fun b => { b with clkOff := true })
  else if action = 2 then modBlock (gateGranted s m n) n (fun b => { b with pwrOff := true })
  else if ((tget s.halls.blocks n).map (fun b => b.pwrOff)).getD false then
    clearBlock (modBlock (gateGranted s m n) n (fun b => { b with clkOff := false, pwrOff := false })) n
  else modBlock (gateGranted s m n) n (fun b => { b with clkOff := false, pwrOff := false })

/-- A request is granted for a block of the master's reach that is idle or free. -/
theorem gateReq_granted {s : State} {m action n : Nat} (haction : 1 ≤ action ∧ action ≤ 3) (hn : n < 22)
    (hhall : masterHall s m = some .outer → ownerOf s n = .outer)
    (hquiet : blockIdle s n = true ∨ handState s n = .free) : gateReq s m action n = wrOk (gateDone s m action n) := by
  have hnamed : ¬ (action = 0 ∨ 4 ≤ action) := by omega
  have hreach : ¬ (masterHall s m = some .outer ∧ n ≤ 21 ∧ ownerOf s n = .inner) := by
    rintro ⟨houter, -, hinner⟩
    cases (hhall houter).symm.trans hinner
  have hready : ¬ (22 ≤ n ∨ (blockIdle s n = false ∧ handState s n ≠ .free)) := by
    rintro (hlarge | ⟨hbusy, hheld⟩)
    · omega
    · exact hquiet.elim (Bool.eq_false_iff.mp hbusy) hheld
  rw [gateReq, if_neg hnamed, if_neg hreach, if_neg hready, gateDone, apply_ite wrOk, apply_ite wrOk]
  rfl

/-- Settles O38: each case is the write of a register that its master may make, and what the state of the unit then
selects. -/
theorem protectionRegistersAct : Obligations.ProtectionRegistersAct := by
  unfold Obligations.ProtectionRegistersAct
  refine ⟨?lock, ?hallForced, ?swap, ?swapEnd, ?release, ?gates, ?powerForced⟩
  case lock => exact fun s m v hm => congrArg _ (writeAs_admitted hm)
  case hallForced => exact fun s m v hm => congrArg _ (writeAs_admitted hm)
  case swap =>
    exact fun s m c hc hm hidle hapart =>
      congrArg _ ((writeAs_mpu (off := 0) (f := mpuSwap) hc hm).trans (mpuSwap_swaps hidle hapart))
  case swapEnd => exact fun s c => rfl
  case release =>
    refine fun s m c hc hm => congrArg _ (writeAs_mpu (off := 0x14) (f := mpuRelease) hc ?_)
    rwa [Nat.add_right_comm]
  case gates =>
    rintro s m n _ hn hm hhall hquiet rfl
    have hgate {action : Nat} (ha : 1 ≤ action ∧ action ≤ 3) :
        writeAs s m 0xA0100 (fun s => gateReq s m action (n % 32)) = wrOk (gateDone s m action n) := by
      rw [writeAs_admitted hm, Nat.mod_eq_of_lt (by omega), gateReq_granted ha hn hhall hquiet]
    exact ⟨congrArg _ (hgate (by decide)), congrArg _ (hgate (by decide)), congrArg _ (hgate (by decide))⟩
  case powerForced => exact fun s m v hm => congrArg _ (writeAs_admitted hm)

end Sys2Proof.Proofs.ProtectionRegisters
end

section
/-! PROOFS. What every step keeps beside the memories (01, OTP contents; R463, R465, R477, R501): the order of the
queue, the bits of one-time programmable memory, the life-cycle state and the level of `FAULT_N`. -/

namespace Sys2Proof.Proofs.EveryStep

open Sys2Proof Sys2Proof.Machine Sys2Proof.Proofs.Memories

/-! ### The queue -/

theorem step_idleCycle {s : State} (h : s.pending = []) : step s = idle s := by
  simp only [step, h]

theorem step_front {s : State} {c : Instr} {r : List Instr} (h : s.pending = c :: r) :
    step s = exec c { s with pending := r } := by
  simp only [step, h]

/-- Settles O1: the step's own case of a queue that is not empty. -/
theorem stepRunsFrontCommand : Obligations.StepRunsFrontCommand := by
  unfold Obligations.StepRunsFrontCommand
  exact fun c r s h => step_front h

/-! ### A step is a cycle or a command -/

/-- The scope of a step: that of the command at the front of the queue, or the empty one on an idle cycle. -/
def stepScope (s : State) : Scope := s.pending.head?.elim ⟨false, false, false⟩ scopeOf

/-- Whatever a step runs, it keeps what its scope does not name, and the queue loses its front. -/
theorem step_keeps {s t : State} (h : step s = .next t) :
    Keeps (stepScope s) { s with pending := s.pending.tail } t := by
  cases hq : s.pending with
  | nil =>
    have hs : ({ s with pending := [] } : State) = s := by rw [← hq]
    rw [List.tail_nil, hs]
    exact idle_keeps s (.refl _ s) t (step_idleCycle hq ▸ h)
  | cons c r =>
    have hscope : stepScope s = scopeOf c := by simp [stepScope, hq]
    rw [hscope]
    exact exec_keeps c (.refl _ { s with pending := r }) t (step_front hq ▸ h)

/-- Settles O3: no command reaches the queue behind it. -/
theorem stepsTakeTheQueueInOrder : Obligations.StepsTakeTheQueueInOrder := by
  unfold Obligations.StepsTakeTheQueueInOrder
  exact fun s t h => (step_keeps h).queue

/-- Settles O5: every operation that writes one-time programmable memory ORs bits into it. -/
theorem noStepClearsAnOtpBit : Obligations.NoStepClearsAnOtpBit := by
  unfold Obligations.NoStepClearsAnOtpBit
  exact fun s t hshape h => (step_keeps h).otp hshape

/-! ### The fault pin (R501) -/

theorem faultLevel_low_iff (v : Service) : faultLevel v = false ↔ v = .safe ∨ v = .tampered := by
  cases v <;> decide

/-- Settles O6: `setService` moves the pin with the service state, and nothing else moves either while there is power. -/
theorem faultPinFollowsTheServiceState : Obligations.FaultPinFollowsTheServiceState := by
  unfold Obligations.FaultPinFollowsTheServiceState
  exact ⟨fun s t hs h => (step_keeps h).fault hs, rfl, faultLevel_low_iff⟩

/-! ### What only some commands reach -/

/-- Settles O7: a command whose scope leaves the life-cycle state out keeps it. -/
theorem onlyTransitionsChangeTheLifeCycleState : Obligations.OnlyTransitionsChangeTheLifeCycleState := by
  unfold Obligations.OnlyTransitionsChangeTheLifeCycleState
  exact fun c s t hc h => (exec_keeps c (.refl _ s) t h).sameLife hc

/-- Settles O8: a command whose scope leaves one-time programmable memory out keeps it. -/
theorem onlyTheBurningCommandsWriteOtp : Obligations.OnlyTheBurningCommandsWriteOtp := by
  unfold Obligations.OnlyTheBurningCommandsWriteOtp
  exact fun c s t hc h => (exec_keeps c (.refl _ s) t h).sameOtp hc

end Sys2Proof.Proofs.EveryStep
end

section
/-! PROOFS. The copies of the life-cycle word: patterns, the decoding of one copy and the vote of three (R458 to
R460). -/

namespace Sys2Proof.Proofs.LifeCopies

open Sys2Proof Sys2Proof.Machine

/-! ### Patterns (R458) -/

theorem lifePattern_eq (c : Nat) : lifePattern c = (if c = 0 then 0 else if c = 1 then 0xF else if c = 2 then 0xFF
    else if c = 3 then 0xFFF else if c = 4 then 0xFFFF else if c = 5 then 0xFFFFFF else 0xFFFFFFFF) := by
  by_cases hc : c ≤ 5
  · interval_cases c <;> decide
  · have hall : ∀ k ∈ List.range 7, (if k ≤ c then sumNat ((groupBits k).map (fun i => 2 ^ i)) else 0)
        = sumNat ((groupBits k).map (fun i => 2 ^ i)) := fun k hk => if_pos (by rw [List.mem_range] at hk; omega)
    rw [lifePattern, List.map_congr_left hall]
    simp only [show c ≠ 0 ∧ c ≠ 1 ∧ c ≠ 2 ∧ c ≠ 3 ∧ c ≠ 4 ∧ c ≠ 5 by omega, if_false]
    decide

/-! ### One copy (R459) -/

theorem exists_highestGroup (w : Word) : ∃ c, highestGroup w c := by
  refine ⟨Nat.findGreatest (fun c => c = 0 ∨ groupFull w c = true) 6, Nat.findGreatest_le 6, ?_, fun g hlt hle => ?_⟩
  · exact Nat.findGreatest_spec (P := fun c => c = 0 ∨ groupFull w c = true) (Nat.zero_le 6) (.inl rfl)
  · simpa using fun hg => Nat.findGreatest_is_greatest hlt hle (Or.inr hg)

/-- The search from the top stops at the highest complete group. -/
theorem find_highestGroup {w : Word} {c : Nat} (h : highestGroup w c) :
    (([6, 5, 4, 3, 2, 1] : List Nat).find? (groupFull w)).getD 0 = c := by
  obtain ⟨hle, hfull, hempty⟩ := h
  interval_cases c <;> simp_all

/-- Two elements of a list without repetitions pass a test exactly if a smaller and a larger one do. -/
theorem two_le_length_filter_iff {l : List Nat} {p : Nat → Bool} (hl : l.Nodup) :
    2 ≤ (l.filter p).length ↔ ∃ g h, g < h ∧ (g ∈ l ∧ p g = true) ∧ (h ∈ l ∧ p h = true) := by
  rw [← List.toFinset_card_of_nodup (hl.filter p)]
  refine Finset.one_lt_card.trans ?_
  simp only [List.mem_toFinset, List.mem_filter]
  constructor
  · rintro ⟨g, hg, h, hh, hne⟩
    rcases Nat.lt_or_gt_of_ne hne with hlt | hgt
    · exact ⟨g, h, hlt, hg, hh⟩
    · exact ⟨h, g, hgt, hh, hg⟩
  · rintro ⟨g, h, hlt, hg, hh⟩
    exact ⟨g, hg, h, hh, hlt.ne⟩

/-- Two groups above a state have a bit set. -/
def twoAbove (w : Word) (c : Nat) : Prop :=
  ∃ g h, c < g ∧ g < h ∧ h ≤ 6 ∧ groupAny w g = true ∧ groupAny w h = true

theorem two_le_groupsAbove_iff (w : Word) (c : Nat) :
    2 ≤ (([1, 2, 3, 4, 5, 6] : List Nat).filter (fun g => decide (c < g) && groupAny w g)).length ↔ twoAbove w c := by
  have hgroup (g : Nat) : g ∈ ([1, 2, 3, 4, 5, 6] : List Nat) ↔ 1 ≤ g ∧ g ≤ 6 := by
    simp only [List.mem_cons, List.not_mem_nil, or_false]
    omega
  simp only [two_le_length_filter_iff (by decide : ([1, 2, 3, 4, 5, 6] : List Nat).Nodup), hgroup, twoAbove,
    Bool.and_eq_true, decide_eq_true_eq]
  refine exists_congr fun g => exists_congr fun h => ⟨?_, ?_⟩
  · rintro ⟨hlt, ⟨-, hc, hg⟩, ⟨-, hh6⟩, -, hh⟩
    exact ⟨hc, hlt, hh6, hg, hh⟩
  · rintro ⟨hc, hlt, hh6, hg, hh⟩
    exact ⟨hlt, ⟨by omega, hc, hg⟩, by omega, by omega, hh⟩

theorem decodeCopy_of_highestGroup {w : Word} {c : Nat} (h : highestGroup w c) :
    (twoAbove w c → decodeCopy w = 7) ∧ (¬ twoAbove w c → decodeCopy w = c) := by
  rw [decodeCopy, find_highestGroup h, ← two_le_groupsAbove_iff]
  exact ⟨fun htwo => if_pos htwo, fun hone => if_neg hone⟩

/-! ### The vote (R460) -/

/-- Two of three values are one value. -/
def twoAgree (x y z c : Nat) : Prop := x = c ∧ y = c ∨ x = c ∧ z = c ∨ y = c ∧ z = c

theorem two_le_length_filter_three (x y z c : Nat) :
    2 ≤ (([x, y, z] : List Nat).filter (fun n => n == c)).length ↔ twoAgree x y z c := by
  by_cases hx : x = c <;> by_cases hy : y = c <;> by_cases hz : z = c <;> simp [twoAgree, hx, hy, hz]

/-- At most one state has two of three copies. -/
theorem twoAgree_unique {x y z c d : Nat} (h : twoAgree x y z c) (k : twoAgree x y z d) : c = d := by
  simp only [twoAgree] at h k
  omega

theorem voteOf_eq_some_iff (x y z : Word) (c : Nat) :
    voteOf [x, y, z] = some c ↔ c ≤ 6 ∧ twoAgree (decodeCopy x) (decodeCopy y) (decodeCopy z) c := by
  simp only [voteOf, List.map_cons, List.map_nil, List.find?_range_eq_some, two_le_length_filter_three,
    List.mem_range, decide_eq_true_eq, Bool.not_eq_true', decide_eq_false_iff_not]
  constructor
  · exact fun ⟨hagree, hc, _⟩ => ⟨by omega, hagree⟩
  · exact fun ⟨hc, hagree⟩ => ⟨hagree, by omega, fun d hd hother => hd.ne (twoAgree_unique hother hagree)⟩

/-- Settles O13: a search through the groups, a count of the groups above, and a count of the copies. -/
theorem copiesDecodeAndVote : Obligations.CopiesDecodeAndVote := by
  unfold Obligations.CopiesDecodeAndVote
  exact ⟨lifePattern_eq, fun w c h => decodeCopy_of_highestGroup h, exists_highestGroup, voteOf_eq_some_iff⟩

end Sys2Proof.Proofs.LifeCopies
end

section
/-! PROOFS. The first-error capture of the fault collector (R487 to R490): which pulse of a cycle it takes, and what a
held capture counts. -/

namespace Sys2Proof.Proofs.FirstError

open Sys2Proof Sys2Proof.Machine

/-! ### The pulse that a free capture takes (R489) -/

/-- R489: the higher class, and at equal classes the lower line. -/
def comesFirst (p q : Pulse) : Prop :=
  fclassCode q.cls < fclassCode p.cls ∨ fclassCode q.cls = fclassCode p.cls ∧ p.line ≤ q.line

theorem comesFirst_refl (p : Pulse) : comesFirst p p := .inr ⟨rfl, le_rfl⟩

theorem comesFirst.trans {p q r : Pulse} (h : comesFirst p q) (k : comesFirst q r) : comesFirst p r := by
  simp only [comesFirst] at *
  omega

theorem comesFirst_total {p q : Pulse} (h : ¬ comesFirst p q) : comesFirst q p := by
  simp only [comesFirst] at *
  omega

theorem captureBefore_iff (p q : Pulse) : captureBefore p q = true ↔ comesFirst p q := by
  simp only [captureBefore, comesFirst, Bool.or_eq_true, Bool.and_eq_true, decide_eq_true_eq, beq_iff_eq]
  omega

/-- The pulse that is picked is one of those that qualify, and comes before each of them. -/
theorem capturePick_spec {l : List Pulse} {p : Pulse} (h : capturePick l = some p) :
    p ∈ l ∧ ∀ q ∈ l, comesFirst p q := by
  induction l generalizing p with
  | nil => cases h
  | cons a l ih =>
    cases hl : capturePick l with
    | none =>
      have hnil : l = [] := by
        cases l with
        | nil => rfl
        | cons b r =>
          simp only [capturePick] at hl
          repeat' split at hl
          all_goals cases hl
      simp only [capturePick, hl, Option.some.injEq] at h
      subst h hnil
      simpa using comesFirst_refl a
    | some b =>
      obtain ⟨hb, hfirst⟩ := ih hl
      by_cases hab : comesFirst a b
      · simp only [capturePick, hl, (captureBefore_iff a b).mpr hab, if_true, Option.some.injEq] at h
        subst h
        refine ⟨List.mem_cons_self .., fun q hq => ?_⟩
        rcases List.mem_cons.mp hq with rfl | hq
        · exact comesFirst_refl q
        · exact hab.trans (hfirst q hq)
      · simp only [capturePick, hl, captureBefore_iff, hab, if_false, Option.some.injEq] at h
        subst h
        refine ⟨List.mem_cons_of_mem a hb, fun q hq => ?_⟩
        rcases List.mem_cons.mp hq with rfl | hq
        · exact comesFirst_total hab
        · exact hfirst q hq

theorem exists_capturePick {l : List Pulse} {p : Pulse} (h : p ∈ l) : ∃ q, capturePick l = some q := by
  cases l with
  | nil => cases h
  | cons a r =>
    simp only [capturePick]
    repeat' split
    all_goals exact ⟨_, rfl⟩

/-! ### The capture -/

/-- The pulses of a cycle that reach `CAP_MIN`. -/
def qualifying (f : Collector) (ps : List Pulse) : List Pulse := ps.filter (fun q => decide (f.capMin ≤ fclassCode q.cls))

theorem mem_qualifying {f : Collector} {ps : List Pulse} {p : Pulse} :
    p ∈ qualifying f ps ↔ p ∈ ps ∧ f.capMin ≤ fclassCode p.cls := by
  simp [qualifying, List.mem_filter]

/-- A held capture counts the pulses that qualify, up to 65,535 in all. -/
theorem capturePulses_held (now : Nat) {f : Collector} (ps : List Pulse) (hv : f.valid = true) :
    capturePulses now f ps = { f with more := min (f.more + (qualifying f ps).length) 65535 } := by
  simp only [capturePulses, hv, if_true, moreAdd, qualifying]

/-- A free capture takes the pulse that is picked, and counts the other ones. -/
theorem capturePulses_free (now : Nat) {f : Collector} {ps : List Pulse} {p : Pulse} (hv : f.valid = false)
    (hp : capturePick (qualifying f ps) = some p) : capturePulses now f ps = { f with
      valid := true, fLine := p.line, fClass := fclassCode p.cls, fType := p.type, fAddr := p.addr, fMaster := p.master
      fTime := now, heldAt := now, more := min (f.more + ((qualifying f ps).length - 1)) 65535 } := by
  rw [qualifying] at hp
  simp only [capturePulses, hv, hp, moreAdd, qualifying]
  rfl

/-- Settles O45: the pick is the least of those that qualify in the order of R489. -/
theorem firstErrorIsCaptured : Obligations.FirstErrorIsCaptured := by
  unfold Obligations.FirstErrorIsCaptured
  constructor
  · rintro now f g ps hv rfl ⟨p, hp, hmin⟩
    obtain ⟨q, hq⟩ := exists_capturePick (mem_qualifying.mpr ⟨hp, hmin⟩)
    obtain ⟨hmem, hfirst⟩ := capturePick_spec hq
    obtain ⟨hqps, hqmin⟩ := mem_qualifying.mp hmem
    refine ⟨q, hqps, hqmin, fun r hr hrmin => hfirst r (mem_qualifying.mpr ⟨hr, hrmin⟩), ?_⟩
    rw [capturePulses_free now hv hq]
    exact ⟨rfl, rfl, rfl, rfl, rfl, rfl, rfl, rfl⟩
  · intro now f ps hv hle
    rw [capturePulses_held now ps hv]
    exact ⟨rfl, by simp only; omega, Nat.min_le_right _ _⟩

/-! ### A count above its limit

`FC_MORE` is a number of the model and not 16 bits wide, and every pulse cuts it at 65,535, also one below `CAP_MIN`. -/

/-- A collector whose capture is held and whose count has passed the limit that R490 gives it. -/
def overfull : State :=
  { State.reset with fc := { State.reset.fc with valid := true, capMin := 2, more := 65536 } }

/-- A `NOTE` on line 1, which is below `CAP_MIN`. -/
def lowNote : Pulse := { line := 1, cls := .note, type := 0, addr := 0, master := 0xFF }

theorem exec_lowNote_overfull {t : State} (h : exec (.faultPulse [lowNote]) overfull = .next t) : t.fc.more = 65535 := by
  obtain rfl : noteAt overfull 1 0 0 0xFF = t := Host.Outcome.next.inj h
  rw [noteAt_eq]
  exact congrArg Collector.more (capturePulses_held overfull.time [lowNote] rfl)

/-- Refutes O44: the second clause says that a `NOTE` below `CAP_MIN` leaves `FC_MORE` as it is. In a state whose count
stands at 65,536, above the limit of R490, the pulse cuts it to 65,535; the clause does not exclude such a state. -/
theorem not_collectorActs : ¬ Obligations.CollectorActs := by
  unfold Obligations.CollectorActs
  rintro ⟨-, hnote, -⟩
  obtain ⟨t, ht, -, -, hmore, -⟩ := hnote overfull lowNote rfl rfl rfl
  have hkept : t.fc.more = 65536 := hmore
  rw [exec_lowNote_overfull ht] at hkept
  exact absurd hkept (by decide)

end Sys2Proof.Proofs.FirstError
end

section
/-! PROOFS. The reset values (R440, R496, R497, R510) and the forms that every step keeps from them. -/

namespace Sys2Proof.Proofs.ResetState

open Sys2Proof Sys2Proof.Machine

/-- R510: at reset each source has its reset value, since none is stored. -/
theorem evSrc_reset (n : Nat) : evSrc State.reset n = srcReset n (srcHall State.reset n) := rfl

/-- 01, OTP contents: three copies, 256 trim words and 32 random ones. -/
theorem otpShape_reset : otpShape State.reset.otp = true := by
  have htrim : State.reset.otp.trim.length = 256 := List.length_replicate
  have hrandom : State.reset.otp.random.length = 32 := List.length_replicate
  simp only [otpShape, htrim, hrandom]
  rfl

theorem srcReset_device {n : Nat} (h : Hall) (hn : n ≤ 63) :
    (srcReset n h).enable = true ∧ (srcReset n h).prio = 3 :=
  ⟨decide_eq_true hn, if_pos hn⟩

theorem srcReset_other {n : Nat} (h : Hall) (hn : 64 ≤ n) :
    (srcReset n h).enable = false ∧ (srcReset n h).prio = 0 :=
  ⟨decide_eq_false (by omega), if_neg (by omega)⟩

/-- Settles O10: the fields of the reset state, and the reset value of each event source. What the stores that outlive a
reset hold, the battery-backed bits, the queue and the log of what was sent are the model's choices (log 7, log 9, log
10), and so are the empty lists (log 15). -/
theorem resetIsWellFormed : Obligations.ResetIsWellFormed := by
  unfold Obligations.ResetIsWellFormed
  refine ⟨rfl, otpShape_reset, rfl, rfl, rfl, rfl, rfl, rfl, rfl, rfl, rfl, rfl, rfl, rfl, rfl, rfl, rfl, rfl, rfl, ?_, ?_⟩
  · exact fun n hn => srcReset_device _ hn
  · exact fun n hn => srcReset_other _ hn

end Sys2Proof.Proofs.ResetState
end

section
/-! PROOFS. The event distributor (R503 to R508): a core configures, acknowledges and rings the sources of its own
hall. -/

namespace Sys2Proof.Proofs.Distributor

open Sys2Proof Sys2Proof.Machine

/-- A source that a core may not reach: no source of the device, or one of the other hall (R505). -/
def outOfReach (s : State) (c n : Nat) : Prop := 1280 ≤ n ∨ srcHall s n ≠ coreHall c

theorem not_outOfReach {s : State} {c n : Nat} (hn : n < 1280) (hh : srcHall s n = coreHall c) : ¬ outOfReach s c n :=
  fun h => h.elim (Nat.not_le.mpr hn) (absurd hh)

theorem ackSrc_inReach {s : State} {c n : Nat} (hc : coreOf c = some c) (hr : ¬ outOfReach s c n) :
    ackSrc s c n = wrOk (putSrc s n { evSrc s n with pending := false }) := by
  simp only [ackSrc, hc]
  exact if_neg hr

theorem ackSrc_outOfReach {s : State} {c n : Nat} (hc : coreOf c = some c) (hr : outOfReach s c n) :
    ackSrc s c n = busErr s := by
  simp only [ackSrc, hc]
  exact if_pos hr

theorem edSrc_outOfReach {s : State} {c n : Nat} (v : Word) (hc : coreOf c = some c) (hr : outOfReach s c n) :
    edSrc s c n v = busErr s := by
  simp only [edSrc, hc]
  exact if_pos (hr.imp_right .inl)

/-- R506: a source in reach takes its setting where the target is a core of its hall. -/
theorem edSrc_inReach {s : State} {c n t : Nat} {v : Word} (hc : coreOf c = some c) (hr : ¬ outOfReach s c n)
    (ht : t = bitsOf v.toNat 4 0) (hcore : t ≤ 3 ∨ 16 ≤ t ∧ t ≤ 27) (hhall : coreHall t = coreHall c) :
    edSrc s c n v = wrOk (putSrc s n { pending := (evSrc s n).pending && !bitOf v.toNat 31, enable := bitOf v.toNat 12
                                       prio := bitsOf v.toNat 9 8, target := t }) := by
  have hsame : srcHall s n = coreHall c := by_contra fun h => hr (.inr h)
  subst ht
  simp only [edSrc, hc]
  refine if_neg ?_
  rintro (hnone | hother | htarget | hgap | hlarge)
  · exact hr (.inl hnone)
  · exact hr (.inr hother)
  · exact htarget (hhall.trans hsame.symm)
  · omega
  · omega

/-- R506: a core rings the doorbell of a core of its hall. -/
theorem exec_doorbellSet_ownHall {s : State} {c n : Nat} (hc : coreOf c = some c) (hn : n ≤ 3 ∨ 16 ≤ n ∧ n ≤ 27)
    (hhall : coreHall n = coreHall c) :
    exec (.doorbellSet c n) s = .next (wrOk (raise s (if n ≤ 3 then 192 + n else 180 + n))) := by
  change execDoorbellSet c n s = _
  simp only [execDoorbellSet, hc]
  exact congrArg _ (if_pos ⟨hn, hhall⟩)

/-- Settles O47: the reach of the core and the hall of the target decide each of its accesses. Which access acknowledges
an event is the model's choice (log 57). -/
theorem distributorServesCores : Obligations.DistributorServesCores := by
  unfold Obligations.DistributorServesCores
  refine ⟨?configure, ?acknowledge, ?ringInner, ?ringOuter, ?refused, ?forced⟩
  case configure =>
    rintro s c n t v e hc hn hh ht hcore hhall rfl
    exact congrArg _ (edSrc_inReach hc (not_outOfReach hn hh) ht hcore hhall)
  case acknowledge =>
    intro s c n hc hn hh
    have hack := ackSrc_inReach hc (not_outOfReach hn hh)
    refine ⟨congrArg _ ((if_neg (by simp)).trans hack), congrArg _ ((if_pos ⟨rfl, hn⟩).trans ?_)⟩
    rw [hack]
  case ringInner =>
    intro s c n hc hn hhall
    rw [exec_doorbellSet_ownHall hc (.inl hn) hhall, if_pos hn]
  case ringOuter =>
    intro s c n hc hlow hhigh hhall
    rw [exec_doorbellSet_ownHall hc (.inr ⟨hlow, hhigh⟩) hhall, if_neg (by omega)]
  case refused =>
    exact fun s c n hc hr => ⟨congrArg _ ((if_neg (by simp)).trans (ackSrc_outOfReach hc hr)),
      fun v => congrArg _ (edSrc_outOfReach v hc hr)⟩
  case forced =>
    intro s m v hm hv
    change execEdErrForce m v s = _
    rw [execEdErrForce, writeAs_admitted hm, if_pos hv, edFire]

end Sys2Proof.Proofs.Distributor
end

section
/-! PROOFS. Power and clocks (R629 to R642): the locks of the PLLs, the two edges of the rail, the input voltage and the
reset pin. -/

namespace Sys2Proof.Proofs.PowerEvents

open Sys2Proof Sys2Proof.Machine Sys2Proof.Proofs.DeviceReset

/-- R642: a core PLL that loses its lock is `SAFE`. -/
theorem exec_pllCoreUnlock_core {p : Pll} (s : State) (hp : p = .cclk ∨ p = .kclk ∨ p = .hclk ∨ p = .mclk) :
    exec (.pllCoreUnlock p) s
      = .next (pcFire { s with power := { s.power with pll := clrBit s.power.pll (pllBit p) } } 4) := by
  have hcore : pllIsCore p = true := by rcases hp with rfl | rfl | rfl | rfl <;> rfl
  exact congrArg _ (if_pos hcore)

/-! ### The rail (R632 to R635) -/

/-- What the hold-up does before the reset values come: promises end, the Tally drains and takes its checkpoint, and the
pending journal is written (R597, R633). -/
def holdupDone (s : State) : State :=
  modTally (persist (drainAll (dropMutations (stopAdmit { s with net := { s.net with work := [], comps := [] } }))))
    (fun t => { t with checkTot := t.totals, checkTime := t.time, seed := none, core := 3 })

theorem exec_railFall_powered {s : State} (hp : s.power.powered = true) :
    exec .railFall s = .next { afterReset (holdupDone s) false with
      power := { (afterReset (holdupDone s) false).power with powered := false, pll := 0, holdup := false }
      fc := { (afterReset (holdupDone s) false).fc with faultN := none } } :=
  congrArg _ (if_neg (by simp [hp]))

theorem holdupDone_lasting (s : State) : lasting (holdupDone s) = lasting s :=
  lasting_persist (dropMutations (stopAdmit { s with net := { s.net with work := [], comps := [] } }))

/-- The drain takes every entry of the combining buffers (R591). -/
theorem tallyDrain_all_buffers (t : Tally) : (tallyDrain t.buffers.length t).buffers = [] :=
  List.drop_length

theorem persist_tally (s : State) : (persist s).tally = s.tally := by
  unfold persist
  split <;> rfl

theorem holdupDone_buffers (s : State) : (holdupDone s).tally.buffers = [] := by
  simp only [holdupDone, modTally, persist_tally]
  exact tallyDrain_all_buffers s.tally

theorem exec_railRise_above {s : State} {mv : Nat} (hp : s.power.powered = false) (hmv : 11200 < mv) : ∃ u,
    u = modTally (afterReset s true) (fun t => { t with seed := none, core := 0 }) ∧ exec (.railRise mv) s
      = .next { u with power := { u.power with powered := true, holdup := true }, boot := { u.boot with stopped := false } } :=
  ⟨_, rfl, congrArg _ (if_neg (by simp [hp]; omega))⟩

/-! ### The input voltage (R630) -/

theorem exec_vinLow_powered {s t : State} {mv : Nat} (hp : s.power.powered = true) (hmv : 10800 ≤ mv)
    (ht : t = { s with power := { s.power with mv := mv } }) : exec (.vinLow mv) s
      = .next (if mv < 11400 ∧ ¬ (10800 ≤ s.power.mv ∧ s.power.mv < 11400) then pcFire t 0 else t) := by
  have hacts : ¬ (s.power.powered = false ∨ mv < 10800) := by simp [hp]; omega
  subst ht
  refine congrArg _ ((if_neg hacts).trans ?_)
  simp only [decide_eq_false_iff_not, modPower]

/-- Settles O48: each event is its branch of the command; the rail's edges put the reset values over what outlives
them. -/
theorem powerEventsRun : Obligations.PowerEventsRun := by
  unfold Obligations.PowerEventsRun
  refine ⟨?portPlls, fun s p => exec_pllCoreUnlock_core s, ?railFalls, ?railRises,
    fun s t mv => exec_vinLow_powered, ?resetPin⟩
  case portPlls => exact fun s => ⟨rfl, rfl, rfl, rfl, rfl, rfl⟩
  case railFalls =>
    intro s hp
    have hlast := holdupDone_lasting s
    simp only [lasting, Prod.mk.injEq] at hlast
    exact ⟨_, exec_railFall_powered hp, rfl, rfl, rfl, rfl, rfl, rfl, holdupDone_buffers s, rfl, hlast.1, hlast.2.1⟩
  case railRises =>
    intro s mv hp hmv
    obtain ⟨u, rfl, hu⟩ := exec_railRise_above hp hmv
    exact ⟨_, hu, rfl, rfl, rfl, rfl, rfl, rfl, rfl, rfl, rfl, rfl⟩
  case resetPin =>
    rintro s t ns hp hns rfl
    exact exec_resetNLow_long hp hns

end Sys2Proof.Proofs.PowerEvents
end

section
/-! PROOFS. The entry of `SAFE` and of `TAMPERED` (R441 to R446, R464, R499 to R501): what the end of all work and the
closing of all sessions leave alone, the stores that an erasure empties, and the collector's direct path. -/

namespace Sys2Proof.Proofs.ServiceEntry

open Sys2Proof Sys2Proof.Machine

/-! ### The parts that the end of work leaves alone

Commands, completions, sessions, jobs and pins end in the network face, the public-key wing, the key store, the Stair, the
ledger and its battery-backed head, the Tally, the counters and the outbox. -/

/-- The state without the parts that the end of work reaches. -/
def apart (s : State) : State := { s with
  net := netReset, pk := pkReset, keys := keysReset, stair := stairReset, ledger := State.reset.ledger
  bb := batteryReset, tally := tallyReset, perf := perfReset, outbox := [] }

theorem apart_foldl {α : Type} {f : State → α → State} (h : ∀ s a, apart (f s a) = apart s) (l : List α) :
    ∀ s, apart (l.foldl f s) = apart s := by
  induction l with
  | nil => exact fun _ => rfl
  | cons a l ih => exact fun s => (ih _).trans (h s a)

@[simp] theorem apart_modAlc (s : State) (a : Nat) (f : Alcove → Alcove) : apart (modAlc s a f) = apart s := rfl
@[simp] theorem apart_alcCount (s : State) (a k n : Nat) : apart (alcCount s a k n) = apart s := rfl
@[simp] theorem apart_modSess (s : State) (a i : Nat) (f : Session → Session) : apart (modSess s a i f) = apart s := rfl
@[simp] theorem apart_delSess (s : State) (a i : Nat) : apart (delSess s a i) = apart s := rfl
@[simp] theorem apart_perfAdd (s : State) (b e n : Nat) : apart (perfAdd s b e n) = apart s := rfl
@[simp] theorem apart_emit (s : State) (o : Output) : apart (emit s o) = apart s := rfl
@[simp] theorem apart_modPk (s : State) (f : Pk → Pk) : apart (modPk s f) = apart s := rfl

/-! ### Frames, sessions and event records (R64, R68, R75) -/

@[simp] theorem apart_sendOut (s : State) (l p : Nat) (o : Output) : apart (sendOut s l p o) = apart s := by
  unfold sendOut
  split <;> rfl

@[simp] theorem apart_sendPlain (s : State) (l p : Nat) (h : WcpHeader) (b : Bytes) :
    apart (sendPlain s l p h b) = apart s := apart_sendOut s l p _

@[simp] theorem apart_sendProt (s : State) (a i : Nat) (x : Session) (l p : Nat) (h : WcpHeader) (b : Bytes) :
    apart (sendProt s a i x l p h b) = apart s := by
  have hmark : apart (mirrorDev s a i x) = apart s := by
    unfold mirrorDev
    split <;> rfl
  simp [sendProt, hmark]

@[simp] theorem apart_dropSession (s : State) (a i st : Nat) : apart (dropSession s a i st) = apart s := by
  unfold dropSession
  repeat' split
  · rfl
  · simp
  · rfl

@[simp] theorem apart_flushEvents (n : Nat) : ∀ s a, apart (flushEvents n s a) = apart s := by
  induction n with
  | zero => exact fun _ _ => rfl
  | succ n ih =>
    intro s a
    unfold flushEvents
    repeat' split
    · rfl
    · rfl
    · rfl
    · rfl
    · simp
    · simp [ih]

@[simp] theorem apart_flushDue (s : State) (a : Nat) : apart (flushDue s a) = apart s := by
  unfold flushDue
  repeat' split
  · rfl
  · exact apart_flushEvents _ s a
  · rfl

@[simp] theorem apart_postEvent (s : State) (a c st i q n d : Nat) : apart (postEvent s a c st i q n d) = apart s := by
  unfold postEvent
  split
  · exact apart_flushEvents _ _ a
  · exact apart_flushDue _ a

@[simp] theorem apart_closeSession (s : State) (a i st : Nat) : apart (closeSession s a i st) = apart s := by
  simp [closeSession]

theorem apart_closeEvery (s : State) (st : Nat) : apart (closeEvery s st) = apart s := by
  refine apart_foldl (fun s a => apart_foldl (fun s i => ?_) _ s) _ s
  split
  · exact apart_closeSession s a i st
  · rfl

@[simp] theorem apart_finishClosing (s : State) (a i : Nat) : apart (finishClosing s a i) = apart s := by
  unfold finishClosing
  repeat' split
  · rfl
  · rfl
  · rfl
  · exact apart_closeSession s a i _

/-! ### Commands that end with a failure (R139) -/

@[simp] theorem apart_countSlots (s : State) (a : Nat) (retired : Bool) (l : List (Nat × Nat)) :
    apart (countSlots s a retired l) = apart s := by
  refine apart_foldl (fun s e => ?_) l s
  rfl

theorem apart_endReply (s : State) (k : Work) (slot : Nat) (p : Bytes) (st : Nat) :
    apart (endReply s k slot p st) = apart s := by
  simp [endReply, apply_ite apart]

theorem apart_endTask (s : State) (w : Nat) (k : Work) (t : StairTask) (st : Nat) :
    apart (endTask s w k t st) = apart s := by
  have hslots : apart (countSlots (delWork s w) k.alcove (!wastes st) k.slots) = apart s :=
    apart_countSlots (delWork s w) _ _ _
  have hsigned (u : State) : apart (putSigned u t) = apart u := by
    unfold putSigned
    repeat' split
    all_goals rfl
  cases t with
  | reply slot p => exact (apart_endReply _ k slot p st).trans hslots
  | _ =>
    simp only [endTask]
    split
    · exact (hsigned _).trans hslots
    · exact hslots

theorem apart_failWork (s : State) (w st : Nat) : apart (failWork s w st) = apart s := by
  unfold failWork complete
  repeat' split
  · rfl
  · rfl
  · exact apart_endTask s w _ _ st
  · rfl

theorem apart_failAllWork (s : State) (st : Nat) : apart (failAllWork s st) = apart s := by
  refine apart_foldl (fun s w => ?_) _ s
  repeat' split
  · rfl
  · exact apart_failWork s w st
  · rfl

/-! ### Completions of commands and results of streams (R73, R83, R87, R95) -/

@[simp] theorem apart_slotsOf (s : State) (c : Completion) (sent : Bool) : apart (slotsOf s c sent) = apart s := by
  unfold slotsOf
  split
  · rfl
  · exact apart_countSlots s _ _ _

@[simp] theorem apart_dropComp (s : State) (n : Nat) (c : Completion) : apart (dropComp s n c) = apart s := by
  unfold dropComp
  cases c.work <;> rfl

@[simp] theorem apart_meterComp (s : State) (c : Completion) : apart (meterComp s c) = apart s := by
  unfold meterComp
  split <;> rfl

@[simp] theorem apart_enforceRetention (n : Nat) : ∀ s a limit, apart (enforceRetention n s a limit) = apart s := by
  induction n with
  | zero => exact fun _ _ _ => rfl
  | succ n ih =>
    intro s a limit
    unfold enforceRetention
    dsimp only
    repeat' split
    · rfl
    · rfl
    · exact ih _ a limit

@[simp] theorem apart_sendSegs (n : Nat) : ∀ s c off rest, apart (sendSegs n s c off rest) = apart s := by
  induction n with
  | zero => exact fun _ _ _ _ => rfl
  | succ n ih =>
    intro s c off rest
    unfold sendSegs
    split
    · rfl
    · simp [apply_ite apart, ih]

@[simp] theorem apart_afterSend (s : State) (n : Nat) (c : Completion) : apart (afterSend s n c) = apart s := by
  unfold afterSend
  simp only [apply_ite apart, apart_postEvent, apart_alcCount, apart_meterComp, ite_self]
  split <;> simp

theorem apart_handover (s : State) (n : Nat) : apart (handover s n) = apart s := by
  unfold handover
  repeat' split
  · rfl
  · rfl
  · simp
  · simp
  · rfl
  · rfl
  · simp

theorem apart_sendPacket (s : State) (q link a : Nat) (p : RdmaPacket) : apart (sendPacket s q link a p) = apart s := by
  have hdirty : apart (dirtyPacket s a p.pid p.addr p.data.length) = apart s := by
    unfold dirtyPacket
    repeat' split
    all_goals rfl
  simp [sendPacket, hdirty]

@[simp] theorem apart_issueWrite (s : State) (q : Nat) (x : Qp) (a pid addr prio : Nat) (imm : Option Nat) (d : Bytes) :
    apart (issueWrite s q x a pid addr prio imm d) = apart s := by
  unfold issueWrite
  exact apart_foldl (fun s p => apart_sendPacket s q x.link a p) _ _

@[simp] theorem apart_sendStreamResult (s : State) (c : Completion) : apart (sendStreamResult s c) = apart s := by
  unfold sendStreamResult
  repeat' split
  · exact apart_closeSession s _ _ _
  · exact apart_sendProt s _ _ _ _ _ _ _
  · rfl
  · rfl

@[simp] theorem apart_endStream (s : State) (n : Nat) (c : Completion) : apart (endStream s n c) = apart s := by
  simp [endStream]

theorem apart_placeResult (s : State) (n : Nat) (c : Completion) (x : Slice) (q addr : Nat) :
    apart (placeResult s n c x q addr) = apart s := by
  unfold placeResult
  split
  · rfl
  · simp [apply_ite apart]

theorem apart_frameResult (s : State) (n : Nat) (c : Completion) : apart (frameResult s n c) = apart s := by
  unfold frameResult
  split
  · rfl
  · simp [apply_ite apart]

theorem apart_streamReady (s : State) (n : Nat) : apart (streamReady s n) = apart s := by
  unfold streamReady
  repeat' split
  · rfl
  · rfl
  · simp
  · exact apart_placeResult s n _ _ _ _
  · exact apart_frameResult s n _

theorem apart_handoverEvery (s : State) : apart (handoverEvery s) = apart s := by
  have hone : ∀ s n, apart (handOne s n) = apart s := by
    intro s n
    unfold handOne
    repeat' split
    · exact apart_streamReady s n
    · exact apart_handover s n
    · rfl
  refine (apart_foldl hone _ _).trans (apart_foldl (fun s w => ?_) _ s)
  split
  · exact hone s _
  · rfl

/-! ### Pins, jobs and contexts (R19, R299, R339) -/

theorem apart_unpinAll (s : State) (l : List Nat) : apart (unpinAll s l) = apart s := by
  refine apart_foldl (fun s c => ?_) l s
  rfl

theorem apart_abortJobs (s : State) : apart (abortJobs s) = apart s := by
  have hremove (s : State) (j : Nat) : apart (removeJob s j) = apart s := by
    unfold removeJob
    split
    · rfl
    · dsimp only
      split
      · exact apart_unpinAll _ _
      · rfl
  refine apart_foldl (fun s n => ?_) _ s
  split
  · rfl
  · exact hremove s n

theorem apart_clearOps (s : State) : apart (clearOps s) = apart { s with cipher := { s.cipher with ops := [] } } := by
  have hpins : apart (s.cipher.ops.foldl (fun s e => unpinAll s e.2.pins) s) = apart s :=
    apart_foldl (fun s (e : Nat × UnitOp) => apart_unpinAll s e.2.pins) _ s
  exact congrArg (fun u : State => { u with cipher := { u.cipher with ops := [] } }) hpins

theorem apart_releaseTaken (s : State) : apart (releaseTaken s) = apart s := by
  unfold releaseTaken
  split
  · refine apart_foldl (fun s a => apart_foldl (fun s i => ?_) _ s) _ s
    rfl
  · rfl

theorem apart_notice (s : State) (v : Service) : apart (notice s v) = apart s := by
  unfold notice
  split <;> rfl

/-! ### `SAFE` (R499 to R501) -/

theorem apart_postService (s : State) (v : Service) : apart (postService s v) = apart s := by
  refine apart_foldl (fun s a => ?_) _ s
  repeat' split
  · exact apart_postEvent s a _ _ _ _ _ _
  · rfl
  · rfl

theorem apart_setService {s : State} {v : Service} (h : s.fc.service ≠ v) : apart (setService s v)
    = apart { s with fc := { s.fc with service := v, faultN := some (faultLevel v) } } := by
  rw [setService, if_neg h, apart_postService]

/-- The fields of the collector that the entry of a service state moves. -/
theorem apart_withFc {u w : State} (f : Nat → Collector → Collector) (h : apart u = apart w) :
    apart { u with fc := f u.time u.fc } = apart { w with fc := f w.time w.fc } :=
  congrArg (fun x : State => { x with fc := f x.time x.fc }) h

theorem fc_eq_of_apart {u w : State} (h : apart u = apart w) : u.fc = w.fc :=
  show (apart u).fc = (apart w).fc from congrArg State.fc h

/-- The state whose admission has stopped and whose units have been emptied, in `SAFE` from now on. -/
def inSafe (s : State) : State := { s with
  boot := { s.boot with admitStop := true }, cipher := { s.cipher with ops := [] }
  fc := { s.fc with safeAt := s.time, service := .safe, faultN := some false } }

/-- R500: the entry of `SAFE` stops admission and the units, moves the collector, and otherwise ends work. -/
theorem apart_enterSafe {s : State} (hsafe : s.fc.service ≠ .safe) (htamp : s.fc.service ≠ .tampered) :
    apart (enterSafe s) = apart (inSafe s) := by
  have hstates : ¬ (s.fc.service = .safe ∨ s.fc.service = .tampered) := not_or.mpr ⟨hsafe, htamp⟩
  rw [enterSafe, if_neg hstates]
  dsimp only
  generalize hu : notice _ Service.safe = u
  -- every command and job has ended and every completion has been handed over
  have hended : apart u = apart { s with
      boot := { s.boot with admitStop := true }, cipher := { s.cipher with ops := [] } } := by
    rw [← hu, apart_notice, apart_handoverEvery, apart_failAllWork]
    exact (apart_abortJobs _).trans (apart_clearOps _)
  have hfc := fc_eq_of_apart hended
  have hreleased := (apart_releaseTaken { u with fc := { u.fc with safeAt := u.time } }).trans
    (apart_withFc (fun now f => { f with safeAt := now }) hended)
  have hservice : (releaseTaken { u with fc := { u.fc with safeAt := u.time } }).fc.service ≠ .safe := by
    rw [fc_eq_of_apart hreleased]
    exact hsafe
  rw [apart_closeEvery, apart_setService hservice]
  exact apart_withFc (fun _ f => { f with service := .safe, faultN := some false }) hreleased

/-- Settles O46: the direct path is the entry of `SAFE` by a collector that has marked the cause. -/
theorem selfFaultStopsTheDevice : Obligations.SelfFaultStopsTheDevice := by
  unfold Obligations.SelfFaultStopsTheDevice
  intro s c hsafe htamp
  have hin := apart_enterSafe (s := modFc s (fun f =>
    { f with self := setBit f.self (selfBit c), status := setBit f.status 0 })) hsafe htamp
  have hfc := fc_eq_of_apart hin
  refine ⟨_, rfl, congrArg Collector.service hfc, congrArg Collector.faultN hfc,
    congrArg (fun t => t.boot.admitStop) hin, congrArg (fun t => t.cipher.ops) hin, congrArg Collector.safeAt hfc, ?_⟩
  rw [hfc]
  exact DigestUnit.getLsbD_setBit_self s.fc.self (by cases c <;> decide)

/-! ### `TAMPERED` after an erasure (R441 to R446) -/

/-- What an `ERASE` response empties, the evidence in one-time programmable memory, and the response's own state. -/
def erasable (s : State) : Battery × Otp × Rng × Pk × Stair × Tamper × Tab Secret × List ArchRec :=
  (s.bb, s.otp, s.rng, s.pk, s.stair, s.tamper, s.keys.secrets, s.keys.journal)

theorem erasable_of_told {s t : State} (h : Told s t) : erasable t = erasable s := by
  simp only [erasable, h.bb, h.otp, h.rng, h.pk, h.stair, h.tamper, h.keys]

theorem erasable_foldl {α : Type} {f : State → α → State} (h : ∀ s a, erasable (f s a) = erasable s) (l : List α) :
    ∀ s, erasable (l.foldl f s) = erasable s := by
  induction l with
  | nil => exact fun _ => rfl
  | cons a l ih => exact fun s => (ih _).trans (h s a)

/-- Pins hold faces of the cache, and no secret. -/
theorem erasable_clearOps (s : State) : erasable (clearOps s) = erasable s := by
  have hpin (s : State) (c : Nat) : erasable (unpin s c) = erasable s := by
    simp only [unpin]
    split <;> rfl
  exact erasable_foldl (fun s (e : Nat × UnitOp) => erasable_foldl hpin e.2.pins s) s.cipher.ops s

theorem erasable_releaseTaken (s : State) : erasable (releaseTaken s) = erasable s := by
  unfold releaseTaken
  split
  · refine erasable_foldl (fun s a => erasable_foldl (fun s i => ?_) _ s) _ s
    rfl
  · rfl

theorem closeEvery_told (s : State) (st : Nat) : Told s (closeEvery s st) := by
  refine foldl_told _ (fun s a => foldl_told _ (fun s i => ?_) _ s) _ s
  split
  · exact (dropSession_told s a i st).trans (flushDue_told _ a)
  · rfl

/-- The entry of `TAMPERED` aborts no job where none is left, so that it adds nothing to an erasure. -/
theorem erasable_enterTampered {s : State} (h : s.pk.jobs = []) : erasable (enterTampered s) = erasable s := by
  unfold enterTampered
  split
  · rfl
  · dsimp only
    generalize hw : clearOps _ = w
    have hcleared : erasable w = erasable s := by
      rw [← hw, erasable_clearOps]
      rfl
    have hjobs : w.pk.jobs = [] := by
      rw [show w.pk = s.pk from congrArg (fun e => e.2.2.2.1) hcleared, h]
    have habort : abortJobs w = w := by
      rw [abortJobs, hjobs]
      rfl
    have hnotice (u : State) (v : Service) : erasable (notice u v) = erasable u := by
      unfold notice
      split <;> rfl
    rw [erasable_of_told (closeEvery_told _ _), erasable_of_told (setService_told _ _), erasable_releaseTaken, hnotice,
      habort]
    exact hcleared

/-- A pulse of the class `ERASE` is the entry of `TAMPERED`, after the collector and the counters have it. -/
theorem erasable_pulse_erase {s : State} (l : Nat) (h : s.pk.jobs = []) :
    erasable (pulse s l .erase) = erasable s := by
  obtain ⟨u, hu, htold⟩ : ∃ u, pulse s l .erase = enterTampered u ∧ Told s u := ⟨_, rfl, rfl⟩
  have hjobs : u.pk.jobs = [] := by rw [htold.pk, h]
  rw [hu, erasable_enterTampered hjobs, erasable_of_told htold]

/-- What the response has done when it reports the erasure: the clears, the flag and the busy bits (R444). -/
def erasedState (s : State) : State :=
  let fl := if counted (tampLife s) then bbFlag s.bb else (s.bb, none)
  let u := clearVolatile { s with bb := fl.1, tamper := { endTest s.tamper with erased := true, flag := fl.2 } }
  { u with bb := { u.bb with busy := true }, tamper := { u.tamper with phase := 2 }
           life := { u.life with dbg := 0, trans := none } }

theorem eraseNow_eq (s : State) : eraseNow s = pulse (erasedState s) 2 .erase := rfl

theorem alarm_erases {s : State} (i : Nat) (hp : s.power.powered = true) (h0 : armOf (tampLife s) ≠ 0)
    (h1 : armOf (tampLife s) ≠ 1) (he : s.tamper.erased = false) : alarm s i true = eraseNow (tampCause s i) := by
  have hacts : ¬ (armOf (tampLife (tampCause s i)) = 1 ∨ (tampCause s i).tamper.erased = true) := by
    rintro (hone | herased)
    · exact h1 hone
    · exact absurd (he.symm.trans herased) (by decide)
  rw [alarm, if_pos hp, if_neg h0]
  exact (if_neg hacts).trans (if_pos rfl)

/-- Settles O42: the response empties the stores, and the entry of `TAMPERED` that it causes brings nothing back. -/
theorem eraseLeavesNoKeys : Obligations.EraseLeavesNoKeys := by
  unfold Obligations.EraseLeavesNoKeys
  intro s i hp h0 h1 he
  have hkept : erasable (alarm s i true) = erasable (erasedState (tampCause s i)) := by
    rw [alarm_erases i hp h0 h1 he, eraseNow_eq]
    exact erasable_pulse_erase 2 rfl
  simp only [erasable, Prod.mk.injEq] at hkept
  obtain ⟨hbb, hotp, hrng, hpk, hstair, htamper, hsecrets, hjournal⟩ := hkept
  refine ⟨_, rfl, ?_⟩
  rw [hbb, hotp, hrng, hpk, hstair, htamper, hsecrets, hjournal]
  exact ⟨rfl, rfl, rfl, rfl, rfl, rfl, rfl, rfl, rfl, rfl, rfl, rfl⟩

end Sys2Proof.Proofs.ServiceEntry
end

section
/-! PROOFS. Starts and what follows them (R511 to R534): the twelve steps, their limits, the 600 s of service and a reset
that is due. -/

namespace Sys2Proof.Proofs.Starts

open Sys2Proof Sys2Proof.Machine

theorem exec_start_ready {s : State} (e : StartEnv) (hp : s.power.powered = true) (hstep : s.boot.step = 0)
    (hrun : s.boot.running = false) (hstop : s.boot.stopped = false) (hreset : s.boot.resetAt = none)
    (hfc : s.fc.service = .starting) : exec (.start e) s = .next (runSteps 12 1 e s) :=
  congrArg _ (if_pos ⟨hp, hstep, hrun, hstop, hreset, hfc⟩)

theorem exec_startStepLimit_over {s : State} {n : Nat} (hrun : s.boot.running = true) (hpause : s.stair.paused = false)
    (hstep : s.boot.step < n) (hn : n ≤ 12) (hwait : s.twin.waiting = false)
    (hover : s.boot.began + stepLimit n * 10 ^ 6 ≤ s.time) :
    exec (.startStepLimit n) s = .next (startFail s n .timeout) :=
  congrArg _ (if_pos ⟨hrun, hpause, hstep, hn, .inl hwait, hover⟩)

/-- R534: without a transition that waits, the device settles a restart and then runs a reset that is due. -/
theorem exec_selfReset_due {s t : State} {d : Nat} (htrans : s.life.trans = none) (ht : t = settleRestart s)
    (hreset : t.boot.resetAt = some d) (hdue : d ≤ t.time) (hfc : t.fc.service ≠ .tampered) :
    exec .selfReset s = .next (resetSteps t) := by
  subst ht
  change execSelfReset s = _
  simp only [execSelfReset, htrans, hreset]
  exact congrArg _ (if_pos ⟨hdue, hfc⟩)

/-- Settles O50: each command acts where its conditions hold. That one `START` runs every step that can end at once, and
that a restart waits for the accepted commands, is the model's reading (log 22, log 68). -/
theorem startsRun : Obligations.StartsRun := by
  unfold Obligations.StartsRun
  refine ⟨fun s e => exec_start_ready e, fun s n => exec_startStepLimit_over, ?served, fun s t d => exec_selfReset_due⟩
  case served => exact fun s hfc hclear hdue => congrArg _ (if_pos ⟨hfc, hclear, hdue⟩)

end Sys2Proof.Proofs.Starts
end

section
/-! PROOFS. The Tally (R586 to R609): its totals, its seed, records, time and faults. -/

namespace Sys2Proof.Proofs.TallyIsland

open Sys2Proof Sys2Proof.Machine

/-! ### Totals (R591 to R593) -/

/-- The row of a domain after an entry: one category, saturating at 2^64 - 1. -/
def rowWith (row : List Nat) (cat add : Nat) : List Nat := row.set cat (min (row.getD cat 0 + add) (2 ^ 64 - 1))

theorem getD_rowWith {row : List Nat} {cat add : Nat} (k : Nat) (hc : cat < row.length) :
    (rowWith row cat add).getD k 0 = if k = cat then min (row.getD cat 0 + add) (2 ^ 64 - 1) else row.getD k 0 := by
  by_cases hk : k = cat
  · subst hk
    simp [rowWith, hc]
  · simp [rowWith, List.getD, List.getElem?_set_ne (Ne.symm hk), hk]

/-- The row of a domain, 16 zeros where none is stored. -/
def totalsOf (t : Tally) (d : Nat) : List Nat := tgetD t.totals d (List.replicate 16 0)

theorem length_totalsOf {t : Tally} {d : Nat} (h : ∀ l, tget t.totals d = some l → l.length = 16) :
    (totalsOf t d).length = 16 := by
  unfold totalsOf tgetD
  cases hl : tget t.totals d with
  | none => exact List.length_replicate
  | some l => exact h l hl

/-- A row that stays at 0 in the category is not stored, and reads the same all the same. -/
theorem getD_totalsOf_tallyEntry {t : Tally} {wing d meter qty cat weight : Nat} (d' k : Nat)
    (htariff : tget t.tariff meter = some (cat, weight)) (hcat : cat < (totalsOf t d).length) :
    (totalsOf (tallyEntry t (wing, d, meter, qty)) d').getD k 0
      = if d' = d then (rowWith (totalsOf t d) cat (qty * weight)).getD k 0 else (totalsOf t d').getD k 0 := by
  have hentry : (tallyEntry t (wing, d, meter, qty)).totals
      = if min ((totalsOf t d).getD cat 0 + qty * weight) (2 ^ 64 - 1) = 0 then t.totals
        else tput t.totals d (rowWith (totalsOf t d) cat (qty * weight)) := by
    simp only [tallyEntry, htariff]
    rfl
  by_cases hd : d' = d
  · subst hd
    rw [if_pos rfl, totalsOf, hentry]
    by_cases hzero : min ((totalsOf t d').getD cat 0 + qty * weight) (2 ^ 64 - 1) = 0
    · rw [if_pos hzero, getD_rowWith k hcat]
      by_cases hk : k = cat
      · subst hk
        rw [if_pos rfl, hzero]
        exact (by omega : (totalsOf t d').getD k 0 = 0)
      · rw [if_neg hk]
        rfl
    · rw [if_neg hzero]
      simp [tgetD]
  · rw [if_neg hd, totalsOf, hentry]
    split
    · rfl
    · simp [tgetD, tget_tput_other _ _ _ _ hd, totalsOf]

/-- Settles O52: an entry writes one row, and that row in one place. -/
theorem totalsAccumulate : Obligations.TotalsAccumulate := by
  unfold Obligations.TotalsAccumulate
  intro t wing d meter qty cat weight d' k htariff hcat hk hrow
  have hlen : cat < (totalsOf t d).length := by rw [length_totalsOf hrow]; exact hcat
  change (totalsOf (tallyEntry t (wing, d, meter, qty)) d').getD k 0 = _
  rw [getD_totalsOf_tallyEntry d' k htariff hlen, getD_rowWith k hlen]
  by_cases hd : d' = d <;> by_cases hcat' : k = cat <;> simp [hd, hcat', totalsOf]

/-! ### Seed, records and time (R588, R594, R606) -/

theorem exec_tallySeedDelivery (seed : Bytes) (s : State) :
    exec (.tallySeedDelivery seed) s = execTallySeedDelivery seed s := rfl

/-- R606: the rate steers the time of a disciplined Tally that is not suspect. -/
theorem exec_tallyTimePath_steers {s : State} (hs : s.tally.suspect = false) :
    exec (.tallyTimePath true) s = .next { s with tally := { s.tally with
      discipl := true, err := s.tally.err &&& 0x8, rate := clampPpm ((tallyTarget s - s.tally.time) / 1000) } } :=
  congrArg _ ((if_neg (by decide)).trans (if_neg (Bool.eq_false_iff.mp hs)))

/-- An entry of the log leaves all but the log, its counts and the free values. -/
theorem logEvent_eq (s : State) (type : Nat) : ∃ newest log full n, logEvent s type = { s with
    fresh := n, tally := { s.tally with logNewest := newest, log := log, logFull := full } } := by
  unfold logEvent addLog
  dsimp only
  split
  · exact ⟨_, _, _, _, rfl⟩
  · exact ⟨_, _, _, _, rfl⟩

/-- R607: a suspect time takes one step, never back. -/
theorem exec_tallyTimePath_suspect {s : State} (hs : s.tally.suspect = true) : ∃ t,
    exec (.tallyTimePath true) s = .next t ∧ t.tally.time = max s.tally.time (tallyTarget s).toNat
      ∧ t.tally.suspect = false := by
  have hexec : exec (.tallyTimePath true) s = .next (logEvent { s with tally := { s.tally with
      discipl := true, err := s.tally.err &&& 0x8, time := max s.tally.time (tallyTarget s).toNat, suspect := false
      rate := 0 } } 4) := by
    refine congrArg _ ((if_neg (by decide)).trans (if_pos ?_))
    exact hs
  obtain ⟨newest, log, full, n, hlog⟩ := logEvent_eq { s with tally := { s.tally with
      discipl := true, err := s.tally.err &&& 0x8, time := max s.tally.time (tallyTarget s).toNat, suspect := false
      rate := 0 } } 4
  rw [hlog] at hexec
  exact ⟨_, hexec, rfl, rfl⟩

/-! ### The power-up (R597, R602, R607) -/

/-- What the checkpoint gives back. -/
def checkpointed (t : Tally) : Nat × Bool × Tab (List Nat) × Nat × Bool :=
  (t.core, t.resumed, t.totals, t.time, t.suspect)

theorem checkpointed_logEvent (s : State) (type : Nat) :
    checkpointed (logEvent s type).tally = checkpointed s.tally := by
  obtain ⟨newest, log, full, n, hlog⟩ := logEvent_eq s type
  rw [hlog]
  rfl

theorem checkpointed_finishReseal (t : Tally) : checkpointed (finishReseal t) = checkpointed t := by
  unfold finishReseal
  cases t.nextFw <;> dsimp only <;> split <;> rfl

/-- R597: the totals of the checkpoint, and its time or that of the real-time clock. -/
def poweredUp (t : Tally) (lost : Bool) (n : Nat) : Tally :=
  { t with core := 1, resumed := true, totals := t.checkTot, time := if lost then t.checkTime else t.checkTime + n
           suspect := t.suspect || lost }

/-- R602: what power cut of a reseal is finished or abandoned, and neither reaches the checkpoint. -/
theorem exec_tallyPowerUp_checkpointed {s : State} (lost : Bool) (n : Nat) (hcore : s.tally.core = 0) : ∃ t,
    exec (.tallyPowerUp lost n) s = .next t ∧ checkpointed t.tally = checkpointed (poweredUp s.tally lost n) := by
  refine ⟨_, congrArg Host.Outcome.next (if_neg (not_not.mpr hcore)), ?_⟩
  dsimp only
  generalize hu : (if lost = true then logEvent (modTally s _) 5 else modTally s _) = u
  have hup : checkpointed u.tally = checkpointed (poweredUp s.tally lost n) := by
    rw [← hu]
    cases lost with
    | true => exact checkpointed_logEvent _ 5
    | false => rfl
  repeat' split
  · exact hup
  · exact hup
  · exact (checkpointed_finishReseal u.tally).trans hup
  · exact (checkpointed_logEvent _ 6).trans hup

/-- Settles O51: each command is the case of the Tally's state that its hypotheses name. -/
theorem tallyRuns : Obligations.TallyRuns := by
  unfold Obligations.TallyRuns
  refine ⟨?firstSeed, ?sameSeed, ?otherSeed, fun s => rfl, ?record, fun s => rfl, fun s => exec_tallyTimePath_steers,
    ?suspect, ?powerUp, fun s => ⟨rfl, rfl, rfl, rfl⟩⟩
  case firstSeed =>
    intro s seed hseed
    simp only [exec_tallySeedDelivery, execTallySeedDelivery, hseed, modTally]
  case sameSeed =>
    intro s k hseed
    simp only [exec_tallySeedDelivery, execTallySeedDelivery, hseed, if_true]
  case otherSeed =>
    intro s k seed hseed hne
    simp only [exec_tallySeedDelivery, execTallySeedDelivery, hseed, if_neg hne]
  case record =>
    intro s hdue hnew
    exact congrArg _ (if_pos ⟨hdue.imp_left (fun h => by simpa using h), hnew⟩)
  case suspect =>
    intro s hs
    obtain ⟨t, hexec, htime, hsuspect⟩ := exec_tallyTimePath_suspect hs
    exact ⟨t, hexec, by omega, by omega, hsuspect⟩
  case powerUp =>
    intro s lost n hcore
    obtain ⟨t, hexec, hcheck⟩ := exec_tallyPowerUp_checkpointed lost n hcore
    simp only [checkpointed, Prod.mk.injEq] at hcheck
    exact ⟨t, hexec, hcheck⟩

end Sys2Proof.Proofs.TallyIsland
end

section
/-! PROOFS. The performance reader (R611 to R623): strobes that latch or are missed, and forced errors. -/

namespace Sys2Proof.Proofs.PerformanceReader

open Sys2Proof Sys2Proof.Machine

/-! ### Strobes (R615, R616, R619) -/

/-- A strobe is due: device time has crossed a multiple of the interval, or has been stepped. -/
def strobeDue (s : State) : Prop :=
  s.time / (s.perf.interval * 1000) ≠ s.perf.lastAt / (s.perf.interval * 1000) ∨ s.perf.stepped = true

theorem exec_snapshotStrobe_due {s : State} (h : strobeDue s) : exec .snapshotStrobe s
    = .next (if readerRuns s = true then strobe s else modPerf s fun p =>
      { p with missed := p.missed + 1, gap := true, lastAt := s.time }) := by
  refine congrArg _ (if_neg ?_)
  rintro ⟨hsame, hstepped⟩
  exact h.elim (absurd hsame) fun h => absurd (h.symm.trans hstepped) (by decide)

theorem exec_snapshotStrobe_latches {s : State} (h : strobeDue s) (hr : readerRuns s = true) :
    exec .snapshotStrobe s = .next (strobe s) :=
  (exec_snapshotStrobe_due h).trans (congrArg _ (if_pos hr))

theorem exec_snapshotStrobe_misses {s : State} (h : strobeDue s) (hr : readerRuns s = false) :
    exec .snapshotStrobe s = .next { s with perf := { s.perf with
      missed := s.perf.missed + 1, gap := true, lastAt := s.time } } :=
  (exec_snapshotStrobe_due h).trans (congrArg _ (if_neg (Bool.eq_false_iff.mp hr)))

/-- A key of a table's entry is a key of the table. -/
theorem thas_of_mem {α : Type} {t : Tab α} {e : Nat × α} (h : e ∈ t) : thas t e.1 = true := by
  induction t with
  | nil => cases h
  | cons a r ih =>
    by_cases ha : a.1 = e.1
    · simp [thas, tget, ha]
    · have hr := ih ((List.mem_cons.mp h).resolve_left fun heq => ha (by rw [heq]))
      simpa [thas, tget, ha] using hr

theorem tget_foldl_tdel {α β : Type} {l : Tab β} {k : Nat} (hk : ∀ e ∈ l, k ≠ e.1) :
    ∀ t : Tab α, tget (l.foldl (fun t e => tdel t e.1) t) k = tget t k := by
  induction l with
  | nil => exact fun _ => rfl
  | cons e l ih =>
    intro t
    rw [List.foldl_cons, ih (fun e he => hk e (List.mem_cons_of_mem _ he)),
      tget_tdel_other t e.1 k (hk e (List.mem_cons_self ..))]

/-- R616: a count whose select is not written anew stays. -/
theorem tget_strobe_counts {s : State} {k : Nat} (hk : thas s.perf.selNext k = false) :
    tget (strobe s).perf.counts k = tget s.perf.counts k := by
  have hunwritten : ∀ e ∈ s.perf.selNext, k ≠ e.1 := by
    rintro e he rfl
    exact absurd ((thas_of_mem he).symm.trans hk) (by decide)
  exact tget_foldl_tdel hunwritten s.perf.counts

/-! ### Forced errors (R623) -/

/-- Two states whose readers have the same interval and selects. -/
def sameSettings (s t : State) : Prop := t.perf.interval = s.perf.interval ∧ t.perf.sel = s.perf.sel

/-- A source sets its bit, and only the snapshots and the gap beside it. -/
theorem prFire_perf (s : State) (i : Nat) :
    (prFire s i).perf.err = setBit s.perf.err i ∧ sameSettings s (prFire s i) := by
  unfold prFire
  dsimp only
  repeat' split
  all_goals exact ⟨rfl, rfl, rfl⟩

theorem getLsbD_setBit {w : Nat} (b : BitVec w) {i j : Nat} (hj : j < w) :
    (setBit b i).getLsbD j = (b.getLsbD j || decide (i = j)) := by
  rw [setBit, BitVec.getLsbD_or, BitVec.getLsbD_ofNat, Nat.testBit_two_pow, decide_eq_true hj, Bool.true_and]

theorem foldl_prFire_perf (l : List Nat) : ∀ s, (∀ j, j < 3 → (l.foldl prFire s).perf.err.getLsbD j
    = (s.perf.err.getLsbD j || decide (j ∈ l))) ∧ sameSettings s (l.foldl prFire s) := by
  induction l with
  | nil => exact fun s => ⟨fun j _ => by simp, rfl, rfl⟩
  | cons i l ih =>
    intro s
    obtain ⟨herr, hint, hsel⟩ := ih (prFire s i)
    obtain ⟨hfire, hint', hsel'⟩ := prFire_perf s i
    refine ⟨fun j hj => ?_, hint.trans hint', hsel.trans hsel'⟩
    rw [List.foldl_cons, herr j hj, hfire, getLsbD_setBit _ hj]
    simp [Bool.or_assoc, eq_comm]

theorem exec_prErrForce_admitted {s : State} {m : Nat} {v : Word} (hm : mayWrite s m 0x90024) :
    exec (.prErrForce m v) s = .next (wrOk ((setBits 3 v.toNat).foldl prFire s)) :=
  congrArg _ (writeAs_admitted hm)

/-- A forced error sets the sources that the value names, and no other. -/
theorem getLsbD_prForced (s : State) (v : Word) (j : Nat) :
    ((setBits 3 v.toNat).foldl prFire s).perf.err.getLsbD j
      = (s.perf.err.getLsbD j || (decide (j < 3) && v.toNat.testBit j)) := by
  by_cases hj : j < 3
  · rw [(foldl_prFire_perf _ s).1 j hj]
    simp [setBits, hj]
  · have hout (b : BitVec 3) : b.getLsbD j = false := BitVec.getLsbD_of_ge b j (Nat.not_lt.mp hj)
    simp [hout, hj]

/-- Settles O53: a strobe that is due latches or is missed. -/
theorem performanceReaderRuns : Obligations.PerformanceReaderRuns := by
  unfold Obligations.PerformanceReaderRuns
  refine ⟨?latched, ?missed, fun s m v hm => exec_prErrForce_admitted hm⟩
  case latched =>
    exact fun s hdue hr => ⟨_, exec_snapshotStrobe_latches (.inl hdue) hr, rfl, rfl, rfl, rfl, rfl,
      fun k hk => tget_strobe_counts hk⟩
  case missed => exact fun s hdue hr => exec_snapshotStrobe_misses (.inl hdue) hr

/-- Settles O60: a latch replaces the reader's part as the strobe says, and a forced source sets its own bit. -/
theorem strobesAndForcedReaderErrorsComplete : Obligations.StrobesAndForcedReaderErrorsComplete := by
  unfold Obligations.StrobesAndForcedReaderErrorsComplete
  constructor
  · exact fun s hdue => ⟨fun hr => ⟨_, _, exec_snapshotStrobe_latches hdue hr, rfl, rfl, rfl, rfl, rfl, rfl, rfl, rfl, rfl⟩,
      fun hr => exec_snapshotStrobe_misses hdue hr⟩
  · intro s m v hm
    obtain ⟨-, hint, hsel⟩ := foldl_prFire_perf (setBits 3 v.toNat) s
    refine ⟨_, exec_prErrForce_admitted hm, rfl, fun i hi hv => ?_, fun i hv => ?_, hint, hsel⟩
    · exact (getLsbD_prForced s v i).trans (by simp [hi, hv])
    · exact (getLsbD_prForced s v i).trans (by simp [hv])

end Sys2Proof.Proofs.PerformanceReader
end

section
/-! PROOFS. Mirror records and forwarded mutations that arrive over Ibvelet (R551 to R557, R559). -/

namespace Sys2Proof.Proofs.MirrorRecords

open Sys2Proof Sys2Proof.Machine

/-! ### Records that are held (R551, R553, R554, R557) -/

theorem exec_journalRecordMirror_new {s : State} {r : JournalRec} (ht : twinned s = true)
    (hnew : s.twin.held.contains r = false) :
    exec (.journalRecordMirror r) s = .next (emit (modTwin s (fun t => { t with
      held := t.held ++ [r], reported := t.reported ++ [(r.domain, r.seq)] })) (.journalHeld r.domain r.seq)) :=
  congrArg _ (if_neg (not_or.mpr ⟨by simp [mirroring, ht], Bool.eq_false_iff.mp hnew⟩))

theorem exec_sessionRecord_twinned {s : State} (r : SessionMirror) (ht : twinned s = true) :
    exec (.sessionRecord r) s = .next (modTwin s (fun t => { t with
      mirrors := t.mirrors.filter (fun m => m.alcove != r.alcove || m.session != r.session) ++ [r]
      marks := t.marks.filter (fun m => m.1 != r.alcove || m.2.1 != r.session)
      accepts := t.accepts.filter (fun a => a.alcove != r.alcove || a.session != r.session)
      applied := t.applied.filter (fun a => a.1 != r.alcove || a.2.1 != r.session) })) :=
  congrArg _ (if_pos ht)

theorem exec_alcoveRecord_absent {s : State} {r : AlcoveRecord} (ht : twinned s = true) (h0 : r.set.alcove ≠ 0)
    (hnone : alc s r.set.alcove = none) : exec (.alcoveRecord r) s
      = .next (modTwin s (fun t => { t with alcoves := tput t.alcoves r.set.alcove r })) := by
  have hno : thas s.net.alcoves r.set.alcove = false := congrArg Option.isSome hnone
  exact congrArg _ (if_pos ⟨ht, h0, hno⟩)

/-! ### Forwarded mutations (R552) -/

theorem exec_forwardedMutation_taken {s : State} {r : JournalRec} (e : Nat) (ht : twinned s = true)
    (hseq : seqHere s r.domain = true) (hjournal : journalTakes s (recordSize r.body) = true) :
    exec (.forwardedMutation r e) s = .next (match forwardRefused s r e with
      | some st => emit s (.forwardResult r.domain 0 st)
      | none => sequenceForward s r) :=
  congrArg _ ((if_neg (by simp [mirroring, ht, hseq, hjournal])).trans rfl)

/-! ### Sections and the partner's service (R556, R559) -/

theorem exec_sectionLoadForward_serving {s t : State} {h : Bytes} {b : List (Nat × Bytes)} (hlink : s.twin.link = 3)
    (hpair : s.twin.state ≠ .unpaired) (ht : t = flipPrefer (emit (stageConfig s h b) .sectionHeld) 2)
    (hwait : t.twin.waiting = false) :
    exec (.sectionLoadForward h b) s = .next (settleLoads (applySections t (b.map (·.1))).1) := by
  subst ht
  exact congrArg _ ((if_neg (by simp [hlink, hpair])).trans (if_neg (by simp [hwait])))

theorem exec_serviceStateNotice_linked {s : State} (n : Nat) (hlink : s.twin.link = 3) :
    exec (.serviceStateNotice n) s = .next (if s.twin.state = .joined ∧ (n = 3 ∨ n = 4) then
      dueTake (modTwin s (fun t => { t with service := n })) s.time else modTwin s (fun t => { t with service := n })) :=
  congrArg _ (if_neg (not_not_intro hlink))

/-- Settles O55: each record takes the branch of its command. The status of a refused forward (log 85) and the load of
sections in one step (log 67) are the model's choices. -/
theorem mirrorRecordsArrive : Obligations.MirrorRecordsArrive := by
  unfold Obligations.MirrorRecordsArrive
  refine ⟨fun s r => exec_journalRecordMirror_new, ?forwardTaken, ?forwardRefused, ?session,
    fun s a i m ht => congrArg _ (if_pos ht), fun s r ht => congrArg _ (if_pos ht),
    fun s r => exec_alcoveRecord_absent, fun s t h b => exec_sectionLoadForward_serving, ?notice⟩
  case forwardTaken =>
    intro s r e ht hseq hjournal hok
    rw [exec_forwardedMutation_taken e ht hseq hjournal, hok]
  case forwardRefused =>
    intro s r e n ht hseq hjournal hrefused
    rw [exec_forwardedMutation_taken e ht hseq hjournal, hrefused]
  case session =>
    intro s r ht
    refine ⟨_, exec_sessionRecord_twinned r ht, rfl, fun m hm hslot => ?_, rfl⟩
    have hkept := (List.mem_filter.mp hm).2
    simp [hslot] at hkept
  case notice =>
    intro s t n hlink ht
    subst ht
    exact exec_serviceStateNotice_linked n hlink

end Sys2Proof.Proofs.MirrorRecords
end

section
/-! PROOFS. The copy, the join, the wait for the link, planned moves and failback (R557, R558, R568, R569). -/

namespace Sys2Proof.Proofs.TwinMoves

open Sys2Proof Sys2Proof.Machine

/-! ### The copy of the key store (R557) -/

theorem beginSnap_idle {s : State} (h : s.keys.snapping = none) :
    beginSnap s = modKeys s (fun k => { k with snapping := some k.archive }) :=
  if_neg (by simp [h])

theorem tfilter_never {α : Type} (t : Tab α) : tfilter t (fun _ _ => false) = [] := by simp [tfilter]

/-- A copy without domains and alcoves replaces the store, empties the journal and begins a snapshot of the copy. -/
theorem exec_bulkCopy_store {s : State} {b : BulkState} (hj : joinable s = true) (hs : s.twin.state ≠ .survivor)
    (hd : b.domains = []) (ha : b.alcoves = []) : ∃ t, exec (.bulkCopy b) s = .next t
      ∧ t.keys.secrets = b.secrets.map (fun e => (e.1, copySecret b s.keys e.1 e.2))
      ∧ t.keys.checks = b.checks ∧ t.keys.freed = b.freed ∧ t.keys.retired = b.retired
      ∧ t.keys.instNext = max s.keys.instNext b.instNext ∧ t.keys.cache = [] ∧ t.keys.domains = [] ∧ t.twin.held = []
      ∧ t.keys.journal = [] ∧ t.keys.snapping = some t.keys.archive ∧ t.keys.archive.secrets = t.keys.secrets
      ∧ { t with keys := s.keys, twin := s.twin } = s := by
  refine ⟨_, congrArg Host.Outcome.next (if_neg (by simp [hj, hs])), ?_⟩
  dsimp only
  rw [beginSnap_idle rfl, hd, ha]
  exact ⟨rfl, rfl, rfl, rfl, rfl, rfl, tfilter_never _, rfl, rfl, rfl, rfl, rfl⟩

/-! ### The join and the wait for the link (R557, R558) -/

theorem exec_twinJoin_agree {s : State} {j : JoinInfo} (hj : joinable s = true)
    (hserial : headSerial (cfgSlot s).head = j.serial) (hzero : zeroAt (cfgSlot s).head 16 16 = true)
    (hagree : imagesAgree s j = true) : exec (.twinJoin j) s
      = .next (joinPair (((dropAbove s j).twin.held ++ j.records).foldl (takeRecord j) (dropAbove s j)) j) := by
  change execTwinJoin j s = _
  simp [execTwinJoin, hj, hserial, hzero, hagree]

/-! ### Planned moves and failback (R568, R569) -/

theorem moveOut_idle {s t : State} {a : Nat} (ht : t = quiesce s a) (hidle : alcoveWorks t a t.net.nextWork = false) :
    moveOut s a = handAway (emit t (.planned a (movedAll t a))) a := by
  subst ht
  exact if_neg (by simp [hidle])

theorem exec_plannedMove_joined {s : State} {a : Nat} (l : List MovedSession) (hjoined : s.twin.state = .joined)
    (hlink : s.twin.link = 3) (ha : a ≠ 0) : exec (.plannedMove a l) s = .next
      (if thas s.net.alcoves a then (if homeOf s a = s.twin.side then s else moveOut s a)
      else if thas s.twin.alcoves a ∧ homeOf s a = s.twin.side then moveIn s a l else s) :=
  congrArg _ (if_neg (by simp [hjoined, hlink, ha]))

theorem exec_failbackExpiry_due {s : State} {t : Nat} (hat : s.twin.joinedAt = some t) (hjoined : s.twin.state = .joined)
    (hdue : t + s.twin.failback * 10 ^ 9 ≤ s.time) : exec .failbackExpiry s
      = .next ((awayFromHome s).foldl quiesce (modTwin s (fun t => { t with joinedAt := none }))) := by
  change execFailbackExpiry s = _
  simp only [execFailbackExpiry, hat]
  exact congrArg _ (if_pos ⟨hjoined, hdue⟩)

/-- Settles O56. The counters of a copied face and the snapshot that begins at once (log 81), the agreement of the images
(log 83) and the sessions of a planned move (log 84) are the model's choices. -/
theorem twinsJoinAndMove : Obligations.TwinsJoinAndMove := by
  unfold Obligations.TwinsJoinAndMove
  refine ⟨fun s b => exec_bulkCopy_store, fun s j => exec_twinJoin_agree, ?linkWait, ?oldHome, ?newHome,
    fun s t => exec_failbackExpiry_due⟩
  case linkWait =>
    intro s hwait hlink hover
    exact congrArg _ (if_neg (by simp only [not_or, not_lt]; exact ⟨by simp [hwait], hlink, hover⟩))
  case oldHome =>
    intro s t a l hjoined hlink ha hserved haway ht hidle
    rw [exec_plannedMove_joined l hjoined hlink ha, if_pos hserved, if_neg haway, moveOut_idle ht hidle]
  case newHome =>
    intro s a l hjoined hlink ha hserved hrecord hhome
    rw [exec_plannedMove_joined l hjoined hlink ha, if_neg (by simp [hserved]), if_pos ⟨hrecord, hhome⟩]

end Sys2Proof.Proofs.TwinMoves
end

section
/-! PROOFS. The presence check, the takeover and the announcements (R559 to R562). -/

namespace Sys2Proof.Proofs.Survivor

open Sys2Proof Sys2Proof.Machine

/-! ### The session to the partner (R560) -/

theorem exec_twinKeepaliveDue_open {s : State} (hjoined : s.twin.state = .joined) (hdue : s.twin.keepAt + 10 ^ 10 ≤ s.time)
    (hopen : tget s.gallery.clients 128 = some 1) : exec .twinKeepaliveDue s
      = .next (emit (modTwin s (fun t => { t with keepAt := s.time })) (.clientAck 128)) :=
  congrArg _ ((if_neg (not_or.mpr ⟨not_not_intro hjoined, not_lt.mpr hdue⟩)).trans (if_pos hopen))

theorem exec_presenceQueryDue_open {s : State} {t : Nat} (hlost : s.twin.lostAt = some t) (hjoined : s.twin.state = .joined)
    (hmore : s.twin.queries < 20) (hdue : t + s.twin.queries * 10 ^ 6 ≤ s.time)
    (hopen : tget s.gallery.clients 128 = some 1) : exec .presenceQueryDue s
      = .next (emit (modTwin s (fun t => { t with queries := t.queries + 1 })) (.clientCommand 128 0x0103
        ((sendLink s (4 * (s.twin.queries % 2))).getD (4 * (s.twin.queries % 2))) (zeros 8))) := by
  change execPresenceQueryDue s = _
  simp only [execPresenceQueryDue, hlost]
  exact congrArg _ ((if_neg (by simp only [not_or, not_lt, not_le]; exact ⟨not_not_intro hjoined, hmore, hdue⟩)).trans (if_pos hopen))

theorem exec_completionReceived_answer {s : State} {m : ClientMsg} (hsess : m.session = 128) (hok : m.ok = true)
    (hstatus : m.status = 0) (hlost : s.twin.lostAt.isSome = true) (hopen : tget s.gallery.clients 128 = some 1) :
    exec (.completionReceived m) s = .next (modTwin s (fun t => { t with answered := true })) := by
  refine congrArg _ ((if_neg ?_).trans ((if_neg (not_not_intro hsess)).trans (if_pos hlost)))
  simp [hok, hstatus, hsess, hopen, stOk]

/-! ### The end of the presence check and the takeover (R560, R561) -/

theorem exec_presenceCheckEnd_due {s : State} {t : Nat} (hlost : s.twin.lostAt = some t) (hjoined : s.twin.state = .joined)
    (hdue : t + 20 * 10 ^ 6 ≤ s.time) : exec .presenceCheckEnd s = .next
      (if s.twin.link = 3 then modTwin s (fun t => { t with lostAt := none })
      else if s.twin.answered then (if s.twin.side = 1 then yieldSide s else dueTake s (s.time + 2 * 10 ^ 6))
      else if (firstUp s 0).isSome ∨ (firstUp s 1).isSome then dueTake s s.time
      else yieldSide s) := by
  change execPresenceCheckEnd s = _
  simp only [execPresenceCheckEnd, hlost]
  exact congrArg _ (if_neg (not_or.mpr ⟨not_not_intro hjoined, not_lt.mpr hdue⟩))

theorem exec_takeover_due {s : State} {t : Nat} (hat : s.twin.takeAt = some t) (hjoined : s.twin.state = .joined)
    (hdue : t ≤ s.time) : exec .takeover s = .next (takeOver s) := by
  change execTakeover s = _
  simp only [execTakeover, hat]
  exact congrArg _ (if_pos ⟨hjoined, hdue⟩)

/-! ### Announcements (R562, item 6) -/

theorem told_announce (s : State) (a : Nat) : Told s (announce s a) := by
  unfold announce
  split
  · exact Told.refl s
  · exact foldl_told _ (fun s i => sendOut_told s _ _ _) _ s

theorem told_time {s t : State} (h : Told s t) : t.time = s.time := by
  unfold Told at h
  rw [← h]

theorem exec_announcementDue_due {s : State} (hrounds : s.twin.rounds ≠ []) (hdue : s.twin.roundAt ≤ s.time) :
    ∃ t, exec .announcementDue s = .next t ∧ t.twin.roundAt = s.time + 10 ^ 6
      ∧ t.twin.rounds = (s.twin.rounds.map (fun r => (r.1, r.2 - 1))).filter (fun r => r.2 != 0) := by
  have htold := foldl_told (fun s (r : Nat × Nat) => announce s r.1) (fun s r => told_announce s r.1) s.twin.rounds s
  refine ⟨_, congrArg Host.Outcome.next (if_neg (not_or.mpr ⟨by simp [hrounds], not_lt.mpr hdue⟩)), ?_, rfl⟩
  exact congrArg (· + 10 ^ 6) (told_time htold)

/-- Settles O57: the presence check decides by the link, the answer, the side and the links of the ports. That an answer
other than `OK` answers nothing is log 80. -/
theorem theSurvivorTakesOver : Obligations.TheSurvivorTakesOver := by
  unfold Obligations.TheSurvivorTakesOver
  refine ⟨fun s => exec_twinKeepaliveDue_open, fun s t => exec_presenceQueryDue_open,
    fun s m => exec_completionReceived_answer, ?check, fun s t => exec_takeover_due, fun s => exec_announcementDue_due⟩
  case check =>
    intro s t hlost hjoined hdue
    rw [exec_presenceCheckEnd_due hlost hjoined hdue]
    refine ⟨?linkBack, ?yields, ?takesLater, ?takesNow, ?alone⟩
    case linkBack =>
      intro hlink
      rw [if_pos hlink]
      rfl
    case yields =>
      intro hlink hans hside
      rw [if_neg hlink, if_pos hans, if_pos hside]
    case takesLater =>
      intro hlink hans hside
      rw [if_neg hlink, if_pos hans, if_neg hside]
      rfl
    case takesNow =>
      intro hlink hans hup
      rw [if_neg hlink, if_neg (by simp [hans]), if_pos hup]
      rfl
    case alone =>
      intro hlink hans h0 h1
      rw [if_neg hlink, if_neg (by simp [hans]), if_neg (by simp [h0, h1])]

end Sys2Proof.Proofs.Survivor
end

section
/-! PROOFS. Pairing, grants and the phases of a migration (R545 to R548, R558, R561, R572 to R581). -/

namespace Sys2Proof.Proofs.PairingAndMigration

open Sys2Proof Sys2Proof.Machine Sys2Proof.Proofs.ReadyCommands

/-! ### `TWIN_PAIR` (R545 to R548, R558, R561) -/

/-- A ready request of a function under an approval that holds runs that function after the ticket has ended. -/
theorem onPair_approved {s : State} {w f : Nat} {k : Work} {ap : Approval} {g : State → Work → State}
    (h : isReady s w 0x0B01 k) (hf : fld k.payload 0 1 = f) (hap : approvalAt k.payload (pairEnd k.payload) = some ap)
    (hquorum : approvalOk s 0 0x0B01 (k.payload.take (pairEnd k.payload)) ap = true) :
    onPair s w f g = g (endTicket s 0 ap.ticket) k := by
  unfold onPair
  rw [onWork_ready h, if_neg (not_not_intro hf)]
  exact withQuorum_ok hap hquorum

section
variable {s : State} {w : Nat} {k : Work} {ap : Approval} (h : isReady s w 0x0B01 k)
  (hap : approvalAt k.payload (pairEnd k.payload) = some ap)
  (hquorum : approvalOk s 0 0x0B01 (k.payload.take (pairEnd k.payload)) ap = true)
include h hap hquorum

theorem exec_twinPair_pairs {t : State} {st : Bytes} (ht : t = endTicket s 0 ap.ticket) (hst : st = slice k.payload 8 1006)
    (hf : fld k.payload 0 1 = 1) (hok : pairRefused t k.payload = none) :
    exec (.twinPair w) s = .next (okWork (modTwin (writePair t (fun r => { r with
      paired := true, side := t.twin.side, epoch := 0, partner := statementItem st 0x02
      identity := statementItem st 0x03 })) (fun t => { t with state := .joining, link := if t.down then 0 else 1 })) w []) := by
  subst ht hst
  refine congrArg _ ((onPair_approved h hf hap hquorum).trans ?_)
  simp only [hok]

theorem exec_twinUnpair_unpairs {t : State} (ht : t = endTicket s 0 ap.ticket) (hf : fld k.payload 0 1 = 2) :
    exec (.twinUnpair w) s = .next (okWork (modTwin (dropPartnerHomes (writePair t
      (fun r => { r with paired := false, partner := [], identity := [] }))) (fun t => { t with
        state := .unpaired, link := 0, held := [], mirrors := [], marks := [], accepts := [], applied := [], lostAt := none
        joinedAt := none })) w []) := by
  subst ht
  exact congrArg _ (onPair_approved h hf hap hquorum)

theorem exec_twinSolo_serves {t u : State} (ht : t = endTicket s 0 ap.ticket) (hf : fld k.payload 0 1 = 3)
    (hheld : t.twin.state = .held ∨ t.twin.state = .yielded)
    (hu : u = (tkeys t.twin.alcoves).foldl openRecord (surviveAll t)) :
    exec (.twinSolo w) s = .next (okWork (openSet u (fun a => a == 0 || !u.boot.sealed_)) w []) := by
  subst ht hu
  exact congrArg _ ((onPair_approved h hf hap hquorum).trans (if_pos hheld))

end

/-! ### `GRANT_INSTALL` (R572 to R576) -/

section
variable {s : State} {w : Nat} {k : Work} (h : isReady s w 0x0B02 k)
include h

/-- A ready request of a function runs that function. -/
theorem onGrant_ready {f : Nat} {g : Work → State} (hf : fld k.payload 0 1 = f) : onGrant s w f g = g k := by
  unfold onGrant
  rw [onWork_ready h, if_pos hf]

theorem exec_receiveKey_ready (hf : fld k.payload 0 1 = 0) : exec (.receiveKey w) s
    = .next (okWork s w (remaining s ++ Config.xPub s.gallery.recvX ++ Config.kemPub false s.gallery.recvK)) :=
  congrArg _ (onGrant_ready h hf)

theorem exec_join_joins {t : State} (hf : fld k.payload 0 1 = 1)
    (hmember : s.gallery.member = none ∨ s.gallery.member = some (fld k.payload 8 1))
    (ht : t = addBlock { s with gallery := { s.gallery with
      member := some (fld k.payload 8 1), number := fld k.payload 9 1 } } (fld k.payload 12 4)) :
    exec (.join w) s = .next (okWork t w (remaining t)) := by
  subst ht
  refine congrArg _ ((onGrant_ready h hf).trans (if_neg ?_))
  rintro ⟨hsome, hother⟩
  obtain hnone | hsame := hmember
  · simp [hnone] at hsome
  · exact hother hsame

theorem exec_instanceBlock_adds {t : State} (hf : fld k.payload 0 1 = 2) (ht : t = addBlock s (fld k.payload 8 4)) :
    exec (.instanceBlock w) s = .next (okWork t w (remaining t)) := by
  subst ht
  exact congrArg _ (onGrant_ready h hf)

theorem exec_grantKey_opens {key : Bytes} (hf : fld k.payload 0 1 = 3)
    (hkey : keyIn s "WGRK1" (k.payload.drop 16) = some key) : exec (.grantKey w) s
      = .next (okWork (setDom s (fld k.payload 8 2) (fun x => { x with grantKey := key })) w (remaining s)) := by
  refine congrArg _ ((onGrant_ready h hf).trans ?_)
  simp only [hkey]

theorem exec_grant_queues {env m : Bytes} {d : Nat} {f0 f1 : Option Face} (hf : fld k.payload 0 1 = 4)
    (henv : env = k.payload.drop 24) (hd : grantDomain s env = some d)
    (hm : openEnvelope (domD s d).grantKey env = some m) (hf0 : f0 = grantFace env (fld env 6 2) (fld k.payload 16 4) 0)
    (hf1 : f1 = grantFace env (fld env 6 2) (fld k.payload 16 4) 1) (hroot : rootMissing s d = false)
    (hfaces : facesOk (fld env 6 2) (fld env 8 2) f0 f1 = true)
    (hgood : grantBad s (fld k.payload 8 4) (fld k.payload 12 4) f0 f1 = false)
    (hquota : domainUse s d + slotsFor m.length ≤ (domD s d).quota) (hfree : slotsFor m.length - 1 ≤ freeCount s) :
    exec (.grant w) s = .next (mutateOn s w d k (.grant (fld k.payload 8 4) (fld k.payload 12 4)
      { newSecret d (fld env 6 2) (fld env 8 2) m f0 f1 with granted := true }) (remaining s)) := by
  subst henv hf0 hf1
  refine congrArg _ ((onGrant_ready h hf).trans ?_)
  simp only [hd, hm]
  rw [if_neg (by simp [hroot, hfaces]), if_neg (Bool.eq_false_iff.mp hgood),
    if_neg (not_or.mpr ⟨not_lt.mpr hquota, not_lt.mpr hfree⟩)]

theorem exec_revoke_queues {slot n : Nat} {x : Secret} (hf : fld k.payload 0 1 = 5)
    (hface : grantedFace s (fld k.payload 8 8) = some (slot, n, x)) :
    exec (.revoke w) s = .next (mutateOn s w x.domain k (.revoke slot n) (remaining s)) := by
  refine congrArg _ ((onGrant_ready h hf).trans ?_)
  simp only [hface]

end

/-! ### The source of a migration (R577 to R580) -/

/-- A ready command of a phase from another member than this one runs that phase. -/
theorem onMigrate_ready {s : State} {w op ph : Nat} {k : Work} {g : Work → State} (h : isReady s w op k)
    (hph : fld k.payload 0 1 = ph) (hpeer : s.gallery.member ≠ some (migPeer k.payload)) :
    onMigrate s w op ph g = g k := by
  unfold onMigrate
  rw [onWork_ready h, if_neg (not_not_intro hph), if_neg hpeer]

/-- An abort is of the source or of the destination by the opcode of its command. -/
theorem wrk_opcode_ready {s : State} {w op : Nat} {k : Work} (h : isReady s w op k) :
    ((wrk s w).any fun k => k.opcode == 0x0B03) = (op == 0x0B03) := by
  obtain ⟨hwork, hop, -, -⟩ := h
  simp [hwork, hop]

section
variable {s : State} {w a : Nat} {k : Work} (h : isReady s w 0x0B03 k) (ha : a = migAlcove k.payload)
  (hpeer : s.gallery.member ≠ some (migPeer k.payload))
include h ha hpeer

theorem exec_migrateOutBegin_sends {x : Alcove} {key : Bytes} (hph : fld k.payload 0 1 = 1) (hx : alc s a = some x)
    (h0 : a ≠ 0) (hnew : x.migration = none) (hstays : x.removing = false)
    (hkey : keyIn s "WMIG1" (k.payload.drop 16) = some key) (hfew : (alcoveSecrets s a).length ≤ 65536) :
    exec (.migrateOutBegin w) s = .next (sendChunk s w a x
      { number := migNumber k.payload, out := true, phase := 1, peer := migPeer k.payload, key := key, chunk := 0
        pages := [], secs := [], map := [] } false []) := by
  subst ha
  refine congrArg _ ((onMigrate_ready h hph hpeer).trans ?_)
  simp only [hx, hkey]
  rw [if_neg h0, if_neg (by simp [hnew, hstays]), if_neg (not_lt.mpr hfew)]

theorem exec_migrateOutNext_sends {x : Alcove} {m : Migration} (hph : fld k.payload 0 1 = 2)
    (hm : migOut s k.payload false = some (x, m)) :
    exec (.migrateOutNext w) s = .next (sendChunk s w a x m false []) := by
  subst ha
  refine congrArg _ ((onMigrate_ready h hph hpeer).trans ?_)
  simp only [hm]

theorem exec_migrateOutStop_sends {x : Alcove} {m : Migration} {t : State} (hph : fld k.payload 0 1 = 3)
    (hm : migOut s k.payload false = some (x, m)) (hfits : stopFits s a x m (liveBytes s a) = true)
    (hidle : alcoveWorks s a w = false) (ht : t = modAlc (quiesce s a) a (fun y => { y with stopped := true })) :
    exec (.migrateOutStop w) s = .next (sendChunk t w a x m true (liveBytes t a)) := by
  subst ha ht
  refine congrArg _ ((onMigrate_ready h hph hpeer).trans ?_)
  simp only [hm]
  rw [if_neg (by simp [hfits]), if_neg (Bool.eq_false_iff.mp hidle)]

theorem exec_migrateOutDone_removes {p : Alcove × Migration} {t : State} (hph : fld k.payload 0 1 = 4)
    (hm : migOut s k.payload true = some p) (ht : t = recordAlone s 0 (.alcoveRemove a)) :
    exec (.migrateOutDone w) s
      = .next (beginRemove (modWork (destroyOwn t a) w (fun k => { k with stage := .waitAlcove a })) a) := by
  subst ha ht
  refine congrArg _ ((onMigrate_ready h hph hpeer).trans ?_)
  simp only [hm]

theorem exec_migrateAbort_source {x : Alcove} {m : Migration} (hph : fld k.payload 0 1 = 5) (hx : alc s a = some x)
    (hm : x.migration = some m) (hnumber : m.number = migNumber k.payload) :
    exec (.migrateAbort w) s = .next (okWork (modAlc s a (fun x =>
      { x with migration := none, quiesced := false, stopped := false })) w []) := by
  subst ha
  refine congrArg _ ((if_pos (wrk_opcode_ready h)).trans ((onMigrate_ready h hph hpeer).trans ?_))
  simp only [hx, hm, hnumber, Option.bind_some, if_true]

end

/-! ### The destination of a migration (R577 to R581) -/

section
variable {s : State} {w a : Nat} {k : Work} (h : isReady s w 0x0B04 k) (ha : a = migAlcove k.payload)
  (hpeer : s.gallery.member ≠ some (migPeer k.payload))
include h ha hpeer

theorem exec_migrateInPrepare_reserves {key : Bytes} {m : Migration} (hph : fld k.payload 0 1 = 1) (h0 : a ≠ 0)
    (habsent : pairAlcove s a = none) (hfree : thas s.gallery.reserved a = false)
    (hkey : keyIn s "WMIG1" (k.payload.drop 16) = some key)
    (hm : m = { number := migNumber k.payload, out := false, phase := 1, peer := migPeer k.payload, key := key, chunk := 0
                pages := [], secs := [], map := [] }) :
    exec (.migrateInPrepare w) s
      = .next (okWork { s with gallery := { s.gallery with reserved := tput s.gallery.reserved a m } } w []) := by
  subst ha hm
  refine congrArg _ ((onMigrate_ready h hph hpeer).trans ?_)
  simp only [hkey]
  exact if_neg (by simp [h0, habsent, hfree])

theorem exec_migrateInPages_takes {m n : Migration} {t : State} {live : Bytes} (hph : fld k.payload 0 1 = 2)
    (hm : migIn s k.payload = some m) (htake : takeChunk s a m (k.payload.drop 16) false = .ok (t, n, live)) :
    exec (.migrateInPages w) s = .next (okWork
      { t with gallery := { t.gallery with reserved := tput t.gallery.reserved a n } } w []) := by
  subst ha
  refine congrArg _ ((onMigrate_ready h hph hpeer).trans ?_)
  simp only [hm, htake]

theorem exec_migrateInFinal_opens {m n : Migration} {t : State} {live : Bytes} {r : AlcoveRecord}
    (hph : fld k.payload 0 1 = 3) (hm : migIn s k.payload = some m)
    (htake : takeChunk s a m (k.payload.drop 16) true = .ok (t, n, live))
    (hr : r = (alcoveParse ((tvals n.pages).flatten)).1) (hsame : r.set.alcove = a)
    (hqps : (liveParse s.time r.set.alcove live).2.any (fun e => thas s.net.qps e.1) = false) :
    exec (.migrateInFinal w) s = .next (okWork (openMigrated t n live) w []) := by
  subst ha hr
  refine congrArg _ ((onMigrate_ready h hph hpeer).trans ?_)
  simp only [hm, htake]
  rw [if_neg (not_not_intro hsame), if_neg (Bool.eq_false_iff.mp hqps)]

theorem exec_migrateAbort_destination {m : Migration} {t : State} (hph : fld k.payload 0 1 = 5)
    (hm : migIn s k.payload = some m)
    (ht : t = ((m.map.map (fun e => hSlot e.2)).eraseDups).foldl (fun s n =>
      mutateAlone s (((tget s.keys.secrets n).map (fun x => x.domain)).getD 0) 0 (.destroySecret n)) s) :
    exec (.migrateAbort w) s = .next (okWork { t with gallery := { t.gallery with
      reserved := tdel t.gallery.reserved a } } w []) := by
  subst ha ht
  refine congrArg _ ((if_neg (by simp [wrk_opcode_ready h])).trans ((onMigrate_ready h hph hpeer).trans ?_))
  simp only [hm]

end

/-- Settles O29: each function and each phase takes its branch. The split into rows (log 52), the domain of a grant and
the unpairing of a device that is not paired (log 86), the pages, the live state and the phases of a migration (log 87)
and the envelopes of its keys (log 108) are the model's choices. -/
theorem pairingGrantsAndMigrationRun : Obligations.PairingGrantsAndMigrationRun := by
  unfold Obligations.PairingGrantsAndMigrationRun
  refine ⟨?pairing, ?grants, ?source, ?destination⟩
  case pairing =>
    rintro s w n k ap t st h rfl hap hquorum ht hst
    exact ⟨exec_twinPair_pairs h hap hquorum ht hst, exec_twinUnpair_unpairs h hap hquorum ht,
      fun hf hheld u => exec_twinSolo_serves h hap hquorum ht hf hheld⟩
  case grants =>
    intro s w k h
    exact ⟨exec_receiveKey_ready h, fun t => exec_join_joins h, fun t => exec_instanceBlock_adds h,
      fun key => exec_grantKey_opens h, fun env d m f0 f1 => exec_grant_queues h, fun slot n x => exec_revoke_queues h⟩
  case source =>
    intro s w a k h ha hpeer
    exact ⟨fun x key => exec_migrateOutBegin_sends h ha hpeer, fun x m => exec_migrateOutNext_sends h ha hpeer,
      fun x m hph hm hfits hidle t => exec_migrateOutStop_sends h ha hpeer hph hm hfits hidle,
      fun p hph hm t => exec_migrateOutDone_removes h ha hpeer hph hm, fun x m => exec_migrateAbort_source h ha hpeer⟩
  case destination =>
    intro s w a k h ha hpeer
    exact ⟨fun key m => exec_migrateInPrepare_reserves h ha hpeer, fun m t n live => exec_migrateInPages_takes h ha hpeer,
      fun m t n live r => exec_migrateInFinal_opens h ha hpeer, fun m t => exec_migrateAbort_destination h ha hpeer⟩

end Sys2Proof.Proofs.PairingAndMigration
end

section
/-! PROOFS. The Ibvelet link (R539 to R544, R585): frames, losses and the handshake. O54 stays unsettled: the spec gives
the key of the device certification authority no value and the model keeps it opaque, and O54 fails under one value of
it and holds under another, as the last part of this section proves. -/

namespace Sys2Proof.Proofs.IbveletLink

open Sys2Proof Sys2Proof.Machine Sys2Proof.Proofs.DigestUnit

/-! ### Frames and losses (R541 to R543, R585) -/

section
variable {s : State} {f : IbFrame} (hlink : s.twin.link = 3)
include hlink

theorem exec_ibveletFrame_inOrder (htag : ibTag s.twin.rxKey s.twin.rxSalt f = f.tag) (hseq : f.seq = s.twin.rxSeq + 1) :
    exec (.ibveletFrame f) s = .next (ibAccept s f) :=
  congrArg _ ((if_neg (not_not_intro hlink)).trans
    ((if_neg (not_not_intro htag)).trans (if_neg (not_not_intro hseq))))

theorem exec_ibveletFrame_outOfOrder (htag : ibTag s.twin.rxKey s.twin.rxSalt f = f.tag)
    (hseq : f.seq ≠ s.twin.rxSeq + 1) : exec (.ibveletFrame f) s = .next (ibAsk s) :=
  congrArg _ ((if_neg (not_not_intro hlink)).trans ((if_neg (not_not_intro htag)).trans (if_pos hseq)))

theorem exec_ibveletFrame_forged (htag : ibTag s.twin.rxKey s.twin.rxSalt f ≠ f.tag) :
    exec (.ibveletFrame f) s = .next (ibFire s 1) :=
  congrArg _ ((if_neg (not_not_intro hlink)).trans (if_pos htag))

/-- R541: an accepted frame is out of order when it comes again, and no part but the twin knows of it. -/
theorem exec_ibveletFrame_moves (htag : ibTag s.twin.rxKey s.twin.rxSalt f = f.tag) (hseq : f.seq = s.twin.rxSeq + 1) :
    ∃ t, exec (.ibveletFrame f) s = .next t ∧ t.twin.rxSeq = s.twin.rxSeq + 1
      ∧ (∀ k ∈ t.twin.kept, f.ackSeq < k.seq ∧ k ∈ s.twin.kept) ∧ t.twin.peerFreed = f.credits
      ∧ exec (.ibveletFrame f) t = .next (ibAsk t) ∧ { t with twin := s.twin } = s := by
  have hagain : f.seq ≠ (ibAccept s f).twin.rxSeq + 1 := (Nat.lt_succ_self f.seq).ne
  have hkept : ∀ k ∈ (ibAccept s f).twin.kept, f.ackSeq < k.seq ∧ k ∈ s.twin.kept := fun k hk => by
    obtain ⟨hin, hnew⟩ := List.mem_filter.mp hk
    exact ⟨of_decide_eq_true hnew, hin⟩
  exact ⟨_, exec_ibveletFrame_inOrder hlink htag hseq, hseq, hkept, rfl,
    exec_ibveletFrame_outOfOrder (s := ibAccept s f) hlink htag hagain, rfl⟩

/-- R541: the kept frames from the one named go again, and the source `RETRY` notes it. -/
theorem exec_ibRetransmitRequest_resends (n : Nat) : ∃ t, exec (.ibRetransmitRequest n) s = .next t
    ∧ t.outbox = s.outbox ++ (s.twin.kept.filter (fun f => decide (n ≤ f.seq))).map (fun f => Output.ibFrame f)
    ∧ t.twin.kept = s.twin.kept ∧ t.twin.link = 3 ∧ t.twin.sentAt = s.time ∧ t.twin.err.getLsbD 0 = true :=
  ⟨_, congrArg Host.Outcome.next (if_neg (not_not_intro hlink)), rfl, rfl, hlink, rfl,
    getLsbD_setBit_self _ (by decide)⟩

end

/-! ### The handshake (R544) -/

/-- What follows the new keys: the partner's key replaces the one before it, and the presence check of a joined side
ends. -/
def partnerKnown (p : IbPeer) (s : State) : State :=
  let t := putTwinKey (modTwin (dropTwinKey s) (fun t => { t with twinKey := p.alcoveKey }))
  if t.twin.state = .joined then modTwin t (fun t => { t with lostAt := none }) else t

/-- The key material of a half: nonces, shared secrets and transcript hash are its last three parts. -/
def linkSecret (h : Bytes × Bytes × Bytes × Bytes × Bytes) : Bytes :=
  Config.hkdfExpand (Config.hkdfExtract h.2.2.2.1 h.2.2.1) (ascii "WIB1 keys" ++ h.2.2.2.2) 72

/-- A handshake whose checks pass keys the link and takes the partner's key. -/
theorem exec_ibLinkHandshake_keys {s t u : State} {p : IbPeer} {rnd : Bytes} {h : Bytes × Bytes × Bytes × Bytes × Bytes}
    (hpaired : s.twin.pair.paired = true) (hup : s.twin.down = false) (hlink : s.twin.link ≠ 3)
    (hdraw : drawState s 6 = .ok) (hrnd : drawFrom s 6 112 = (rnd, t)) (hh : h = ibHalf t p rnd)
    (hu : u = emit t (.ibHandshake t.twin.side (rnd.take 16) h.1 h.2.1 (zeroCert t) (statementFor t 0 (h.2.2.2.2.take 32))))
    (hpeer : ibPeerOk u p h.2.2.2.2 = true) :
    exec (.ibLinkHandshake p) s = .next (partnerKnown p (ibKeyed u (linkSecret h))) := by
  subst hu hh
  have hready : ¬ (s.twin.pair.paired = false ∨ s.twin.down = true ∨ s.twin.link = 3 ∨ drawState s 6 ≠ .ok) := by
    simp [hpaired, hup, hlink, hdraw]
  refine congrArg Host.Outcome.next ((if_neg hready).trans ?_)
  simp only [hrnd]
  exact if_neg (by simp [hpeer])

theorem finishClosing_twin (s : State) (a i : Nat) : (finishClosing s a i).twin = s.twin := by
  unfold finishClosing
  repeat' split
  · rfl
  · rfl
  · rfl
  · exact ((dropSession_told s a i _).trans (flushDue_told _ a)).twin

theorem closeKeys_twin (s : State) (a : Nat) (gone : List Bytes) : (closeKeys s a gone).twin = s.twin := by
  unfold closeKeys
  induction sessionsOf s a generalizing s with
  | nil => rfl
  | cons i l ih =>
    refine (ih _).trans ?_
    dsimp only
    repeat' split
    · exact (finishClosing_twin _ a i).trans rfl
    · rfl
    · rfl

theorem putKeys_twin (s : State) (a : Nat) (l : List (Bytes × Role)) : (putKeys s a l).twin = s.twin := by
  unfold putKeys
  split
  · rfl
  · exact closeKeys_twin _ a _

theorem dropTwinKey_twin (s : State) : (dropTwinKey s).twin = s.twin := by
  unfold dropTwinKey
  split
  · exact putKeys_twin s 0 _
  · rfl

theorem putTwinKey_twin (s : State) : (putTwinKey s).twin = s.twin := by
  unfold putTwinKey
  repeat' split
  · rfl
  · exact putKeys_twin s 0 _
  · rfl

theorem partnerKnown_rxKey (p : IbPeer) (s : State) : (partnerKnown p s).twin.rxKey = s.twin.rxKey := by
  have hkey : (putTwinKey (modTwin (dropTwinKey s) (fun t => { t with twinKey := p.alcoveKey }))).twin.rxKey
      = s.twin.rxKey := by
    rw [putTwinKey_twin, modTwin_twin, dropTwinKey_twin]
  unfold partnerKnown
  dsimp only
  split
  · exact hkey
  · exact hkey

/-! ### Frame numbers that end while the kept messages go again (R542, R543) -/

theorem linkLost_frames (s : State) : (linkLost s).twin.rxKey = [] ∧ (linkLost s).twin.txSeq = s.twin.txSeq := by
  unfold linkLost beginPresence
  split
  · exact ⟨rfl, rfl⟩
  · exact ⟨rfl, rfl⟩

theorem ibPut_spent {s : State} (f : IbFrame) (h : 2 ^ 48 ≤ s.twin.txSeq) : ibPut s f = linkLost s := if_pos h

theorem ibPut_txSeq {s : State} (f : IbFrame) (h : s.twin.txSeq < 2 ^ 48) :
    (ibPut s f).twin.txSeq = s.twin.txSeq + 1 := by
  unfold ibPut
  dsimp only
  rw [if_neg (Nat.not_le.mpr h)]
  rfl

/-- A link without frame numbers and keys gets none from more frames. -/
theorem foldl_ibPut_spent (l : List IbFrame) : ∀ s : State, 2 ^ 48 ≤ s.twin.txSeq → s.twin.rxKey = [] →
    (l.foldl ibPut s).twin.rxKey = [] := by
  induction l with
  | nil => exact fun _ _ hkey => hkey
  | cons f l ih =>
    intro s hspent _
    obtain ⟨hkey, hseq⟩ := linkLost_frames s
    rw [List.foldl_cons, ibPut_spent f hspent]
    exact ih _ (hseq.symm ▸ hspent) hkey

/-- R542: more frames than numbers are left take the link down. -/
theorem foldl_ibPut_over (l : List IbFrame) : ∀ s : State, s.twin.txSeq ≤ 2 ^ 48 → 2 ^ 48 < s.twin.txSeq + l.length →
    (l.foldl ibPut s).twin.rxKey = [] := by
  induction l with
  | nil => exact fun s hle hlt => absurd hlt (Nat.not_lt.mpr hle)
  | cons f l ih =>
    intro s hle hover
    obtain hlt | hspent := Nat.lt_or_ge s.twin.txSeq (2 ^ 48)
    · have hseq := ibPut_txSeq f hlt
      rw [List.length_cons] at hover
      exact ih _ (by omega) (by omega)
    · obtain ⟨hkey, hseq⟩ := linkLost_frames s
      rw [List.foldl_cons, ibPut_spent f hspent]
      exact foldl_ibPut_spent l _ (hseq.symm ▸ hspent) hkey

theorem ibKeyed_over {s : State} (okm : Bytes) (h : 2 ^ 48 ≤ s.twin.kept.length) : (ibKeyed s okm).twin.rxKey = [] := by
  refine foldl_ibPut_over s.twin.kept _ (by decide : 1 ≤ 2 ^ 48) ?_
  change 2 ^ 48 < 1 + s.twin.kept.length
  omega

/-! ### What the key of the authority decides

Nothing here settles O54: each theorem names a value of the key, and neither value is the model's. -/

/-- A link that is down between paired devices, with kept frames. -/
def downKeeping (l : List IbFrame) : State := Tests.modTw (fun t => { t with link := 1, kept := l })

/-- A handshake that passes while 2^48 frames are kept spends the frame numbers on them and loses its keys. -/
theorem exec_ibLinkHandshake_overflows (hca : Config.deviceCa = Tests.tKey) {l : List IbFrame} (hl : 2 ^ 48 ≤ l.length) :
    ∃ s t u p rnd h, s.twin.pair.paired = true ∧ s.twin.down = false ∧ s.twin.link ≠ 3 ∧ drawState s 6 = .ok
      ∧ drawFrom s 6 112 = (rnd, t) ∧ h = ibHalf t p rnd
      ∧ u = emit t (.ibHandshake t.twin.side (rnd.take 16) h.1 h.2.1 (zeroCert t) (statementFor t 0 (h.2.2.2.2.take 32)))
      ∧ ibPeerOk u p h.2.2.2.2 = true
      ∧ ∀ v, exec (.ibLinkHandshake p) s = .next v → v.twin.rxKey = [] := by
  let s := downKeeping l
  let p := Tests.tPeer (drawFrom s 6 112).2 (drawFrom s 6 112).1
  have hdraw : drawState s 6 = .ok := (by decide : drawState Tests.sDown 6 = .ok)
  have hlink : s.twin.link ≠ 3 := (by decide : 1 ≠ 3)
  have hpeer := Tests.peerProves hca (drawFrom s 6 112).2
  refine ⟨s, _, _, p, _, _, rfl, rfl, hlink, hdraw, rfl, rfl, rfl, hpeer _ _ rfl rfl, fun v hv => ?_⟩
  have hkeys := exec_ibLinkHandshake_keys (s := s) (p := p) rfl rfl hlink hdraw rfl rfl rfl (hpeer _ _ rfl rfl)
  rw [hkeys] at hv
  cases hv
  rw [partnerKnown_rxKey]
  exact ibKeyed_over _ hl

/-- O54 fails under the test key: its clause of the handshake says that a receive key stands. -/
theorem not_ibveletRuns_of_testKey (hca : Config.deviceCa = Tests.tKey) : ¬ Obligations.IbveletRuns := by
  unfold Obligations.IbveletRuns
  rintro ⟨-, -, -, -, -, -, -, -, -, hshake, -⟩
  obtain ⟨s, t, u, p, rnd, h, hpaired, hup, hlink, hdraw, hrnd, hh, hu, hpeer, hlost⟩ :=
    exec_ibLinkHandshake_overflows hca (l := List.replicate (2 ^ 48) (Tests.tFrame 1)) List.length_replicate.ge
  obtain ⟨v, hv, -, hkey, -⟩ := hshake s t u p rnd h hpaired hup hlink hdraw hrnd hh hu hpeer
  exact hkey (hlost v hv)

/-- No chain leads to an authority whose key is no point. -/
theorem chainKey_of_noPoint (hca : Std.edPoint Config.deviceCa = none) (l : List Bytes) : chainKey l = none := by
  have hcert (c : Cert) : certUnder Config.deviceCa c = false := by
    simp only [certUnder, Config.edVerify, Std.edVerify, hca]
  unfold chainKey chainUnder
  cases readCerts l with
  | none => rfl
  | some cs =>
    dsimp only [Option.bind_some]
    split
    · rw [hcert, Bool.and_false]
      rfl
    · rfl

theorem ibPeerOk_of_noPoint (hca : Std.edPoint Config.deviceCa = none) (s : State) (p : IbPeer) (th : Bytes) :
    ibPeerOk s p th = false := by
  simp [ibPeerOk, chainKey_of_noPoint hca]

/-- O54 holds under a key that is no point: no handshake passes, and the other clauses are branches of their commands. -/
theorem ibveletRuns_of_noPoint (hca : Std.edPoint Config.deviceCa = none) : Obligations.IbveletRuns := by
  unfold Obligations.IbveletRuns
  refine ⟨fun s f => exec_ibveletFrame_inOrder, fun s f => exec_ibveletFrame_outOfOrder,
    fun s f => exec_ibveletFrame_forged, fun s n hlink => exec_ibRetransmitRequest_resends hlink n,
    fun s hlink hdue => congrArg _ (if_pos ⟨hlink, hdue⟩), fun s hlink => congrArg _ (if_pos hlink),
    fun s hlink hdue => congrArg _ (if_pos ⟨hlink, hdue⟩), fun s hlink => congrArg _ (if_neg hlink),
    fun s m v hm => congrArg _ (writeAs_admitted hm), ?handshake, fun s f => exec_ibveletFrame_moves⟩
  case handshake =>
    intro s t u p rnd h _ _ _ _ _ _ _ hpeer
    rw [ibPeerOk_of_noPoint hca] at hpeer
    cases hpeer

/-- A key that is no point: its number is not below the prime. -/
theorem edPoint_allOnes : Std.edPoint (List.replicate 32 0xFF) = none := by decide +kernel

end Sys2Proof.Proofs.IbveletLink
end
